-- ==== Sys2Proof/Word.lean ====
section
/-! DEFINITION. The word types of the VXA stack: register words, line data and the stored form of a line. -/

namespace Sys2Proof

/-- A register word: registers are 32 bits wide (R42). -/
abbrev Word := BitVec 32

/-- One byte (R9: byte 0 of a field holds its least significant bits). -/
abbrev Byte := BitVec 8

/-- One line of data: 64 bytes, byte k in bits [8k+7:8k] (R9). -/
abbrev Line := BitVec 512

/-- The 72-byte stored form of a line: bytes 0 to 63 the line, bytes 64 to 71 the check bytes (R323). -/
abbrev Stored := BitVec 576

end Sys2Proof
end

