-- ==== Sys2Proof/Types.lean ====
section
/-! DEFINITION. The operand types of the commands: the path of a register access, the rails, the PLLs, and the
observations that a command carries in from outside (lane measurements, sensor results, memory-check outcomes). -/

namespace Sys2Proof

/-- A Gulenlink port, 0 to 15 (R3). -/
abbrev PortId := Fin 16
/-- A channel, 0 to 31 (R3). -/
abbrev ChanId := Fin 32
/-- A channel engine, 0 to 31 (R3). -/
abbrev EngId := Fin 32
/-- A quadrant, 0 to 3 (R3). -/
abbrev QuadId := Fin 4

/-- The path of a register access (R49): a REG slot of a port, or the two-wire management port. -/
inductive Path where
  | link (p : PortId)
  | twp
deriving DecidableEq, Repr

/-- The external rails that the stack watches for brown-out (R75, R76). -/
inductive Rail where
  | vpp | vddc | vin | vio
deriving DecidableEq, Repr

/-- A PLL (R418): the link or TSV PLL of a quadrant, or the MGMT PLL. -/
inductive Pll where
  | link (q : QuadId)
  | tsv (q : QuadId)
  | mgmt
deriving DecidableEq, Repr

/-- The triggers of RECOVER that reach a port from outside the link layer (R166). -/
inductive RecoverTrigger where
  /-- a receive lane (physical number) loses bit lock -/
  | bitLockLoss (lane : Fin 21)
  /-- more than LNK_CFG.crc_burst flits failed CRC-64 within one marker period -/
  | crcBurst
  /-- the skew of a lane would leave the 64 UI deskew range (R169) -/
  | skewLimit
  /-- a lane-rate change under R147 -/
  | rateChange
  /-- the last blocks received, the latest last: four consecutive RECOVER blocks from the far end -/
  | farRecover (blks : List (BitVec 144))
deriving DecidableEq, Repr

/-- The direction of a port, seen from the stack (R146). -/
inductive Dir where
  | rx | tx
deriving DecidableEq, Repr

/-- Why a port enters PATTERN (R175): the commit of LNK_PRBS.enable, or the last blocks received, the latest last: four PATTERN
blocks from the far end. -/
inductive PatternCause where
  | commit
  | far (blks : List (BitVec 144))
deriving DecidableEq, Repr

/-- What the receiver measures on one lane (R177): residual equalizer error, eye height and eye width, in the units
of LNK_LANE_Qn. -/
structure LaneQ where
  lane : Fin 21
  residual : Byte
  height : Byte
  width : Byte
deriving DecidableEq, Repr

/-- What a port's receiver observes of its lanes beside a flit: whole-UI phase drifts (R169), lane quality (R177) and
the errors counted on an unused spare (R176). -/
structure LaneObs where
  drift : List (Fin 21 × Int) := []
  quality : List LaneQ := []
  spareErrors : Nat := 0
deriving DecidableEq, Repr

/-- A word of base-die SRAM that the scrubber or a use finds bad (R343), by store. -/
inductive SramWord where
  /-- the map entry of logical segment `lseg` of `handle` -/
  | mapEntry (handle lseg : Nat)
  /-- word `w` of the written-bitmap (64 physical segments) -/
  | written (w : Nat)
  /-- word `w` of the protection bitmap (64 physical segments) -/
  | prot (w : Nat)
  /-- the heat-counter word of 8 counters whose first physical segment is `8 * w` -/
  | heat (w : Nat)
  /-- one copy of the tag of remap entry `k` of channel `c`; `both` when the other copy fails as well -/
  | remapTag (c : ChanId) (k : Fin 16) (both : Bool)
  /-- a word of the sequence memory of engine `e` at byte address `addr` -/
  | engSeq (e : EngId) (addr : Nat)
  /-- a word of the data memory of engine `e` at byte address `addr`, met by context `ctx` -/
  | engData (e : EngId) (addr : Nat) (ctx : Fin 6)
  /-- a word of the replay buffer of port `p` -/
  | replay (p : PortId)
  /-- entry `k` of the completion collector's queue (R391) -/
  | collector (k : Byte)
deriving DecidableEq, Repr

/-- The result of one BIST element (R508): pass, coverage in 0.1 %, duration in 10 µs, response and the first failing
address. An element that is absent from a run's list did not run. -/
structure ElemResult where
  elem : Nat
  pass : Bool
  coverage : Nat
  duration : Nat
  resp : Word
  /-- first failing row (or word) and column line -/
  addr : Option (Nat × Nat)
deriving DecidableEq, Repr

/-- How the reads of one OTP word at the three references (R484) differ from the word's stored charge: the raw bits that
the normal, margin-high and margin-low reads return flipped. -/
structure OtpReads where
  word : Nat
  normal : BitVec 72
  high : BitVec 72
  low : BitVec 72
deriving DecidableEq, Repr

/-- An element that a calibration trims and that has no spare (R446): a regulator (VDDL of quadrant q: 2q; VDDS: 2q + 1), the
termination of a port, a sensor. -/
inductive Element where
  | reg (n : Nat)
  | term (port : Nat)
  | sensor (n : Nat)
deriving DecidableEq, Repr

/-- One attempt of a measured calibration step (R445): the step's result, `none` when it reached its timeout. -/
abbrev Attempt (α : Type) := Option α

/-- An error pattern met on reading a stored line: the physical segment, the line within it, and the bits flipped. -/
structure LineErr where
  pseg : Nat
  line : Nat
  err : Stored
deriving DecidableEq, Repr

/-- What ended a power state (R439). -/
inductive WakeCause where
  | request (p : PortId)
  | squelch (p : PortId)
  | knownEvent
  | sequencer
  | trip
  | fault
  | twoWire
deriving DecidableEq, Repr

/-- The outcome of one timed start step (R86): the channels that could not be calibrated or initialized in it, and
whether the ROM firmware's reference checks of step 6 passed. -/
structure StepObs where
  failedChannels : BitVec 32 := 0
  trap : Bool := false
  /-- OTP words whose power-up reads (R87) differ from the stored charge -/
  otp : List OtpReads := []
  /-- TSV margins that the calibration of step 13 found (R449), by 64 * channel + group -/
  margins : List (Nat × Byte) := []
  /-- the channels of step 13 that took spare TSVs, with how many (R445) -/
  spares : List (Nat × Nat) := []
  /-- the attempts of the band-gap check of step 6, in 0.1 mV of deviation, the regulators whose trim failed after its retries, and
  the attempts of the sensors' offset checks, in Q8.8 °C (R445) -/
  bandgap : List (Attempt (BitVec 16)) := [some 0]
  ivrFail : List Nat := []
  offsets : List (Nat × List (Attempt (BitVec 16))) := []
deriving DecidableEq, Repr

end Sys2Proof
end

