-- ==== Sys2Proof/Syntax.lean ====
section
/-! DEFINITION. The commands of the VXA stack: one constructor per row of the opcode table, in the table's order. The
spec gives a command no bit encoding (no row has fields), so the operands are what each row's rule says the event
carries: the path of a register write, the content of a received block, flit, record or descriptor, and the
observations (sensor results, error patterns, measured margins) that reach the stack from its surroundings. -/

namespace Sys2Proof

/-- A command to the stack or an event in it: one row of the opcode table. -/
inductive Instr where
  /-- PWROK_RISE (R77): PWROK rises after the rails are within tolerance and releases the power-on reset of the
      whole stack. -/
  | pwrokRise
  /-- PWROK_FALL (R78): PWROK falls, which holds the stack in power-on reset, clears the always-on domain and
      releases the open-drain outputs. -/
  | pwrokFall
  /-- RESET_N_FALL (R85): A RESET_N low pulse of at least 100 ns resets the stack, discards pending writes and
      ends any start or restart, while keeping the always-on domain. `lowNs` is the length of the low pulse in ns. -/
  | resetNFall (lowNs : Nat)
  /-- RESET_N_RISE (R86): A RESET_N rising edge samples the straps, clears STACK_TIME and begins the start
      sequence at step 1. `straps` are SA2 SA1 SA0. -/
  | resetNRise (straps : BitVec 3)
  /-- BROWN_OUT_RESET (R76): A rail below its brown-out threshold for more than 1 us causes a brown-out reset; a
      VIO brown-out also clears the always-on domain. The rail stayed below its brown-out threshold for `ns`. -/
  | brownOutReset (rail : Rail) (ns : Nat)
  /-- REFCLK_PROVEN (R89): Ten consecutive in-range monitor windows prove REFCLK, and the MGMT, STACK_TIME and PLL
      references switch from IOSC to REFCLK. -/
  | refclkProven
  /-- START_STEP_LIMIT_EXPIRY (R96): The time limit of a start step expires, and the start fails with that step's
      reason. -/
  | startStepLimitExpiry
  /-- READY_LIMIT_EXPIRY (R96): The 2 s READY limit of the always-on timer expires before READY, and the start
      fails with reason 6. -/
  | readyLimitExpiry
  /-- INTERNAL_RESTART (R97): The internal restart begins 1 ms after a failed start, as a new start that runs
      normal or chive according to the counter. -/
  | internalRestart
  /-- RESTART_COMMAND (R105): A write of 1 to SUP_RESTART.go clears the counter, releases ALERT_N and begins a
      normal start, optionally taking the staged image. SUP_RESTART is written with go 1 and the given use_staged. -/
  | restartCommand (path : Path) (useStaged : Bool)
  /-- IMAGE_LOAD_START (R128): A write of IDN_IMG_CTRL.start opens a STAGE or LIVE load for the target held in
      IDN_IMG_CTRL.target. -/
  | imageLoadStart (path : Path) (target : BitVec 2)
  /-- IMAGE_LOAD_ABORT (R131): A write of IDN_IMG_CTRL.abort discards the load, or returns TOO_LATE once a live
      group has committed. -/
  | imageLoadAbort (path : Path)
  /-- IMAGE_DATA_WRITE (R127): A data-window write appends four bytes to the load, claims the path on the first
      write, and starts the checks when header.length is reached. Register IDN_IMG_DATAk. -/
  | imageDataWrite (path : Path) (k : Fin 8) (data : Word)
  /-- IMAGE_VERIFY_DONE (R124): Authentication of a received image ends, and the stack records pass or the first
      failed check and acts on the load target. -/
  | imageVerifyDone
  /-- REGISTER_WRITE (R52): A register write with no behaviour of its own is checked for shape, owner, lock and
      range, then buffered until its block's commit or applied at once. -/
  | registerWrite (path : Path) (addr data : Word) (be : BitVec 4)
  /-- COUNTER_CLEAR_WRITE (R63): A write of zero clears an error, event or latency-miss counter and its sat flag
      at acceptance; any other value is refused with BAD_ARG. -/
  | counterClearWrite (path : Path) (addr data : Word)
  /-- IDN_REG_OWNER_WRITE (R50): A write of IDN_REG_OWNER reserves register write access to one path, or to both,
      and takes effect at once. -/
  | idnRegOwnerWrite (path : Path) (data : Word)
  /-- FORCED_COMMIT (R55): A write of 1 to IDN_COMMIT.now commits every pending write, block by block in ascending
      base address, within 2 us. -/
  | forcedCommit (path : Path)
  /-- PARITY_SWEEP (R57): The scan engine checks every RW register's parity every 100 us and raises FS_CFG_PARITY
      on a mismatch. The addresses whose live or pending value an upset has flipped since the last sweep. -/
  | paritySweep (live pend : List Word)
  /-- LINK_DETECT_SENSE (R156): Every 100 us in DETECT the stack senses far-end termination on each transmit lane
      and enters TRAIN when at least 10 lanes are terminated. `term` marks the transmit lanes with far-end
      termination; `calFail` when the termination calibration failed its last retry. -/
  | linkDetectSense (p : PortId) (term : BitVec 21) (calFail : Bool)
  /-- TRAIN_BLOCK_RECEIVED (R153): A received TRAIN block updates the transmitter preset or coefficients and
      carries the eq_done and lane_fail status. -/
  | trainBlockReceived (p : PortId) (blk : BitVec 144)
  /-- MARKER_BLOCK_RECEIVED (R158): Received MARKER blocks block-lock each lane, and the lanes are then deskewed
      and the port leaves LOCK. `arrival` is the arrival of the marker in UI; `farLocked` when the far direction
      is locked and deskewed. -/
  | markerBlockReceived (p : PortId) (blk : BitVec 144) (arrival : Nat) (farLocked : Bool)
  /-- EXCH_BLOCK_RECEIVED (R159): Received EXCH blocks set ack, record the far-end capabilities, and lead to the
      first marker flit and ACTIVE. `sent` counts the blocks the stack has sent with ack set. -/
  | exchBlockReceived (p : PortId) (blk : BitVec 144) (sent : Nat)
  /-- TRAINING_LIMIT_EXPIRY (R160): The limit of TRAIN, LOCK, EXCHANGE or RECOVER expires, and the port returns to
      DETECT with attempts incremented, disabling it at 3. -/
  | trainingLimitExpiry (p : PortId)
  /-- RECOVER_ENTRY (R166): A trigger such as a bit-lock loss, a CRC burst, a skew limit, a rate change or far-end
      RECOVER blocks puts an ACTIVE port into RECOVER. `calFail` when the termination calibration that RECOVER runs
      failed its last retry (R445). -/
  | recoverEntry (p : PortId) (trigger : RecoverTrigger) (calFail : Bool := false)
  /-- LNK_RETRAIN (R166): A write of 1 to LNK_CTRL.retrain puts an ACTIVE or IDLE port into RECOVER. -/
  | lnkRetrain (path : Path) (p : PortId)
  /-- LNK_REENABLE (R160): A write of 1 to LNK_CTRL.reenable clears the failed marks and attempts and moves a
      DISABLED port to DETECT. -/
  | lnkReenable (path : Path) (p : PortId)
  /-- IDLE_ENTRY_RECEIVED (R171): A received IDLE_ENTRY block freezes the receiver's state, and the port is in
      IDLE. -/
  | idleEntryReceived (p : PortId) (blk : BitVec 144)
  /-- FAST_EXIT_BURST (R172): A fast-exit burst on the lanes ends electrical idle and is followed at once by a
      marker flit. -/
  | fastExitBurst (p : PortId) (dir : Dir)
  /-- FAST_EXIT_FAIL (R173): No good marker flit within 64 flit times after a burst sets idle_exit_fail and puts
      the port into RECOVER. -/
  | fastExitFail (p : PortId)
  /-- PATTERN_ENTRY (R175): LNK_PRBS.enable commits as 1, or four PATTERN blocks arrive, and the port sends the
      PRBS pattern on all lanes and counts errors. `errors` are the bit errors each lane counts in PATTERN. -/
  | patternEntry (p : PortId) (cause : PatternCause) (errors : List (Fin 21 × Nat))
  /-- PATTERN_EXIT (R175): LNK_PRBS.enable commits as 0, and the port leaves PATTERN through RECOVER. -/
  | patternExit (p : PortId)
  /-- FLIT_RECEIVE (R205): A received flit is CRC-checked, its live fields are taken, acknowledgements and nak are
      processed, and an in-sequence flit's slots and credits are accepted. `wire` is the flit as the lanes carry
      it, scrambled, in flit byte order. -/
  | flitReceive (p : PortId) (wire : BitVec 2880) (obs : LaneObs)
  /-- FLIT_TRANSMIT (R205): Once per flit time the transmitter sends a replayed, new sequenced or null flit with
      the current ack_seq and live flags. -/
  | flitTransmit (p : PortId)
  /-- NAK_TIMER_EXPIRY (R206): The nak timer reaches 0, nak is sent again, and after 4 naks the port enters
      RECOVER. -/
  | nakTimerExpiry (p : PortId)
  /-- REPLAY_TIMER_EXPIRY (R206): The oldest unacknowledged flit waits 512 flit times and is replayed; a second
      timeout without progress enters RECOVER. -/
  | replayTimerExpiry (p : PortId)
  /-- READ (R28): A READ request is checked, mapped and queued in the owning channel, or served as zeros from an
      unwritten segment, or refused. -/
  | read (p : PortId) (entry : BitVec 64)
  /-- WRITE (R32): A WRITE request is checked, mapped and waits for its data lines, then enters the channel write
      queue and completes. -/
  | write (p : PortId) (entry : BitVec 64)
  /-- WRITE_MASKED (R34): A WRITE_MASKED request reads the old line, merges the masked bytes and writes the
      result, completing after the merge. -/
  | writeMasked (p : PortId) (entry mask : BitVec 64)
  /-- FENCE (R210): A FENCE waits for the earlier items of its handle or port scope and then sends its CMPL
      record. -/
  | fence (p : PortId) (entry : BitVec 64)
  /-- UNDEFINED_OPCODE_REQUEST (R186): A request with opcode 0x5 to 0xF completes with BAD_ARG in a CMPL record of
      kind OTHER. -/
  | undefinedOpcodeRequest (p : PortId) (entry : BitVec 64)
  /-- WRITE_DATA_LINE (R189): A DATA slot carrying a write line arrives and is matched to its write header. -/
  | writeDataLine (p : PortId) (tag : BitVec 10) (line : BitVec 3) (poison : Bool) (data : Line)
  /-- REGISTER_RECORD (R193): A REG-slot register record is executed in arrival order and answered with a READ_RSP
      or WRITE_RSP. -/
  | registerRecord (p : PortId) (rec : BitVec 128)
  /-- SEGMENT_FILL_DONE (R295): The fill burst ends, and the writes and accesses queued behind it proceed. -/
  | segmentFillDone (c : ChanId) (raws : List Bool := [])
  /-- SCHEDULER_CYCLE (R297): In each command-clock cycle the scheduler picks and issues at most one DRAM command.
      `raw` is the entropy source's bit of this cycle's draw. -/
  | schedulerCycle (c : ChanId) (raw : Bool)
  /-- DRAM_READ_RETURN (R328): A line returns from DRAM, is decoded and acted on according to the decoding
      outcome. `err` are the bits that the path or the cells have flipped. -/
  | dramReadReturn (c : ChanId) (err : Stored)
  /-- BANK_TIMER_EXPIRY (R303): A bank-machine timer expires and delivers event 31 to the bank's table. -/
  | bankTimerExpiry (c : ChanId) (bank : Fin 64)
  /-- REFRESH_TICK (R308): At a refresh tick one bank group falls due, the channel commits pending writes and
      adopts new refresh and throttle settings. -/
  | refreshTick (c : ChanId)
  /-- PER_BANK_REFRESH_DUE (R310): A per-bank refresh's turn within the tick arrives, and it is issued or
      postponed. -/
  | perBankRefreshDue (c : ChanId) (bank : Fin 64)
  /-- FORCED_REFRESH (R311): A postponed refresh reaches its 8-tick deadline, and the bank is reserved and
      refreshed before any access. -/
  | forcedRefresh (c : ChanId) (bank : Fin 64)
  /-- POWER_DOWN_ENTRY (R318): After the idle time with empty queues the channel closes its rows and enters DRAM
      power-down. The entropy bits of the draws of R316. -/
  | powerDownEntry (c : ChanId) (raws : List Bool)
  /-- POWER_DOWN_EXIT (R319): An access, a due refresh or a neighbour refresh wakes the channel from power-down
      after tXP. -/
  | powerDownExit (c : ChanId)
  /-- THERMAL_SAMPLE (R37): Each 1 ms sample converts the sensors, forms zone temperatures, judges the thresholds
      and updates the throttle levels, refresh points and COOL ranking. The sensors that delivered a result, with
      their Q8.8 values. -/
  | thermalSample (results : List (Nat × BitVec 16))
  /-- THM_TRIP_ACK (R413): A write of 1 to THM_TRIP_ACK.ack while resume_ok is set resumes the stack from the
      thermal safe state. -/
  | thmTripAck (path : Path) (data : Word)
  /-- THM_SUSPECT_CLR (R404): A write to THM_SUSPECT_CLRk clears sensor suspect marks at step 3 of the next
      sample. -/
  | thmSuspectClr (path : Path) (k : Fin 6) (data : Word)
  /-- THM_LIMIT_WRITE (R406): A write to a threshold register lowers a threshold or raises a hysteresis within the
      image limits, committing at the next sample. -/
  | thmLimitWrite (path : Path) (k : Fin 6) (data : Word)
  /-- CLASS_EPOCH (R284): Each 10 us class epoch commits SAV and SRL writes and live sections, starts Sorrel
      commands, recomputes budgets and grants, and sends the Savory events. -/
  | classEpoch
  /-- HEAT_DECAY_EPOCH (R243): Every 10 ms the heat counters halve, channel heat is re-formed and balance,
      compaction, PACK gathering and evacuation retries are ordered. -/
  | heatDecayEpoch
  /-- CREATE (R228): CREATE checks, admits the reservation, places the new segments and makes the lowest FREE
      handle ACTIVE. -/
  | create (path : Path)
  /-- GROW (R228): GROW places new unwritten segments at the end of a handle. -/
  | grow (path : Path)
  /-- SHRINK (R228): SHRINK cuts off lines beyond the new size, drains and releases the tail segments. -/
  | shrink (path : Path)
  /-- DESTROY (R228): DESTROY makes the handle DRAINING, drains and releases all its segments and frees the
      number. -/
  | destroy (path : Path)
  /-- QUERY (R228): QUERY loads the result registers with the handle's size, attributes, state and written count. -/
  | query (path : Path)
  /-- HND_CMD_INVALID (R229): A HND_CMD go with command code 0, 6 or 7 finishes with BAD_ARG at once. -/
  | hndCmdInvalid (path : Path) (op : BitVec 3)
  /-- HND_COMMAND_FINISH (R230): A finished handle command loads the results, increments cmd_seq, clears go and
      sends event 0x0801 on the issuing port. -/
  | hndCommandFinish
  /-- HND_DRAIN_END (R232): The last drained request, descriptor or migration of a SHRINK or DESTROY completes,
      and the release of the affected segments begins. -/
  | hndDrainEnd
  /-- SEG_QUERY (R264): SEG_QUERY loads SRL_RES_ENTRY with the map entry of a logical segment. -/
  | segQuery
  /-- PHYS_QUERY (R262): PHYS_QUERY reverse-looks-up a physical segment and loads its owner and kind. -/
  | physQuery
  /-- MIGRATE (R264): MIGRATE queues a host-requested migration at priority 2. -/
  | migrate
  /-- ABORT (R258): ABORT removes a queued order or aborts a migration before COMMIT, or returns TOO_LATE after
      it. -/
  | abort
  /-- RETIRE (R259): RETIRE orders a repair evacuation of a physical segment, or retires a free segment at once. -/
  | retire
  /-- SRL_CMD_INVALID (R263): A Sorrel go with code 0, 6 or 7, while busy, or before READY finishes at once with
      BAD_ARG or ACCESS_ERROR. -/
  | srlCmdInvalid (op : BitVec 3)
  /-- MIGRATION_START (R249): A queued order that can start begins, and RESERVE chooses and takes its destination. -/
  | migrationStart
  /-- COPY_DONE (R252): The copy has written every line, and the COMMIT hold begins. The migration whose source is
      physical segment `src`, and the error patterns its reads met. -/
  | copyDone (src : Nat) (errs : List LineErr)
  /-- COMMIT (R256): The COMMIT handshake is accepted, the entry takes the destination, migrating clears and the
      heat counter moves. -/
  | commit (src : Nat)
  /-- RELEASE (R252): The last access at the source completes, and the source segment is freed or retired. -/
  | release (src : Nat)
  /-- DILL_READ (R331): At its interval Dill reads the next written line of its channel and acts on the decoding
      outcome. -/
  | dillRead (c : ChanId) (err : Stored)
  /-- SCRUB_VERIFY (R332): The verify read after a scrub write ends the scrub when clean, or allocates a remap
      entry when corrected again. -/
  | scrubVerify (c : ChanId) (err : Stored)
  /-- SOFT_ROW_REPAIR_DONE (R338): The switch handshake of a soft row repair is accepted, the row moves to the
      spare, the remap entries are freed and event 0x0C03 is sent. -/
  | softRowRepairDone (c : ChanId) (errs : List LineErr := [])
  /-- SRAM_SCRUB (R343): The hardware scrubber reads base-die SRAM words, correcting single-bit errors and
      handling uncorrectable words by store. -/
  | sramScrub (word : SramWord) (uncorrectable : Bool)
  /-- BITMAP_REBUILD_DONE (R344): The rebuild of an uncorrectable written-bitmap word ends, and the waiting
      accesses proceed. -/
  | bitmapRebuildDone (w : Nat)
  /-- PROT_BITMAP_REBUILD_DONE (R346): The rebuild of a protection-bitmap word ends, and Dill may walk those
      segments again. -/
  | protBitmapRebuildDone (w : Nat)
  /-- OPERATION_DESCRIPTOR (R352): An OPD-slot descriptor is checked and enters its handle's operation queue, or
      completes with an error. -/
  | operationDescriptor (p : PortId) (desc : BitVec 512)
  /-- DESCRIPTOR_START (R365): A queued descriptor starts in queue order, and Sorrel splits it into pieces
      dispatched to owning engines. -/
  | descriptorStart (handle : Nat)
  /-- PIECE_END (R362): A piece ends, and its partial result travels to the lead engine. -/
  | pieceEnd (desc : Nat) (piece : Nat) (errs : List LineErr)
  /-- LEAD_FOLD_DONE (R362): The lead engine has folded all partials, sends any DATA slot and hands the completion
      to the collector. -/
  | leadFoldDone (desc : Nat)
  /-- RESUME (R372): RESUME restarts every stopped descriptor and lets the queue run. -/
  | resume (path : Path)
  /-- CANCEL (R373): CANCEL completes the stopped descriptors with HALTED_UE and lets the queue run. -/
  | cancel (path : Path)
  /-- CANCEL_ALL (R373): CANCEL_ALL also completes every QUEUED descriptor with HALTED_UE. -/
  | cancelAll (path : Path)
  /-- OPQ_QUERY (R377): The queue QUERY command loads SUP_OPQ_STAT with the queue's state. -/
  | opqQuery (path : Path)
  /-- OPQ_CMD_INVALID (R377): A queue command code of 0, 5, 6 or 7 finishes with BAD_ARG at once. -/
  | opqCmdInvalid (path : Path) (op : BitVec 3)
  /-- COMPLETION_ACCEPT (R391): The collector accepts a completion, gives it a sequence number and time_lo and
      queues it. -/
  | completionAccept (desc : Nat)
  /-- COMPLETION_SEND (R393): A collector record leaves in seq order to its port when pool 3 credits are
      available. -/
  | completionSend
  /-- ENGINE_EVENT (R382): An engine takes a context event and runs one table action under the rules of its table. -/
  | engineEvent (e : EngId) (ctx : Fin 6) (ev : Fin 32)
  /-- CONTEXT_WATCHDOG_EXPIRY (R385): A context watchdog reaches ENG_WDOG.limit and the engine traps with cause
      WATCHDOG. -/
  | contextWatchdogExpiry (e : EngId) (ctx : Fin 6)
  /-- ENGINE_RELOAD_DONE (R388): The reload of an engine ends, and the stopped work restarts. -/
  | engineReloadDone (e : EngId)
  /-- ENG_RELOAD (R389): A write of 1 to ENG_CTRL.reload reloads a HALTED engine. -/
  | engReload (path : Path) (e : EngId)
  /-- ENG_HALT_COMMIT (R396): ENG_CTRL.halt commits, and the engine holds or resumes its contexts at action
      boundaries. -/
  | engHaltCommit (e : EngId)
  /-- REFCLK_LOSS (R421): A monitor window out of range moves domains to IOSC, raises the non-maskable event
      0x0202 and puts the ports into RECOVER. -/
  | refclkLoss (count : BitVec 16)
  /-- PLL_LOCK_LOSS (R423): A PLL loses lock, raises FS_CLK_PLL with event 0x0204, and relocks. -/
  | pllLockLoss (pll : Pll)
  /-- OP_STEP (R426): A committed CLK_OP.target runs a sequencer step that changes VDDL, the TSV clocks and the
      lane rates in order. -/
  | opStep
  /-- RATIO_MODE_CHANGE (R429): A committed CLK_MODE.ratio runs a step into or out of VXP ratio mode. -/
  | ratioModeChange
  /-- CLK_SRC_COMMIT (R420): A clock source select commits at a sequencer step, or is dropped with
      CLK_ERR.not_ready. -/
  | clkSrcCommit
  /-- CLKEN_RUN_COMMIT (R433): A clock-enable commit gates units whose handshakes are idle, or refuses the gate
      after 10 us. The units whose handshakes are not idle within 10 µs. -/
  | clkenRunCommit (busy : BitVec 15)
  /-- POWER_STATE_ENTRY (R436): An idle stack enters the deepest allowed power state that fits its quiet time and
      next known event. The units whose gate the entry would refuse. -/
  | powerStateEntry (busy : BitVec 15)
  /-- POWER_STATE_EXIT (R439): A request, a known event, a wake write, a step, a trip or a fault ends the power
      state and returns the stack to P0. `ivrFail` are the regulators whose trim failed its last retry in an exit
      from P4 (R445). -/
  | powerStateExit (cause : WakeCause) (ivrFail : List Nat := [])
  /-- PWR_WAKE (R439): A write of 1 to PWR_CTRL.wake returns the stack to P0. -/
  | pwrWake (path : Path)
  /-- BANDGAP_CHECK (R445): Every 100 ms the band-gap cross-check runs and raises FS_CAL_BANDGAP after failed
      retries. The attempts of the step: deviation in 0.1 mV. -/
  | bandgapCheck (devs : List (Attempt (BitVec 16)))
  /-- SENSOR_OFFSET_CHECK (R445): Every 1 s each sensor's long-term offset is checked, and a drifting sensor is
      degraded. The long-term offset of each sensor, Q8.8 °C. -/
  | sensorOffsetCheck (drifts : List (Nat × BitVec 16)) (late : List Nat := [])
  /-- TSV_CENTRING_STEP (R447): One symbol group's TSV strobe is recentred in service, or a spare is substituted.
      The attempts of the step: the margin reached. -/
  | tsvCentringStep (c : ChanId) (group : Fin 36) (tries : List (Attempt Byte))
  /-- AGING_MEASURE (R450): Once per second each quadrant's aging oscillators are measured and event 0x0F02 is
      sent at the warning level. -/
  | agingMeasure (s0 s1 s2 s3 : Nat)
  /-- CAL_TSV_RECAL (R447): CAL_CMD op 1 recalibrates every TSV group of the target channel. -/
  | calTsvRecal (path : Path) (target : BitVec 5) (tries : List (Fin 36 × List (Attempt Byte)))
  /-- CAL_BANDGAP_CHECK (R451): CAL_CMD op 2 runs the band-gap and regulator check. -/
  | calBandgapCheck (path : Path) (devs : List (Attempt (BitVec 16))) (ivrFail : List Nat)
  /-- CAL_SENSOR_CHECK (R451): CAL_CMD op 3 runs the offset check of every sensor. -/
  | calSensorCheck (path : Path) (drifts : List (Nat × BitVec 16)) (late : List Nat := [])
  /-- CAL_CMD_INVALID (R451): A CAL_CMD go with op 0 finishes with BAD_ARG. -/
  | calCmdInvalid (path : Path) (target : BitVec 5)
  /-- FAULT_RAISE (R456): A fault source is raised, latched or marked overflow, set pending, and takes the
      reaction in force. -/
  | faultRaise (source unit : Byte) (detail : Word)
  /-- ESCALATION_TIMER_EXPIRY (R464): A pending TIMED source's timer expires, escalating it to ISOLATE, or on the
      second expiry to the safe state. -/
  | escalationTimerExpiry (source : Byte)
  /-- SAGE_CLEAR (R458): A SAGE_CLEAR go clears the named source or all sources, stopping timers and emptying the
      latch. -/
  | sageClear (path : Path) (all : Bool) (source : Byte)
  /-- SAGE_INJECT (R478): A SAGE_INJECT go raises the named source with detail 0xFFFF_FFFF and unit 0xFF. -/
  | sageInject (path : Path) (source : Byte)
  /-- SAGE_SELF_FAULT (R471): A parity mismatch in Sage's own stores sets self_fault and enters the safe state at
      once. -/
  | sageSelfFault
  /-- STALL_WATCHDOG_EXPIRY (R26): A fabric handshake stalls for the stall limit and raises FS_FAB_STALL. -/
  | stallWatchdogExpiry (sender receiver : Byte)
  /-- SUPERVISOR_WATCHDOG_EXPIRY (R472): The supervisor watchdog expires, failing a start with reason 6 or raising
      FS_SUP_WDOG. -/
  | supervisorWatchdogExpiry (pc : Word)
  /-- LOCKSTEP_MISMATCH (R390): A lockstep mismatch or uncorrectable supervisor memory word raises its SAFE
      source. -/
  | lockstepMismatch (memUe : Bool) (pc : Word)
  /-- OTP_READ (R484): The OTP READ command reads a word at three references and loads the data and read detail. -/
  | otpRead (path : Path) (reads : OtpReads)
  /-- OTP_PROGRAM (R489): PROGRAM checks the token and programs one word with pulses and verifies. -/
  | otpProgram (path : Path)
  /-- OTP_LOCK (R498): LOCK programs a region's lock word, permanently locking the region. -/
  | otpLock (path : Path)
  /-- OTP_LIFECYCLE (R500): LIFECYCLE programs blank life-cycle words toward the target state. -/
  | otpLifecycle (path : Path)
  /-- OTP_SCAN (R485): SCAN reads every word at three references and flags MARGINAL words. -/
  | otpScan (path : Path) (reads : List OtpReads)
  /-- OTP_CMD_INVALID (R491): An OTP command with op 0, 6 or 7 finishes with BAD_ARG. -/
  | otpCmdInvalid (path : Path) (op : BitVec 3)
  /-- OTP_ABORT (R492): A write of OTP_CMD.abort ends a running command, returns TOO_LATE, or empties the token
      window when idle. -/
  | otpAbort (path : Path)
  /-- OTP_TOKEN_WRITE (R486): A token-window write appends four bytes and claims the token for its path. -/
  | otpTokenWrite (path : Path) (k : Fin 8) (data : Word)
  /-- OTP_PULSE_DONE (R489): A program pulse ends and its verify decides whether to pulse again or finish. Of the
      bits pulsed, those still 0 and those not yet 1 at margin-high; and bits meant to be 0 that now read 1. -/
  | otpPulseDone (missed weak spurious : BitVec 72) (faint : BitVec 72 := 0)
  /-- OTP_SLOCK_WRITE (R497): The first write to a sticky lock register after reset stores it and locks or leaves
      the region. -/
  | otpSlockWrite (path : Path) (n : Fin 6) (data : Word)
  /-- REF_CHECK (R503): The REF_CHECK test checks the band-gap pair, regulator references and sensor current
      sources. -/
  | refCheck (path : Path)
  /-- LINK_LOOPBACK (R503): The LINK_LOOPBACK test loops PRBS31 near-end through a port's unused spares or all
      lanes. -/
  | linkLoopback (path : Path)
  /-- TSV_SPARE (R503): The TSV_SPARE test checks a channel's unused spare TSVs. -/
  | tsvSpare (path : Path)
  /-- ECC_PATH (R503): The ECC_PATH test passes fixed codewords through a channel's encoder and decoder. -/
  | eccPath (path : Path)
  /-- DRAM_MARCH (R503): The DRAM_MARCH test holds a channel and runs March C- over every bank. -/
  | dramMarch (path : Path)
  /-- TSV_FULL (R503): The TSV_FULL test holds a channel and checks every TSV of its path. -/
  | tsvFull (path : Path)
  /-- ENG_SRAM (R503): The ENG_SRAM test runs March C- over a held engine's memories. -/
  | engSram (path : Path)
  /-- REPLAY_SRAM (R503): The REPLAY_SRAM test runs March C- over a disabled port's replay buffer. -/
  | replaySram (path : Path)
  /-- BST_INVALID_TEST (R504): A BST_CMD go with a test not in the table finishes with BAD_ARG and cause TEST. -/
  | bstInvalidTest (path : Path)
  /-- BST_ABORT (R511): A write of BST_CMD.abort ends the run at the end of the element in progress, or returns
      TOO_LATE. `lastDone` when the run's last element had already completed. -/
  | bstAbort (path : Path) (lastDone : Bool)
  /-- BST_RUN_END (R510): A run ends, restores its target, reports its cause and sends event 0x1001. -/
  | bstRunEnd (results : List ElemResult) (us : Nat) (calFail : Bool) (margins : List (Nat × Byte) := [])
      (spares : Option Nat := none)
  /-- TWP_START (R517): A START or repeated START with the stack's address begins a two-wire transaction. `part` when it
      cuts off an unfinished pointer or word, `mid` when it comes in the middle of a byte. -/
  | twpStart (addrByte : Byte) (part mid : Bool)
  /-- TWP_STOP (R520): A STOP ends the transaction, loads err_seen and commits pending TWP writes. `part` when it cuts off
      an unfinished pointer or word. -/
  | twpStop (part : Bool)
  /-- TWP_POINTER_SET (R518): The fourth acknowledged pointer byte sets the address pointer. -/
  | twpPointerSet (ptr : Word) (pec : Byte)
  /-- TWP_WORD_WRITE (R518): A complete four-byte data word is handed to the arbiter as one register write and the
      pointer advances. -/
  | twpWordWrite (data : Word) (pec : Byte)
  /-- TWP_WORD_READ (R519): A word is fetched as a full-word read when its first byte is due, and the pointer
      advances. -/
  | twpWordRead
  /-- TWP_STRETCH_LIMIT (R524): A stretch reaches 2 ms, SCL is released and the remaining bytes are 0xFF or
      NACKed. -/
  | twpStretchLimit
  /-- TWP_BUS_TIMEOUT (R525): SCL or SDA held low over 30 ms resets the target state machine and raises
      FS_TWP_TIMEOUT. -/
  | twpBusTimeout (sda part : Bool)
  /-- TWP_PROTOCOL_ERROR (R526): A repeated START where an acknowledge was due aborts the transaction and sets
      proto_err. `addrByte` follows the repeated START; `part` when it cuts off an unfinished pointer or word. -/
  | twpProtocolError (addrByte : Byte) (part : Bool)
  /-- START_STEP_DONE (R86): A timed start step (fuse delivery, SRAM fill, core-die power-up, TSV calibration,
      DRAM initialization and the like) completes and the start moves to its next step, or to READY or CHIVE. -/
  | startStepDone (obs : StepObs)
  /-- RX_LANE_EQUALIZED (R157): A receive lane acquires bit lock and reaches the eye limits, sets eq_done, and the
      port may leave TRAIN or finish a short TRAIN of RECOVER. -/
  | rxLaneEqualized (p : PortId) (q : LaneQ)
  /-- EQ_LANE_TIMEOUT (R157): A receive lane not equalized within 80 % of the TRAIN limit is marked failed and
      sends lane_fail, and the port may go to LOCK or back to DETECT. -/
  | eqLaneTimeout (p : PortId) (lane : Fin 21)
  /-- LANE_CHECK_END (R167): The RECOVER lane check ends after 2^20 UI of PRBS31, lanes over the error limit are
      marked failed, and RECOVER moves on to LOCK. -/
  | laneCheckEnd (p : PortId) (errors : List (Fin 21 × Nat))
  /-- PLL_LOCK_ACQUIRED (R423): A link, TSV or MGMT PLL achieves lock, its CLK_READY flag sets, and its ports
      enter RECOVER or its channels resume or leave self-refresh. -/
  | pllLockAcquired (pll : Pll)
  /-- SEQUENCER_STEP_END (R426): A running sequencer step finishes its VDDL ramp and TSV hops, updates
      CLK_OP.current, sends event 0x0201 and lets the next queued step start. `ivrFail` are the regulators whose
      trim failed its last retry in an operating-point step (R445). -/
  | sequencerStepEnd (ivrFail : List Nat := [])
  /-- REFCLK_MONITOR_WINDOW (R421): A 10 us REFCLK monitor window ends in range, updating CLK_MON and CAL_IOSC and
      counting toward the proof of R89. -/
  | refclkMonitorWindow (count : BitVec 16) (ioscDev : BitVec 16)
  /-- OTP_CHECKS_DONE (R489): The supervisor finishes verifying the token's key and signature about 6 ms after the
      command starts, the nonce changes and the first program pulse begins, or the command ends on a failed check. -/
  | otpChecksDone
deriving DecidableEq, Repr

end Sys2Proof
end

