-- ==== Sys2Proof/Decode.lean ====
section
/-! DEFINITION. The command that a table word spells. The spec gives a command no bit encoding (no row of the opcode
table has bits), so no word spells one. -/

namespace Sys2Proof

/-- The command that the low `nbits` bits of `w` spell by the opcode table: the table gives no row bits, so none. -/
def decodeTableWord (_nbits _w : Nat) : Option Instr := none

end Sys2Proof
end

