-- ==== Sys2Proof/Config.lean ====
section
/-! DEFINITION. What a part or its image fixes and the spec does not: the identity of the part, and the free values.
Every free value is a constant without a body: nothing can be proved of it but what holds for all its values. -/

namespace Sys2Proof

/-- Height code of the part (R2): 0 to 3 for 4, 8, 12 and 16 core dies. -/
opaque Config.heightCode : Fin 4

/-- The part's speed grade (R2): true for grade B. -/
opaque Config.gradeB : Bool

/-- IDN_ID.base_rev, per part (R64). -/
opaque Config.baseRev : BitVec 4

/-- IDN_ID.core_rev, per part (R64). -/
opaque Config.coreRev : BitVec 4

/-- Core dies of the part (R2, R4). -/
def Config.height : Nat := 4 * (Config.heightCode.val + 1)

/-- A value the spec leaves open, one for each draw: `State.fresh` counts the draws. -/
opaque Config.freeWord : Nat → Word

/-- What a receive lane that is not equalized asks of the far transmitter after a measurement (R157): a preset and two
coefficient requests, which the spec leaves to the receiver. Of the port, the lane, the time and the residual error, eye height
and eye width. -/
opaque Config.eqAsk (port lane time : Nat) (residual height width : Byte) : Nat × Nat × Nat

/-- The seed of a lane's pattern generator (R174): seeded from the lane number; the spec gives no value. -/
opaque Config.prbsSeed (pattern lane : Nat) : BitVec 31

/-- The SEC-DED check byte of 64 data bits (R480): the spec names the code and gives no matrix. -/
opaque Config.secdedCheck : BitVec 64 → BitVec 8

/-- Whether guard `g` of a bank-machine table holds (R137 gives guards of bank machines no meaning but 0 = always):
of the channel, the bank and the STACK_TIME at which it is evaluated. -/
opaque Config.bankGuard (g chan bank time : Nat) : Bool

/-- Whether guard `g` of the engine guard library (R384) holds for a context: of the window and the constant block, as bytes, the
context's counter of lines remaining, and the time. -/
opaque Config.engGuard (g : Nat) (window consts : List Byte) (left time : Nat) : Bool

/-- What action `a` of the engine action library (R384) leaves in the context window, of the same: the spec names the categories of
the library and not the actions. -/
opaque Config.engAction (a : Nat) (window consts : List Byte) (left time : Nat) : List Byte

/-- The data-memory byte address that action `a` accesses, when it accesses data memory (R382). -/
opaque Config.engAccess (a : Nat) (window : List Byte) : Option Nat

/-- The state table with `table_id` of an ENGINE_SEQ section body, as the words of R137: the spec gives the section's
contents (R379, R380) and not its byte layout. -/
opaque Config.engTable (body : List Byte) (tableId : Nat) : Option (List Word)

/-- The table_id that the task directory of an ENGINE_SEQ body gives to built-in task `t` (R380). -/
opaque Config.engDirectory (body : List Byte) (t : Nat) : Option Nat

/-- The constant block of an ENGINE_SEQ body (R379). -/
opaque Config.engConstants (body : List Byte) : List Byte

/-- What the boot firmware of a SUP_FW section writes to the sticky lock of a region at step 10 (R497): the image directs it, and
the spec gives no layout of the firmware. -/
opaque Config.fwSlock (firmware : List Byte) (region : Nat) : Option Bool

/-- The bank-machine table of the ROM image, as the words of R137: the spec gives its use and not its entries. -/
opaque Config.romBankTable : List Word

/-- The ENGINE_SEQ body of the ROM image (R126): it holds no operation kernels. -/
opaque Config.romEngineSeq : List Byte

/-- The manufacturing key hash in base-die ROM (R487). -/
opaque Config.mfgKeyHash : List Byte

/-- Version word of the ROM image (R126). -/
opaque Config.romVersion : Word

/-- Build identifier of the ROM image. -/
opaque Config.romBuild : Word

/-- The neighbour set of a sensor in the ROM image (R41): the spec gives the thresholds of that image's SENSORS and not its
sets. -/
opaque Config.romNeighbours (sensor : Nat) : List Nat

/-- Version word of the ROM firmware (R397). -/
opaque Config.romFwVersion : Word

/-- The manufacturing words of the OTP as the part leaves the factory: the raw 72 bits of each word (R479). -/
opaque Config.otpFactory : Nat → BitVec 72

/-- The piece value that an owner-defined sequence computes (R375): of the ENGINE_SEQ body, the table that its format entry
names, the arguments that the entry's maps deliver, the descriptor, whose sub and fast pass to it, the piece's logical segment
and its lines. The spec gives the action library by category only (R384). -/
opaque Config.ownerPiece (seq : List Byte) (table : Nat) (args : List Byte) (desc : BitVec 512) (lseg : Nat) (lines : List Line) :
    BitVec 64

/-- The lines that an owner-defined sequence writes (R375), of the same. -/
opaque Config.ownerWrites (seq : List Byte) (table : Nat) (args : List Byte) (desc : BitVec 512) (lseg : Nat) (lines : List Line) :
    List (Nat × Line)

/-- The elements without a spare whose factory trims stand in a word of FACTORY (R446): the trim layout is Xawald's own (R480). -/
opaque Config.trimsOf : Nat → List Element

/-- The data taken from OTP words 0x000 to 0x002 when their normal read is uncorrectable: R483 gives no value. -/
opaque Config.otpUe : Nat → BitVec 64

/-- The exit latency, in ns, that a wake budget gives for power state Pn (R120): of the slew limit, the channels per window, the
spacing of relocks and the channels of P2. The spec gives figures for the default budget only. -/
opaque Config.wakeExit (n slew channels gap doze : Nat) : Nat

end Sys2Proof
end

