-- ==== Sys2Proof/Machine/Parts.lean ====
section
/-! DEFINITION. The state of each unit of the stack, as plain data. Sparse stores are lists of (key, value) pairs with
rising keys that leave out every key whose value is the store's default. -/

namespace Sys2Proof.Machine

open Sys2Proof

/-- A sparse store: keys rising, no key at its default value. -/
abbrev SMap (α : Type) := List (Nat × α)

/-- The status codes of R11. -/
inductive Status where
  | ok | poison | poisonKept | channelOffline | haltedUe | tooLate | writeIgnored | overcommit | noSpace | noHandle
  | badArg | accessError
deriving DecidableEq, Repr

/-! ### Registers (chapter 2) -/

/-- One pending write of a commit buffer (R52): its value and whether its parity is still right (R57). -/
structure PendWr where
  addr : Nat
  value : Word
  good : Bool := true
  /-- accepted while a forced commit was in progress, of which it is no part (R55) -/
  after : Bool := false
  /-- STACK_TIME at which it was accepted (R53) -/
  since : Nat := 0
deriving DecidableEq, Repr

/-- The register file: RW bits that differ from reset, the commit buffers of every block, the counters of R62 and R63,
the event bits of RC fields, and the registers whose parity an upset broke (R57). -/
structure Regs where
  live : SMap Word := []
  pend : List PendWr := []
  ctr : SMap Word := []
  rc : SMap Word := [(0x20, 2)]
  badPar : List Nat := []
  /-- base addresses of the blocks that a forced commit in progress has still to commit, ascending (R55) -/
  forced : List Nat := []
  /-- IDN_REG_OWNER.owner -/
  owner : BitVec 2 := 0
  /-- IDN_REG_ERR_ADDR and whether it is armed (R65) -/
  errAddr : Word := 0
  errArmed : Bool := true
deriving DecidableEq, Repr

/-! ### Start and always-on domain (chapters 3 and 4) -/

structure Start where
  pwrok : Bool := false
  resetN : Bool := false
  /-- held in reset by a brown-out of VPP, VDDC or VIN until PWROK falls and rises (R76) -/
  brown : Bool := false
  /-- sampled straps SA2 SA1 SA0 -/
  straps : BitVec 3 := 0
  /-- step of R86 that runs; 0 while the stack is held in reset -/
  step : Nat := 0
  /-- a chive start (R101) -/
  chive : Bool := false
  /-- READY or CHIVE reached, and when -/
  done : Bool := false
  doneAt : Nat := 0
  /-- SUP_START.stage -/
  stage : BitVec 4 := 0
  /-- the start has failed and the internal restart waits (R97) -/
  failed : Bool := false
  /-- always-on: IDN_BOOT_REASON and SUP_START.last_fail_stage -/
  attempts : BitVec 2 := 0
  reason : BitVec 4 := 0
  lastFail : BitVec 4 := 0
  /-- the restart in progress takes the staged image (R105) -/
  useStaged : Bool := false
  /-- step 15 waits for REFCLK to be proven (R89) -/
  waitRef : Bool := false
  /-- step 15 has sent the ports into training (R92) -/
  trained : Bool := false
  /-- a restart waits for the end of an OTP pulse (R105): `some useStaged` -/
  restartWait : Option Bool := none
  /-- supervisor held in reset (R469) -/
  supHeld : Bool := false
  /-- image values clamped at step 10 (R136): section bits -/
  clampBits : Word := 0
  /-- channels that could not be calibrated in step 13 -/
  calFail : BitVec 32 := 0
  /-- SUP_STAT.lockstep_ok -/
  lockstepOk : Bool := true
  /-- the supervisor's instruction and data memory as step 10 loads them, without the zeros that fill each up, and the address at
  which it begins (R121) -/
  supCode : List Byte := []
  supData : List Byte := []
  supEntry : Word := 0
deriving DecidableEq, Repr

/-- The states of the test access port's controller that the stack's pins depend on (R72, R74). -/
inductive TapState where
  | testLogicReset | shiftDr | shiftIr | other
deriving DecidableEq, Repr

/-- A Chervil transfer between phases 1 and 4 (R21): the blocks at its ends, as FS_FAB_STALL names them, and its phase. -/
structure Transfer where
  sender : Nat
  receiver : Nat
  phase : Nat := 1
  /-- STACK_TIME at which its stall watchdog started (R26) -/
  dog : Nat := 0
deriving DecidableEq, Repr

/-! ### Image (chapter 5) -/

/-- The load states of IDN_IMG_STAT (R145). -/
inductive LoadState where
  | idle | receiving | verifying | pendingCommit | done | failed | aborted
deriving DecidableEq, Repr

structure Image where
  state : LoadState := .idle
  /-- 0 BOOT, 1 STAGE, 2 LIVE -/
  target : BitVec 2 := 0
  /-- 0 none, 1 link, 2 two-wire -/
  path : BitVec 2 := 0
  /-- bytes of the load received, in order -/
  data : List Byte := []
  count : Nat := 0
  failCheck : BitVec 4 := 0
  failSection : Byte := 0xFF
  errOff : Word := 0
  overrun : Bool := false
  clamped : Bool := false
  /-- the staged image, authenticated or not yet (R106) -/
  staged : Option (List Byte) := none
  stagedOk : Bool := false
  /-- the applied full image; `none` for the ROM image -/
  applied : Option (List Byte) := none
  /-- live sections in force over the applied image: (section id, body) -/
  live : SMap (List Byte) := []
  /-- live sections that wait for their boundary (R132) -/
  liveWait : SMap (List Byte) := []
  /-- header version and build of the live load, for event 0x0405 -/
  liveVer : Word := 0
  liveBuild : Word := 0
  /-- a group of the live load has committed (R131) -/
  liveSome : Bool := false
  ver : Word := 0
  build : Word := 0
  liveVersion : Word := 0
  /-- IDN_IMG_SRC: rom, key -/
  rom : Bool := false
  key : BitVec 2 := 0
  fw : Bool := false
  fwVer : Word := 0
deriving DecidableEq, Repr

/-! ### Gulenlink ports (chapters 6 and 7) -/

inductive PState where
  | disabled | detect | train | lock | exchange | active | recover | idle | pattern
deriving DecidableEq, Repr

/-- The step of RECOVER (R166, R167): RECOVER blocks first. -/
inductive RecStep where
  | blocks | train | laneCheck | lock | exchange
deriving DecidableEq, Repr

/-- What the stack keeps of one lane position (physical), in both directions. -/
structure Lane where
  /-- transmit taps (R153): last preset received, |c-1|, |c+1| -/
  preset : Nat := 2
  pre : Nat := 0
  post : Nat := 8
  /-- transmit taps stored for a rate code (R153, R167): rate, preset, |c-1|, |c+1| -/
  saved : List (Nat × Nat × Nat × Nat) := []
  /-- receive: what this receiver asks of the far transmitter (R152): preset, pre-cursor and post-cursor codes -/
  askPreset : Nat := 2
  askPre : Nat := 0
  askPost : Nat := 0
  /-- receive: equalized, given up -/
  eqDone : Bool := false
  laneFail : Bool := false
  /-- far end's report of the transmit lane -/
  farEq : Bool := false
  farFail : Bool := false
  /-- LOCK: consecutive MARKER blocks and the next expected count; arrival of the marker in UI -/
  run : Nat := 0
  next : Nat := 0
  arrival : Option Int := none
  lastAt : Nat := 0
  /-- applied delay, in UI (R169), and recorded one-UI changes not yet applied -/
  delay : Nat := 0
  drift : Int := 0
  residual : Byte := 0
  height : Byte := 0
  width : Byte := 0
deriving DecidableEq, Repr

/-- What a tag outstanding on a port was carried by (R197). -/
inductive TagKind where
  | read | write | other | reg | desc
deriving DecidableEq, Repr

structure TagUse where
  kind : TagKind
  /-- write: line offsets whose DATA slot has not arrived; read: line offsets whose DATA slot has not been sent -/
  lines : BitVec 8 := 0
  /-- read: line offsets whose line has not been checked yet (R269) -/
  wait : BitVec 8 := 0
  /-- count of sequenced flits received when the header arrived (R189) -/
  age : Nat := 0
  handle : Nat := 0
  /-- arrival position on the port (R209) -/
  ord : Nat := 0
  /-- sequence number of the flit that carried the final record: the tag is outstanding until that flit is acknowledged -/
  done : Option (BitVec 16) := none
deriving DecidableEq, Repr

/-- An item accepted from the far end that waits in the port's receive buffers (R198). -/
inductive RxItem where
  | req (entry mask : BitVec 64) (gen arr : Nat)
  | data (tag line : Nat) (poison : Bool) (d : Line) (gen : Nat)
  | reg (r : BitVec 128) (gen : Nat)
  | opd (desc : BitVec 512) (gen : Nat)
deriving DecidableEq, Repr

/-- A DATA line waiting to be sent to the host (R185). -/
structure TxData where
  tag : Nat
  line : Nat
  poison : Bool
  d : Line
  /-- the DATA slot of a read: its tag ends with its last slot -/
  read : Bool := true
deriving DecidableEq, Repr

/-- A write header that waits for its data lines (R189, R190). -/
structure WPend where
  tag : Nat
  handle : Nat
  line : Nat
  count : Nat
  mask : Option (BitVec 64) := none
  cls : Nat
  hint : Nat
  /-- refused at its lookup with this status (R190) -/
  refused : Option Status := none
  /-- lines that have arrived: offset, poison, data -/
  got : List (Nat × Bool × Line) := []
  arr : Nat := 0
deriving DecidableEq, Repr

/-- A FENCE that waits for the tags of its scope (R210); `all` for the port scope. -/
structure Fence where
  tag : Nat
  handle : Nat
  all : Bool
  /-- its arrival position (R209) -/
  ord : Nat := 0
  waits : List Nat
  /-- OK, or HALTED_UE once a descriptor it waited for sits in a halted queue -/
  status : Status := .ok
deriving DecidableEq, Repr

/-- A flit as kept for replay: bits 2559:0 the slots, and what the control block holds beside the live fields. -/
structure TxFlit where
  slots : BitVec 2560 := 0
  credits : BitVec 32 := 0
  types : BitVec 20 := 0
  tags : BitVec 120 := 0
  poison : BitVec 5 := 0
  /-- records and lines it carries -/
  recs : Nat := 0
deriving DecidableEq, Repr

structure Port where
  st : PState := .disabled
  rstep : RecStep := .train
  /-- RECOVER runs a full TRAIN (R167) -/
  recFull : Bool := false
  rate : BitVec 4 := 0
  widthTx : BitVec 2 := 0
  widthRx : BitVec 2 := 0
  attempts : Nat := 0
  /-- physical lanes failed, receive and transmit (the latter as sensed, reported or recorded) -/
  failRx : BitVec 21 := 0
  failTx : BitVec 21 := 0
  spareRx : BitVec 5 := 31
  /-- transmit width and spare with which the port last entered electrical idle in DISABLED or DETECT: the lanes that IDLE_ENTRY
  goes on (R170) -/
  outWidth : BitVec 2 := 0
  outSpare : BitVec 5 := 31
  /-- PATTERN was entered by the far end's PATTERN blocks (R175) -/
  patFar : Bool := false
  /-- LNK_LANES_TX: spare_for and failed as the far end last sent them -/
  farSpare : BitVec 5 := 31
  /-- the lane that the transmit spare replaces on the map in force (R161, R164) -/
  spareTx : BitVec 5 := 31
  farFailed : BitVec 21 := 0
  lanes : Vector Lane 21 := Vector.replicate 21 {}
  /-- rate codes for which equalizer settings are stored (R167) -/
  stored : List Nat := []
  capFeatures : Byte := 0
  capProtocol : Byte := 0
  capPort : BitVec 4 := 0
  capRate : BitVec 4 := 0
  /-- EXCHANGE: last EXCH block, identical blocks in a row, our ack, blocks received with ack set -/
  exLast : BitVec 144 := 0
  exSame : Nat := 0
  exAck : Bool := false
  exAcked : Nat := 0
  /-- electrical idle per direction -/
  idleRx : Bool := false
  idleTx : Bool := false
  /-- flit times since the end of a received fast-exit burst without a good marker flit -/
  waitMarker : Bool := false
  /-- the transmitter has left idle by a fast-exit burst, and its first flit is to come (R172) -/
  burst : Bool := false
  pattern : BitVec 2 := 3
  /-- features in force (R154, R159) -/
  features : Byte := 0
  -- link layer (R192 to R207)
  nextSeq : BitVec 16 := 0
  oldest : BitVec 16 := 0
  replayPtr : BitVec 16 := 0
  rb : SMap TxFlit := []
  expected : BitVec 16 := 0
  lastGood : BitVec 16 := 0xFFFF
  nakState : Bool := false
  nakOut : Bool := false
  naks : Nat := 0
  timeouts : Nat := 0
  /-- flit counts since the flit count started, and marker flits sent and received -/
  txFlits : Nat := 0
  rxFlits : Nat := 0
  txMarkers : Nat := 0
  rxMarkers : Nat := 0
  crcInPeriod : Nat := 0
  /-- scrambler registers of the logical lanes (R150) -/
  txScr : Vector (BitVec 23) 21 := Vector.ofFn fun i => 0x7FFF00#23 + BitVec.ofNat 23 i.val
  rxScr : Vector (BitVec 23) 21 := Vector.ofFn fun i => 0x7FFF00#23 + BitVec.ofNat 23 i.val
  /-- links started: a tag of the link in force is held as `tag + 1024 * gen` -/
  gen : Nat := 0
  /-- items accepted on the port, by which a FENCE tells the earlier from the later (R209) -/
  arrivals : Nat := 0
  /-- sequenced flits accepted on this link -/
  rxSeqd : Nat := 0
  /-- credits held for the host's pools; units the host may still send; units to return (R198 to R200) -/
  far : Vector Nat 4 := Vector.replicate 4 0
  grant : Vector Nat 4 := Vector.replicate 4 0
  ret : Vector Nat 4 := #v[512, 256, 32, 32]
  tags : SMap TagUse := []
  rxq : List RxItem := []
  writes : List WPend := []
  fences : List Fence := []
  txData : List TxData := []
  txCmpl : List (BitVec 64) := []
  txReg : List (BitVec 128) := []
  txEv : List (BitVec 128) := []
  evtSeq : Byte := 0
  quiet : BitVec 4 := 0
  quietAt : Nat := 0
  /-- LNK_PROTO_ERR.first_cause -/
  firstCause : BitVec 4 := 0
  /-- the flit last sent, as the lanes carry it -/
  wireTx : BitVec 2880 := 0
  /-- the 8-flit receive and transmit FIFOs of the port's island (R24): what their places hold, newest first (log entry 108) -/
  rxFifo : List (BitVec 2880) := []
  txFifo : List (BitVec 2880) := []
  /-- the port discards every received flit (R469 step 2) -/
  discard : Bool := false
deriving DecidableEq, Repr

/-! ### Handles and Sorrel (chapters 8 and 9) -/

/-- The states of a general handle in the table (R214). `creating`: a CREATE has taken the number and places its segments; to all
but that command the number is FREE (R231). -/
inductive HState where
  | creating | active | draining
deriving DecidableEq, Repr

structure Handle where
  st : HState := .active
  size : Nat := 0
  attr : Word := 0
  /-- HND_ARG_RESV as admitted -/
  resv : Word := 0
deriving DecidableEq, Repr

/-- What QUERY takes at its start (R231). -/
structure HndInfo where
  size : Nat
  attr : Word
  resv : Word
  state : Word
  written : Nat
deriving DecidableEq, Repr

/-- A handle command that runs (R226, R227): what it latched, and what its checks decided. -/
structure HndRun where
  op : BitVec 3
  path : Path
  handle : Nat
  status : Status := .ok
  /-- the handle's size after the command, as event 0x0801 gives it -/
  size : Word := 0
  /-- SHRINK and DESTROY: first segment of the affected range, and the first descriptor number after the instant of change -/
  first : Nat := 0
  mark : Nat := 0
  /-- a drain runs -/
  draining : Bool := false
  /-- QUERY: what it took -/
  info : Option HndInfo := none
deriving DecidableEq, Repr

structure Hnd where
  table : SMap Handle := []
  run : Option HndRun := none
  seq : Byte := 0
  resOp : BitVec 3 := 0
  resHandle : BitVec 12 := 0
  resStatus : Status := .ok
  resSize : Nat := 0
  resAttr : Word := 0
  resResv : Word := 0
  resState : Word := 0
  resWritten : Nat := 0
  /-- flat handle 0 (R222): exists, its channel list, its size -/
  flat : Bool := false
  flatList : List Nat := []
  flatSize : Nat := 0
deriving DecidableEq, Repr

/-- A segment-map entry (R239), without the written bit, which mirrors the written-bitmap. -/
structure MapEntry where
  pseg : Nat
  poisonSum : Bool := false
  migrating : Bool := false
  retired : Bool := false
  away : Bool := false
  homeQ : Nat := 0
  /-- R242: the entry was found uncorrectable -/
  quarantined : Bool := false
deriving DecidableEq, Repr

/-- Why a segment moves (R248). -/
inductive Reason where
  | evac | host | thermal | balance | compact | pack
deriving DecidableEq, Repr

/-- An order of the migration queue (R249). -/
structure Order where
  reason : Reason
  handle : Nat
  lseg : Nat
  /-- destination channel that MIGRATE names -/
  dest : Option Nat := none
  /-- event 0x0902 has been sent (R260) -/
  waitSent : Bool := false
  /-- the order waits for the next decay epoch (R260) -/
  waiting : Bool := false
deriving DecidableEq, Repr

inductive MigStage where
  | copy | hold | release
deriving DecidableEq, Repr

structure Mig where
  order : Order
  src : Nat
  dst : Nat
  stage : MigStage := .copy
  /-- lines whose copy write has been made -/
  copied : Nat := 0
  /-- stopped by an uncorrectable line, waiting for resume or cancel (R257) -/
  halted : Bool := false
  /-- an ABORT came after the COMMIT handshake (R258) -/
  late : Bool := false
  /-- the source was unwritten when COPY began: the copy reads no lines (R255) -/
  blank : Bool := false
deriving DecidableEq, Repr

structure Sorrel where
  /-- entries by handle * 2^21 + logical segment -/
  map : SMap MapEntry := []
  /-- psegs by free state: written bit, protection bit, retired, unusable (quarantined), heat -/
  written : List Nat := []
  prot : List Nat := []
  retired : List Nat := []
  lost : List Nat := []
  heat : SMap Nat := []
  /-- accesses counted modulo 2^shift and channel heat formed at the last decay epoch -/
  acc : Vector Nat 32 := Vector.replicate 32 0
  chHeat : Vector Nat 32 := Vector.replicate 32 0
  queue : List Order := []
  migs : List Mig := []
  /-- retirements ordered for segments under migration -/
  retireAt : List Nat := []
  /-- evacuations that wait in the repair path for a held place (R249): physical segments -/
  evacWait : List Nat := []
  /-- COOL ranking per quadrant: die layers, coolest first (R247) -/
  rank : Vector (List Nat) 4 := Vector.replicate 4 []
  /-- temperature trigger zones (R248): quadrant * 16 + layer -/
  trig : List Nat := []
  /-- segments under a written-bitmap or protection-bitmap rebuild: first segment of the word -/
  rebuild : List Nat := []
  protRebuild : List Nat := []
  busy : Bool := false
  runOp : BitVec 3 := 0
  runHandle : Nat := 0
  runSeg : Nat := 0
  runDest : Nat := 0
  seq : Byte := 0
  resOp : BitVec 3 := 0
  resStatus : Status := .ok
  resEntry : Word := 0
  resOwner : Word := 0
  resLseg : Word := 0
  /-- retired and quarantined since start -/
  nRetired : Nat := 0
  nQuar : Nat := 0
deriving DecidableEq, Repr

/-! ### Savory (chapter 10) -/

structure SavQ where
  budget : Nat := 0
  admission : Nat := 0
  resv : Vector Nat 8 := Vector.replicate 8 0
  /-- the reservations that took part in the present grants (R284 step 4, R286) -/
  granted : Vector Nat 8 := Vector.replicate 8 0
  grant : Vector Nat 8 := Vector.replicate 8 0
  /-- lines of allowance left in this epoch -/
  allow : Vector Nat 8 := Vector.replicate 8 0
  /-- the quadrant is overcommitted -/
  overG : Bool := false
deriving DecidableEq, Repr

structure Savory where
  q : Vector SavQ 4 := Vector.replicate 4 {}
  /-- reservations released since the last epoch: HND_ARG_RESV and quadrant mask (R236) -/
  released : List (Word × BitVec 4) := []
  /-- in-grant misses of this epoch by class: count and channels (R278) -/
  miss : Vector (Nat × BitVec 32) 8 := Vector.replicate 8 (0, 0)
deriving DecidableEq, Repr

/-! ### Channels (chapters 11 and 12) -/

/-- What a queued access is part of. -/
inductive AccSrc where
  /-- a line of a host read -/
  | read (p : PortId) (tag off handle line : Nat)
  /-- a line of a full-line write -/
  | write
  /-- the read of a masked write -/
  | masked (p : PortId) (tag handle line : Nat) (mask : BitVec 64) (poison : Bool) (d : Line)
  /-- a scrub write of Dill or of a demand read: conditional (R333) -/
  | scrub
  /-- a conditional poison write; the line as poisoned -/
  | poison
  /-- the copy read of a line of a migration's source, and the copy write to its destination (R252) -/
  | copyRead (src line : Nat)
  | copy (src line : Nat)
  /-- a write applied at a migration's source, forwarded to its destination (R254) -/
  | forward (src : Nat)
  /-- a read of a piece of an operation: descriptor, piece, attempt, whether it is of handle2, line (R362) -/
  | engRead (id i try_ : Nat) (second : Bool) (line : Nat)
  /-- the read-modify-write of CAS64 and FADD64: ordered as a masked write (R354) -/
  | engRmw (id i line : Nat)
  /-- a full-line write of a piece -/
  | engWrite (id i : Nat)
  /-- a read of the Dill walk (R331) -/
  | dill
  /-- the verify read after a scrub (false) or poison (true) write of a stored form (R332, R333) -/
  | verify (poison : Bool) (w : Stored)
  /-- the read of a line of a row under soft repair, and its write to the spare row (R338) -/
  | softRead (i : Nat)
  | softWrite (i : Nat)
deriving DecidableEq, Repr

/-- One queued line access (R291). -/
structure Acc where
  src : AccSrc
  /-- physical line address within the channel (R336) -/
  pla : Nat
  pseg : Nat
  cls : Nat
  maint : Bool := false
  hint : Nat := 0
  arr : Nat := 0
  /-- in-grant when enqueued (R278) -/
  inGrant : Bool := false
  double : Bool := false
  data : Stored := 0
  /-- order of entry into the channel's queues -/
  ord : Nat := 0
  /-- the row was activated for this access (a row miss) -/
  miss : Bool := false
  /-- the access it belongs to: the number of its first entry -/
  grp : Nat := 0
  /-- quadrant at which the host request entered (R20) -/
  quad : Option Nat := none
  /-- taken past the age limit (R273) -/
  promoted : Bool := false
  /-- a masked write waits for this entry to drain (R294) -/
  urgent : Bool := false
  /-- a read behind a segment fill: the queued write's data that it is to be served with (R30, R294) -/
  held : Option Stored := none
  /-- bits that the DRAM will return flipped, where the command that issued the read gives them -/
  err : Stored := 0
deriving DecidableEq, Repr

/-- A write whose completion is still to be sent (R33, R35): the port, its tag and handle, the physical segment, and its status
once it may be sent. -/
structure WDone where
  port : PortId
  tag : Nat
  handle : Nat
  pseg : Nat
  st : Option Status := none
deriving DecidableEq, Repr

/-- Units of a port's REQ and DATA pools that an access holds until it enters its queue (R199, R292). -/
structure Cred where
  port : PortId
  gen : Nat
  req : Nat
  data : Nat
deriving DecidableEq, Repr

/-- An access that waits in the crossbar (R292): all its lines, the completion of a full-line write, and the credits that the
port still holds for it. -/
structure XAcc where
  lines : List Acc
  done : Option WDone := none
  cred : Option Cred := none
deriving DecidableEq, Repr

structure Bank where
  /-- state and timer of the bank machine (R137, R303); `timed` while the timer runs -/
  state : Nat := 0
  timed : Bool := false
  /-- events held by a false guard (R139), oldest first, each with the row selected with it and the number of its access -/
  heldEv : List (Nat × Option Nat × Option Nat) := []
  row : Option Nat := none
  hits : Nat := 0
  hint : Nat := 0
  lastUse : Nat := 0
  /-- command-clock cycle stamps: last activate, precharge, read, write, refresh end -/
  tAct : Option Nat := none
  tPre : Option Nat := none
  tRd : Option Nat := none
  tWr : Option Nat := none
  tBusy : Nat := 0
  /-- last row activated since the previous power-down entry (R316) -/
  actRow : Option Nat := none
  /-- owed refreshes: ticks left until each deadline (R311), oldest first -/
  owed : List Nat := []
  rowCtr : Nat := 0
  /-- row of a scheduled neighbour refresh, and when it was scheduled -/
  nrf : Option Nat := none
  nrfAt : Nat := 0
  /-- row cycles of the running neighbour refresh still to come: its second neighbour (R315) -/
  nrfMore : Nat := 0
  /-- the next due refresh has been issued early (R312) -/
  early : Bool := false
  /-- stopped by a table fault (R304) -/
  stopped : Bool := false
deriving DecidableEq, Repr

inductive ChState where
  | run | powerdown | selfRefresh | offline
deriving DecidableEq, Repr

/-- A symbol-number window of R340: errors counted, banks seen, start of the window. -/
structure SymWin where
  n : Nat
  banks : List Nat
  start : Nat
  /-- lines whose history entries this window made -/
  lines : List Nat := []
  /-- the window has shown a symbol fault (R341) -/
  fault : Bool := false
deriving DecidableEq, Repr

structure Remap where
  pla : Nat
  data : Stored
  /-- both tag copies failed (R343) -/
  bad : Bool := false
deriving DecidableEq, Repr

/-- A soft row repair in progress (R338): bank (4 * slice + bank), row, spare. -/
structure Soft where
  bank : Nat
  row : Nat
  spare : Nat
  /-- lines of the row that the spare row holds -/
  copied : Nat := 0
deriving DecidableEq, Repr

structure Chan where
  st : ChState := .offline
  /-- DRAM initialized in this start -/
  init : Bool := false
  /-- the channel is to enter self-refresh once its queues are empty (R314) -/
  srWant : Bool := false
  /-- held by a BIST run (R505) -/
  held : Bool := false
  /-- its quadrant's TSV PLL relocks (R423) -/
  stall : Bool := false
  rq : List Acc := []
  wq : List Acc := []
  /-- accesses that wait in the crossbar for room (R292), oldest first -/
  xbar : List XAcc := []
  /-- writes accepted behind a fill, whose completions go in the order of acceptance (R35) -/
  await : List WDone := []
  /-- reads whose column command has issued, oldest first -/
  inflight : List Acc := []
  /-- reads of the stack's own units that the write queue or the DRAM has served, with the stored form, oldest first: their units
  have still to take them -/
  served : List (Acc × Stored) := []
  /-- the FIFOs of the TSV command interface (R24): the bank and the table's action of 16 commands, and 16 lines in each direction,
  newest first (log entry 108) -/
  cmdFifo : List (Nat × Nat) := []
  rdFifo : List Stored := []
  wrFifo : List Stored := []
  /-- segments under a fill: physical segments, oldest first -/
  fills : List Nat := []
  draining : Bool := false
  ord : Nat := 0
  /-- command-clock cycles run -/
  cycle : Nat := 0
  lastRd : Option Nat := none
  lastWr : Option Nat := none
  lastAct : Option Nat := none
  /-- activate stamps by slice, newest first (tFAW) -/
  faw : SMap (List Nat) := []
  lastCol : Option Nat := none
  /-- cycle of the last change of throttle level (R306), and cycle before which no command issues (R307, R314, R319) -/
  slotAt : Nat := 0
  blockTil : Nat := 0
  banks : SMap Bank := []
  /-- next bank group to fall due (R308), ticks since start, and banks of the group in force whose turn is still to come (R310) -/
  group : Nat := 0
  ticks : Nat := 0
  /-- STACK_TIME of the last tick -/
  tickAt : Nat := 0
  dueLeft : List Nat := []
  /-- multiplier in 1/256 at which the core dies refresh in a wanted self-refresh: 0 where it is the interval in force (R410) -/
  srMult : Nat := 0
  /-- it enters power-down once the neighbour refreshes of R316 are made -/
  pdWant : Bool := false
  /-- the channel went OFFLINE and its bank machines have still to see the abort (R303) -/
  abort : Bool := false
  /-- woken from power-down by a refresh alone (R319) -/
  wokenRef : Bool := false
  /-- multiplier in 1/256 and throttle level in force, and those the last sample set (R38) -/
  mult : Nat := 256
  multNext : Nat := 256
  level : Nat := 0
  levelNext : Nat := 0
  mask : BitVec 4 := 0
  div : Nat := 1
  /-- the clock divisor that the command clock is to switch to (R307) -/
  divNext : Option Nat := none
  /-- entropy LFSR, and the run of identical raw bits (R317) -/
  lfsr : BitVec 32 := 1
  rawLast : Bool := false
  rawRun : Nat := 0
  entropyBad : Bool := false
  /-- maintenance lines the pacer may release (R274), in 1/64000, and the STACK_TIME up to which they are counted -/
  pacer : Nat := 2048000
  pacerAt : Nat := 0
  /-- maintenance lines that wait for the pacer (R274), oldest first -/
  maintWait : List Acc := []
  -- protection
  remap : List (Option Remap) := List.replicate 16 none
  /-- history: (line, time of first error), oldest first (R335) -/
  hist : List (Nat × Nat) := []
  /-- hard redundant rows in use by 8 * bank + spare (R339): the row -/
  hard : SMap (Option Nat) := []
  /-- soft spares in use by 4 * bank + spare: the row -/
  soft : SMap (Option Nat) := []
  softRun : Option Soft := none
  /-- repairs that wait for the running one: lines -/
  softWait : List Nat := []
  sym : SMap SymWin := []
  tsvSpares : Nat := 0
  /-- TSV groups waiting for in-service recalibration (R341), and for centring at a new rate (R448) -/
  recal : List Nat := []
  centre : List Nat := []
  /-- Dill: pass running, segment and line, start of the pass -/
  dillRun : Bool := false
  dillSeg : Nat := 0
  dillLine : Nat := 0
  dillStart : Nat := 0
  dillDone : BitVec 64 := 0
  dillIvl : Word := 0
  /-- a poisoned line found in the segment being walked (R240) -/
  dillPois : Bool := false
  /-- verify reads that follow scrub (false) and poison (true) writes: line, poison, cancelled by a younger write -/
  verify : List (Nat × Bool × Stored) := []
  lastOut : BitVec 3 := 0
  lastSrc : BitVec 2 := 0
  lastPla : BitVec 26 := 0
  symA : BitVec 6 := 0x3F
  symB : BitVec 6 := 0x3F
  /-- CHN_OFF_HND: handles that held a segment when the channel went OFFLINE -/
  offHnd : List Nat := []
  /-- line counters: hit, miss, wq hit -/
  nHit : BitVec 64 := 0
  nMiss : BitVec 64 := 0
  nWq : BitVec 64 := 0
  /-- lines served by class -/
  lines : Vector (BitVec 64) 8 := Vector.replicate 8 0
  /-- idle since (10 ns ticks) -/
  idleAt : Nat := 0
deriving DecidableEq, Repr

/-! ### Operations and engines (chapters 13 and 14) -/

/-- The life of a descriptor (R365). `done`: its completion is held until the collector accepts it; `gone`: it is complete, but
pieces of it still run (R373). -/
inductive DState where
  | waiting | queued | running | stopped | done | gone
deriving DecidableEq, Repr

/-- The life of a piece: held by a COMMIT hold, waiting for room in its engine's queue, in that queue, in a context, stopped by
uncorrectable data, ended. -/
inductive PcState where
  | held | waiting | queued | running | stopped | ended
deriving DecidableEq, Repr

/-- What a piece has been told of an access of the line or entry that it works at. -/
inductive Ans where
  /-- a line read: poison mark and data -/
  | line (poison : Bool) (d : Line)
  /-- a line of a quarantined segment (R242): poison, with data of no meaning -/
  | lost (d : Line)
  /-- no access is made, with this status -/
  | refused (st : Status)
  /-- a read-modify-write: the old word, whether the new one was written, and the line's poison mark -/
  | word (old : BitVec 64) (wrote poison : Bool)
deriving DecidableEq, Repr

structure Piece where
  /-- logical segment of the range or of the list -/
  lseg : Nat
  st : PcState := .held
  /-- its engine and physical segment, from its dispatch on -/
  eng : Nat := 0
  pseg : Nat := 0
  status : Status := .ok
  /-- lowest offset or entry that met a poisoned line (R360) -/
  off : Option Nat := none
  /-- lowest entry beyond the handle (R358) -/
  skip : Option Nat := none
  /-- offset or entry at which it goes on (R372) -/
  pos : Nat := 0
  /-- lanes folded so far (REDUCE) -/
  lanes : List Word := []
  /-- CRC, lowest differing offset plus 1, old word, or piece value -/
  value : BitVec 64 := 0
  /-- CAS64: the word was written -/
  wrote : Bool := false
  /-- order of arrival of the partial at the lead engine (R357) -/
  arrival : Nat := 0
  /-- what it has been told of the accesses at `pos`, oldest first, and whether a read of it waits -/
  log : List Ans := []
  asked : Bool := false
  /-- its place in the order of dispatch (R381) -/
  ord : Nat := 0
  /-- starts from its first line so far: the answer to a read of an earlier one is of no use -/
  try_ : Nat := 0
  /-- GATHER, SCATTER: the list line that it works at: its number, poison mark and data -/
  list : Option (Nat × Bool × Line) := none
  /-- the channel of its last write, and the segments it wrote that a fill held then (R35) -/
  at_ : Option Nat := none
  fills : List Nat := []
  /-- its last line or entry is done -/
  fin : Bool := false
deriving DecidableEq, Repr

structure Desc where
  id : Nat
  port : PortId
  /-- its tag, with the number of its link -/
  tag : Nat := 0
  words : BitVec 512
  st : DState := .waiting
  /-- it holds an entry of its handle's queue (R221, R365) -/
  inq : Bool := false
  pieces : List Piece := []
  lead : Nat := 0
  /-- its first piece has been dispatched, which names the lead engine (R362) -/
  led : Bool := false
  /-- size of handle at acceptance, and the least size of handle2 since (R358, R368), in segments -/
  size1 : Nat := 0
  size2 : Nat := 0
  /-- handle2 has been destroyed since acceptance (R368) -/
  gone2 : Bool := false
  /-- SCATTER: highest entry that has written each line (R358) -/
  scat : SMap Nat := []
  result : Word := 0xFFFFFFFF
  status : Status := .ok
deriving DecidableEq, Repr

structure Halt where
  cause : BitVec 3
  tag : BitVec 10 := 0x3FF
deriving DecidableEq, Repr

structure Ops where
  descs : List Desc := []
  nextId : Nat := 0
  /-- halted queues by handle -/
  halts : SMap (Option Halt) := []
  /-- arrivals of partials -/
  arrivals : Nat := 0
  /-- pieces dispatched -/
  dispatched : Nat := 0
  seq : Byte := 0
  resOp : BitVec 3 := 0
  resHandle : BitVec 12 := 0
  resStatus : Status := .ok
  stat : Word := 0x0FFC0000
  /-- collector: queue entries (port, record), the sequence number of the next -/
  coll : List (PortId × BitVec 128) := []
  collSeq : Word := 0
deriving DecidableEq, Repr

inductive EState where
  | empty | loading | run | held | halted
deriving DecidableEq, Repr

/-- What a context runs (R381). -/
inductive Work where
  | none
  | dill
  | soft
  | tsv
  /-- DRAM training, in step 14 of a start -/
  | train
  | mig (src : Nat)
  | piece (desc piece : Nat)
deriving DecidableEq, Repr

structure Ctx where
  work : Work := .none
  /-- table_id and state of the table instance that runs, timer running -/
  table : Option Nat := none
  state : Nat := 0
  timed : Bool := false
  heldEv : List Nat := []
  /-- the context window of 4 KiB (R379); bytes beyond the list are 0 -/
  window : List Byte := []
deriving DecidableEq, Repr

structure Eng where
  st : EState := .empty
  ctx : Vector Ctx 6 := Vector.replicate 6 {}
  /-- the constant block of its data memory, 8 KiB (R379) -/
  consts : List Byte := []
  /-- events for its contexts in the order in which they arrived (R382): context, event, and the line that event 1 returns -/
  evq : List (Nat × Nat × List Byte) := []
  /-- piece queue: descriptor and piece number, in dispatch order -/
  queue : List (Nat × Nat) := []
  trap : Word := 0
  trapAddr : Word := 0
  /-- times of the traps of the window of R389 -/
  traps : List Nat := []
  lines : BitVec 64 := 0
deriving DecidableEq, Repr

/-! ### Tarragon (chapter 15) -/

structure Sensor where
  value : BitVec 16 := 0
  suspect : Bool := false
  strikes : Nat := 0
  /-- event 0x0B05 sent -/
  told : Bool := false
deriving DecidableEq, Repr

structure Zone where
  temp : BitVec 16 := 0
  level : Nat := 0
  warn : Bool := false
  guard : Bool := false
  blind : Bool := false
  trip : Bool := false
deriving DecidableEq, Repr

structure Thermal where
  sensors : Vector Sensor 192 := Vector.replicate 192 {}
  zones : Vector Zone 68 := Vector.replicate 68 {}
  /-- neighbour sets of the image (R401): members by sensor -/
  sets : SMap (List Nat) := []
  clr : BitVec 192 := 0
  /-- thresholds and hystereses as the image loaded them (R406) -/
  thrImg : List Word := [0x58000300, 0x5F000400, 0x69000A00, 0x64000300, 0x6C000400, 0x78000A00]
  safe : Bool := false
  /-- STACK_TIME of the entry of the safe state -/
  safeAt : Nat := 0
  tripPin : Bool := false
  resumeOk : Bool := false
  inStart : Bool := false
  tripZone : BitVec 7 := 0
  tripTemp : BitVec 16 := 0
  /-- ports still owed event 0x0B04 -/
  owe : BitVec 16 := 0
  /-- throttle level and refresh multiplier of each quadrant; highest core temperature and hot layer -/
  qLevel : Vector Nat 4 := Vector.replicate 4 0
  qMult : Vector Nat 4 := Vector.replicate 4 256
  qMax : Vector (BitVec 16) 4 := Vector.replicate 4 0
  qHot : Vector Nat 4 := Vector.replicate 4 0
deriving DecidableEq, Repr

/-! ### Clocks and power states (chapter 16) -/

/-- A sequencer step (R426). -/
inductive SeqStep where
  | op (target : BitVec 2)
  | ratio (mode : Bool) (tsv : BitVec 2) (mgmt : BitVec 5)
  /-- a CLK_CLKEN_RUN change that committed in a power state or behind other steps (R428) -/
  | clken (value : Word)
deriving DecidableEq, Repr

/-- The change of one quadrant's link or TSV PLL that a step has still to make (R426), and its STACK_TIME. -/
structure Hop where
  at_ : Nat
  link : Bool
  quad : QuadId
  op : BitVec 2
deriving DecidableEq, Repr

structure Clk where
  /-- operating point in force, and by quadrant the one whose lane-rate ceiling is in force (R168, R426) -/
  op : BitVec 2 := 1
  rateOps : Vector (BitVec 2) 4 := Vector.replicate 4 1
  /-- ratio mode in force, with its TSV clock and MGMT divider -/
  ratio : Bool := false
  tsvDiv : BitVec 2 := 3
  mgmtDiv : BitVec 5 := 4
  /-- REFCLK proven: its READY flag -/
  proven : Bool := false
  /-- consecutive in-range windows -/
  windows : Nat := 0
  count : BitVec 16 := 0
  /-- REFCLK was proven in this start and lost -/
  lostOnce : Bool := false
  running : Option SeqStep := none
  queue : List SeqStep := []
  startedAt : Nat := 0
  linkLock : BitVec 4 := 0
  tsvLock : BitVec 4 := 0
  mgmtLock : Bool := false
  /-- units whose bit of CLK_CLKEN_RUN has gone to 0 and whose gate waits for idle handshakes (R433) -/
  gateWait : BitVec 15 := 0
  /-- CLK_SRC.eff: REFCLK in use by MGMT, link and TSV PLLs -/
  srcEff : BitVec 3 := 0
  /-- VDDL and VDDS, in mV, and by quadrant the operating point whose command clock the TSV PLL makes (R23, R424, R435) -/
  vddl : Nat := 700
  vdds : Nat := 750
  tsvOps : Vector (BitVec 2) 4 := Vector.replicate 4 1
  /-- PLL changes of steps that are still to come, in their order (R426) -/
  hops : List Hop := []
deriving DecidableEq, Repr

structure Pwr where
  state : BitVec 3 := 0
  limit : BitVec 3 := 0
  /-- commit times of the codes of PWR_QUIET_HINT, by port -/
  hintAt : Vector Nat 16 := Vector.replicate 16 0
  /-- the always-on wake timer of P3 and P4 (R24): STACK_TIME of the known event it was set for -/
  wakeAt : Option Nat := none
deriving DecidableEq, Repr

/-! ### Calibration (chapter 17) -/

structure Cal where
  /-- the command that runs, with its operands -/
  busy : Bool := false
  op : BitVec 2 := 0
  target : BitVec 5 := 0
  status : Status := .ok
  bg : BitVec 16 := 0
  iosc : BitVec 16 := 0
  /-- long-term offset of each sensor -/
  drift : SMap (BitVec 16) := []
  /-- degraded elements (R446): sensors, terminations by port, regulators (VDDL of quadrant q: 2q; VDDS: 2q + 1) -/
  degSensors : BitVec 192 := 0
  degTerm : BitVec 16 := 0
  degReg : BitVec 8 := 0
  age : Vector (BitVec 16) 4 := Vector.replicate 4 0
  /-- event 0x0F02 sent, by quadrant -/
  ageWarn : BitVec 4 := 0
  /-- margins by 64 * channel + group, and low-margin recalibrations by channel -/
  margin : SMap Byte := []
  recal : Vector Nat 32 := Vector.replicate 32 0
deriving DecidableEq, Repr

/-! ### Sage (chapter 18) -/

structure PendInfo where
  unit : Byte
  detail : Word
deriving DecidableEq, Repr

structure Sage where
  latched : Bool := false
  source : Byte := 0
  unit : Byte := 0xFF
  reaction : BitVec 3 := 0
  detail : Word := 0
  time : BitVec 64 := 0
  overflow : Bool := false
  pend : BitVec 256 := 0
  ovf : BitVec 256 := 0
  esc : BitVec 256 := 0
  /-- unit and detail of each pending source -/
  info : SMap (Option PendInfo) := []
  /-- running escalation timers: source, and whether it is the second run -/
  timers : List (Nat × Bool) := []
  /-- reactions in force that differ from the ROM table: reaction and floored -/
  react : SMap (Option (Nat × Bool)) := []
  enable : Bool := true
  stallUs : BitVec 5 := 20
  wdogMs : BitVec 4 := 5
  escUs : BitVec 14 := 1000
  safe : Bool := false
  /-- STACK_TIME of the entry of the safe state -/
  safeAt : Nat := 0
  selfFault : Bool := false
  /-- a FS_CLK_REF event is outstanding (R463) -/
  nmeRef : Bool := false
  /-- tick of the last raise, and the sources raised in it with their units (R457) -/
  tick : Nat := 0
  inTick : List (Nat × Nat) := []
  latchTick : Nat := 0
deriving DecidableEq, Repr

/-! ### OTP (chapter 19) -/

inductive OtpPhase where
  | checks | pulse | read
deriving DecidableEq, Repr

structure OtpRun where
  op : BitVec 3
  path : Path
  phase : OtpPhase
  /-- the word being programmed, its raw target, and the words that follow -/
  word : Nat := 0
  target : BitVec 72 := 0
  /-- bits of the target that have not verified -/
  unv : BitVec 72 := 0
  pulses : Nat := 0
  more : List Nat := []
  /-- a word of the run ended as MARGINAL (R490) -/
  marg : Bool := false
  abort : Bool := false
  /-- a reset fell during the pulse: the pulse runs to its end and the command does not continue (R493) -/
  dead : Bool := false
  /-- the highest base-die zone temperature at the start of a SCAN (R485) -/
  temp : BitVec 16 := 0
deriving DecidableEq, Repr

structure Otp where
  /-- words whose raw bits programming has changed since manufacture, by word -/
  words : SMap (BitVec 72) := []
  /-- the raw normal reads of the power-up where they differ from the factory's words (R482, R483) -/
  cap : SMap (BitVec 72) := []
  marginal : BitVec 1024 := 0
  run : Option OtpRun := none
  seq : Byte := 0
  partialW : Bool := false
  resOp : BitVec 3 := 0
  resWord : BitVec 10 := 0
  cause : BitVec 4 := 0
  status : Status := .ok
  data : BitVec 64 := 0
  info : Word := 0
  nonce : Word := 0
  token : List Byte := []
  /-- path that claimed the token window -/
  claim : Option Path := none
  /-- state in force, a LIFECYCLE command completed in this start -/
  lc : BitVec 3 := 0
  done : Bool := false
  slock : BitVec 6 := 0
  slockSet : BitVec 6 := 0
  ue : Bool := false
  sealedInc : BitVec 6 := 0
  /-- programmed bits that read 0 at margin-high, by word -/
  weak : SMap (BitVec 72) := []
  /-- bits that read 0 at the normal reference and 1 at margin-low, by word (R489) -/
  faint : SMap (BitVec 72) := []
  /-- temperatures of the power-up reads of steps 2 and 6, and the scans of this start: temperature and raw normal reads (R485) -/
  capTemp : BitVec 16 := 0
  romTemp : BitVec 16 := 0
  scans : List (BitVec 16 × SMap (BitVec 72)) := []
deriving DecidableEq, Repr

/-! ### BIST (chapter 20) -/

structure BstRun where
  test : Nat
  target : Nat
  path : Path
  /-- the elements of the run, ascending -/
  elems : List Nat
  abort : Bool := false
  /-- an abort whose effect the run's end decides (R511) -/
  ask : Bool := false
  /-- an event of R512 ended the run -/
  cut : Bool := false
deriving DecidableEq, Repr

structure Bist where
  run : Option BstRun := none
  runId : BitVec 16 := 0
  /-- BST_RESULT -/
  result : Word := 0
  sig : Word := 0
  sigExp : Word := 0
  duration : Word := 0
  /-- results of the last run's elements, and the number of its elements -/
  elems : List ElemResult := []
  nElems : Nat := 0
deriving DecidableEq, Repr

/-! ### Two-wire port (chapter 21) -/

structure Twp where
  /-- a START on the bus has had no STOP -/
  bus : Bool := false
  /-- a START addressed the stack, and no STOP followed -/
  busy : Bool := false
  /-- the stack is addressed, and the transaction reads -/
  addressed : Bool := false
  reading : Bool := false
  ptr : Word := 0
  /-- the write transaction has set its pointer -/
  ptrSet : Bool := false
  /-- the 4-byte assembly register (R24): the bytes of the word being received -/
  assembly : List Byte := []
  /-- the stack drives SDA low: it acknowledges the byte that ended last (R515) -/
  acked : Bool := false
  /-- bytes on the bus that the next PEC byte covers -/
  pec : List Byte := []
  /-- an access of the transaction had a status other than OK -/
  err : Bool := false
  /-- no further byte is acknowledged -/
  nacking : Bool := false
  /-- a stretch of the transaction reached 2 ms (R524) -/
  stretched : Bool := false
  /-- address of a write word that stays with the arbiter after a stretch of 2 ms (R524), and whether its transaction still runs -/
  late : Option Word := none
  lateTx : Bool := false
  /-- a read has a word to fetch: its first byte is due (R519, R524) -/
  due : Bool := false
  rsp : Word := 0
  rspAddr : Word := 0
  /-- the word last sent by a read, and its PEC byte -/
  word : Word := 0
  pecOut : Byte := 0
deriving DecidableEq, Repr

end Sys2Proof.Machine
end

