-- ==== Sys2Proof/Machine/State.lean ====
section
/-! DEFINITION. The state of the stack, the ways a step can stop, and the state after power-on reset. -/

namespace Sys2Proof.Machine

open Sys2Proof

/-- The ways a command can end without an effect that the spec gives. -/
inductive Fault where
  /-- R430: a ratio-mode setting whose lane-to-TSV clock ratio is outside 4:1 to 16:1 leaves the stack's behaviour
  undefined. Raised by RATIO_MODE_CHANGE. Safe: the model stops. -/
  | ratioUndefined
deriving DecidableEq, Repr

/-- The reasons for which a command has no meaning in this model. -/
inductive Refusal where
  /-- The command is not modelled yet. Raised by an arm of exec without a meaning. Safe: the model stops. -/
  | notModelled (mnemonic : String)
deriving DecidableEq, Repr

/-- A response of a register write that is sent when its outcome is known (R492, R511): the unit that knows it, the
path, and the response record of a REG slot, but for its status, with its link; `word` for a two-wire word write. A response
whose status is `known` waits for an earlier one of its port (R209). -/
structure Defer where
  otp : Bool
  path : Path
  req : Option (BitVec 128 × Nat) := none
  word : Bool := false
  known : Bool := false
  /-- the transaction of the two-wire word still runs (R520, R524) -/
  inTx : Bool := true
deriving DecidableEq, Repr

/-- The block's state, but for its command queue. -/
structure Block where
  start : Start := {}
  /-- STACK_TIME (R9), and whether it counts from IOSC -/
  time : BitVec 64 := 0
  iosc : Bool := true
  regs : Regs := {}
  img : Image := {}
  ports : Vector Port 16 := Vector.replicate 16 {}
  hnd : Hnd := {}
  srl : Sorrel := {}
  sav : Savory := {}
  chans : Vector Chan 32 := Vector.replicate 32 {}
  ops : Ops := {}
  engs : Vector Eng 32 := Vector.replicate 32 {}
  thm : Thermal := {}
  clk : Clk := {}
  pwr : Pwr := {}
  cal : Cal := {}
  sage : Sage := {}
  otp : Otp := {}
  bst : Bist := {}
  twp : Twp := {}
  /-- the test access port's controller (R74) -/
  tap : TapState := .testLogicReset
  /-- Chervil transfers that have not reached phase 4 between commands: those that stalled (R21, R26) -/
  fabric : List Transfer := []
  /-- single-bit errors of base-die SRAM that the scrubber has corrected; no register shows the count (R343) -/
  sramCe : Nat := 0
  /-- response of the last register write that was a command of its own row -/
  resp : Status := .ok
  defers : List Defer := []
  /-- free values drawn so far (the model's own field) -/
  fresh : Nat := 0
deriving DecidableEq, Repr

/-- The state of the stack: its units, the DRAM of all channels, and the commands that wait. -/
structure State where
  blk : Block := {}
  /-- DRAM: stored lines as bytes, sparse; byte `72 * (2 ^ 26 * channel + physical line) + k` is stored byte k -/
  mem : List Host.Cell := []
  /-- commands waiting, first in first out -/
  pending : List Instr := []
deriving DecidableEq, Repr

/-- The state right after power is applied: PWROK and RESET_N low, every register at its reset value. -/
def State.reset : State := {}

end Sys2Proof.Machine
end

