-- ==== Sys2Proof/Machine/Ops.lean ====
section
/-! DEFINITION. The named operations over the state: sparse stores, bit fields, DRAM bytes, units by number, register
bits, counters and event records. -/

namespace Sys2Proof.Machine

open Sys2Proof

/-- The result of a command. -/
abbrev Res := Host.Outcome State Fault Refusal

/-! ### Sparse stores -/

/-- The value of key `k`; `d` where the store lists none. -/
def mget {α : Type} (m : SMap α) (k : Nat) (d : α) : α :=
  match m with
  | [] => d
  | (j, v) :: t => if j = k then v else mget t k d

/-- Store `v` under key `k`, keeping the keys rising. -/
def mput {α : Type} (m : SMap α) (k : Nat) (v : α) : SMap α :=
  match m with
  | [] => [(k, v)]
  | (j, w) :: t => if j = k then (k, v) :: t else if k < j then (k, v) :: (j, w) :: t else (j, w) :: mput t k v

/-- Store `v` under key `k`; a value equal to the default `d` is not listed. -/
def mset {α : Type} [DecidableEq α] (m : SMap α) (k : Nat) (d v : α) : SMap α :=
  if v = d then m.filter fun e => e.1 != k else mput m k v

/-- Keys rising, no key at the default: the canonical form of a sparse store. -/
def mwf {α : Type} [DecidableEq α] (d : α) : SMap α → Bool
  | [] => true
  | [(_, v)] => decide (v ≠ d)
  | (j, v) :: (k, w) :: t => decide (j < k) && decide (v ≠ d) && mwf d ((k, w) :: t)

/-- Sorted sets of numbers. -/
def sadd (k : Nat) : List Nat → List Nat
  | [] => [k]
  | j :: t => if j = k then j :: t else if k < j then k :: j :: t else j :: sadd k t

/-- Remove a number from a set. -/
def sdel (k : Nat) (l : List Nat) : List Nat := l.filter (· ≠ k)

/-- What goes through a FIFO of `n` places: the newest first, over the oldest. -/
def through {α : Type} (n : Nat) (x : α) (l : List α) : List α := (x :: l).take n

/-! ### Bits and bytes -/

/-- Bits [hi:lo] of a number. -/
def field (x hi lo : Nat) : Nat := (x >>> lo) % 2 ^ (hi + 1 - lo)

/-- Bits [hi:lo] of a register word. -/
def wfield (w : Word) (hi lo : Nat) : Nat := field w.toNat hi lo

/-- A register word from its fields: each value placed at its lowest bit. -/
def word (fs : List (Nat × Nat)) : Word := BitVec.ofNat 32 (fs.foldl (fun a f => a + f.1 <<< f.2) 0)

/-- 1 for true. -/
def b2n (b : Bool) : Nat := if b then 1 else 0

/-- The first `n` bytes of a bit vector, byte 0 its low bits (R9). -/
def bytesOf {w : Nat} (n : Nat) (x : BitVec w) : List Byte :=
  (List.range n).map fun i => BitVec.ofNat 8 ((x.toNat >>> (8 * i)) % 256)

/-- The number whose little-endian bytes are given (R9). -/
def natOfBytes : List Byte → Nat
  | [] => 0
  | b :: t => b.toNat + 256 * natOfBytes t

/-- The 32-bit word at byte offset `i` of a list of bytes. -/
def wordAt (l : List Byte) (i : Nat) : Word := BitVec.ofNat 32 (natOfBytes ((l.drop i).take 4))

/-- `n` bytes at offset `i`, as a number. -/
def natAt (l : List Byte) (i n : Nat) : Nat := natOfBytes ((l.drop i).take n)

/-- Byte `k` of a bit vector. -/
def byteOf {w : Nat} (x : BitVec w) (k : Nat) : Nat := (x.toNat >>> (8 * k)) % 256

/-- Number of ones. -/
def ones {w : Nat} (x : BitVec w) : Nat := ((List.range w).filter fun i => x.getLsbD i).length

/-- Set bit `i`. -/
def bset {w : Nat} (x : BitVec w) (i : Nat) : BitVec w := x ||| BitVec.ofNat w (1 <<< i)

/-- Clear bit `i`. -/
def bclr {w : Nat} (x : BitVec w) (i : Nat) : BitVec w := x &&& ~~~(BitVec.ofNat w (1 <<< i))

/-- Rounded-up division. -/
def ceilDiv (a b : Nat) : Nat := (a + b - 1) / b

/-- The value of a status code (R11). -/
def Status.code : Status → Nat
  | .ok => 0 | .poison => 1 | .poisonKept => 2 | .channelOffline => 3 | .haltedUe => 4 | .tooLate => 5
  | .writeIgnored => 6 | .overcommit => 7 | .noSpace => 8 | .noHandle => 9 | .badArg => 10 | .accessError => 11

/-! ### DRAM bytes -/

/-- What an unlisted byte of DRAM reads as. The spec gives no power-on content; DESIGN CHOICE, never seen by a
command, because a segment is filled before it is read (R30, R35). -/
def memDefault : Byte := 0

/-- The byte at an address. -/
def memGet (m : List Host.Cell) (a : Nat) : Byte := mget m a memDefault

/-- Store a byte, keeping the canonical form. -/
def memSet (m : List Host.Cell) (a : Nat) (v : Byte) : List Host.Cell := mset m a memDefault v

/-- Store a run of bytes at rising addresses. -/
def memSetBytes (m : List Host.Cell) (a : Nat) : List Byte → List Host.Cell
  | [] => m
  | v :: t => memSetBytes (memSet m a v) (a + 1) t

/-- The canonical form of DRAM. -/
def Memory.wf (m : List Host.Cell) : Bool := mwf memDefault m

/-- Byte address of stored byte 0 of physical line `pla` of channel `c` (R336); rows at and above 24,576 are the
soft spare rows of the bank (R338). -/
def lineAddr (c pla : Nat) : Nat := 72 * (2 ^ 26 * c + pla)

/-- The 72-byte stored form at a line (R323). -/
def dramGet (m : List Host.Cell) (c pla : Nat) : Stored :=
  BitVec.ofNat 576 (natOfBytes ((List.range 72).map fun i => memGet m (lineAddr c pla + i)))

/-- Store the 72 bytes of a line. -/
def dramSet (m : List Host.Cell) (c pla : Nat) (v : Stored) : List Host.Cell :=
  memSetBytes m (lineAddr c pla) (bytesOf 72 v)

/-! ### Units by number -/

/-- Apply a change to the block, leaving DRAM and the queue as they are. -/
def State.upd (s : State) (b : Block) : State := { s with blk := b }

/-- Change one port. -/
def modPort (p : PortId) (f : Port → Port) (b : Block) : Block :=
  { b with ports := b.ports.set p (f b.ports[p]) }

/-- Change one channel. -/
def modChan (c : ChanId) (f : Chan → Chan) (b : Block) : Block :=
  { b with chans := b.chans.set c (f b.chans[c]) }

/-- Change one engine. -/
def modEng (e : EngId) (f : Eng → Eng) (b : Block) : Block :=
  { b with engs := b.engs.set e (f b.engs[e]) }

/-- Change one quadrant of Savory. -/
def modSavQ (q : QuadId) (f : SavQ → SavQ) (b : Block) : Block :=
  { b with sav := { b.sav with q := b.sav.q.set q (f b.sav.q[q]) } }

/-- Run a change for every unit number in turn, in ascending order. -/
def forAll (n : Nat) (f : Fin n → Block → Block) (b : Block) : Block :=
  (List.finRange n).foldl (fun b i => f i b) b

/-- Change every port. -/
def allPorts (f : Port → Port) (b : Block) : Block := { b with ports := b.ports.map f }

/-- Change every channel. -/
def allChans (f : Chan → Chan) (b : Block) : Block := { b with chans := b.chans.map f }

/-- A unit number as an index; numbers at or above the count wrap (callers pass numbers in range). -/
def pid (n : Nat) : PortId := Fin.ofNat 16 n
/-- A channel number as an index. -/
def cid (n : Nat) : ChanId := Fin.ofNat 32 n
/-- An engine number as an index. -/
def eid (n : Nat) : EngId := Fin.ofNat 32 n
/-- A quadrant number as an index. -/
def qid (n : Nat) : QuadId := Fin.ofNat 4 n

/-- The quadrant of a channel (R14). -/
def quadOf (c : Nat) : QuadId := qid (c / 8)

/-- A stored bank of a channel. -/
def Chan.bank (c : Chan) (k : Nat) : Bank := mget c.banks k {}

/-- Change one bank of a channel. -/
def Chan.modBank (c : Chan) (k : Nat) (f : Bank → Bank) : Chan :=
  { c with banks := mset c.banks k {} (f (c.bank k)) }

/-- STACK_TIME as a number of 10 ns ticks. -/
def Block.now (b : Block) : Nat := b.time.toNat

/-- The management timer's strobe: STACK_TIME is at a multiple of `period` ticks (R25). -/
def strobe (period : Nat) (b : Block) : Bool := b.now % period == 0

/-- READY has been reached and no safe state followed (R94). -/
def Block.ready (b : Block) : Bool := b.start.done && !b.start.chive

/-- CHIVE has been reached. -/
def Block.inChive (b : Block) : Bool := b.start.done && b.start.chive

/-! ### Counters (R62, R63) -/

/-- The largest count of an error, event or latency-miss counter. -/
def ctrMax : Nat := 0xFFFFFFFF

/-- The count of the counter at a register address. -/
def ctr (addr : Nat) (b : Block) : Word := mget b.regs.ctr addr 0

/-- Count `n` events, saturating (R62). -/
def ctrAdd (addr n : Nat) (b : Block) : Block :=
  { b with regs := { b.regs with
      ctr := mset b.regs.ctr addr 0 (BitVec.ofNat 32 (min ctrMax ((ctr addr b).toNat + n))) } }

/-- Clear a counter (R63). -/
def ctrClear (addr : Nat) (b : Block) : Block :=
  { b with regs := { b.regs with ctr := mset b.regs.ctr addr 0 0 } }

/-- The sat flag of a counter: it is set when the count saturates (R62) and cleared with it (R63). -/
def ctrSat (addr : Nat) (b : Block) : Bool := (ctr addr b).toNat == ctrMax

/-! ### Event bits of RC fields (R45) -/

/-- Set bit `i` of the RC register at `addr`. -/
def rcSet (addr i : Nat) (b : Block) : Block :=
  { b with regs := { b.regs with rc := mset b.regs.rc addr 0 (bset (mget b.regs.rc addr 0) i) } }

/-- The RC bits of a register. -/
def rcGet (addr : Nat) (b : Block) : Word := mget b.regs.rc addr 0

/-- Clear the RC bits of a register that a live read returned (R46). -/
def rcClear (addr : Nat) (b : Block) : Block :=
  { b with regs := { b.regs with rc := mset b.regs.rc addr 0 0 } }

/-! ### Block base addresses (R42) -/

def sageBase : Nat := 0x1000
def clkBase : Nat := 0x2000
def pwrBase : Nat := 0x3000
def thmBase : Nat := 0x4000
def otpBase : Nat := 0x5000
def bstBase : Nat := 0x6000
def twpBase : Nat := 0x7000
def calBase : Nat := 0x8000
def lnkBase (p : Nat) : Nat := 0x10000 + p * 0x1000
def hndBase : Nat := 0x20000
def srlBase : Nat := 0x30000
def savBase : Nat := 0x38000
def chnBase (c : Nat) : Nat := 0x40000 + c * 0x1000
def engBase (e : Nat) : Nat := 0x60000 + e * 0x1000
def supBase : Nat := 0x80000

/-! ### Events (R195, R462) -/

/-- An event: code and detail words. -/
structure Ev where
  code : Nat
  lo : Word := 0
  hi : Word := 0
  nme : Bool := false
deriving DecidableEq, Repr

/-- Place an event record in a port's transmit path (R195): it takes the port's next evt_seq. -/
def pushEvent (e : Ev) (time : BitVec 64) (p : Port) : Port :=
  { p with
    evtSeq := p.evtSeq + 1
    txEv := p.txEv ++ [BitVec.ofNat 128 (1 + b2n e.nme <<< 4 + p.evtSeq.toNat <<< 8 + e.code <<< 16
      + (time.toNat % 2 ^ 32) <<< 32 + e.lo.toNat <<< 64 + e.hi.toNat <<< 96)] }

/-- A port that events go on (R462): ACTIVE, or idled by a power state, which the raise ends (R460). -/
def evPort (b : Block) (p : Port) : Bool :=
  p.st == .active || (p.st == .idle && b.pwr.state != 0)

/-- Send an event on every ACTIVE port of a port mask. No events are sent in the safe state and in the thermal safe state (R412,
R470). -/
def emit (mask : BitVec 16) (e : Ev) (b : Block) : Block :=
  if b.sage.safe || b.thm.safe then b else
  forAll 16 (fun p b =>
    if mask.getLsbD p.val && evPort b b.ports[p] then modPort p (pushEvent e b.time) b else b) b

/-- Every port. -/
def allMask : BitVec 16 := 0xFFFF

/-- Draw a free value (the spec leaves it open). -/
def draw (b : Block) : Word × Block := (Config.freeWord b.fresh, { b with fresh := b.fresh + 1 })

end Sys2Proof.Machine
end

