-- ==== Sys2Proof/Machine/Floats.lean ====
section
/-! DEFINITION. Lane arithmetic of REDUCE (R356): int32, IEEE 754 binary32 and bfloat16. -/

namespace Sys2Proof.Machine

open Sys2Proof

/-- The canonical quiet NaN of binary32. -/
def f32NaN : Word := 0x7FC00000

def f32IsNaN (x : Word) : Bool := wfield x 30 23 == 255 && wfield x 22 0 != 0
def f32IsInf (x : Word) : Bool := wfield x 30 0 == 0x7F800000

/-- The value of a finite binary32 number in units of 2^-149. -/
def f32Int (x : Word) : Int :=
  let e := wfield x 30 23
  let m := wfield x 22 0
  let v : Nat := if e = 0 then m else (m + 2 ^ 23) <<< (e - 1)
  if x.msb then - (v : Int) else v

/-- Round a number to a multiple of 2^k, ties to even, and give the quotient. -/
def roundEven (v k : Nat) : Nat :=
  let q := v >>> k
  let r := v % 2 ^ k
  if k = 0 then v
  else if 2 * r > 2 ^ k ∨ (2 * r = 2 ^ k ∧ q % 2 = 1) then q + 1 else q

/-- The binary32 number nearest to a magnitude in units of 2^-149, with the given sign. -/
def f32Round (neg : Bool) (v : Nat) : Word :=
  let s := b2n neg <<< 31
  if v < 2 ^ 24 then BitVec.ofNat 32 (s + (if v < 2 ^ 23 then v else (1 <<< 23) + (v - 2 ^ 23)))
  else
    let k := Nat.log2 v - 23
    let q := roundEven v k
    let k' := if q = 2 ^ 24 then k + 1 else k
    let m := if q = 2 ^ 24 then 0 else q - 2 ^ 23
    if k' + 1 ≥ 255 then BitVec.ofNat 32 (s + 0x7F800000)
    else BitVec.ofNat 32 (s + (k' + 1) <<< 23 + m)

/-- Addition, round to nearest even; any NaN, or infinities of opposite sign, give the canonical NaN. -/
def f32Add (x y : Word) : Word :=
  if f32IsNaN x || f32IsNaN y then f32NaN
  else if f32IsInf x then (if f32IsInf y && x != y then f32NaN else x)
  else if f32IsInf y then y
  else
    let z := f32Int x + f32Int y
    if z = 0 then (if x.msb && y.msb then 0x80000000 else 0)
    else f32Round (z < 0) z.natAbs

/-- A key that orders binary32 numbers, −0 below +0. -/
def f32Key (x : Word) : Nat := if x.msb then (~~~x).toNat else x.toNat + 2 ^ 31

/-- Minimum (or maximum) of binary32 numbers. -/
def f32Sel (max : Bool) (x y : Word) : Word :=
  if f32IsNaN x || f32IsNaN y then f32NaN
  else if (f32Key x ≤ f32Key y) = max then y else x

/-- Widen a bfloat16 number exactly. -/
def bfWiden (x : BitVec 16) : Word := x.zeroExtend 32 <<< 16

/-- Round a binary32 number to bfloat16, ties to even. -/
def bfRound (x : Word) : BitVec 16 :=
  if f32IsNaN x then 0x7FC0 else BitVec.ofNat 16 (roundEven x.toNat 16)

/-- Signed minimum or maximum of int32 lanes. -/
def i32Sel (max : Bool) (x y : Word) : Word := if (x.sle y) = max then y else x

/-- The lane types of REDUCE. -/
inductive LaneTy where
  | int32 | binary32 | bfloat16
deriving DecidableEq, Repr

/-- The input lanes of a line, as 32-bit values (bfloat16 widened). -/
def laneIn (t : LaneTy) (d : Line) : List Word :=
  match t with
  | .bfloat16 => (List.range 32).map fun i => bfWiden (BitVec.ofNat 16 (field d.toNat (16 * i + 15) (16 * i)))
  | _ => (List.range 16).map fun i => BitVec.ofNat 32 (field d.toNat (32 * i + 31) (32 * i))

/-- Fold one value into a lane: operation 0 sum, 1 minimum, 2 maximum. -/
def laneOp (t : LaneTy) (op : Nat) (x y : Word) : Word :=
  match t with
  | .int32 => if op = 0 then x + y else i32Sel (op == 2) x y
  | _ => if op = 0 then f32Add x y else f32Sel (op == 2) x y

/-- A lane value as it stands for a single input: a NaN input gives the canonical NaN. -/
def laneOne (t : LaneTy) (x : Word) : Word :=
  match t with
  | .int32 => x
  | _ => if f32IsNaN x then f32NaN else x

/-- Fold lanes. -/
def lanesOp (t : LaneTy) (op : Nat) (xs ys : List Word) : List Word := List.zipWith (laneOp t op) xs ys

/-- The result line of REDUCE from its lanes (bfloat16 rounded once). -/
def laneOut (t : LaneTy) (xs : List Word) : Line :=
  match t with
  | .bfloat16 => BitVec.ofNat 512 (((List.range 32).map fun i => (bfRound (xs.getD i 0)).toNat <<< (16 * i)).sum)
  | _ => BitVec.ofNat 512 (((List.range 16).map fun i => (xs.getD i 0).toNat <<< (32 * i)).sum)

end Sys2Proof.Machine
end

