-- ==== Sys2Proof/Machine/Codes.lean ====
section
/-! DEFINITION. The codes the stack computes: its CRCs, the lane scrambler, the Reed–Solomon line code with poison, and the
SEC-DED words. -/

namespace Sys2Proof.Machine

open Sys2Proof

/-! ### CRCs -/

/-- One byte into a CRC register of `w` bits, most significant bit first. -/
def crcByteMsb (w poly : Nat) (crc : Nat) (b : Byte) : Nat :=
  (List.range 8).foldl (fun c i =>
    let top := (c >>> (w - 1)) % 2
    let c := (c <<< 1) % 2 ^ w
    if (top + (b.toNat >>> (7 - i))) % 2 = 1 then c ^^^ poly else c) crc

/-- CRC-64 of a flit (R203): ECMA-182, initial value 0, most significant bit first. -/
def crc64 (l : List Byte) : BitVec 64 := BitVec.ofNat 64 (l.foldl (crcByteMsb 64 0x42F0E1EBA9EA3693) 0)

/-- CRC-16 of a training block (R151): polynomial 0x1021, initial value 0xFFFF, most significant bit first (DEDUCED). -/
def crc16 (l : List Byte) : BitVec 16 := BitVec.ofNat 16 (l.foldl (crcByteMsb 16 0x1021) 0xFFFF)

/-- The PEC of the two-wire port (R527): CRC-8, polynomial x^8 + x^2 + x + 1, initial value 0. -/
def crc8 (l : List Byte) : Byte := BitVec.ofNat 8 (l.foldl (crcByteMsb 8 0x07) 0)

/-- One byte into the reflected CRC-32C register (R113). -/
def crc32cByte (c : Nat) (b : Byte) : Nat :=
  (List.range 8).foldl (fun c _ => if c % 2 = 1 then (c >>> 1) ^^^ 0x82F63B78 else c >>> 1) (c ^^^ b.toNat)

/-- CRC-32C of a byte string (R113). -/
def crc32c (l : List Byte) : Word := BitVec.ofNat 32 (l.foldl crc32cByte 0xFFFFFFFF ^^^ 0xFFFFFFFF)

/-- The CRC-32C of two strings in a row, from the CRC of each and the length of the second (R359). -/
def crc32cJoin (a b : Word) (len : Nat) : Word :=
  BitVec.ofNat 32 ((List.range len).foldl (fun c _ => crc32cByte c 0) a.toNat) ^^^ b

/-! ### The lane scrambler (R150) -/

/-- The feedback bit of a scrambler register. -/
def scrBit (s : BitVec 23) : Bool := s.getLsbD 22 != s.getLsbD 17

/-- The register after one bit. -/
def scrNext (s : BitVec 23) : BitVec 23 := (s <<< 1) ||| (if scrBit s then 1 else 0)

/-- Scramble (or descramble) the bytes of one lane, least significant bit first. -/
def scrBytes (s : BitVec 23) : List Byte → BitVec 23 × List Byte
  | [] => (s, [])
  | b :: t =>
    let r := (List.range 8).foldl (fun (a : BitVec 23 × Nat) i =>
      (scrNext a.1, if scrBit a.1 then a.2 + 2 ^ i else a.2)) (s, 0)
    let rest := scrBytes r.1 t
    (rest.1, (b ^^^ BitVec.ofNat 8 r.2) :: rest.2)

/-- The scrambler seed of logical lane `l`: 0x7F_FF00 plus the lane number. -/
def scrSeed (l : Nat) : BitVec 23 := 0x7FFF00#23 + BitVec.ofNat 23 l

/-- The scramblers of all lanes at their seeds. -/
def scrSeeds : Vector (BitVec 23) 21 := Vector.ofFn fun i => scrSeed i.val

/-- Scramble (or descramble) the 360 bytes of a flit over `width` lanes (R149): byte j travels on lane j mod width. -/
def scrFlit (width : Nat) (scr : Vector (BitVec 23) 21) (bytes : List Byte) :
    Vector (BitVec 23) 21 × List Byte :=
  let lanes := (List.range width).map fun l =>
    scrBytes (scr.toList.getD l 0) ((List.range (360 / width)).map fun k => bytes.getD (k * width + l) 0)
  (Vector.ofFn fun i => if i.val < width then (lanes.getD i.val (0, [])).1 else scr[i],
   (List.range 360).map fun j => ((lanes.getD (j % width) (0, [])).2).getD (j / width) 0)

/-! ### The line code (R321 to R327) -/

/-- Multiply by x in GF(2^16) with p(x) = x^16 + x^12 + x^3 + x + 1. -/
def gfX (a : Nat) : Nat := if a < 0x8000 then a <<< 1 else ((a <<< 1) ^^^ 0x1100B) % 65536

/-- Multiplication in GF(2^16). -/
def gfMul (a b : Nat) : Nat :=
  ((List.range 16).foldl (fun (r : Nat × Nat) i => (if (b >>> i) % 2 = 1 then r.1 ^^^ r.2 else r.1, gfX r.2)) (0, a)).1

/-- α^k, with α = x. -/
def gfExp (k : Nat) : Nat := (List.range k).foldl (fun a _ => gfX a) 1

/-- The inverse of a non-zero element: a^(2^16 - 2). -/
def gfInv (a : Nat) : Nat :=
  ((List.range 15).foldl (fun (r : Nat × Nat) _ => let s := gfMul r.2 r.2; (gfMul r.1 s, s)) (1, a)).1

/-- The coefficients of g(x) = (x + α^0)(x + α^1)(x + α^2)(x + α^3), from x^0 to x^3; that of x^4 is 1. -/
def rsGen : List Nat :=
  ((List.range 4).foldl (fun (g : List Nat) j =>
    let r := gfExp j
    List.zipWith (· ^^^ ·) (0 :: g) (g.map (gfMul r) ++ [0])) [1]).take 4

/-- Symbol `n` of a stored line by symbol number (R323): 0 to 31 data, 32 to 35 check. -/
def symbolOf (v : Stored) (n : Nat) : Nat :=
  if n < 32 then byteOf v n + 256 * byteOf v (n + 32)
  else byteOf v (64 + (n - 32)) + 256 * byteOf v (64 + (n - 32) + 4)

/-- The stored bits of a value in symbol `n`. -/
def symbolMask (n val : Nat) : Stored :=
  if n < 32 then BitVec.ofNat 576 ((val % 256) <<< (8 * n) + (val / 256) <<< (8 * (n + 32)))
  else BitVec.ofNat 576 ((val % 256) <<< (8 * (32 + n)) + (val / 256) <<< (8 * (36 + n)))

/-- The code position of symbol `n` (R323): data symbol s at x^(s+4), check symbol k at x^k. -/
def symPos (n : Nat) : Nat := if n < 32 then n + 4 else n - 32

/-- The four check symbols of 32 data symbols: the remainder of the data polynomial times x^4 by g(x) (R322). -/
def rsCheck (d : Line) : List Nat :=
  (List.range 32).reverse.foldl (fun (r : List Nat) s =>
    let fb := (byteOf d s + 256 * byteOf d (s + 32)) ^^^ r.getD 3 0
    List.zipWith (· ^^^ ·) (0 :: r.take 3) (rsGen.map (gfMul fb))) [0, 0, 0, 0]

/-- The check bytes of a line, with a pattern XORed into its check symbols. -/
def encodeWith (d : Line) (pat : List Nat) : Stored :=
  let cs := List.zipWith (· ^^^ ·) (rsCheck d) pat
  (List.range 4).foldl (fun (v : Stored) k => v ||| symbolMask (32 + k) (cs.getD k 0)) (d.zeroExtend 576)

/-- The stored form of a line (R322). -/
def encode (d : Line) : Stored := encodeWith d [0, 0, 0, 0]

/-- The poison pattern P (R324). -/
def poisonPat : List Nat := [0x5A3C, 0xC3A5, 0x96E1, 0x1E69]

/-- The stored form of a poisoned line (R324): its data symbols as written, its check symbols XORed with P. -/
def encodePoison (d : Line) : Stored := encodeWith d poisonPat

/-- The stored form of a line, poisoned or not. -/
def encodeP (poison : Bool) (d : Line) : Stored := if poison then encodePoison d else encode d

/-- The line data of a stored form. -/
def lineOf (v : Stored) : Line := v.truncate 512

/-- The four syndromes S_j = c(α^j) (R322). -/
def syndrome (v : Stored) : List Nat :=
  (List.range 4).map fun j =>
    (List.range 36).foldl (fun a n => a ^^^ gfMul (symbolOf v n) (gfExp (j * symPos n))) 0

/-- The syndrome of the poison pattern. -/
def synP : List Nat := syndrome ((List.range 4).foldl (fun (v : Stored) k => v ||| symbolMask (32 + k) (poisonPat.getD k 0)) 0)

/-- The one symbol error with syndrome `s`: symbol number and value. -/
def err1 (s : List Nat) : Option (Nat × Nat) :=
  let e := s.getD 0 0
  if e = 0 then none else
  ((List.range 36).find? fun n =>
    (List.range 4).all fun j => s.getD j 0 == gfMul e (gfExp (j * symPos n))).map fun n => (n, e)

/-- The two-symbol error on symbols `m` < `n` with syndrome `s`. -/
def errPair (s : List Nat) (m n : Nat) : Option (Nat × Nat) :=
  let a := gfExp (symPos m)
  let b := gfExp (symPos n)
  let e1 := gfMul (s.getD 1 0 ^^^ gfMul (s.getD 0 0) b) (gfInv (a ^^^ b))
  let e2 := s.getD 0 0 ^^^ e1
  if e1 ≠ 0 ∧ e2 ≠ 0 ∧
      gfMul e1 (gfExp (2 * symPos m)) ^^^ gfMul e2 (gfExp (2 * symPos n)) = s.getD 2 0 ∧
      gfMul e1 (gfExp (3 * symPos m)) ^^^ gfMul e2 (gfExp (3 * symPos n)) = s.getD 3 0
  then some (e1, e2) else none

/-- The two-symbol error with syndrome `s`: symbols and values. -/
def err2 (s : List Nat) : Option ((Nat × Nat) × (Nat × Nat)) :=
  (List.range 36).findSome? fun m =>
    (List.range 36).findSome? fun n =>
      if m < n then (errPair s m n).map fun e => ((m, e.1), (n, e.2)) else none

/-- A decoding outcome (R326). -/
inductive Decoded where
  | clean
  | corrected1 (sym : Nat)
  | corrected2 (symA symB : Nat)
  | poisoned
  | uncorrectable
deriving DecidableEq, Repr

/-- Decode a stored line in guarded or double-correct mode (R326): the outcome and the stored form corrected. -/
def decodeLine (double : Bool) (v : Stored) : Decoded × Stored :=
  let s := syndrome v
  if s = [0, 0, 0, 0] then (.clean, v) else
  match err1 s with
  | some (n, e) => (.corrected1 n, v ^^^ symbolMask n e)
  | none =>
    match (if double then err2 s else none) with
    | some ((m, e), (n, f)) => (.corrected2 m n, v ^^^ symbolMask m e ^^^ symbolMask n f)
    | none =>
      let t := List.zipWith (· ^^^ ·) s synP
      if s = synP ∨ (err1 t).isSome then (.poisoned, v) else (.uncorrectable, v)

/-- Whether an outcome is a correction. -/
def Decoded.corrected : Decoded → Bool
  | .corrected1 _ | .corrected2 _ _ => true
  | _ => false

/-! ### SEC-DED words (R480) -/

/-- The codeword of 64 data bits: check byte above the data. -/
def secded (d : BitVec 64) : BitVec 72 := (Config.secdedCheck d) ++ d

/-- Decode a SEC-DED word: the data and whether a bit was corrected; `none` when it is uncorrectable. A word without charge reads as
zero, and clean (log entry 127). -/
def secdedDecode (w : BitVec 72) : Option (BitVec 64 × Bool) :=
  let d : BitVec 64 := w.truncate 64
  if w = 0 ∨ secded d = w then some (d, false) else
  match (List.range 72).find? fun i =>
      let v := w ^^^ BitVec.ofNat 72 (1 <<< i)
      secded (v.truncate 64) == v with
  | some i => some ((w ^^^ BitVec.ofNat 72 (1 <<< i)).truncate 64, true)
  | none => none

end Sys2Proof.Machine
end

