-- ==== Sys2Proof/Machine/Regs.lean ====
section
/-! DEFINITION. The register file: which registers exist, their RW bits and reset values, the live values and the
commit buffers. -/

namespace Sys2Proof.Machine

open Sys2Proof

/-- The kind of a register that occupies an offset. -/
inductive RegKind where
  /-- RW bits of a mask with a reset value; the other bits are RO, RC or RSV -/
  | rw (mask reset : Word)
  /-- an error, event or latency-miss counter (R63) -/
  | counter
  /-- no RW bits -/
  | ro
deriving DecidableEq, Repr

/-- The blocks of R42: base address of the block that holds an address. -/
def blockBase (a : Nat) : Option Nat :=
  let base := a / 0x1000 * 0x1000
  if base ≤ 0x8000 then some base
  else if 0x10000 ≤ base ∧ base < 0x20000 then some base
  else if base = 0x20000 ∨ base = 0x30000 ∨ base = 0x38000 ∨ base = 0x80000 then some base
  else if 0x40000 ≤ base ∧ base < 0x80000 then some base
  else none

/-- Registers at offsets lo, lo + 4, …, hi. -/
def inRun (o lo hi : Nat) : Bool := lo ≤ o && o ≤ hi && (o - lo) % 4 == 0

/-- Default class table (R270). -/
def classReset : List Word :=
  [0x000107D0, 0x000305DC, 0x000503E8, 0x00070258, 0x00090190, 0x000B00C8, 0x001D0050, 0x001F0028]

/-- Default thermal thresholds (R405): core warning, throttle, shutdown, base warning, throttle, shutdown, each with its
hysteresis. -/
def limitReset : List Word := [0x58000300, 0x5F000400, 0x69000A00, 0x64000300, 0x6C000400, 0x78000A00]

/-- The registers of the IDN block (R64, R145). -/
def idnReg (o : Nat) : Option RegKind :=
  if o = 0x14 then some (.rw 3 0)
  else if o = 0x40 then some (.rw 0xC 0)
  else if o = 0x00 ∨ o = 0x08 ∨ o = 0x0C ∨ o = 0x10 ∨ inRun o 0x18 0x24 ∨ inRun o 0x44 0x5C ∨ inRun o 0x60 0x7C
    ∨ o = 0x7FC then some .ro
  else none

/-- The registers of the SAGE block (R477 onwards). -/
def sageReg (o : Nat) : Option RegKind :=
  if o = 0x14 then some (.rw 0x1FF 0)
  else if o = 0x1C then some .counter
  else if o = 0x20 then some (.rw 0xFF 0)
  else if inRun o 0x00 0x10 ∨ o = 0x18 ∨ inRun o 0x40 0x9C ∨ inRun o 0x100 0x1FC ∨ o = 0x7FC then some .ro
  else none

/-- The registers of the CLK block (R443). -/
def clkReg (o : Nat) : Option RegKind :=
  if o = 0x00 then some (.rw 1 0)
  else if o = 0x04 then some (.rw 3 1)
  else if o = 0x08 then some (.rw 7 7)
  else if o = 0x18 then some (.rw 0x1F03 0x0403)
  else if o = 0x20 then some (.rw 0x7FFF 0x3FFF)
  else if o = 0x24 then some (.rw 0x7FFF 0x00FF)
  else if o = 0x28 then some (.rw 0x7FFF 0)
  else if o = 0x30 then some .counter
  else if o = 0x0C ∨ o = 0x10 ∨ o = 0x14 ∨ o = 0x2C ∨ o = 0x7FC then some .ro
  else none

/-- The registers of the PWR block (R444). -/
def pwrReg (o : Nat) : Option RegKind :=
  if o = 0x00 then some (.rw 7 4)
  else if o = 0x10 ∨ o = 0x14 then some (.rw 0xFFFFFFFF 0)
  else if o = 0x18 then some (.rw 0x1F 0x14)
  else if inRun o 0x20 0x30 then some .counter
  else if o = 0x04 ∨ o = 0x08 ∨ o = 0x0C ∨ o = 0x34 ∨ o = 0x7FC then some .ro
  else none

/-- The registers of the THM block (R417). -/
def thmReg (o : Nat) : Option RegKind :=
  if inRun o 0x10 0x24 then some (.rw 0xFFFFFFFF (limitReset.getD ((o - 0x10) / 4) 0))
  else if inRun o 0x00 0x0C ∨ inRun o 0x40 0x4C ∨ inRun o 0x60 0x74 ∨ inRun o 0x80 0x94 ∨ inRun o 0x100 0x20C
    ∨ inRun o 0x300 0x5FC ∨ o = 0x7FC then some .ro
  else none

/-- The registers of the OTP block (R502). -/
def otpReg (o : Nat) : Option RegKind :=
  if o = 0x00 then some (.rw 0xE 0)
  else if o = 0x04 then some (.rw 0x3FF 0)
  else if inRun o 0x08 0x30 ∨ o = 0x40 ∨ inRun o 0x48 0x54 ∨ inRun o 0x60 0xFC ∨ o = 0x7FC then some .ro
  else none

/-- The registers of the BST block (R513). -/
def bstReg (o : Nat) : Option RegKind :=
  if o = 0x04 then some (.rw 0xFFFF 0)
  else if o = 0x1C then some (.rw 0x1FF 0)
  else if o = 0x2C then some .counter
  else if inRun o 0x00 0x34 ∨ o = 0x7FC then some .ro
  else none

/-- The registers of the TWP block (R530). -/
def twpReg (o : Nat) : Option RegKind :=
  if o = 0x00 then some (.rw 1 0)
  else if o = 0x14 ∨ o = 0x18 then some .counter
  else if inRun o 0x04 0x10 ∨ o = 0x1C ∨ o = 0x7FC then some .ro
  else none

/-- The registers of the CAL block (R451). -/
def calReg (o : Nat) : Option RegKind :=
  if o = 0x00 then some (.rw 0x1F06 0)
  else if o = 0x04 then some (.rw 0xFFFFFF0F 0x01903302)
  else if o = 0x1C then some (.rw 0xFF 0)
  else if inRun o 0x08 0x20 ∨ inRun o 0x30 0x3C ∨ inRun o 0x100 0x17C ∨ o = 0x7FC then some .ro
  else none

/-- The registers of an LNK block (R178, R213). -/
def lnkReg (o : Nat) : Option RegKind :=
  if o = 0x00 then some (.rw 1 0)
  else if o = 0x04 then some (.rw 0xFFFE 0x084E)
  else if o = 0x1C then some (.rw 0xD 0xC)
  else if inRun o 0x20 0x28 ∨ inRun o 0x100 0x150 then some .counter
  else if inRun o 0x08 0x18 ∨ inRun o 0x2C 0x34 ∨ inRun o 0x180 0x1D0 ∨ o = 0x7FC then some .ro
  else none

/-- The registers of the HND block (R237). -/
def hndReg (o : Nat) : Option RegKind :=
  if o = 0x00 then some (.rw 0xE 0)
  else if o = 0x04 then some (.rw 0xFFF 0)
  else if o = 0x08 then some (.rw 0x1FFFFF 0)
  else if o = 0x0C then some (.rw 0xFFFFF77F 0)
  else if o = 0x10 then some (.rw 0x7FFFF 0)
  else if inRun o 0x20 0x34 ∨ inRun o 0x40 0x50 ∨ o = 0x60 ∨ o = 0x7FC then some .ro
  else none

/-- The registers of the SRL block (R267). -/
def srlReg (o : Nat) : Option RegKind :=
  if o = 0x00 then some (.rw 0xF 0)
  else if o = 0x04 then some (.rw 0xFFF 0)
  else if o = 0x08 then some (.rw 0x1FFFFF 0)
  else if o = 0x0C then some (.rw 0x3F 0x3F)
  else if o = 0x20 then some (.rw 0xFFFF 0x641E)
  else if o = 0x24 then some (.rw 0xF 0xC)
  else if o = 0x28 then some (.rw 0xFFFFFFFF 0x04000808)
  else if o = 0x2C then some (.rw 0x00FF0FFF 0x00100355)
  else if o = 0x30 then some (.rw 0xFFFFFFFF 0x00800040)
  else if o = 0x34 then some (.rw 0xFF 0x10)
  else if inRun o 0x44 0x50 then some .counter
  else if inRun o 0x10 0x1C ∨ o = 0x40 ∨ inRun o 0x54 0x60 ∨ o = 0x7FC then some .ro
  else none

/-- The registers of the SAV block (R289). -/
def savReg (o : Nat) : Option RegKind :=
  if inRun o 0x00 0x1C then some (.rw 0x1FFFFF (classReset.getD (o / 4) 0))
  else if o = 0x20 then some (.rw 0xFFFF 0x190)
  else if o = 0x24 then some (.rw 3 3)
  else if o = 0x28 ∨ o = 0x2C ∨ inRun o 0x40 0x6C ∨ inRun o 0x80 0x9C ∨ o = 0x7FC then some .ro
  else none

/-- The registers of a CHN block (R290, R320, R348). -/
def chnReg (o : Nat) : Option RegKind :=
  if o = 0x04 then some (.rw 0x007F007F 0x00300010)
  else if o = 0x08 then some (.rw 0xFF 0x14)
  else if o = 0x0C then some (.rw 0x003FF0FF 0x00208028)
  else if o = 0x10 then some (.rw 0x11F 0x11B)
  else if o = 0x14 then some (.rw 0xFFFF 0x40)
  else if o = 0x18 then some (.rw 0x1FF 0x10A)
  else if o = 0x100 then some (.rw 0x1FF01 0x11801)
  else if o = 0x114 then some (.rw 0xFFFF 0x6408)
  else if inRun o 0x60 0x68 ∨ inRun o 0x120 0x138 then some .counter
  else if inRun o 0x600 0x67C then (if o % 16 < 8 then some .ro else some .counter)
  else if o = 0x00 ∨ o = 0x1C ∨ o = 0x20 ∨ inRun o 0x40 0x54 ∨ o = 0x6C ∨ inRun o 0x104 0x110 ∨ o = 0x118
    ∨ o = 0x11C ∨ inRun o 0x13C 0x144 ∨ inRun o 0x180 0x1BC ∨ inRun o 0x200 0x5FC ∨ o = 0x680 ∨ o = 0x7FC
    then some .ro
  else none

/-- The registers of an ENG block (R396). -/
def engReg (o : Nat) : Option RegKind :=
  if o = 0x00 then some (.rw 1 0)
  else if o = 0x10 then some (.rw 0xFF 0x32)
  else if o = 0x14 then some .counter
  else if inRun o 0x04 0x0C ∨ o = 0x18 ∨ o = 0x20 ∨ o = 0x24 ∨ o = 0x7FC then some .ro
  else none

/-- The registers of the SUP block (R376, R397, and the start registers). -/
def supReg (o : Nat) : Option RegKind :=
  if o = 0x08 then some (.rw 0xF 4)
  else if o = 0x600 then some (.rw 0xE 0)
  else if o = 0x604 then some (.rw 0xFFF 0)
  else if o = 0x704 then some (.rw 2 0)
  else if o = 0x18 ∨ o = 0x1C then some .counter
  else if o = 0x00 ∨ o = 0x04 ∨ inRun o 0x0C 0x14 ∨ o = 0x20 ∨ inRun o 0x608 0x614 ∨ o = 0x700 ∨ o = 0x7FC
    then some .ro
  else none

/-- The register at a live address (R42, R44): `none` where no register lies. -/
def regAt (a : Nat) : Option RegKind :=
  match blockBase a with
  | none => none
  | some base =>
    let o := a - base
    if o % 4 ≠ 0 then none
    else if base = 0 then idnReg o
    else if base = sageBase then sageReg o
    else if base = clkBase then clkReg o
    else if base = pwrBase then pwrReg o
    else if base = thmBase then thmReg o
    else if base = otpBase then otpReg o
    else if base = bstBase then bstReg o
    else if base = twpBase then twpReg o
    else if base = calBase then calReg o
    else if base < 0x20000 then lnkReg o
    else if base = hndBase then hndReg o
    else if base = srlBase then srlReg o
    else if base = savBase then savReg o
    else if base < 0x60000 then chnReg o
    else if base < 0x80000 then engReg o
    else supReg o

/-- Reset value of the RW bits at an address. -/
def rwReset (a : Nat) : Word := match regAt a with | some (.rw _ r) => r | _ => 0

/-- RW bits at an address. -/
def rwMask (a : Nat) : Word := match regAt a with | some (.rw m _) => m | _ => 0

/-- The live RW bits of a register. -/
def rw (a : Nat) (b : Block) : Word := mget b.regs.live a (rwReset a)

/-- Bits [hi:lo] of the live RW bits of a register. -/
def rwf (a hi lo : Nat) (b : Block) : Nat := wfield (rw a b) hi lo

/-- Make a value live, with fresh parity (R57, R58). -/
def setLive (a : Nat) (v : Word) (b : Block) : Block :=
  { b with regs := { b.regs with
      live := mset b.regs.live a (rwReset a) v, badPar := sdel a b.regs.badPar } }

/-- Base address of the block that holds a register address. -/
def baseOf (a : Nat) : Nat := a / 0x1000 * 0x1000

/-- The value a register's RW bits will hold after the next commit (R54); IDN_REG_OWNER has a home of its own. -/
def shadow (a : Nat) (b : Block) : Word :=
  match b.regs.pend.find? (fun w => w.addr == a) with
  | some w => w.value
  | none => if a = 0x14 then b.regs.owner.zeroExtend 32 else rw a b

/-- Put a write in its block's commit buffer; a pending value of the same register is replaced (R52). A write that arrives
during a forced commit is no part of it (R55). It replaces a value of the forced commit that has not been reached, which then
never commits: R52 and R55 do not say which of them wins there (DESIGN CHOICE, log entry 25). -/
def bufferWrite (a : Nat) (v : Word) (b : Block) : Block :=
  { b with regs := { b.regs with
      pend := (b.regs.pend.filter fun w => w.addr != a)
        ++ [{ addr := a, value := v, after := !b.regs.forced.isEmpty, since := b.now }] } }

/-- A write of the block at `base` waits (R43). -/
def pendingAt (base : Nat) (b : Block) : Bool := b.regs.pend.any fun w => baseOf w.addr == base

/-- Discard every pending write (R56), and with them a forced commit in progress. -/
def discardPend (b : Block) : Block := { b with regs := { b.regs with pend := [], forced := [] } }

/-- The commit buffers take effect at once in these blocks (R53). -/
def atOnce (base : Nat) : Bool :=
  base == 0 || base == sageBase || base == otpBase || base == bstBase || base == calBase || base == hndBase
    || base == supBase

end Sys2Proof.Machine
end

