-- ==== Sys2Proof/Machine/LinkOps.lean ====
section
/-! DEFINITION. What a Gulenlink port does without a fault of its own: its lane rate, its records to the host, the restart
of its link layer and its disabling. -/

namespace Sys2Proof.Machine

open Sys2Proof

/-- The link PLLs of the quadrants take their reference from REFCLK (R89, R419). -/
def linkOnRef (b : Block) : Bool := b.clk.srcEff.getLsbD 1

/-- Port 0 is held at its boot rate (R147). -/
def bootRate (b : Block) : Bool :=
  b.start.chive || b.sage.safe || b.thm.safe || b.start.step < 15

/-- The lane-rate ceiling of an operating point as a rate code (R147). -/
def opRate (op : BitVec 2) : Nat := if op.toNat ≥ 2 then 3 else op.toNat

/-- The lane rate of a port as a code of LNK_STAT.rate (R147): the lowest of the grade's rate, the operating point's
ceiling, and 16 Gbit/s on IOSC or at the boot rate. -/
def portRate (p : PortId) (b : Block) : Nat :=
  if !linkOnRef b || (p.val == 0 && bootRate b) then 0
  else min (if Config.gradeB then 2 else 3) (opRate b.clk.rateOps[qid (p.val / 4)])

/-- Lanes per direction from a width code (R178). -/
def lanesOf (w : BitVec 2) : Nat := if w == 2 then 20 else if w == 1 then 10 else 0

/-- The whole grants of the stack's pools (R198). -/
def stackGrant : Vector Nat 4 := #v[512, 256, 32, 32]

/-- Records and lines that the port has not had acknowledged (R165). -/
def lostRecords (x : Port) : Nat :=
  x.txData.length + x.txCmpl.length + x.txReg.length + x.txEv.length + (x.rb.map fun f => f.2.recs).sum

/-- A write some of whose lines have not arrived, by the tag the stack holds. -/
def Port.unfinished (x : Port) (tag : Nat) : Bool :=
  x.tags.any fun t => t.1 == tag && t.2.kind == .write && t.2.lines != 0

/-- An accepted item is executed after its link ends (R163, R165), but for a write whose lines cannot arrive any more. -/
def RxItem.survives (x : Port) : RxItem → Bool
  | .req e _ g _ => !x.unfinished (field e.toNat 63 54 + 1024 * g)
  | .data tag _ _ _ _ => !x.unfinished tag
  | _ => true

/-- The tags whose final record waits in the transmit path, but for DATA slots. -/
def Port.recordTags (x : Port) : List Nat :=
  (x.txCmpl.map fun r => r.toNat % 1024 + 1024 * x.gen) ++ (x.txReg.map fun r => field r.toNat 21 12 + 1024 * x.gen)
    ++ ((x.txEv.filter fun r => r.toNat % 16 == 2).map fun r => field r.toNat 17 8 + 1024 * x.gen)

/-- A tag after its link ends: lines of a read that wait in the transmit path are gone with the link. -/
def cutLines (x : Port) (u : Nat × TagUse) : Nat × TagUse :=
  (u.1, (x.txData.filter fun d => d.read && d.tag == u.1).foldl (fun t d => { t with lines := bclr t.lines d.line }) u.2)

/-- The tags whose items still execute after the link ends (R163, R165): no record of theirs completed them, and a write among
them has all its lines. -/
def liveTags (x : Port) : SMap TagUse :=
  (x.tags.map (cutLines x)).filter fun u =>
    u.2.done.isNone && !x.unfinished u.1 && !(u.2.kind == .read && u.2.lines == 0) && !x.recordTags.contains u.1

/-- A new link (R165, R199, R204): sequence numbers, credits, replay and timers restart; what was unacknowledged is gone; the
items accepted before, FENCE among them, are executed in their order. -/
def newLink (x : Port) : Port :=
  { x with
    nextSeq := 0, oldest := 0, replayPtr := 0, rb := [], expected := 0, lastGood := 0xFFFF
    nakState := false, nakOut := false, naks := 0, timeouts := 0
    crcInPeriod := 0, rxSeqd := 0, gen := x.gen + 1
    far := Vector.replicate 4 0, grant := Vector.replicate 4 0, ret := stackGrant
    rxq := x.rxq.filter (RxItem.survives x), writes := x.writes.filter fun w => !x.unfinished w.tag
    tags := liveTags x, txData := [], txCmpl := [], txReg := [], txEv := []
    quiet := 0, discard := false }

/-- Forget a tag. -/
def dropTag (tag : Nat) (x : Port) : Port := { x with tags := x.tags.filter fun t => t.1 != tag }

/-- The records of the completion collector for a port go with its link (R393), and with them their tags. -/
def dropCollector (p : PortId) (b : Block) : Block :=
  let mine := b.ops.coll.filter fun r => r.1 == p
  modPort p (fun x => mine.foldl (fun x r => dropTag (field r.2.toNat 17 8 + 1024 * x.gen) x) x)
    { b with ops := { b.ops with coll := b.ops.coll.filter fun r => r.1 != p } }

/-- End the link of a port: unacknowledged records are discarded and counted in LNK_LOST_CNT (R163, R165). -/
def endLink (p : PortId) (b : Block) : Block :=
  let lost := lostRecords b.ports[p] + (b.ops.coll.filter fun r => r.1 == p).length
  ctrAdd (lnkBase p.val + 0x28) lost (modPort p newLink (dropCollector p b))

/-- Training starts afresh on every lane: no equalizer result and no block lock (R155). -/
def untrainLane (l : Lane) : Lane :=
  { l with preset := 2, pre := 0, post := 8, askPreset := 2, askPre := 0, askPost := 0, eqDone := false, laneFail := false, farEq := false, farFail := false
           run := 0, next := 0, arrival := none }

/-- LOCK starts afresh (R158). -/
def unlockLane (l : Lane) : Lane := { l with run := 0, next := 0, arrival := none }

/-- EXCHANGE starts afresh (R159). -/
def freshExchange (x : Port) : Port := { x with exSame := 0, exAck := false, exAcked := 0, exLast := 0 }

/-- The transmit width on whose lanes IDLE_ENTRY goes when the port enters electrical idle (R170): none where it idled already or
had no lanes in use. -/
def Port.leavingWidth (x : Port) : BitVec 2 := if x.idleTx then 0 else x.widthTx

/-- Both directions in electrical idle: no width, and no spare in use; the transmit lanes that were in use send IDLE_ENTRY first
(R170). -/
def electricalIdle (x : Port) : Port :=
  { x with
    outWidth := x.leavingWidth, outSpare := x.spareTx
    widthTx := 0, widthRx := 0, spareRx := 31, spareTx := 31, idleRx := false, idleTx := false, waitMarker := false, burst := false }

/-- Port in DISABLED (R163). -/
def portDisabled (x : Port) : Port := { electricalIdle x with st := .disabled }

/-- Disable a port: electrical idle, DISABLED, the link layer ended, LNK_EVT.disabled. The event is the caller's. -/
def disablePort (p : PortId) (b : Block) : Block :=
  rcSet (lnkBase p.val + 0x0C) 6 (modPort p portDisabled (endLink p b))

/-- Port in DETECT: electrical idle, sensing terminations (R155); failed lanes stay failed (R160). -/
def portDetect (x : Port) : Port :=
  { freshExchange (electricalIdle x) with
    st := .detect, rstep := .train, recFull := false, lanes := x.lanes.map untrainLane }

/-- The port had a link that a return to DETECT ends (R164, R165). -/
def Port.linked (x : Port) : Bool := x.st == .active || x.st == .recover || x.st == .idle

/-- Return a port to DETECT; from ACTIVE, RECOVER or IDLE as a new link (R165). The event is the caller's. -/
def detectPort (p : PortId) (b : Block) : Block :=
  let linked := b.ports[p].linked
  let b := modPort p portDetect (endLink p b)
  if linked then rcSet (lnkBase p.val + 0x0C) 7 b else b

/-- The lowest-numbered other ACTIVE port, as a port mask (R164). -/
def otherActive (p : PortId) (b : Block) : BitVec 16 :=
  match (List.finRange 16).find? fun q => q != p && b.ports[q].st == .active with
  | some q => BitVec.ofNat 16 (1 <<< q.val)
  | none => 0

/-- A run of LINK_LOOPBACK or REPLAY_SRAM is under way on a port (R506). -/
def bstOnPort (b : Block) (p : PortId) : Bool :=
  match b.bst.run with
  | some r => (r.test == 2 || r.test == 0x13) && r.target == p.val
  | none => false

/-- Store a lane's taps for a rate (R153). -/
def saveTaps (rate : Nat) (l : Lane) : Lane :=
  { l with saved := (rate, l.preset, l.pre, l.post) :: l.saved.filter fun e => e.1 != rate }

/-- A lane with the taps stored for a rate. -/
def storedTaps (rate : Nat) (l : Lane) : Lane :=
  match l.saved.find? fun e => e.1 == rate with
  | some (_, preset, pre, post) => { l with preset := preset, pre := pre, post := post }
  | none => l

/-- A lane at the start of the short TRAIN of RECOVER: it takes the settings stored for the target rate (R153, R167). -/
def retrainLane (rate : Nat) (l : Lane) : Lane :=
  { storedTaps rate (unlockLane l) with
    eqDone := false, laneFail := false, farEq := false, farFail := false, askPre := 0, askPost := 0 }

/-- TRAIN at a rate (R155, R156). -/
def portTrain (rate : Nat) (x : Port) : Port :=
  { freshExchange x with st := .train, rate := BitVec.ofNat 4 rate, lanes := x.lanes.map untrainLane }

/-- RECOVER at a rate (R166, R167): a full TRAIN when the port has no stored settings for it, or when port 0 leaves its boot
rate in step 15. -/
def portRecover (rate : Nat) (boot : Bool) (x : Port) : Port :=
  let full := boot || !x.stored.contains rate
  { freshExchange x with
    st := .recover, rstep := .blocks, recFull := full, rate := BitVec.ofNat 4 rate
    idleRx := false, idleTx := false, waitMarker := false, burst := false
    lanes := x.lanes.map (if full then untrainLane else retrainLane rate) }

/-- Enter RECOVER (R166): LNK_EVT.recover_entered and LNK_RECOVER_CNT. -/
def enterRecover (boot : Bool) (p : PortId) (b : Block) : Block :=
  let b := modPort p (portRecover (portRate p b) boot) b
  ctrAdd (lnkBase p.val + 0x24) 1 (rcSet (lnkBase p.val + 0x0C) 2 b)

/-! ### Records to the host -/

/-- The tag of a request on the link in force, as the stack holds it. -/
def Port.itag (x : Port) (tag : Nat) : Nat := tag + 1024 * x.gen

/-- A tag belongs to the link in force. -/
def Port.live (x : Port) (tag : Nat) : Bool := tag / 1024 == x.gen

/-- The records of a port go out: it is not DISABLED. -/
def Port.sends (x : Port) (tag : Nat) : Bool := x.live tag && x.st != .disabled

/-- Count a record that a disabled or restarted port discards (R163, R165). -/
def lose (p : PortId) (n : Nat) (b : Block) : Block := ctrAdd (lnkBase p.val + 0x28) n b

/-- A CMPL record (R191). -/
def cmplRecord (tag : Nat) (st : Status) (kind handle : Nat) (time : BitVec 64) : BitVec 64 :=
  BitVec.ofNat 64 (tag % 1024 + st.code <<< 10 + kind <<< 14 + handle <<< 16 + (time.toNat % 2 ^ 32) <<< 32)

/-- A record that ends a tag is lost, and the tag with it (R163, R165). -/
def tagLost (p : PortId) (tag : Nat) (b : Block) : Block := lose p 1 (modPort p (dropTag tag) b)

/-- A line of a read is lost, and with its last line the tag. -/
def loseLine (p : PortId) (tag line : Nat) (b : Block) : Block :=
  lose p 1 (modPort p (fun x => { x with tags :=
    (x.tags.map fun u => if u.1 = tag then (u.1, { u.2 with lines := bclr u.2.lines line }) else u).filter fun u =>
      !(u.1 == tag && u.2.lines == 0) }) b)

/-- Send a CMPL record: kind 1 WRITE, 2 READ, 3 OTHER. -/
def sendCmpl (p : PortId) (tag : Nat) (st : Status) (kind handle : Nat) (b : Block) : Block :=
  if b.ports[p].sends tag then
    modPort p (fun x => { x with txCmpl := x.txCmpl ++ [cmplRecord tag st kind handle b.time] }) b
  else tagLost p tag b

/-- Send a DATA line (R185). -/
def sendData (p : PortId) (d : TxData) (b : Block) : Block :=
  if b.ports[p].sends d.tag then modPort p (fun x => { x with txData := x.txData ++ [d] }) b
  else if d.read then loseLine p d.tag d.line b else lose p 1 b

/-- Units of a pool leave a receive buffer: the credit goes back in a later sequenced flit (R199). -/
def returnCredit (p : PortId) (pool : Fin 4) (n gen : Nat) (b : Block) : Block :=
  modPort p (fun x => if x.gen = gen then { x with ret := x.ret.set pool (x.ret[pool] + n) } else x) b

/-- The final record of a tag leaves in the flit being built: the tag stays outstanding until the host acknowledges that flit
(R197). -/
def endTag (tag : Nat) (x : Port) : Port :=
  { x with tags := x.tags.map fun t => if t.1 = tag then (t.1, { t.2 with done := some x.nextSeq }) else t }

end Sys2Proof.Machine
end

