-- ==== Sys2Proof/Machine/SorrelOps.lean ====
section
/-! DEFINITION. Physical segments, the segment map and the free space (R17 to R19, R222 to R224, R228, R238 to R246). -/

namespace Sys2Proof.Machine

open Sys2Proof

/-! ### Lists keyed by number, without a default -/

def mfind {α : Type} (m : SMap α) (k : Nat) : Option α := (m.find? fun e => e.1 == k).map (·.2)

def mdel {α : Type} (m : SMap α) (k : Nat) : SMap α := m.filter fun e => e.1 != k

/-! ### Physical segment numbers (R17 to R19) -/

def segChan (s : Nat) : Nat := s / 65536 % 32
def segSlice (s : Nat) : Nat := s / 4096 % 16
def segIn (s : Nat) : Nat := s % 4096
/-- A physical segment number from its fields. -/
def segOf (c d s : Nat) : Nat := c * 65536 + d * 4096 + s

/-- The number names memory (R18). -/
def segExists (s : Nat) : Bool := s < 2 ^ 21 && segSlice s < Config.height && segIn s ≤ 3071

/-- The physical line address, within the channel, of a line of a physical segment (R18, R19, R336). -/
def plaOf (s line : Nat) : Nat :=
  segSlice s * 2 ^ 22 + (line / 32 % 4) * 2 ^ 20 + (8 * segIn s + line / 128 % 8) * 32 + line % 32

/-- Row, column line, slice, bank of a physical line address. -/
def plaRow (a : Nat) : Nat := a / 32 % 32768
def plaCol (a : Nat) : Nat := a % 32
def plaSlice (a : Nat) : Nat := a / 2 ^ 22 % 16
def plaBankIn (a : Nat) : Nat := a / 2 ^ 20 % 4
/-- Bank number within the channel: 4 × slice + bank (R454). -/
def plaBank (a : Nat) : Nat := 4 * plaSlice a + plaBankIn a

/-- The physical segment of a physical line address of channel `c`, and the line within it. -/
def plaSeg (c a : Nat) : Nat := segOf c (plaSlice a) (plaRow a / 8)
def plaLine (a : Nat) : Nat := plaRow a % 8 * 128 + plaBankIn a * 32 + plaCol a

/-! ### Flat handle 0 (R222 to R224) -/

/-- R223: the physical segment and line of a line of handle 0. -/
def flatMap (b : Block) (line : Nat) : Nat × Nat :=
  let n := b.hnd.flatList.length
  let g := line / 8
  let c := b.hnd.flatList.getD (g % n) 0
  let m := g / n * 8 + line % 8
  let j := m / 1024
  (segOf c (j % Config.height) (3071 - j / Config.height), m % 1024)

/-- Channel-local segment number of a physical segment in the flat order. -/
def flatLocal (s : Nat) : Nat := (3071 - segIn s) * Config.height + segSlice s

/-- A physical segment lies in the flat region (R224). -/
def inFlat (b : Block) (s : Nat) : Bool :=
  b.hnd.flat && b.hnd.flatList.contains (segChan s) && segExists s
    && flatLocal s < b.hnd.flatSize / b.hnd.flatList.length

/-- R334: handle 0's line index of a line of the flat region, R223 inverted. -/
def flatLine (b : Block) (s line : Nat) : Nat :=
  let n := b.hnd.flatList.length
  let m := flatLocal s * 1024 + line
  (m / 8 * n + b.hnd.flatList.idxOf (segChan s)) * 8 + m % 8

/-- Segments of the flat region in a slice of a channel. -/
def flatInSlice (b : Block) (c d : Nat) : Nat :=
  if b.hnd.flat && b.hnd.flatList.contains c then
    let k := b.hnd.flatSize / b.hnd.flatList.length
    k / Config.height + b2n (d < k % Config.height)
  else 0

/-! ### The segment map (R238, R239) -/

def mapKey (h l : Nat) : Nat := h * 2 ^ 21 + l

def mapEntry (b : Block) (h l : Nat) : Option MapEntry := mfind b.srl.map (mapKey h l)

def setEntry (h l : Nat) (e : MapEntry) (b : Block) : Block :=
  { b with srl := { b.srl with map := mput b.srl.map (mapKey h l) e } }

def modEntry (h l : Nat) (f : MapEntry → MapEntry) (b : Block) : Block :=
  match mapEntry b h l with
  | some e => setEntry h l (f e) b
  | none => b

def delEntry (h l : Nat) (b : Block) : Block :=
  { b with srl := { b.srl with map := mdel b.srl.map (mapKey h l) } }

/-- The written-bitmap bit of a physical segment (R329). -/
def isWritten (b : Block) (s : Nat) : Bool := b.srl.written.contains s

def setWritten (s : Nat) (v : Bool) (b : Block) : Block :=
  { b with srl := { b.srl with written := if v then sadd s b.srl.written else sdel s b.srl.written } }

/-- The protection-bitmap bit of a physical segment (R326). -/
def isDouble (b : Block) (s : Nat) : Bool := b.srl.prot.contains s

def setProt (s : Nat) (v : Bool) (b : Block) : Block :=
  { b with srl := { b.srl with prot := if v then sadd s b.srl.prot else sdel s b.srl.prot } }

/-- The map entry as a register word (R239): the written bit mirrors the bitmap. -/
def entryWord (b : Block) (e : MapEntry) : Word :=
  word [(1, 28), (b2n (isWritten b e.pseg), 27), (b2n e.poisonSum, 26), (b2n e.migrating, 25), (b2n e.retired, 24),
        (b2n e.away, 23), (e.homeQ, 21), (e.pseg, 0)]

/-- What owns a physical segment (R262): a handle's segment, or the destination of a migration before COMMIT. -/
inductive Owner where
  | free
  | owned (h l : Nat)
  | dest (h l : Nat)
deriving DecidableEq, Repr

/-- Reverse lookup (R262). -/
def ownerOf (b : Block) (s : Nat) : Owner :=
  match b.srl.map.find? fun e => e.2.pseg == s && !e.2.quarantined with
  | some e => .owned (e.1 / 2 ^ 21) (e.1 % 2 ^ 21)
  | none =>
    match b.srl.migs.find? fun m => m.dst == s && m.stage != .release with
    | some m => .dest m.order.handle m.order.lseg
    | none => .free

/-- The migration of a logical segment that is before the end of RELEASE. -/
def migOf (b : Block) (h l : Nat) : Option Mig :=
  b.srl.migs.find? fun m => m.order.handle == h && m.order.lseg == l && m.stage != .release

/-- The order of a logical segment that waits, in the queue or in the repair path for one of the places held for evacuations
(R249). -/
def orderOf (b : Block) (h l : Nat) : Option Order :=
  match b.srl.queue.find? fun o => o.handle == h && o.lseg == l with
  | some o => some o
  | none =>
    match mapEntry b h l with
    | some e => if b.srl.evacWait.contains e.pseg then some { reason := .evac, handle := h, lseg := l } else none
    | none => none

/-- The migration that reads from a source segment and has not released it. -/
def migFrom (b : Block) (s : Nat) : Option Mig := b.srl.migs.find? fun m => m.src == s

/-! ### Free space (R228, R251) -/

/-- Physical segments in use: by entries, by migrations (the side that no entry names), retired and lost. -/
def usedSegs (b : Block) : List Nat :=
  ((b.srl.map.filter fun e => !e.2.quarantined).map fun e => e.2.pseg)
    ++ (b.srl.migs.map fun m => if m.stage == .release then m.src else m.dst)
    ++ b.srl.retired ++ b.srl.lost

/-- No segment of the channel can be placed now: it is OFFLINE, or held by a BIST run (R505). -/
def chanClosed (b : Block) (c : Nat) : Bool := b.chans[cid c].st == .offline || b.chans[cid c].held

/-- A free physical segment. -/
def isFree (b : Block) (s : Nat) : Bool :=
  segExists s && !inFlat b s && !chanClosed b (segChan s) && !(usedSegs b).contains s

/-- Segments of a slice of a channel that nothing uses. -/
def unusedIn (b : Block) (c d : Nat) : Nat :=
  if d ≥ Config.height then 0
  else 3072 - flatInSlice b c d
    - ((usedSegs b).filter fun s => segChan s == c && segSlice s == d && !inFlat b s).length

/-- Free segments of a slice of a channel, the reserve included. -/
def freeInSlice (b : Block) (c d : Nat) : Nat := if chanClosed b c then 0 else unusedIn b c d

/-- Free segments of a channel, the reserve included. -/
def freeInChan (b : Block) (c : Nat) : Nat := ((List.range 16).map fun d => freeInSlice b c d).sum

/-- The migration reserve of each channel (R251). -/
def reserve (b : Block) : Nat := rwf (srlBase + 0x34) 7 0 b

/-- Free segments of a channel above its reserve. -/
def freeAbove (b : Block) (c : Nat) : Nat := freeInChan b c - reserve b

/-- HND_SPACE_Qq: free segments of a quadrant, the reserve left out (R228). -/
def spaceQ (b : Block) (q : Nat) : Nat := ((List.range 8).map fun i => freeAbove b (8 * q + i)).sum

/-- HND_SPACE_FREE (R228, R231): a running CREATE or GROW has taken its segments at its start. -/
def spaceFree (b : Block) : Nat := ((List.range 4).map (spaceQ b)).sum

/-! ### Attributes of a handle (R216, R217) -/

def attrPolicy (a : Word) : Nat := wfield a 1 0
def attrPage (a : Word) : Nat := wfield a 3 2
def attrProt (a : Word) : Nat := wfield a 4 4
def attrMigr (a : Word) : Nat := wfield a 6 5
def attrOpq (a : Word) : Nat := wfield a 10 8
def attrQmask (a : Word) : Nat := wfield a 15 12
def attrPorts (a : Word) : BitVec 16 := BitVec.ofNat 16 (wfield a 31 16)

/-- The attributes fixed for handle 0 (R224). -/
def flatAttr : Word := 0xFFFF0000

/-- A general handle of the table. -/
def handleOf (b : Block) (h : Nat) : Option Handle := mfind b.hnd.table h

/-- Attributes of any handle. -/
def attrOf (b : Block) (h : Nat) : Word :=
  if h = 0 then flatAttr else match handleOf b h with | some x => x.attr | none => 0

/-- Depth of an operation queue from its code (R217). -/
def opqDepth (code : Nat) : Nat := if code = 0 then 0 else 2 ^ (code + 1)

/-- A channel lies in a quadrant of a mask. -/
def inQmask (mask c : Nat) : Bool := (mask / 2 ^ (c / 8)) % 2 == 1

/-- The port mask of a handle, for events that carry it (R266, R347). -/
def portsOf (b : Block) (h : Nat) : BitVec 16 := if h = 0 then allMask else attrPorts (attrOf b h)

/-! ### Placement (R245 to R247) -/

/-- The eligible channels of a quadrant mask (R245), ascending. -/
def eligible (b : Block) (qmask : Nat) : List Nat :=
  (List.range 32).filter fun c => inQmask qmask c && !chanClosed b c && freeInChan b c > reserve b

/-- The best of a list under a strict preference, the first on a tie. -/
def bestBy {α : Type} (better : α → α → Bool) : List α → Option α
  | [] => none
  | x :: t => some (t.foldl (fun a y => if better y a then y else a) x)

/-- The COOL ranking of a quadrant's die layers (R247); before the first thermal sample every zone stands equal, and the
higher die ranks first. -/
def rankOf (b : Block) (q : QuadId) : List Nat :=
  if b.srl.rank[q] = [] then (List.range Config.height).reverse else b.srl.rank[q]

/-- The slice of a channel that the policy prefers (R245), of those that `ok` allows and that have a free segment. -/
def sliceBy (b : Block) (policy c : Nat) (ok : Nat → Bool) : Option Nat :=
  let open_ := (List.range Config.height).filter fun d => ok d && freeInSlice b c d > 0
  if policy = 1 then open_.head?
  else if policy = 3 then (rankOf b (quadOf c)).find? fun d => open_.contains d
  else bestBy (fun x y => freeInSlice b c x > freeInSlice b c y) open_

/-- The lowest free segment of a slice (R246). -/
def lowestFree (b : Block) (c d : Nat) : Option Nat :=
  let used := usedSegs b
  ((List.range 3072).map (segOf c d)).find? fun s => !inFlat b s && !used.contains s

/-- The first free segment of a channel under a policy, in the slices that `ok` allows. -/
def pickIn (b : Block) (policy c : Nat) (ok : Nat → Bool) : Option Nat :=
  (sliceBy b policy c ok).bind fun d => lowestFree b c d

/-- The first free segment of a channel under a policy. -/
def pickSeg (b : Block) (policy c : Nat) : Option Nat := pickIn b policy c fun _ => true

/-- The channel for logical segment `k` of handle `h` among the eligible channels `l` formed at the start (R245). -/
def placeChan (b : Block) (l : List Nat) (policy h k : Nat) : Option Nat :=
  let ok := fun c => freeAbove b c > 0
  if policy = 1 then bestBy (fun x y => freeInChan b x < freeInChan b y) (l.filter ok)
  else
    let i := (k + h) % l.length
    (l.drop i ++ l.take i).find? ok

/-- A fresh entry at a physical segment (R241). -/
def newEntry (s : Nat) : MapEntry := { pseg := s, homeQ := segChan s / 8 }

/-- Place logical segment `k` of handle `h` (R245, R246); the protection bit follows the handle (R326). -/
def placeOne (l : List Nat) (attr : Word) (h k : Nat) (b : Block) : Block :=
  match (placeChan b l (attrPolicy attr) h k).bind (pickSeg b (attrPolicy attr)) with
  | some s => setProt s (attrProt attr == 1) (setEntry h k (newEntry s) b)
  | none => b

/-- Place `n` segments from logical segment `k` on. -/
def placeMany (l : List Nat) (attr : Word) (h k : Nat) : Nat → Block → Block
  | 0, b => b
  | n + 1, b => placeMany l attr h (k + 1) n (placeOne l attr h k b)

/-! ### What a queued access is -/

/-- What an access is: a read; a read with a merge behind it; a conditional write (R333); a write of a host, an engine, a copy or
one that is forwarded. -/
def Acc.isRead (e : Acc) : Bool :=
  match e.src with
  | .read .. | .engRead .. | .dill | .verify .. | .copyRead .. | .softRead _ => true
  | _ => false
def Acc.isMasked (e : Acc) : Bool := match e.src with | .masked .. | .engRmw .. => true | _ => false
def Acc.conditional (e : Acc) : Bool := match e.src with | .scrub | .poison => true | _ => false
def Acc.overrides (e : Acc) : Bool := match e.src with | .write | .engWrite .. | .copy .. | .forward _ => true | _ => false

/-! ### Release (R235, R259) -/

/-- The conditional writes of a whole segment and what follows them are dropped: the segment is filled, released or de-allocated
(R333, R35, R329). -/
def supersedeSeg (s : Nat) (x : Chan) : Chan :=
  let maint := fun (e : Acc) => e.conditional || (match e.src with | .verify .. | .copy .. | .dill => true | _ => false)
  { x with
    wq := x.wq.filter fun e => !(e.pseg == s && e.conditional)
    rq := x.rq.filter fun e => !(e.pseg == s && maint e)
    maintWait := x.maintWait.filter fun e => !(e.pseg == s && maint e)
    verify := x.verify.filter fun v => plaSeg (segChan s) v.1 != s }


/-- Clear a remap table of the entries of a physical segment (R336: entries are freed when their segment is retired). -/
def freeRemaps (s : Nat) (x : Chan) : Chan :=
  { x with remap := x.remap.map fun o => o.bind fun r => if plaSeg (segChan s) r.pla = s then none else some r }

/-- Retire a physical segment (R259): never placed again, and its remap entries are freed. Event 0x0903 on every ACTIVE
port. -/
def retireSeg (s : Nat) (b : Block) : Block :=
  let b := { b with srl := { b.srl with
    retired := sadd s b.srl.retired, nRetired := b.srl.nRetired + 1, heat := mdel b.srl.heat s
    retireAt := sdel s b.srl.retireAt } }
  let b := modChan (cid (segChan s)) (fun x => freeRemaps s (supersedeSeg s x)) (setWritten s false b)
  emit allMask { code := 0x0903, lo := BitVec.ofNat 32 s } (rcSet (srlBase + 0x60) 1 b)

/-- Return a physical segment to the free space (R235): its written bit and heat are cleared. -/
def freeSeg (s : Nat) (b : Block) : Block :=
  let b := modChan (cid (segChan s)) (supersedeSeg s) (setWritten s false b)
  setProt s false { b with srl := { b.srl with heat := mdel b.srl.heat s } }

/-- Release a physical segment: retired when a retirement stands for it, freed otherwise. -/
def releaseSeg (s : Nat) (retire : Bool) (b : Block) : Block :=
  if retire || b.srl.retireAt.contains s then retireSeg s b else freeSeg s b

/-- Release a logical segment of a handle (R235): its map entry goes, an order for it goes (R258), and its one current physical
segment. -/
def releaseLseg (h l : Nat) (b : Block) : Block :=
  match mapEntry b h l with
  | none => b
  | some e =>
    let b := delEntry h l { b with srl := { b.srl with
      queue := b.srl.queue.filter fun o => !(o.handle == h && o.lseg == l), evacWait := b.srl.evacWait.filter (· != e.pseg) } }
    if e.quarantined then b else releaseSeg e.pseg e.retired b

/-! ### Heat (R243, R244) -/

def heatOf (b : Block) (s : Nat) : Nat := (mfind b.srl.heat s).getD 0

/-- Add one to a heat counter, saturating at 255. -/
def heatInc (s : Nat) (b : Block) : Block :=
  { b with srl := { b.srl with heat := mput b.srl.heat s (min 255 (heatOf b s + 1)) } }

/-- The quadrant at which a port enters the crossbar (R20); the image's binding is in `Image.lean`. -/
def homeUpdate (q : Nat) (e : MapEntry) : MapEntry :=
  if e.homeQ = q then { e with away := false }
  else if e.away then { e with homeQ := q, away := false }
  else { e with away := true }

/-- The quadrant mask of the flat handle's channels (R225). -/
def flatQmask (b : Block) : Nat :=
  ((List.range 4).map fun q => if b.hnd.flatList.any fun c => c / 8 == q then 2 ^ q else 0).sum

end Sys2Proof.Machine
end

