-- ==== Sys2Proof/Machine/ChanOps.lean ====
section
/-! DEFINITION. The channel queues and the lines behind them: where a line lies (write queue, remap entry, spare row,
DRAM), queue entry under R291 to R294, latency and line counts (R276, R277), allowances (R282) and the loss of a
channel (R342). -/

namespace Sys2Proof.Machine

open Sys2Proof

/-! ### Where a line lies -/

/-- The row that a row of a bank lies on: its newest soft spare row (R338), else its hard redundant row (R339), else itself. A
later soft repair of a row takes a higher spare. Rows 24576 to 24579 of a bank stand for its soft spare rows, and 24580 to 24587
for its hard redundant rows. -/
def effRow (x : Chan) (bank row : Nat) : Nat :=
  match [3, 2, 1, 0].find? fun k => mget x.soft (4 * bank + k) none == some row with
  | some k => 24576 + k
  | none =>
    match [7, 6, 5, 4, 3, 2, 1, 0].find? fun k => mget x.hard (8 * bank + k) none == some row with
    | some k => 24580 + k
    | none => row

/-- The address at which the DRAM holds a line. -/
def effPla (x : Chan) (a : Nat) : Nat := a - plaRow a * 32 + effRow x (plaBank a) (plaRow a) * 32

/-- The remap entry of a line (R336). -/
def remapOf (x : Chan) (a : Nat) : Option Remap :=
  (x.remap.find? fun o => match o with | some r => r.pla == a | none => false).join

/-- The newest queued write of a line (R294). -/
def queuedWrite (x : Chan) (a : Nat) : Option Acc :=
  (x.wq.reverse).find? fun e => e.pla == a

/-- The stored form of a line as DRAM, or its remap entry, holds it. -/
def storedAt (b : Block) (m : List Host.Cell) (c : Nat) (a : Nat) : Stored :=
  let x := b.chans[cid c]
  match remapOf x a with
  | some r => r.data
  | none => dramGet m c (effPla x a)

/-- The stored form that a read entering the channel now would see (R33). -/
def lineNow (b : Block) (m : List Host.Cell) (c : Nat) (a : Nat) : Stored :=
  match queuedWrite b.chans[cid c] a with
  | some e => e.data
  | none => storedAt b m c a

/-- Replace the data of a remap entry. -/
def setRemap (a : Nat) (v : Stored) (x : Chan) : Chan :=
  { x with remap := x.remap.map fun o => o.map fun r => if r.pla = a then { r with data := v } else r }

/-- Address of the first line of a row of a bank. -/
def rowBase (bank row : Nat) : Nat := bank / 4 * 2 ^ 22 + bank % 4 * 2 ^ 20 + row * 32

/-- A write to a line of a row under soft repair (R338): where the spare row has the line already it is written there too, and a
copy of the line on its way to the spare row takes the new data. -/
def mirrorSoft (c a : Nat) (v : Stored) (s : State) : State :=
  let x := s.blk.chans[cid c]
  match x.softRun with
  | none => s
  | some r =>
    if r.bank ≠ plaBank a ∨ r.row ≠ plaRow a then s
    else if plaCol a < r.copied then { s with mem := dramSet s.mem c (rowBase r.bank (24576 + r.spare) + plaCol a) v }
    else
      let new := fun (e : Acc) => if e.src = .softWrite (plaCol a) then { e with data := v } else e
      s.upd (modChan (cid c) (fun x => { x with wq := x.wq.map new, maintWait := x.maintWait.map new }) s.blk)

/-- Put a line where it lies: its remap entry, or DRAM, and the spare row of a soft repair that has copied it. -/
def putLine (c a : Nat) (v : Stored) (s : State) : State :=
  let x := s.blk.chans[cid c]
  mirrorSoft c a v (match remapOf x a with
    | some _ => s.upd (modChan (cid c) (setRemap a v) s.blk)
    | none => { s with mem := dramSet s.mem c (effPla x a) v })

/-- The migration to whose destination a write to a segment is forwarded: it is in COPY or in the COMMIT hold (R254). -/
def forwardTo (b : Block) (g : Nat) : Option Mig := b.srl.migs.find? fun m => m.src == g && m.stage != .release

/-- The write of a line as its destination gets it: it counts as the traffic that issued it (R250). -/
def forwardAcc (m : Mig) (e : Acc) (now : Nat) : Acc :=
  { src := .forward m.src, pla := plaOf m.dst (plaLine e.pla), pseg := m.dst, cls := e.cls, maint := e.maint, arr := now, data := e.data }

/-- A write applied to a segment in COPY or in the COMMIT hold is forwarded to the destination's channel, in the order in which
the writes are applied (R254). -/
def noteForward (c : Nat) (e : Acc) (b : Block) : Block :=
  match forwardTo b (plaSeg c e.pla) with
  | some m => modChan (cid (segChan m.dst)) (fun x => { x with xbar := x.xbar ++ [{ lines := [forwardAcc m e b.now] }] }) b
  | none => b

/-- Apply a write of a line. -/
def storeLine (c : Nat) (e : Acc) (s : State) : State :=
  let s := putLine c e.pla e.data s
  s.upd (noteForward c e s.blk)

/-- A conditional write of the line is dropped, with the verify read that would follow it, and so is a copy write that has not
entered the write queue: a write of the line enters it (R333, R254). -/
def supersede (a : Nat) (x : Chan) : Chan :=
  let verifies := fun (e : Acc) => match e.src with | .verify .. => true | _ => false
  let copies := fun (e : Acc) => match e.src with | .copy .. => true | _ => false
  { x with
    wq := x.wq.filter fun e => !(e.pla == a && e.conditional)
    rq := x.rq.filter fun e => !(e.pla == a && verifies e)
    maintWait := x.maintWait.filter fun e => !(e.pla == a && (e.conditional || verifies e || copies e))
    verify := x.verify.filter fun v => v.1 != a }

/-- The lines of a segment fill (R35, R344): every line of the segment takes the same stored form where it lies. -/
def fillSegment (s : Nat) (v : Stored) (st : State) : State :=
  (List.range 1024).foldl (fun st line => putLine (segChan s) (plaOf s line) v st) st

/-! ### First writes (R35, R295) -/

/-- Start the fill of a segment: its lines are zero from here on, and its channel serves nothing until SEGMENT_FILL_DONE (R295).
The lines of a fill carry the class of the write that caused it (R268), and count for it (R276). -/
def startFill (s k : Nat) (st : State) : State :=
  let st := fillSegment s 0 st
  st.upd (modChan (cid (segChan s)) (fun x => { supersedeSeg s x with
    fills := x.fills ++ [s], lines := x.lines.set (Fin.ofNat 8 k) (x.lines[Fin.ofNat 8 k] + 1024) }) st.blk)

/-- The first write to an unwritten segment, of class `k`, sets the written bit and starts the fill (R35). While the segment is
copied the destination's channel performs the same fill (R255). -/
def firstWrite (s k : Nat) (st : State) : State :=
  if isWritten st.blk s then st
  else
    let st := startFill s k (st.upd (setWritten s true st.blk))
    match st.blk.srl.migs.find? fun m => m.src == s && m.stage != .release with
    | some m => startFill m.dst k st
    | none => st

/-! ### A line becomes poisoned (R240) -/

/-- Set poison_sum of the segment that holds a physical segment. -/
def poisonSum (s : Nat) (b : Block) : Block :=
  match ownerOf b s with
  | .owned h l => modEntry h l (fun e => { e with poisonSum := true }) b
  | _ => b

/-! ### Classes, allowances and latency -/

/-- The reservation of a class in a quadrant is counted in its grants (R282). -/
def allowOf (b : Block) (q : QuadId) (k : Nat) : Nat := (b.sav.q[q]).allow[Fin.ofNat 8 k]

/-- The request is over-grant: its class has a reservation in the quadrant's grants and no allowance left (R282, R286). -/
def overGrant (b : Block) (q : QuadId) (k : Nat) : Bool :=
  (b.sav.q[q]).granted[Fin.ofNat 8 k] > 0 && allowOf b q k == 0

/-- Consume allowance for one line (R282). -/
def spend (q : QuadId) (k n : Nat) (b : Block) : Block :=
  modSavQ q (fun x => { x with allow := x.allow.set (Fin.ofNat 8 k) (x.allow[Fin.ofNat 8 k] - n) }) b

/-- A line of a class enqueued in a quadrant now is in-grant: the class has a reservation there and allowance left (R278). -/
def inGrantNow (b : Block) (q : QuadId) (k : Nat) : Bool := (b.sav.q[q]).granted[Fin.ofNat 8 k] > 0 && allowOf b q k > 0

/-- The latency target of a class, in ticks (R270). -/
def target (b : Block) (k : Nat) : Nat := rwf (savBase + 4 * k) 15 0 b

/-- A class in mode GUARANTEE is privileged (R271). -/
def privileged (b : Block) (k : Nat) : Bool := rwf (savBase + 4 * k) 20 20 b == 1

/-- The exponent of a power of two that a counter reaches when it goes to `n`. -/
def pow2Of (n : Nat) : Option Nat := (List.range 32).find? fun e => n == 2 ^ e

/-- Count a latency miss of class `k` in channel `c` (R276 to R278): the counter, the event at a power of two, and the
in-grant misses of a privileged class. -/
def countMiss (c : Nat) (k : Nat) (inGrant : Bool) (b : Block) : Block :=
  let a := chnBase c + 0x608 + 0x10 * k
  let sat := ctrSat a b
  let b := ctrAdd a 1 b
  let b :=
    if sat then b else
    match pow2Of (ctr a b).toNat with
    | some e => emit allMask { code := 0x0A02, lo := word [(c, 0), (k, 5), (e, 8)] } (rcSet (savBase + 0x2C) 1 b)
    | none => b
  if privileged b k && inGrant then
    let i := Fin.ofNat 8 k
    let old := b.sav.miss[i]
    { b with sav := { b.sav with miss := b.sav.miss.set i (old.1 + 1, bset old.2 c) } }
  else b

/-- The latency of a request ends (R269, R276): a miss when it exceeds its class's target. -/
def endLatency (c k arr : Nat) (inGrant : Bool) (b : Block) : Block :=
  if b.now - arr > target b k then countMiss c k inGrant b else b

/-- A channel serves a line of a class (R243, R276): the class's line count, the heat sample, and, for a host request at the
segment's own place, the home quadrant. -/
def serveLine (c k pseg : Nat) (host : Option Nat) (b : Block) : Block :=
  let b := modChan (cid c) (fun x =>
    { x with lines := x.lines.set (Fin.ofNat 8 k) (x.lines[Fin.ofNat 8 k] + 1) }) b
  let shift := rwf (srlBase + 0x24) 3 0 b
  let n := b.srl.acc[Fin.ofNat 32 c] + 1
  let hit := n ≥ 2 ^ shift
  let b := { b with srl := { b.srl with acc := b.srl.acc.set (Fin.ofNat 32 c) (if hit then 0 else n) } }
  if !hit then b else
  let b := heatInc pseg b
  match host, ownerOf b pseg with
  | some q, .owned h l => modEntry h l (homeUpdate q) b
  | _, _ => b

/-! ### Queue entry (R291 to R294) -/

/-- Entries of the read queue and write queue that an access takes. -/
def accRq (e : Acc) : Nat := if e.isRead || e.isMasked then 1 else 0
def accWq (e : Acc) : Nat := if e.isRead then 0 else 1

/-- Write-queue entries in use, those that masked writes keep for their merged line included. -/
def wqUsed (x : Chan) : Nat :=
  x.wq.length + (x.rq.filter fun e => accWq e == 1).length + (x.inflight.filter fun e => accWq e == 1).length

/-- Read-queue entries in use. -/
def rqUsed (x : Chan) : Nat := x.rq.length

/-- The whole access fits (R292). -/
def fits (x : Chan) (g : List Acc) : Bool :=
  rqUsed x + (g.map accRq).sum ≤ 128 && wqUsed x + (g.map accWq).sum ≤ 64

/-- Put an entry in its queue: a full-line write replaces the data of a queued write in place, unless a masked write that waits
for that entry to drain stands between them; a masked write makes the queued write of its line drain first (R294). -/
def enterOne (e : Acc) (x : Chan) : Chan :=
  let e := { e with ord := x.ord }
  let x := { x with ord := x.ord + 1 }
  if e.isRead then { x with rq := x.rq ++ [e] }
  else if e.isMasked then
    { x with rq := x.rq ++ [e]
             wq := x.wq.map fun w => if w.pla = e.pla then { w with urgent := true } else w }
  else
    let x := if e.overrides then supersede e.pla x else x
    match queuedWrite x e.pla with
    | some q =>
      if q.urgent then { x with wq := x.wq ++ [e] }
      else { x with wq := x.wq.map fun w =>
        if w.ord = q.ord then { w with data := e.data, src := if w.conditional then e.src else w.src } else w }
    | none => { x with wq := x.wq ++ [e] }

/-! ### What a piece of an operation is told -/

/-- The rank of a status in the order of R12; ACCESS_ERROR is a data access's here. -/
def Status.rank : Status → Nat
  | .noHandle => 2 | .accessError => 3 | .badArg => 4 | .noSpace => 5 | .overcommit => 6 | .writeIgnored => 7
  | .channelOffline => 8 | .haltedUe => 9 | .tooLate => 10 | .poisonKept => 11 | .poison => 12 | .ok => 13

/-- The first of two statuses in the order of R12. -/
def Status.first (a b : Status) : Status := if a.rank ≤ b.rank then a else b

/-- Note a status on a piece. -/
def Piece.note (st : Status) (x : Piece) : Piece := { x with status := x.status.first st }

/-- Change one descriptor. -/
def modDesc (id : Nat) (f : Desc → Desc) (b : Block) : Block :=
  { b with ops := { b.ops with descs := b.ops.descs.map fun d => if d.id = id then f d else d } }

/-- Change one piece of a descriptor. -/
def modPiece (id i : Nat) (f : Piece → Piece) (b : Block) : Block :=
  modDesc id (fun d => { d with pieces := d.pieces.modify i f }) b

/-- The piece with a number. -/
def pieceOf (b : Block) (id i : Nat) : Option Piece := (b.ops.descs.find? fun d => d.id == id).bind fun d => d.pieces[i]?

/-- An event for a context of an engine whose table instance runs arrives (R382, R383). -/
def postCtx (e k ev : Nat) (line : List Byte) (b : Block) : Block :=
  let x := (b.engs[eid e]).ctx[Fin.ofNat 6 k]
  if (if k ≥ 2 then x.work != .none else x.table.isSome) then
    modEng (eid e) (fun y => { y with evq := y.evq ++ [(k, ev, line)] }) b
  else b

/-- Event 30 for every context of an engine (R383). -/
def postAborts (e : Nat) (b : Block) : Block := [0, 1, 2, 3, 4, 5].foldl (fun b k => postCtx e k 30 [] b) b

/-- An event for the context that runs a piece arrives at its engine (R382, R383). -/
def postPiece (id i ev : Nat) (line : List Byte) (b : Block) : Block :=
  match pieceOf b id i with
  | none => b
  | some x =>
    match [2, 3, 4, 5].find? fun k => (b.engs[eid x.eng]).ctx[Fin.ofNat 6 k].work == .piece id i with
    | some k => modEng (eid x.eng) (fun y => { y with evq := y.evq ++ [(k, ev, line)] }) b
    | none => b

/-- The line that an answer returns into the window. -/
def Ans.bytes : Ans → List Byte
  | .line _ d => bytesOf 64 d
  | .lost d => bytesOf 64 d
  | _ => []

/-- An access of a piece is answered: event 1 (R383). The answer to a read of an earlier start of the piece is of no use. -/
def answerPiece (id i try_ : Nat) (a : Ans) (b : Block) : Block :=
  match pieceOf b id i with
  | some x =>
    if x.asked ∧ x.try_ = try_ then
      postPiece id i 1 a.bytes (modPiece id i (fun x => { x with log := x.log ++ [a], asked := false }) b)
    else b
  | none => b

/-- ENG_LINES of the engine that runs a piece (R396). -/
def countEngLine (id i : Nat) (b : Block) : Block :=
  match pieceOf b id i with
  | some x => modEng (eid x.eng) (fun e => { e with lines := e.lines + 1 }) b
  | none => b

/-- Number the lines of an access as one group. -/
def groupAcc (x : Chan) (g : List Acc) : List Acc := g.map fun e => { e with grp := x.ord }

/-- Deliver a line of a host read: its DATA slot (R185, R192), the latency at its last line (R269). -/
def deliverRead (c : Nat) (p : PortId) (tag off : Nat) (e : Acc) (poison : Bool) (d : Line) (b : Block) : Block :=
  let b := sendData p { tag := tag, line := off, poison := poison, d := d } b
  let use := mfind b.ports[p].tags tag
  let b := modPort p (fun x => { x with tags := x.tags.map fun t =>
    if t.1 = tag then (t.1, { t.2 with wait := bclr t.2.wait off }) else t }) b
  match use with
  | some u => if bclr u.wait off = 0 then endLatency c e.cls e.arr e.inGrant b else b
  | none => endLatency c e.cls e.arr e.inGrant b

/-- A line that enters the write queue as poisoned marks its segment (R240). -/
def noteLine (e : Acc) (b : Block) : Block :=
  if (decodeLine false e.data).1 == .poisoned then poisonSum e.pseg b else b

/-- A read of the stack's own units has been served: its unit takes it. The latency of an engine's ends (R269). -/
def serveOwn (c : Nat) (e : Acc) (v : Stored) (b : Block) : Block :=
  modChan (cid c) (fun x => { x with served := x.served ++ [(e, v)] })
    (match e.src with
     | .engRead .. | .engRmw .. => endLatency c e.cls e.arr e.inGrant b
     | _ => b)

/-- Count a line that an engine or a host accesses in a channel (R243, R276, R396). Maintenance lines are not counted. -/
def countServed (c : Nat) (e : Acc) (b : Block) : Block :=
  match e.src with
  | .read .. | .write | .masked .. => serveLine c e.cls e.pseg e.quad b
  | .engRead id i .. | .engRmw id i _ | .engWrite id i => countEngLine id i (serveLine c e.cls e.pseg none b)
  | .forward _ => if e.maint then b else serveLine c e.cls e.pseg none b
  | _ => b

/-- Serve a read with the stored form that the write queue holds of its line (R294). -/
def serveQueued (c : Nat) (e : Acc) (v : Stored) (b : Block) : Block :=
  let b := modChan (cid c) (fun x => { x with nWq := x.nWq + 1 }) (countServed c e b)
  match e.src with
  | .read p tag off _ _ =>
    let poison := (decodeLine false v).1 == .poisoned
    let b := if poison then ctrAdd (chnBase c + 0x12C) 1 b else b
    deliverRead c p tag off e poison (lineOf v) b
  | _ => serveOwn c { e with held := some v } v b

/-- A write of an engine is taken by the write queue: event 2 (R383); a full-line write of a piece is complete (R33), and its latency
ends (R269). -/
def engWritten (c : Nat) (e : Acc) (b : Block) : Block :=
  match e.src with
  | .engWrite id i => postPiece id i 2 [] (endLatency c e.cls e.arr e.inGrant b)
  | .copy src _ => postCtx (segChan src) 1 2 [] b
  | .softWrite _ | .scrub | .poison => postCtx c 0 2 [] b
  | _ => b

/-- A write of a host, an engine or one that is forwarded has entered the write queue for the line (R333). -/
def overridden (x : Chan) (a : Nat) : Bool := x.wq.any fun w => w.pla == a && w.overrides

/-- A conditional write is dropped as it enters its queue: a write of its line has entered since the read that caused it, or it is a
scrub behind a queued poison write (R333). -/
def dropsNow (x : Chan) (e : Acc) : Bool :=
  e.conditional && (overridden x e.pla || (e.src == .scrub && x.wq.any fun w => w.pla == e.pla && w.src == .poison))

/-- One line enters its queue. A read of a line with a queued write is served from the write queue (R294), behind the fill of its
segment when one runs (R30), but for a verify read, whose line has been written since (R332, R333); one that is younger than a
waiting masked write of its line waits for the merge. A line of a full-line write is served at its entry (R33). -/
def enterLine (c : Nat) (e : Acc) (b : Block) : Block :=
  if e.isRead then
    match queuedWrite b.chans[cid c] e.pla with
    | some w =>
      (match e.src with
       | .verify .. => b
       | _ =>
         if w.urgent then modChan (cid c) (enterOne e) b
         else if b.chans[cid c].fills.contains e.pseg then modChan (cid c) (enterOne { e with held := some w.data }) b
         else serveQueued c e w.data b)
    | none => modChan (cid c) (enterOne e) b
  else if dropsNow b.chans[cid c] e then b
  else if e.overrides then engWritten c e (noteLine e (countServed c e (modChan (cid c) (enterOne e) b)))
  else engWritten c e (modChan (cid c) (enterOne e) b)

/-- Send the completions of a segment's writes that were accepted behind a fill, in the order of acceptance, as far as they may go
(R35). -/
def drainAwait (c g : Nat) (b : Block) : Block :=
  if b.chans[cid c].fills.contains g then b else
  let mine := b.chans[cid c].await.filter fun w => w.pseg == g
  let l := mine.takeWhile fun w => w.st.isSome
  let b := modChan (cid c) (fun x => { x with await := (x.await.filter fun w => w.pseg != g) ++ mine.drop l.length }) b
  l.foldl (fun b w => match w.st with | some st => sendCmpl w.port w.tag st 1 w.handle b | none => b) b

/-- A write completes: at once, or in its turn when it was accepted behind a fill (R33 to R35). -/
def writeDone (c : Nat) (w : WDone) (st : Status) (b : Block) : Block :=
  if b.chans[cid c].await.any fun a => a.port == w.port && a.tag == w.tag then
    drainAwait c w.pseg (modChan (cid c) (fun x => { x with
      await := x.await.map fun a => if a.port = w.port ∧ a.tag = w.tag then { a with st := some st } else a }) b)
  else sendCmpl w.port w.tag st 1 w.handle b

/-- A full-line write has entered the write queue whole: its latency ends (R269), and it completes, behind the fill of its
segment when one runs (R33, R35). -/
def writeEntered (c : Nat) (e : Acc) (w : WDone) (b : Block) : Block := writeDone c w .ok (endLatency c e.cls e.arr e.inGrant b)

/-- The write whose completion an access carries: a masked write's, or that of the full-line write `done`. -/
def doneOf (done : Option WDone) (e : Acc) : Option WDone :=
  match e.src with
  | .masked p tag h .. => some { port := p, tag := tag, handle := h, pseg := e.pseg }
  | _ => done

/-- The units of an access leave the port's buffers (R199, R292). -/
def releaseCred (k : Option Cred) (b : Block) : Block :=
  match k with
  | some k => returnCredit k.port 1 k.data k.gen (returnCredit k.port 0 k.req k.gen b)
  | none => b

/-- The places in the order of completions that a write accepted during the fill of its segment takes (R35). -/
def awaitFill (c : Nat) (g : XAcc) (b : Block) : Block :=
  match g.lines with
  | [] => b
  | e :: _ =>
    match doneOf g.done e with
    | some w =>
      if b.chans[cid c].fills.contains w.pseg then modChan (cid c) (fun x => { x with await := x.await ++ [w] }) b else b
    | none => b

/-- The lines of an access consume allowance as they are enqueued, and are in-grant while there is some (R278, R282). -/
def grantLines (c : Nat) (ls : List Acc) (b : Block) : List Acc × Block :=
  match ls with
  | [] => (ls, b)
  | e :: _ => if e.maint then (ls, b) else (ls.map fun x => { x with inGrant := inGrantNow b (quadOf c) e.cls }, spend (quadOf c) e.cls ls.length b)

/-- Let an access into the queues, all lines at once (R291). -/
def enterAll (c : Nat) (g : XAcc) (b : Block) : Block :=
  let r := grantLines c (groupAcc b.chans[cid c] g.lines) (awaitFill c g (releaseCred g.cred b))
  let ls := r.1
  let b := ls.foldl (fun b e => enterLine c e b) r.2
  match g.done, ls with
  | some w, e :: _ => writeEntered c e w b
  | _, _ => b

/-- Move waiting accesses from the crossbar while the first fits. -/
def letInN (c : Nat) : Nat → Block → Block
  | 0, b => b
  | n + 1, b =>
    match b.chans[cid c].xbar with
    | [] => b
    | g :: rest =>
      if fits b.chans[cid c] g.lines then
        letInN c n (enterAll c g (modChan (cid c) (fun x => { x with xbar := rest }) b))
      else b

/-- Admit what fits now. -/
def letIn (c : Nat) (b : Block) : Block := letInN c b.chans[cid c].xbar.length b

/-- An access reaches its channel (steps 3 and 4 of R28 and R32): it enters its queue or waits in the crossbar. -/
def submit (c : Nat) (g : List Acc) (done : Option WDone) (cred : Option Cred) (b : Block) : Block :=
  letIn c (modChan (cid c) (fun x => { x with xbar := x.xbar ++ [{ lines := g, done := done, cred := cred }], idleAt := b.now }) b)

/-! ### OFFLINE (R342) -/

/-- The handles that hold a segment in a channel, handle 0 included when the channel is in its list. -/
def handlesIn (b : Block) (c : Nat) : List Nat :=
  let hs := (b.srl.map.filter fun e => segChan e.2.pseg == c && !e.2.quarantined).map fun e => e.1 / 2 ^ 21
  let hs := hs.foldl (fun l h => sadd h l) []
  if b.hnd.flat && b.hnd.flatList.contains c && b.hnd.flatSize > 0 then sadd 0 hs else hs

/-- Complete a queued access of a channel that goes OFFLINE (R342). A read whose lines have partly been returned drops those not sent
yet and gets a record of kind READ: R192 and R342 do not settle it (DESIGN CHOICE, log entry 118). -/
def failAcc (e : Acc) (b : Block) : Block :=
  match e.src with
  | .read p tag _ h _ =>
    match mfind b.ports[p].tags tag with
    | some u =>
      if u.wait = 0 then b else
      sendCmpl p tag .channelOffline 2 h (modPort p (fun x => { x with
        txData := x.txData.filter fun d => d.tag != tag
        tags := x.tags.map fun t => if t.1 = tag then (t.1, { t.2 with wait := 0, lines := 0 }) else t }) b)
    | none => b
  | .masked p tag h _ _ _ _ => sendCmpl p tag .channelOffline 1 h b
  | .engRead id i try_ _ _ => answerPiece id i try_ (.refused .channelOffline) b
  | .engRmw id i _ =>
    (match pieceOf b id i with | some x => answerPiece id i x.try_ (.refused .channelOffline) b | none => b)
  | .engWrite id i => modPiece id i (Piece.note .channelOffline) b
  | _ => b

/-- Complete an access that waits in the crossbar of a channel that goes OFFLINE. -/
def failXAcc (g : XAcc) (b : Block) : Block :=
  let b := g.lines.foldl (fun b e => failAcc e b) (releaseCred g.cred b)
  match g.done with
  | some w => sendCmpl w.port w.tag .channelOffline 1 w.handle b
  | none => b

/-- Whether a channel takes part in a migration as destination before COMMIT, or as source. -/
def migAborts (c : Nat) (m : Mig) : Bool := m.stage != .release && (segChan m.src == c || segChan m.dst == c)

/-- The copy and forwarded writes to a destination that is given up. -/
def dropDest (g : Nat) (x : Chan) : Chan :=
  { x with wq := x.wq.filter fun e => e.pseg != g, maintWait := x.maintWait.filter fun e => e.pseg != g
           xbar := x.xbar.filter fun w => w.lines.all fun e => e.pseg != g }

/-- Discard the destination of a migration before COMMIT (R258): the entry keeps the source. -/
def dropMig (m : Mig) (b : Block) : Block :=
  let b := { b with srl := { b.srl with migs := b.srl.migs.filter fun x => x.dst != m.dst } }
  let b := modEntry m.order.handle m.order.lseg (fun e => { e with migrating := false }) b
  let b := modChan (cid (segChan m.dst)) (dropDest m.dst) b
  if b.srl.retireAt.contains m.dst then retireSeg m.dst b else freeSeg m.dst b

/-- Queue an order in its place (R249): the queue is a list in arrival order. -/
def queueOrder (o : Order) (b : Block) : Block :=
  { b with srl := { b.srl with queue := b.srl.queue ++ [o] } }

/-- Evacuation orders in the queue. -/
def evacQueued (b : Block) : Nat := (b.srl.queue.filter fun o => o.reason == .evac).length

/-- Evacuations that wait in the repair path take the held places that are free (R249). -/
def promoteN : Nat → Block → Block
  | 0, b => b
  | n + 1, b =>
    match b.srl.evacWait with
    | [] => b
    | s :: rest =>
      if evacQueued b ≥ 256 then b else
      let b := { b with srl := { b.srl with evacWait := rest } }
      promoteN n (match ownerOf b s with
        | .owned h l => queueOrder { reason := .evac, handle := h, lseg := l } b
        | _ => b)

def promoteEvac (b : Block) : Block := promoteN b.srl.evacWait.length b

/-- Remove orders that wait, in the queue by `o` and in the repair path by the physical segment (R258); the places they held free
(R249). -/
def dropOrders (o : Order → Bool) (w : Nat → Bool) (b : Block) : Block :=
  promoteEvac { b with srl := { b.srl with
    queue := b.srl.queue.filter fun x => !o x, evacWait := b.srl.evacWait.filter fun s => !w s } }

/-- Queue an order in its place: an evacuation waits in the repair path while all 256 held places are in use, and other orders
are dropped and counted when 4096 wait (R249). -/
def enqueueOrder (o : Order) (b : Block) : Block :=
  if o.reason = .evac then
    (if evacQueued b < 256 then queueOrder o b
     else match mapEntry b o.handle o.lseg with
       | some e => { b with srl := { b.srl with evacWait := b.srl.evacWait ++ [e.pseg] } }
       | none => b)
  else if b.srl.queue.length - evacQueued b ≥ 4096 then
    rcSet (srlBase + 0x60) 4 (ctrAdd (srlBase + 0x4C) 1 b)
  else queueOrder o b

/-- Order the repair evacuation of a logical segment (R259): its retired bit is set, it moves at priority 1, and its present
physical segment is retired at the RELEASE of whichever migration moves it (log entry 120). -/
def evacSegment (h l : Nat) (b : Block) : Block :=
  let b := modEntry h l (fun e => { e with retired := true }) b
  let b := match mapEntry b h l with
    | some e => { b with srl := { b.srl with retireAt := sadd e.pseg b.srl.retireAt } }
    | none => b
  if (b.srl.queue.any fun o => o.handle == h && o.lseg == l && o.reason == .evac)
      || (match mapEntry b h l with | some e => b.srl.evacWait.contains e.pseg | none => true) then b
  else enqueueOrder { reason := .evac, handle := h, lseg := l } b

/-- Orders of priority 4 and 5 do not survive an abort of their migration (R258). -/
def Reason.transient (r : Reason) : Bool := r == .balance || r == .compact || r == .pack

/-- After an abort before COMMIT of a migration whose source is ordered for retirement, it is evacuated anew (R259). -/
def renewEvac (m : Mig) (b : Block) : Block :=
  if b.srl.retireAt.contains m.src || m.order.reason == .evac then
    evacSegment m.order.handle m.order.lseg { b with srl := { b.srl with retireAt := sdel m.src b.srl.retireAt } }
  else b

/-- A migration that is aborted before COMMIT (R258): counted, the destination released. -/
def abortMig (m : Mig) (b : Block) : Block := ctrAdd (srlBase + 0x48) 1 (dropMig m b)

/-- The same for a migration whose source keeps its engine: a copy's context receives event 30 (R383). -/
def abortCopy (m : Mig) (b : Block) : Block :=
  abortMig m (if m.stage = .copy then postCtx (segChan m.src) 1 30 [] b else b)

/-- Migrations of a channel that goes OFFLINE (R258): a lost source fails the migration, and a retirement ordered for it has no
further effect; a lost destination queues the order again, except for balance, compaction and gathering (R259 for the rest). -/
def offlineMigs (c : Nat) (b : Block) : Block :=
  (b.srl.migs.filter (migAborts c)).foldl (fun b m =>
    let b := if segChan m.src = c then abortMig m b else abortCopy m b
    if segChan m.src = c then
      let b := { b with srl := { b.srl with retireAt := sdel m.src b.srl.retireAt } }
      let b := modEntry m.order.handle m.order.lseg (fun e => { e with retired := false }) b
      if m.order.reason = .host then
        emit (portsOf b m.order.handle)
          { code := 0x0901, lo := word [(m.order.handle, 0), (3, 12)], hi := BitVec.ofNat 32 m.order.lseg } b
      else b
    else if m.order.reason = .evac ∨ b.srl.retireAt.contains m.src then renewEvac m b
    else if m.order.reason.transient then b
    else enqueueOrder m.order b) b

/-- A channel goes OFFLINE, with every effect of R342: queued accesses complete with CHANNEL_OFFLINE, orders from it leave
the queue, and CHN_OFF_HND records the handles. The fault and event 0x0C06 are the caller's. -/
def offlineChan (c : Nat) (b : Block) : Block :=
  let x := b.chans[cid c]
  let hs := handlesIn b c
  let lost := fun (o : Order) => o.dest == some c
    || (match mapEntry b o.handle o.lseg with | some e => segChan e.pseg == c | none => true)
  let b := offlineMigs c (dropOrders lost (fun s => segChan s == c) b)
  let b := modChan (cid c) (fun x =>
    { x with st := .offline, rq := [], wq := [], xbar := [], inflight := [], served := [], fills := [], await := [], maintWait := [], dueLeft := [], verify := [], softRun := none
             softWait := [], recal := [], srWant := false, pdWant := false, dillRun := false, offHnd := hs, abort := true
             banks := x.banks.map fun y => (y.1, { state := y.2.state, timed := y.2.timed, stopped := y.2.stopped }) }) b
  let b := (x.rq ++ x.inflight ++ x.served.map (·.1)).foldl (fun b e => failAcc e b) (postAborts c b)
  let b := x.xbar.foldl (fun b g => failXAcc g b) b
  (x.await.filter fun w => w.st.isSome).foldl (fun b w => sendCmpl w.port w.tag .channelOffline 1 w.handle b) b

/-- Detail of event 0x0C06 (R347). -/
def offlineEvent (c : Nat) (b : Block) : Ev :=
  let hs := b.chans[cid c].offHnd
  { code := 0x0C06, lo := word [(c, 0), (hs.length % 4096, 16)], hi := BitVec.ofNat 32 (hs.headD 0) }

end Sys2Proof.Machine
end

