-- ==== Sys2Proof/Machine/Flit.lean ====
section
/-! DEFINITION. The flit (R179 to R184): its layout, the transmitter of a port (R204, R205), and FENCE completion. -/

namespace Sys2Proof.Machine

open Sys2Proof

/-! ### Layout -/

/-- A field of the control block, counted from bit 0 of flit byte 320 (R180). -/
def ctlField (f : BitVec 2880) (hi lo : Nat) : Nat := field f.toNat (2560 + hi) (2560 + lo)

def fSeq (f : BitVec 2880) : BitVec 16 := BitVec.ofNat 16 (ctlField f 15 0)
def fAck (f : BitVec 2880) : BitVec 16 := BitVec.ofNat 16 (ctlField f 31 16)
def fCredit (f : BitVec 2880) (k : Nat) : Nat := ctlField f (39 + 8 * k) (32 + 8 * k)
def fType (f : BitVec 2880) (k : Nat) : Nat := ctlField f (67 + 4 * k) (64 + 4 * k)
def fTag (f : BitVec 2880) (k : Nat) : Nat := ctlField f (111 + 24 * k) (88 + 24 * k)
def fPoison (f : BitVec 2880) (k : Nat) : Bool := ctlField f (208 + k) (208 + k) == 1
def fNak (f : BitVec 2880) : Bool := ctlField f 215 215 == 1
def fQuiet (f : BitVec 2880) : BitVec 4 := BitVec.ofNat 4 (ctlField f 219 216)
def fMarker (f : BitVec 2880) : Nat := ctlField f 255 240
def fCrc (f : BitVec 2880) : BitVec 64 := BitVec.ofNat 64 (ctlField f 319 256)
/-- Slot k of a flit (R179). -/
def fSlot (f : BitVec 2880) (k : Nat) : BitVec 512 := BitVec.ofNat 512 (field f.toNat (512 * k + 511) (512 * k))

/-- The CRC over flit bytes 0 to 351 (R203). -/
def flitCrc (f : BitVec 2880) : BitVec 64 := crc64 (bytesOf 352 f)

/-- R204: every slot EMPTY and every credit return zero. -/
def isNull (f : BitVec 2880) : Bool := ctlField f 83 64 == 0 && ctlField f 63 32 == 0

/-- A flit from its parts and live fields (R180, R181), with its CRC. -/
def makeFlit (t : TxFlit) (seq ack : BitVec 16) (evPend nme nak : Bool) (marker : Nat) : BitVec 2880 :=
  let ctl := seq.toNat + ack.toNat <<< 16 + t.credits.toNat <<< 32 + t.types.toNat <<< 64 + t.tags.toNat <<< 88
    + t.poison.toNat <<< 208 + b2n evPend <<< 213 + b2n nme <<< 214 + b2n nak <<< 215 + marker <<< 240
  let f : BitVec 2880 := BitVec.ofNat 2880 (t.slots.toNat + ctl <<< 2560)
  f ||| BitVec.ofNat 2880 ((flitCrc f).toNat <<< (2560 + 256))

/-! ### Building a sequenced flit -/

/-- Put slot `k` of a type into a flit being built. -/
def putSlot (t : TxFlit) (k ty : Nat) (body : Nat) (recs : Nat) : TxFlit :=
  { t with slots := t.slots ||| BitVec.ofNat 2560 (body <<< (512 * k))
           types := t.types ||| BitVec.ofNat 20 (ty <<< (4 * k)), recs := t.recs + recs }

/-- Records packed side by side, `w` bits each. -/
def packRecs {w : Nat} (l : List (BitVec w)) : Nat :=
  (l.zipIdx.map fun r => r.1.toNat <<< (w * r.2)).sum

/-- Records of a list that credits and the slot let go. -/
def canSend (credits slot have_ : Nat) : Nat := min credits (min slot have_)

/-- Event slots are in force (R154, R183). -/
def Port.evOn (x : Port) : Bool := x.features.getLsbD 1

/-- Fill one slot with what waits, if it may go: `kind` 0 completions, 1 register records, 2 events, 3 a DATA line. -/
def fillSlot (kind k : Nat) (t : TxFlit) (x : Port) : Option (TxFlit × Port) :=
  match kind with
  | 0 =>
    let n := canSend x.far[0] 8 x.txCmpl.length
    if n = 0 then none else
    let rs := x.txCmpl.take n
    let x := rs.foldl (fun x r => endTag (x.itag (r.toNat % 1024)) x) x
    some (putSlot t k 3 (packRecs rs) n, { x with txCmpl := x.txCmpl.drop n, far := x.far.set 0 (x.far[0] - n) })
  | 1 =>
    let n := canSend x.far[2] 4 x.txReg.length
    if n = 0 then none else
    let rs := x.txReg.take n
    let x := rs.foldl (fun x r => endTag (x.itag (field r.toNat 21 12)) x) x
    some (putSlot t k 4 (packRecs rs) n, { x with txReg := x.txReg.drop n, far := x.far.set 2 (x.far[2] - n) })
  | 2 =>
    let n := if x.evOn then canSend x.far[3] 4 x.txEv.length else 0
    if n = 0 then none else
    let rs := x.txEv.take n
    let x := rs.foldl (fun x r =>
      if r.toNat % 16 = 2 then endTag (x.itag (field r.toNat 17 8)) x else x) x
    some (putSlot t k 5 (packRecs rs) n, { x with txEv := x.txEv.drop n, far := x.far.set 3 (x.far[3] - n) })
  | _ =>
    match x.txData with
    | [] => none
    | d :: rest =>
      if x.far[1] = 0 then none else
      let tag := d.tag % 1024 + d.line <<< 10 + (if d.poison then 1 else 0) <<< 13
      let t := putSlot t k 1 d.d.toNat 1
      let t := { t with tags := t.tags ||| BitVec.ofNat 120 (tag <<< (24 * k))
                        poison := t.poison ||| BitVec.ofNat 5 (b2n d.poison <<< k) }
      let x := { x with txData := rest, far := x.far.set 1 (x.far[1] - 1) }
      let x := { x with tags := x.tags.map fun u =>
        if u.1 = d.tag ∧ d.read then (u.1, { u.2 with lines := bclr u.2.lines d.line }) else u }
      let done := d.read && (match mget (x.tags.map fun u => (u.1, some u.2)) d.tag none with
        | some u => u.lines == 0 | none => false)
      some (t, if done then endTag d.tag x else x)

/-- Fill slots 0 to 4: completions, register records and events first, then DATA lines (the spec sets no choice among
records; DESIGN CHOICE, log entry 14). -/
def fillSlots (t : TxFlit) (x : Port) : TxFlit × Port :=
  let go := fun (a : Nat × TxFlit × Port) (kind : Nat) =>
    if a.1 ≥ 5 then a else
    match fillSlot kind a.1 a.2.1 a.2.2 with
    | some r => (a.1 + 1, r.1, r.2)
    | none => a
  ([0, 1, 2, 3, 3, 3, 3, 3].foldl go (0, t, x)).2

/-- The credit returns that the next sequenced flit carries, at most 255 per pool (R199). -/
def takeCredits (x : Port) : BitVec 32 × Port :=
  let n := fun (k : Fin 4) => min 255 x.ret[k]
  (BitVec.ofNat 32 (n 0 + n 1 <<< 8 + n 2 <<< 16 + n 3 <<< 24),
   { x with ret := Vector.ofFn fun k => x.ret[k] - n k, grant := Vector.ofFn fun k => x.grant[k] + n k })

/-- Build a new sequenced flit; `none` when there is nothing to send. -/
def buildFlit (x : Port) : Option (TxFlit × Port) :=
  let r := fillSlots {} x
  let c := takeCredits r.2
  if r.1.types = 0 ∧ c.1 = 0 then none else some ({ r.1 with credits := c.1 }, c.2)

/-! ### The transmitter (R205) -/

/-- An event record waits in the transmit path (R201). -/
def eventPending (x : Port) : Bool := x.txEv.any fun r => r.toNat % 16 == 1

/-- A non-maskable event is outstanding (R463). -/
def nmeOut (b : Block) : Bool := b.sage.nmeRef || b.sage.safe

/-- Send a flit: the live fields, the marker and the scramblers (R150, R182, R205). -/
def emitFlit (t : TxFlit) (seq : BitVec 16) (nme : Bool) (x : Port) : Port :=
  let isMarker := x.txFlits % 4096 == 0
  let mk := if isMarker then 0x5000 + x.txMarkers % 4096 else 0
  let f := makeFlit t seq x.lastGood (eventPending x) nme x.nakOut mk
  let scr := if isMarker then scrSeeds else x.txScr
  let w := scrFlit (lanesOf x.widthTx) scr (bytesOf 360 f)
  { x with txScr := w.1, wireTx := BitVec.ofNat 2880 (natOfBytes w.2), txFifo := through 8 f x.txFifo, nakOut := false, burst := false
           txFlits := x.txFlits + 1, txMarkers := x.txMarkers + b2n isMarker }

/-- The transmitter, once per flit time (R205): a replayed flit, a new sequenced flit, or a null flit. -/
def txFlit (nme : Bool) (x : Port) : Port :=
  if x.replayPtr ≠ x.nextSeq then
    let t := mget x.rb (x.replayPtr.toNat % 64) {}
    emitFlit t x.replayPtr nme { x with replayPtr := x.replayPtr + 1 }
  else if (x.nextSeq - x.oldest).toNat = 64 then emitFlit {} x.nextSeq nme x
  else
    match buildFlit x with
    | none => emitFlit {} x.nextSeq nme x
    | some (t, x) =>
      let seq := x.nextSeq
      emitFlit t seq nme { x with rb := mset x.rb (seq.toNat % 64) {} t, nextSeq := seq + 1, replayPtr := seq + 1 }

/-! ### Fences (R210) -/

/-- Complete the fences that no tag of their scope holds back any more. -/
def checkFences (p : PortId) (b : Block) : Block :=
  let x := b.ports[p]
  let still := fun (f : Fence) => f.waits.filter fun t => (x.tags.any fun u => u.1 == t && u.2.done.isNone)
  let done := x.fences.filter fun f => still f == []
  let b := modPort p (fun x => { x with fences := x.fences.filter fun f => !(still f == []) }) b
  done.foldl (fun b f => sendCmpl p f.tag f.status 3 f.handle b) b

/-- A port that sends flits (R149, R171). -/
def Port.transmits (x : Port) : Bool := (x.st == .active || x.st == .idle) && !x.idleTx

/-- One flit time of a port's transmitter. -/
def sendFlit (p : PortId) (b : Block) : Block :=
  if b.ports[p].transmits then checkFences p (modPort p (txFlit (nmeOut b)) b) else b

/-- A flit is still to be replayed, or credits to be returned. -/
def Port.owesFlits (x : Port) : Bool := x.replayPtr != x.nextSeq || x.ret != Vector.replicate 4 0

/-- Send the flits that are owed before idling, at most `n`. -/
def payFlits (p : PortId) : Nat → Block → Block
  | 0, b => b
  | n + 1, b => if b.ports[p].owesFlits then payFlits p n (sendFlit p b) else b

/-- The flits of a port that is about to idle: they carry its latest acknowledgement and credit returns (R170): 64 flits at most
are replayed, and five return every credit. -/
def lastFlits (p : PortId) (b : Block) : Block :=
  if b.ports[p].transmits then sendFlit p (payFlits p 70 b) else b

end Sys2Proof.Machine
end

