-- ==== Sys2Proof/Machine/Crypto.lean ====
section
/-! DEFINITION. SHA-384 and ECDSA P-384 verification, as R123 and R487 use them. The algorithms are those of FIPS 180-4 and
FIPS 186-5, which R123 names; their constants are the standards' (PRESUMED, log entry 16). -/

namespace Sys2Proof.Machine

open Sys2Proof

/-! ### SHA-384 -/

/-- The largest `r` with `r ^ k ≤ n`, by bits from `i - 1` down. -/
def rootBits (k n : Nat) : Nat → Nat → Nat
  | 0, r => r
  | i + 1, r => let t := r + 2 ^ i; rootBits k n i (if t ^ k ≤ n then t else r)

/-- The first 80 primes. -/
def primes80 : List Nat :=
  (List.range 410).filter fun n => 2 ≤ n && (List.range n).all fun d => d < 2 || n % d != 0

/-- The round constants: the first 64 fractional bits of the cube roots of the first 80 primes. -/
def shaK : List (BitVec 64) := primes80.map fun p => BitVec.ofNat 64 (rootBits 3 (p * 2 ^ 192) 68 0)

/-- The initial hash of SHA-384: the first 64 fractional bits of the square roots of the ninth to sixteenth primes. -/
def shaH0 : List (BitVec 64) := ((primes80.drop 8).take 8).map fun p => BitVec.ofNat 64 (rootBits 2 (p * 2 ^ 128) 68 0)

def shaRotr (x : BitVec 64) (n : Nat) : BitVec 64 := x.rotateRight n

/-- The number whose big-endian octets are given. -/
def natOfBE (l : List Byte) : Nat := l.foldl (fun a b => 256 * a + b.toNat) 0

/-- `n` big-endian octets of a number. -/
def beBytes (n x : Nat) : List Byte :=
  (List.range n).map fun i => BitVec.ofNat 8 (x / 256 ^ (n - 1 - i) % 256)

/-- The message schedule of one block, newest word first. -/
def shaSchedule (block : List Byte) : List (BitVec 64) :=
  let w0 := ((List.range 16).map fun i => BitVec.ofNat 64 (natOfBE ((block.drop (8 * i)).take 8))).reverse
  ((List.range 64).foldl (fun (w : List (BitVec 64)) _ =>
    let x := w.getD 1 0
    let y := w.getD 14 0
    let s1 := shaRotr x 19 ^^^ shaRotr x 61 ^^^ (x >>> 6)
    let s0 := shaRotr y 1 ^^^ shaRotr y 8 ^^^ (y >>> 7)
    (s1 + w.getD 6 0 + s0 + w.getD 15 0) :: w) w0).reverse

/-- One block into the hash state. -/
def shaBlock (h : List (BitVec 64)) (block : List Byte) : List (BitVec 64) :=
  let r := (List.zip (shaSchedule block) shaK).foldl (fun (v : List (BitVec 64)) wk =>
    let a := v.getD 0 0
    let e := v.getD 4 0
    let t1 := v.getD 7 0 + (shaRotr e 14 ^^^ shaRotr e 18 ^^^ shaRotr e 41)
      + ((e &&& v.getD 5 0) ^^^ (~~~e &&& v.getD 6 0)) + wk.2 + wk.1
    let t2 := (shaRotr a 28 ^^^ shaRotr a 34 ^^^ shaRotr a 39)
      + ((a &&& v.getD 1 0) ^^^ (a &&& v.getD 2 0) ^^^ (v.getD 1 0 &&& v.getD 2 0))
    [t1 + t2, a, v.getD 1 0, v.getD 2 0, v.getD 3 0 + t1, e, v.getD 5 0, v.getD 6 0]) h
  List.zipWith (· + ·) h r

/-- The padded message (FIPS 180-4, 5.1.2). -/
def shaPad (l : List Byte) : List Byte :=
  l ++ [0x80] ++ List.replicate ((239 - l.length % 128) % 128) 0 ++ beBytes 16 (8 * l.length)

/-- The SHA-384 digest, 48 octets. -/
def sha384 (l : List Byte) : List Byte :=
  let m := shaPad l
  let h := (List.range (m.length / 128)).foldl (fun h i => shaBlock h ((m.drop (128 * i)).take 128)) shaH0
  (h.take 6).flatMap fun x => beBytes 8 x.toNat

/-! ### ECDSA P-384 -/

def p384P : Nat := 2 ^ 384 - 2 ^ 128 - 2 ^ 96 + 2 ^ 32 - 1
def p384N : Nat := 0xffffffffffffffffffffffffffffffffffffffffffffffffc7634d81f4372ddf581a0db248b0a77aecec196accc52973
def p384B : Nat := 0xb3312fa7e23ee7e4988e056be3f82d19181d9c6efe8141120314088f5013875ac656398d8a2ed19d2a85c8edd3ec2aef
def p384Gx : Nat := 0xaa87ca22be8b05378eb1c71ef320ad746e1d3b628ba79b9859f741e082542a385502f25dbf55296c3a545e3872760ab7
def p384Gy : Nat := 0x3617de4a96262c6f5d9e98bf9292dc29f8f41dbd289a147ce9da3113b5f0b8c00a60b1ce1d7e819d7a431d7c90ea0e5f

/-- Modular power by the bits of a 384-bit exponent. -/
def powMod (a e m : Nat) : Nat :=
  ((List.range 384).foldl (fun (r : Nat × Nat) i =>
    (if e / 2 ^ i % 2 = 1 then r.1 * r.2 % m else r.1, r.2 * r.2 % m)) (1, a % m)).1

/-- The inverse modulo a prime. -/
def invMod (a m : Nat) : Nat := powMod a (m - 2) m

/-- Points of the curve; `none` is the point at infinity. -/
abbrev EcPoint := Option (Nat × Nat)

/-- Addition on the curve. -/
def ecAdd (a b : EcPoint) : EcPoint :=
  match a, b with
  | none, q => q
  | q, none => q
  | some (x1, y1), some (x2, y2) =>
    let p := p384P
    if x1 = x2 ∧ (y1 + y2) % p = 0 then none else
    let l := if x1 = x2 then (3 * x1 * x1 + (p - 3)) * invMod (2 * y1) p % p
             else (y2 + p - y1) * invMod (x2 + p - x1) p % p
    let x3 := (l * l + 2 * p - x1 - x2) % p
    some (x3, (l * (x1 + p - x3) + p - y1) % p)

/-- Scalar multiplication. -/
def ecMul (k : Nat) (q : EcPoint) : EcPoint :=
  ((List.range 384).foldl (fun (r : EcPoint × EcPoint) i =>
    (if k / 2 ^ i % 2 = 1 then ecAdd r.1 r.2 else r.1, ecAdd r.2 r.2)) (none, q)).1

/-- ECDSA verification of a digest (FIPS 186-5, 6.4.2). -/
def ecdsaVerify (x y r s : Nat) (digest : List Byte) : Bool :=
  let n := p384N
  let p := p384P
  if r = 0 ∨ r ≥ n ∨ s = 0 ∨ s ≥ n then false
  else if x ≥ p ∨ y ≥ p ∨ y * y % p ≠ (x * x * x + (p - 3) * x + p384B) % p then false
  else
    let w := invMod s n
    let u1 := natOfBE digest * w % n
    let u2 := r * w % n
    match ecAdd (ecMul u1 (some (p384Gx, p384Gy))) (ecMul u2 (some (x, y))) with
    | some (x3, _) => x3 % n == r
    | none => false

/-- The key check's hash (R123): SHA-384 of key_x followed by key_y. -/
def keyHashOf (xy : List Byte) : List Byte := sha384 xy

/-- Verify the signature fields (key_x, key_y, sig_r, sig_s: 192 octets) over a message (R123, R487). -/
def verifySig (fields msg : List Byte) : Bool :=
  let f := fun k => natOfBE ((fields.drop (48 * k)).take 48)
  ecdsaVerify (f 0) (f 1) (f 2) (f 3) (sha384 msg)

end Sys2Proof.Machine
end

