-- ==== Sys2Proof/Machine/OtpOps.lean ====
section
/-! DEFINITION. The OTP words: stored charge, the power-up capture, regions, keys, locks and the life-cycle state
(R479 to R483, R495 to R499). -/

namespace Sys2Proof.Machine

open Sys2Proof

/-- Reserved words (R480). -/
def otpReserved (w : Nat) : Bool :=
  (0x4D ≤ w && w ≤ 0x4F) || w == 0x57 || w == 0x5F || w == 0x3F9 || w ≥ 0x3FE

/-- A word as the part leaves the factory: a reserved word stays blank (R481). -/
def otpMade (w : Nat) : BitVec 72 := if otpReserved w then 0 else Config.otpFactory w

/-- The 72 raw bits a word holds. -/
def otpRaw (b : Block) (w : Nat) : BitVec 72 := (mfind b.otp.words w).getD (otpMade w)

/-- The raw normal read of a word at power-up (R482). -/
def otpCap (b : Block) (w : Nat) : BitVec 72 := (mfind b.otp.cap w).getD (otpMade w)

/-- The corrected value captured at power-up; `none` when uncorrectable (R483). -/
def otpWord (b : Block) (w : Nat) : Option (BitVec 64) := (secdedDecode (otpCap b w)).map (·.1)

/-- A word is set: at least 48 of its 64 raw data bits read 1 (R479). -/
def otpIsSet (raw : BitVec 72) : Bool := ones (raw.truncate 64 : BitVec 64) ≥ 48

/-- A life-cycle word reads as set now, by its stored charge. -/
def lcCountOf (f : Nat → BitVec 72) : Nat := ((List.range 12).filter fun i => otpIsSet (f (0x40 + i))).length

/-- Set LIFECYCLE words as they read now (R499). -/
def lcCount (b : Block) : Nat := lcCountOf (otpRaw b)

/-- The state a count gives (R499). -/
def lcState (n : Nat) : BitVec 3 := BitVec.ofNat 3 (min n 6)

/-- The region of a word (R480): `none` for the LOCKWORDS. -/
def otpRegion (w : Nat) : Option Nat :=
  if w ≤ 0x3F then some 0 else if w ≤ 0x4B then some 1 else if w ≤ 0x4F then some 2 else if w ≤ 0x57 then some 3
  else if w ≤ 0x5F then some 4 else if w ≤ 0x3F7 then some 5 else none

/-- The lock word of a region (R480). -/
def otpLockWord (r : Nat) : Option Nat :=
  if r = 0 then some 0x3F8 else if r = 2 then some 0x3FA else if r = 3 then some 0x3FB else if r = 4 then some 0x3FC
  else if r = 5 then some 0x3FD else none

/-- The completion marker of a region (R480). -/
def otpMarker (r : Nat) : Option Nat :=
  if r = 0 then some 0x3F else if r = 3 then some 0x56 else if r = 4 then some 0x5E else none

/-- Bits of a region in a captured word, for markers and key hashes: an uncorrectable one leaves the slot not programmed
(R483). -/
def otpMarkerCap (b : Block) (w : Nat) : Bool := (otpWord b w).isSome && otpIsSet (otpCap b w)

/-- The hash of a key slot as captured: 48 octets; `none` when the slot is not programmed (R481). -/
def keyHash (b : Block) (slot : Nat) : Option (List Byte) :=
  if slot = 2 then some Config.mfgKeyHash
  else if slot ≥ 2 then none
  else
    let base := if slot = 0 then 0x50 else 0x58
    if !otpMarkerCap b (base + 6) then none
    else
      let ws := (List.range 6).map fun k => otpWord b (base + k)
      if ws.all Option.isSome then some (ws.flatMap fun w => bytesOf 8 (w.getD 0)) else none

/-- The owner-exclusive flag (R483: programmed when uncorrectable). -/
def ownerExclusive (b : Block) : Bool :=
  match otpWord b 0x4C with | some _ => otpIsSet (otpCap b 0x4C) | none => true

/-- FACTORY word 0x000 and the OTP revision (R480). -/
def otpUid (b : Block) : BitVec 64 := (otpWord b 0).getD (Config.otpUe 0)
def otpRev (b : Block) : Nat := ((otpWord b 2).getD (Config.otpUe 2)).toNat % 65536

/-- The region is permanently locked (R498): any raw bit of its lock word reads 1. -/
def otpSealed (b : Block) (r : Nat) : Bool :=
  match otpLockWord r with
  | some w => otpRaw b w != 0 || (otpWord b w).isNone
  | none => false

/-- OTP_STATUS.repair_next: the lowest blank REPAIR word (R495). -/
def repairNext (b : Block) : Nat :=
  ((List.range 920).find? fun i => otpRaw b (0x60 + i) == 0).map (0x60 + ·) |>.getD 0x3F8

/-- A repair entry in force: the spare's key (channel, slice, bank, spare) and its row. -/
structure Repair where
  key : Nat
  row : Nat
deriving DecidableEq, Repr

/-- The fields of an entry (R494): spare key in bits [39:26], row, supersede. -/
def repairKey (d : BitVec 64) : Nat := field d.toNat 39 26
def repairRow (d : BitVec 64) : Nat := field d.toNat 25 11
def repairSup (d : BitVec 64) : Bool := d.getLsbD 47

/-- Entries in force from a reading of the words, in ascending order (R496). -/
def repairsOf (f : Nat → Option (BitVec 64)) : List Repair :=
  (List.range 920).foldl (fun (l : List Repair) i =>
    match f (0x60 + i) with
    | some d =>
      if field d.toNat 63 56 ≠ 0xA5 then l
      else
        let l := if repairSup d then l.filter fun r => r.key != repairKey d else l
        if repairRow d = 0x7FFF then l else l ++ [{ key := repairKey d, row := repairRow d }]
    | none => l) []

/-- The entries in force: those that step 2 of the start read (R482, R495, R496). -/
def repairsInForce (b : Block) : List Repair := repairsOf fun w => if otpCap b w = 0 then none else otpWord b w

/-- A key slot is accepted for images in the life-cycle state in force (R125). -/
def imageKeyOk (b : Block) (slot : Nat) : Bool :=
  let lc := b.otp.lc.toNat
  if lc = 1 ∨ lc = 2 ∨ lc = 5 then slot == 0
  else if lc = 3 ∨ lc = 4 then (if slot = 0 then !ownerExclusive b else slot == 1)
  else false

end Sys2Proof.Machine
end

