-- ==== Sys2Proof/Machine/Image.lean ====
section
/-! DEFINITION. The Lovage image (chapter 5): container, curves, state tables, section bodies, the checks of R124, and what
the sections in force say. Without an applied image the ROM image's values stand. -/

namespace Sys2Proof.Machine

open Sys2Proof

/-! ### Curves (R141, R142) -/

structure Curve where
  id : Nat
  xUnit : Nat
  yUnit : Nat
  step : Bool
  pts : List (Int × Int)
deriving DecidableEq, Repr

/-- A 16-bit value read in a unit: Q8.8 °C is two's complement. -/
def unitVal (u v : Nat) : Int := if u = 1 ∧ v ≥ 32768 then (v : Int) - 65536 else v

/-- Division rounded to nearest, ties away from zero (R142). -/
def divRound (a b : Int) : Int :=
  if a ≥ 0 then (2 * a + b) / (2 * b) else - ((2 * (-a) + b) / (2 * b))

/-- The points after the first two that bracket `x`. -/
def curveGo (step : Bool) (x : Int) : (Int × Int) → List (Int × Int) → Int
  | p, [] => p.2
  | p, q :: t =>
    if q.1 ≤ x then curveGo step x q t
    else if step then p.2
    else p.2 + divRound ((q.2 - p.2) * (x - p.1)) (q.1 - p.1)

/-- Evaluate a curve (R142). -/
def Curve.eval (c : Curve) (x : Int) : Int :=
  match c.pts with
  | [] => 0
  | p :: t => if x ≤ p.1 then p.2 else curveGo c.step x p t

/-- A curve from its header and point words. -/
def mkCurve (h : Word) (pts : List Word) : Curve :=
  { id := wfield h 31 24, xUnit := wfield h 23 20, yUnit := wfield h 19 16, step := wfield h 15 15 == 1
    pts := pts.map fun p => (unitVal (wfield h 23 20) (wfield p 31 16), unitVal (wfield h 19 16) (wfield p 15 0)) }

/-- x rises strictly from point to point. -/
def rising : List (Int × Int) → Bool
  | p :: q :: t => decide (p.1 < q.1) && rising (q :: t)
  | _ => true

/-- The 32-bit words of a body. -/
def wordsOf (l : List Byte) : List Word := (List.range (l.length / 4)).map fun i => wordAt l (4 * i)

/-- Curve records in a row; `none` when one breaks R141. -/
def readCurves : Nat → List Word → Option (List Curve × List Word)
  | 0, ws => some ([], ws)
  | n + 1, h :: ws =>
    let k := wfield h 12 8
    let c := mkCurve h (ws.take k)
    if wfield h 14 13 = 0 ∧ wfield h 7 0 = 0 ∧ 1 ≤ k ∧ k ≤ 16 ∧ k ≤ ws.length ∧ c.xUnit ≤ 5 ∧ c.yUnit ≤ 5
        ∧ rising c.pts = true
    then (readCurves n (ws.drop k)).map fun r => (c :: r.1, r.2)
    else none
  | _ + 1, [] => none

/-- A curve section: a count and that many records, and nothing else. -/
def curvesOf (body : List Byte) : Option (List Curve) :=
  if body.length % 4 ≠ 0 then none else
  match wordsOf body with
  | [] => none
  | n :: ws =>
    if n.toNat > ws.length then none else
    match readCurves n.toNat ws with
    | some (cs, []) => some cs
    | _ => none

/-- Every id of a list is held by exactly one curve, and no other id. -/
def curveIds (ids : List Nat) (cs : List Curve) : Bool :=
  cs.length == ids.length && ids.all fun i => (cs.filter fun c => c.id == i).length == 1

/-! ### State-machine tables (R137 to R140) -/

/-- The length of a table in words, from its header and timer word. -/
def tableLen (ws : List Word) : Nat :=
  2 + wfield (ws.getD 1 0) 27 24 + 32 * wfield (ws.getD 0 0) 23 16

/-- The entry of a state and event. -/
def tableEntry (ws : List Word) (state event : Nat) : Word :=
  ws.getD (2 + wfield (ws.getD 1 0) 27 24 + 32 * state + event) 0

/-- Fields of an entry (R138). -/
def entNext (e : Word) : Nat := wfield e 31 26
def entAction (e : Word) : Nat := wfield e 25 16
def entGuard (e : Word) : Nat := wfield e 15 8
def entTimer (e : Word) : Nat := wfield e 7 4
def entFault (e : Word) : Bool := e.getLsbD 3
def entStop (e : Word) : Bool := e.getLsbD 2
def entHold (e : Word) : Bool := e.getLsbD 1
def entValid (e : Word) : Bool := e.getLsbD 0

/-- The conditions of R140 on a table; `dram` for a DRAM_TIMING table. -/
def tableOk (dram : Bool) (ws : List Word) : Bool :=
  let h := ws.getD 0 0
  let t := ws.getD 1 0
  let states := wfield h 23 16
  let events := wfield h 15 8
  let timers := wfield t 27 24
  decide (2 ≤ ws.length ∧ ws.length = tableLen ws ∧ 1 ≤ states ∧ states ≤ 64 ∧ 1 ≤ events ∧ events ≤ 32
    ∧ wfield h 7 2 < states ∧ wfield h 1 0 = 0 ∧ wfield t 31 28 = 0 ∧ wfield t 23 0 = 0)
  && ((ws.drop 2).take timers).all (fun w => decide (wfield w 31 28 ≤ 2 ∧ wfield w 27 0 ≠ 0))
  && (List.range states).all (fun s => (List.range 32).all fun e =>
    let x := tableEntry ws s e
    !entValid x ||
      (decide (entNext x < states ∧ entTimer x ≤ timers ∧ ¬ (events ≤ e ∧ e ≤ 29))
        && (!dram || decide (entAction x ≤ 0x00A ∧ (e ≤ 9 ∨ e ≥ 30)))))

/-! ### The container (R108 to R114) -/

def hdrMagic (l : List Byte) : Nat := natAt l 0 4
def hdrFormat (l : List Byte) : Nat := natAt l 4 2
def hdrLength (l : List Byte) : Nat := natAt l 8 4
def hdrPart (l : List Byte) : Nat := natAt l 0xC 2
def hdrMinRev (l : List Byte) : Nat := natAt l 0xE 2
def hdrVersion (l : List Byte) : Word := wordAt l 0x10
def hdrBuild (l : List Byte) : Word := wordAt l 0x14
def hdrCount (l : List Byte) : Nat := natAt l 0x18 2
def hdrLive (l : List Byte) : Bool := natAt l 0x1A 2 % 2 == 1
def hdrDir (l : List Byte) : Nat := natAt l 0x1C 4
def hdrSig (l : List Byte) : Nat := natAt l 0x20 4
def hdrBase (l : List Byte) : Word := wordAt l 0x28

/-- A section directory entry (R112). -/
structure Sec where
  index : Nat
  id : Nat
  fmt : Nat
  zero : Nat
  off : Nat
  len : Nat
  crc : Word
deriving DecidableEq, Repr

/-- The directory of an image. -/
def secsOf (l : List Byte) : List Sec :=
  (List.range (hdrCount l)).map fun i =>
    let o := hdrDir l + 16 * i
    { index := i, id := natAt l o 2, fmt := natAt l (o + 2) 1, zero := natAt l (o + 3) 1
      off := natAt l (o + 4) 4, len := natAt l (o + 8) 4, crc := wordAt l (o + 0xC) }

/-- The body of a directory entry. -/
def secBytes (l : List Byte) (s : Sec) : List Byte := (l.drop s.off).take s.len

/-- The body of the section with an id. -/
def sectionOf (l : List Byte) (id : Nat) : Option (List Byte) :=
  ((secsOf l).find? fun s => s.id == id).map (secBytes l)

/-- Structural and live sections (R114). -/
def isLive (id : Nat) : Bool := id == 4 || id == 5 || id == 8 || id == 9 || id == 10
def knownSec (id : Nat) : Bool := 1 ≤ id && id ≤ 0x11
def mandatory (id : Nat) : Bool := knownSec id && id != 0xC

/-- Bytes of an interval are zero. -/
def zeroRun (l : List Byte) (lo hi : Nat) : Bool := ((l.drop lo).take (hi - lo)).all (· == 0)

/-- Parts after the header in ascending order, for the gaps of R109. -/
def partsOf (l : List Byte) : List (Nat × Nat) :=
  let ps := (hdrDir l, 16 * hdrCount l) :: (secsOf l).map fun s => (s.off, s.len)
  ps.mergeSort fun a b => a.1 ≤ b.1

/-- Parts lie one after another between two offsets, with zeros between them. -/
def partsFit (l : List Byte) (lo hi : Nat) : List (Nat × Nat) → Bool
  | [] => decide (lo ≤ hi) && zeroRun l lo hi
  | (o, n) :: t => decide (lo ≤ o ∧ o + n ≤ hi) && zeroRun l lo o && partsFit l (o + n) hi t

/-! ### Section bodies -/

/-- A permutation of 0 to 20, as a lane map must be (R115). -/
def isPerm21 (l : List Byte) : Bool := (List.range 21).all fun i => l.any fun b => b.toNat == i

/-- PORTS (R115). -/
def portsOk (l : List Byte) : Bool :=
  l.length == 784 && (l.take 16).all (fun b => decide (b.toNat ≤ 3))
    && (List.range 32).all fun k =>
      let m := (l.drop (16 + 24 * k)).take 24
      isPerm21 (m.take 21) && (m.drop 21).all (· == 0)

/-- GEOMETRY (R116). -/
def geometryOk (l : List Byte) : Bool :=
  decide (l.length = 16 ∧ natAt l 0 4 ≠ 0 ∧ natAt l 4 1 = Config.height ∧ natAt l 5 1 = 4 ∧ natAt l 6 2 = 24576
    ∧ natAt l 8 1 = 4 ∧ natAt l 9 1 = 8) && zeroRun l 0xA 16

/-- A parameter block and its table for one operating point (R302). -/
def timingSetOk (op : Nat) (ws : List Word) : Bool :=
  (List.range 16).all (fun i =>
    ((ws.take 16).filter fun w => wfield w 31 24 == i + 1 && wfield w 23 16 == 0 && wfield w 15 0 != 0).length == 1)
  && wfield (ws.getD 16 0) 31 24 == op && tableOk true (ws.drop 16)

/-- Split a DRAM_TIMING body into its sets. -/
def timingSets : Nat → List Word → List (List Word)
  | 0, _ => []
  | n + 1, ws =>
    let k := 16 + tableLen (ws.drop 16)
    ws.take k :: timingSets n (ws.drop k)

def dramTimingOk (l : List Byte) : Bool :=
  let ws := wordsOf l
  let sets := timingSets 4 ws
  l.length % 4 == 0 && (sets.map List.length).sum == ws.length
    && (sets.zipIdx.all fun s => timingSetOk s.2 s.1)

/-- REFRESH (R309). -/
def refreshOk (l : List Byte) : Bool :=
  match curvesOf l with
  | some [c] => c.id == 0 && c.step && c.xUnit == 1 && c.yUnit == 0
      && c.pts.all fun p => decide (0x100 ≤ p.2 ∧ p.2 ≤ 0x800)
  | _ => false

/-- THROTTLE (R306, R409). -/
def throttleOk (l : List Byte) : Bool :=
  match curvesOf l with
  | some cs => curveIds [0, 1, 2, 3] cs && cs.all fun c =>
      c.step && c.yUnit == 2 && c.xUnit == (if c.id ≤ 1 then 1 else 2) &&
      (if c.id ≤ 1 then c.pts.head?.any (fun p => p.1 == 0) && c.pts.all fun p => decide (1 ≤ p.2 ∧ p.2 ≤ 3)
       else if c.id = 2 then c.pts.all fun p => decide (p.2 ≤ 15)
       else c.pts.all fun p => p.2 == 1 || p.2 == 2 || p.2 == 4)
  | none => false

/-- Sensors present on the part (R398). -/
def sensorPresent (n : Nat) : Bool := n < 64 || (n < 192 && (n - 64) / 8 < Config.height)

/-- Members of the neighbour entry of sensor `n` of a SENSORS body. -/
def sensorSet (l : List Byte) (n : Nat) : List Nat :=
  (((l.drop (0x18 + 8 * n)).take 8).map BitVec.toNat).filter (· ≠ 0xFF)

/-- SENSORS (R416). -/
def sensorsOk (l : List Byte) : Bool :=
  let t := fun k => unitVal 1 (natAt l (4 * k + 2) 2)
  l.length == 1560 && decide (t 0 < t 1 ∧ t 1 < t 2 ∧ t 3 < t 4 ∧ t 4 < t 5)
    && (List.range 192).all fun n =>
      let m := sensorSet l n
      if sensorPresent n then
        decide (2 ≤ m.length) && m.Nodup && m.all fun x => sensorPresent x && x != n
      else m == []

/-- PLACEMENT (R117); the clamped urgent share judges the normal share, and the trigger is clamped, not refused. -/
def placementOk (l : List Byte) : Bool :=
  let urgent := min 100 (natAt l 9 1)
  let normal := min 100 (natAt l 8 1)
  decide (l.length = 40 ∧ 1 ≤ natAt l 0 1 ∧ natAt l 0 1 ≤ 15) && zeroRun l 1 4
    && decide (natAt l 0xA 2 = 0 ∧ 1 ≤ urgent ∧ 1 ≤ normal ∧ normal ≤ urgent)
    && decide (6 ≤ natAt l 0xC 4 ∧ natAt l 0xC 4 ≤ 15)
    && decide (1 ≤ natAt l 0x10 1)
    && decide (natAt l 0x17 1 = 0 ∧ natAt l 0x15 1 < 16 ∧ 1 ≤ natAt l 0x15 1 ∧ 60 ≤ natAt l 0x14 1)
    && decide (natAt l 0x18 2 < natAt l 0x1A 2) && decide (natAt l 0x1C 4 < 256) && zeroRun l 0x20 0x28

/-- CLASSES (R118). -/
def classesOk (l : List Byte) : Bool :=
  let cls := (List.range 8).map fun k => wordAt l (4 * k)
  l.length == 40 && cls.all (fun w => decide (wfield w 31 21 = 0 ∧ wfield w 15 0 ≠ 0))
    && decide ((cls.filter fun w => wfield w 20 20 == 1).length ≤ 2)
    && decide (10 ≤ natAt l 0x20 4 ∧ natAt l 0x20 4 ≤ 65535 ∧ natAt l 0x24 4 ≤ 3)

/-- RAMPS (R273). -/
def rampsOk (l : List Byte) : Bool :=
  match curvesOf l with
  | some cs => curveIds [0, 1, 2, 3, 4, 5, 6, 7] cs
      && cs.all fun c => c.xUnit == 0 && c.yUnit == 2 && decide (c.pts.length ≤ 8)
  | none => false

/-- BUDGET (R279). -/
def budgetOk (l : List Byte) : Bool :=
  match curvesOf l with
  | some cs => curveIds [0, 1, 2, 3, 4] cs
      && cs.all fun c => c.step && c.yUnit == 5 && c.xUnit == (if c.id ≤ 3 then 2 else 3)
        && c.pts.all fun p => decide (p.2 ≤ 0x6400)
  | none => false

/-- The built-in tasks of the engine task directory (R380): Dill walk, migration copy, soft row repair, TSV calibration,
DRAM training, and the built-in opcodes of R351 (numbered from 16). -/
def builtinTasks : List Nat := [0, 1, 2, 3, 4] ++ (List.range 10).map (17 + ·)

/-- ENGINE_SEQ (R379, R380, R140). -/
def engineSeqOk (l : List Byte) : Bool :=
  let ts := (List.range 256).filterMap (Config.engTable l)
  ts.all (tableOk false) && builtinTasks.all (fun t =>
      match Config.engDirectory l t with | some i => (Config.engTable l i).isSome | none => false)
    && decide ((Config.engConstants l).length ≤ 8192)
    && decide ((ts.map fun t => 4 * t.length).sum + 2 * builtinTasks.length ≤ 65536)

/-- A format entry (R143). -/
def formatOk (eng : Option (List Byte)) (l : List Byte) (o : Nat) : Bool :=
  decide (0x80 ≤ natAt l o 1 ∧ natAt l o 1 ≤ 0x8F)
    && (match eng with | some e => (Config.engTable e (natAt l (o + 1) 1)).isSome | none => true)
    && decide (natAt l (o + 2) 1 ≤ 1 ∧ natAt l (o + 3) 1 ≤ 4 ∧ natAt l (o + 4) 2 < 16 ∧ natAt l (o + 6) 2 ≠ 0)
    && (List.range 12).all fun k =>
      let a := natAt l (o + 8 + 2 * k) 2
      a % 2 == 0 || decide (field a 7 1 = 0 ∧ field a 15 10 + 2 ^ field a 9 8 ≤ 64)

/-- OP_FORMAT (R143). -/
def opFormatOk (eng : Option (List Byte)) (l : List Byte) : Bool :=
  let n := natAt l 0 4
  decide (1 ≤ n ∧ n ≤ 16 ∧ l.length = 4 + 32 * n)
    && (List.range n).all (fun i => formatOk eng l (4 + 32 * i))
    && ((List.range n).map fun i => natAt l (4 + 32 * i) 1).Nodup

/-- SUP_FW (R121). -/
def supFwOk (l : List Byte) : Bool :=
  let c := natAt l 4 4
  let d := natAt l 8 4
  let e := natAt l 0xC 4
  decide (c % 16 = 0 ∧ 16 ≤ c ∧ c ≤ 262144 ∧ d % 16 = 0 ∧ d ≤ 131072 ∧ e % 4 = 0 ∧ e < c ∧ l.length = 16 + c + d)

/-- OP_POINTS (R119). -/
def opPointsOk (l : List Byte) : Bool :=
  let s := natAt l 0 1
  let m := natAt l 1 1
  decide (l.length = 8 ∧ s ≤ 3 ∧ m ≤ 15 ∧ m / 2 ^ s % 2 = 1 ∧ m / 2 % 2 = 1 ∧ natAt l 2 1 ≤ 1 ∧ natAt l 3 1 = 0)
    && (l.drop 4).all fun b => decide (b.toNat ≤ 5)

/-- POWER (R120). -/
def powerOk (l : List Byte) : Bool :=
  decide (l.length = 40 ∧ natAt l 0 1 ≤ 4 ∧ 1 ≤ natAt l 1 1 ∧ natAt l 1 1 ≤ 20 ∧ 1 ≤ natAt l 2 1 ∧ natAt l 2 1 ≤ 4
    ∧ 1 ≤ natAt l 3 1 ∧ natAt l 3 1 ≤ 15 ∧ natAt l 0x24 1 ≤ 32) && zeroRun l 0x25 0x28

/-- The source ids of R453. -/
def sourceIds : List Nat :=
  [0, 8, 9, 16, 17, 24, 25, 32, 33, 34, 40, 48, 49, 50, 56, 57, 58, 64, 65, 66, 67, 72, 73, 74, 75, 80, 81, 88, 89, 96,
   97, 104, 112, 120]

/-- REACTIONS (R466). -/
def reactionsOk (l : List Byte) : Bool :=
  l.length == 256 && l.zipIdx.all fun x => decide (x.1.toNat ≤ 4) && (sourceIds.contains x.2 || x.1 == 0)

/-- SAFETY (R467); values are clamped, not refused. -/
def safetyOk (l : List Byte) : Bool := l.length == 16 && decide (natAt l 0 4 ≤ 1)

/-- The body of a section stands check 6. -/
def bodyOk (eng : Option (List Byte)) (id : Nat) (l : List Byte) : Bool :=
  if id = 1 then portsOk l else if id = 2 then geometryOk l else if id = 3 then dramTimingOk l
  else if id = 4 then refreshOk l else if id = 5 then throttleOk l else if id = 6 then sensorsOk l
  else if id = 7 then placementOk l else if id = 8 then classesOk l else if id = 9 then rampsOk l
  else if id = 10 then budgetOk l else if id = 11 then engineSeqOk l else if id = 12 then opFormatOk eng l
  else if id = 13 then supFwOk l else if id = 14 then opPointsOk l else if id = 15 then powerOk l
  else if id = 16 then reactionsOk l else safetyOk l

/-! ### The checks of R124 -/

/-- A failed check: its number, the directory index of the section (0xFF for none) and the image offset. -/
structure ImgFail where
  check : Nat
  sec : Nat := 0xFF
  off : Nat := 0
deriving DecidableEq, Repr

/-- Fail when the condition does not hold. -/
def need (ok : Bool) (f : ImgFail) : Option ImgFail := if ok then none else some f

/-- Check 3 on the header alone (R130): the length field. -/
def lengthOk (l : List Byte) : Bool := decide (hdrLength l ≤ 0x500000 ∧ 264 ≤ hdrLength l)

/-- Check 3 (R109). R110 and R112 name no check for a header_size other than 64 and for a section offset that is no multiple of
16: both fail this one (DESIGN CHOICE, log entry 104). -/
def check3 (l : List Byte) : Option ImgFail :=
  if !lengthOk l then some { check := 3, off := 8 }
  else if natAt l 6 2 ≠ 64 then some { check := 3, off := 6 }
  else if hdrSig l + 200 ≠ hdrLength l then some { check := 3, off := 0x20 }
  else if hdrDir l < 64 ∨ hdrDir l + 16 * hdrCount l > hdrSig l then some { check := 3, off := 0x1C }
  else
    match (secsOf l).find? fun s => s.off % 16 != 0 || decide (s.off < 64 ∨ s.off + s.len > hdrSig l) with
    | some s => some { check := 3, sec := s.index, off := hdrDir l + 16 * s.index }
    | none => need (partsFit l 64 (hdrSig l) (partsOf l)) { check := 3, off := hdrDir l }

/-- Check 6 (R112, R114 and the body rules); a nonzero byte 0x3 of a directory entry, for which R112 names no check, fails it
(DESIGN CHOICE, log entry 104). -/
def check6 (l : List Byte) : Option ImgFail :=
  let ss := secsOf l
  let bad := fun (s : Sec) => ({ check := 6, sec := s.index, off := hdrDir l + 16 * s.index } : ImgFail)
  if hdrCount l < 1 ∨ hdrCount l > 32 then some { check := 6, off := 0x18 }
  else
    match ss.find? fun s => s.fmt != 1 || s.zero != 0 || !knownSec s.id
        || (ss.any fun t => t.id == s.id && decide (t.index < s.index)) with
    | some s => some (bad s)
    | none =>
      if !hdrLive l && (List.range 0x12).any (fun i => mandatory i && !(ss.any fun s => s.id == i))
      then some { check := 6, off := hdrDir l }
      else
        match ss.find? fun s => !bodyOk (sectionOf l 11) s.id (secBytes l s) with
        | some s => some { check := 6, sec := s.index, off := s.off }
        | none => none

/-- Check 8: the key (R123, R125). -/
def check8 (b : Block) (l : List Byte) : Bool :=
  let slot := natAt l (hdrSig l + 4) 1
  decide (slot ≤ 1) && imageKeyOk b slot
    && (keyHash b slot == some (keyHashOf ((l.drop (hdrSig l + 8)).take 96)))

/-- Check 9: the signature block and its signature (R122, R123). R122 names no check for the magic and the zero bytes of the
block: both fail this one (DESIGN CHOICE, log entry 104). -/
def check9 (l : List Byte) : Bool :=
  natAt l (hdrSig l) 4 == 0x47535856 && zeroRun l (hdrSig l + 5) (hdrSig l + 8)
    && verifySig ((l.drop (hdrSig l + 8)).take 192) (l.take (hdrSig l))

/-- The first failing alternative. -/
def firstFail (l : List (Option ImgFail)) : Option ImgFail := l.findSome? id

/-- R124, in order. The offset and the section of a check that no single field failed are the model's: a gap, an overlap or a
missing section shows the directory's offset, the key check the key's slot, the signature check its r (DESIGN CHOICE, log entry
104). `live` for a LIVE load: the target, not flags.live, says which load checks 10 and 11 are for. No check names
the reserved bits of the header (part_mask[15:6], flags[15:1], bytes 0x2C to 0x3F, base_build_id of a full image), which may
hold anything (both DESIGN CHOICE, log entry 104). -/
def imgCheck (b : Block) (live : Bool) (l : List Byte) : Option ImgFail :=
  firstFail
    [ need (hdrMagic l == 0x4D495856) { check := 1, off := 0 },
      need (hdrFormat l / 256 == 1) { check := 1, off := 4 },
      need (wordAt l 0x24 == crc32c (l.take 0x24)) { check := 2, off := 0x24 },
      check3 l,
      need (hdrPart l / 2 ^ Config.heightCode.val % 2 == 1 && hdrPart l / 2 ^ (if Config.gradeB then 5 else 4) % 2 == 1)
        { check := 4, off := 0xC },
      need (decide (hdrMinRev l ≤ otpRev b)) { check := 5, off := 0xE },
      check6 l,
      ((secsOf l).find? fun s => crc32c (secBytes l s) != s.crc).map fun s => { check := 7, sec := s.index, off := s.off },
      need (check8 b l) { check := 8, off := hdrSig l + 4 },
      need (check9 l) { check := 9, off := hdrSig l + 0x68 },
      (if live then need (hdrBase l == b.img.build) { check := 10, off := 0x28 } else none),
      need (hdrLive l == live) { check := 11, off := 0x1A },
      (if live then ((secsOf l).find? fun s => !isLive s.id).map fun s => { check := 11, sec := s.index, off := hdrDir l + 16 * s.index }
       else none) ]

/-! ### What the sections in force say -/

/-- The body in force of a section (R135): a live replacement, or the applied image's. -/
def bodyOf (b : Block) (id : Nat) : Option (List Byte) :=
  match mfind b.img.live id with
  | some l => some l
  | none => b.img.applied.bind fun l => sectionOf l id

/-- The quadrant of a port (R20, R115). -/
def portQuad (b : Block) (p : PortId) : QuadId :=
  match bodyOf b 1 with
  | some l => qid (natAt l p.val 1)
  | none => qid (p.val / 4)

/-- The physical lane of a logical lane (R115): the image's map from step 15 of a normal start. -/
def laneMap (b : Block) (p : PortId) (tx : Bool) (l : Nat) : Nat :=
  if b.start.step < 15 || b.start.chive then l else
  match bodyOf b 1 with
  | some body => natAt body (0x10 + 48 * p.val + 24 * b2n tx + l) 1
  | none => l

/-- The default ramp of every class (R273). -/
def rampDefault : Curve :=
  { id := 0, xUnit := 0, yUnit := 2, step := false
    pts := [(0, 0), (64, 0), (128, 1), (192, 2), (256, 4), (320, 6), (384, 8), (512, 14)] }

/-- The curve of a section in force. -/
def curveIn (b : Block) (sec id : Nat) (dflt : Curve) : Curve :=
  match (bodyOf b sec).bind curvesOf with
  | some cs => (cs.find? fun c => c.id == id).getD dflt
  | none => dflt

/-- The ramp of a class. -/
def rampOf (b : Block) (k : Nat) : Curve := curveIn b 9 k rampDefault

/-- The default refresh curve (R309). -/
def refreshDefault : Curve := mkCurve 0x00108300 [0x00000100, 0x55010200, 0x5F010400]

/-- The refresh-rate multiplier at a temperature, in 1/256, limited by R136. -/
def refreshMult (b : Block) (t : Int) : Nat :=
  (max ((curveIn b 4 0 refreshDefault).eval t) (refreshDefault.eval t)).toNat

/-- The fastest multiplier of the refresh curve in force, limited by R136 (R410, R469). -/
def fastestMult (b : Block) : Nat :=
  (((curveIn b 4 0 refreshDefault).pts ++ refreshDefault.pts).foldl (fun (m : Int) (p : Int × Int) => max m p.2) 0).toNat

/-- The default throttle curves (R409). -/
def throttleDefault (id : Nat) : Curve :=
  if id ≤ 1 then mkCurve (0x00128300 + BitVec.ofNat 32 (id <<< 24)) [0x00000001, 0x04000002, 0x07000003]
  else if id = 2 then mkCurve 0x02228400 [0x00000000, 0x00010008, 0x00020000, 0x00030000]
  else mkCurve 0x03228400 [0x00000001, 0x00010001, 0x00020002, 0x00030004]

/-- A throttle curve in force; CHIVE uses the defaults (R102), which the ROM image holds. -/
def throttleCurve (b : Block) (id : Nat) : Curve := curveIn b 5 id (throttleDefault id)

/-- The default budget curves (R279). -/
def budgetDefault (id : Nat) : Curve :=
  if id ≤ 3 then mkCurve (0x00258400 + BitVec.ofNat 32 (id <<< 24)) [0x00005500, 0x00014000, 0x00022A80, 0x00031540]
  else mkCurve 0x04358300 [0x01E75C00, 0x03CF6000, 0x079E6400]

def budgetCurve (b : Block) (id : Nat) : Curve := curveIn b 10 id (budgetDefault id)

/-- OP3 defaults of the timing parameters (R302): value and whether it is analogue. -/
def timingDefault : List (Nat × Bool) :=
  [(32, true), (32, true), (64, true), (96, true), (2, false), (16, false), (1, false), (8, true), (24, true), (8, false),
   (6, false), (38, true), (240, true), (8, true), (200, true), (96, true)]

/-- Interface parameters keep their cycle counts under a divisor (R305). -/
def isAnalogue (id : Nat) : Bool := (timingDefault.getD (id - 1) (0, false)).2

/-- Command clock of an operating point in 100 MHz (R302, R424), as the sets are derived. -/
def opClock (op : Nat) : Nat := if op ≥ 3 then 20 else if op = 2 then 16 else if op = 1 then 10 else 5

/-- The set of an operating point in force. -/
def timingSet (b : Block) (op : Nat) : Option (List Word) :=
  (bodyOf b 3).bind fun l => (timingSets 4 (wordsOf l))[op]?

/-- A timing parameter of an operating point, in command-clock cycles (R302). -/
def timingParam (b : Block) (op id : Nat) : Nat :=
  match timingSet b op with
  | some ws =>
    match (ws.take 16).find? fun w => wfield w 31 24 == id with | some w => wfield w 15 0 | none => 0
  | none =>
    let d := timingDefault.getD (id - 1) (0, false)
    if d.2 then ceilDiv (d.1 * opClock op) 20 else d.1

/-- The bank-machine table of an operating point. -/
def bankTable (b : Block) (op : Nat) : List Word :=
  match timingSet b op with
  | some ws => ws.drop 16
  | none => Config.romBankTable

/-- The ENGINE_SEQ body in force (R126 for the ROM image). -/
def engSeq (b : Block) : List Byte := (bodyOf b 11).getD Config.romEngineSeq

/-- The format entry of an owner opcode: its 32 bytes (R143). -/
def formatOf (b : Block) (op : Nat) : Option (List Byte) :=
  match bodyOf b 12 with
  | some l =>
    ((List.range (natAt l 0 4)).find? fun i => natAt l (4 + 32 * i) 1 == op).map fun i => (l.drop (4 + 32 * i)).take 32
  | none => none

/-- OP_POINTS in force (R119): start point, allowed mask, ratio allowed. -/
def startOp (b : Block) : Nat := match bodyOf b 14 with | some l => natAt l 0 1 | none => 1
def opMask (b : Block) : Nat := match bodyOf b 14 with | some l => natAt l 1 1 | none => 2
def ratioAllowed (b : Block) : Bool := match bodyOf b 14 with | some l => natAt l 2 1 == 1 | none => false
def opAllowed (b : Block) (op : Nat) : Bool := opMask b / 2 ^ op % 2 == 1

/-- POWER in force (R120): exit latency and break-even time of Pn in ns, at least their defaults. -/
def exitDefault (n : Nat) : Nat := [0, 16, 1000, 4000, 60000].getD n 0
def evenDefault (n : Nat) : Nat := [0, 200, 5000, 20000, 400000].getD n 0

/-- Channels placed in self-refresh in P2. -/
def dozeChannels (b : Block) : Nat := match bodyOf b 15 with | some l => natAt l 0x24 1 | none => 16

/-- The exit latency that the wake budget gives for a state: the defaults of R435 are those of the default budget; of another
budget the spec gives no figure. -/
def budgetExit (b : Block) (n : Nat) : Nat :=
  match bodyOf b 15 with
  | some l =>
    if natAt l 1 3 = 0x010414 ∧ dozeChannels b = 16 then exitDefault n
    else Config.wakeExit n (natAt l 1 1) (natAt l 2 1) (natAt l 3 1) (dozeChannels b)
  | none => exitDefault n

def powerExit (b : Block) (n : Nat) : Nat :=
  max (budgetExit b n) (max (exitDefault n) (match bodyOf b 15 with | some l => natAt l (4 * n) 4 | none => 0))
def powerEven (b : Block) (n : Nat) : Nat :=
  max (evenDefault n) (match bodyOf b 15 with | some l => natAt l (0x10 + 4 * n) 4 | none => 0)

/-- Flat quadrant mask and size of PLACEMENT (R117). -/
def flatMaskOf (b : Block) : Nat := match bodyOf b 7 with | some l => natAt l 0 1 | none => 15
def flatSizeOf (b : Block) : Nat := match bodyOf b 7 with | some l => natAt l 4 4 | none => 0

end Sys2Proof.Machine
end

