-- ==== Sys2Proof/Machine/Faults.lean ====
section
/-! DEFINITION. Sage (chapter 18): recording, reactions, isolation, the safe state. Every checker of the stack raises its
fault through `raise`. -/

namespace Sys2Proof.Machine

open Sys2Proof

/-! ### The fault sources (R453) -/

/-- The fault sources that a checker of the stack raises (R453). -/
inductive FaultSource where
  | sageSelf | regAccess | cfgParity | fabStall | gateBusy | clkRef | clkPll | supLockstep | supMemUe | supWdog | collUe |
  lnkDegrade | lnkProto | lnkSram | mapUe | sramHeat | bitmapUe | dataUeDemand | dataUePatrol | dataRemapFull | rmpTagUe |
  chnTable | chnEntropy | chnTsvSymbol | chnOffline | engTrap | engRepeat | thmTrip | thmSensor | calBandgap | calDegrade
  | otpMarginal | bstFail | twpTimeout
deriving DecidableEq, Repr

/-- The number of a source (R453). -/
def fs : FaultSource → Nat
  | .sageSelf => 0
  | .regAccess => 8
  | .cfgParity => 9
  | .fabStall => 16
  | .gateBusy => 17
  | .clkRef => 24
  | .clkPll => 25
  | .supLockstep => 32
  | .supMemUe => 33
  | .supWdog => 34
  | .collUe => 40
  | .lnkDegrade => 48
  | .lnkProto => 49
  | .lnkSram => 50
  | .mapUe => 56
  | .sramHeat => 57
  | .bitmapUe => 58
  | .dataUeDemand => 64
  | .dataUePatrol => 65
  | .dataRemapFull => 66
  | .rmpTagUe => 67
  | .chnTable => 72
  | .chnEntropy => 73
  | .chnTsvSymbol => 74
  | .chnOffline => 75
  | .engTrap => 80
  | .engRepeat => 81
  | .thmTrip => 88
  | .thmSensor => 89
  | .calBandgap => 96
  | .calDegrade => 97
  | .otpMarginal => 104
  | .bstFail => 112
  | .twpTimeout => 120

/-- What R453 says of a source: default reaction, floor (`none` when the source is fixed), whether ISOLATE takes a unit out
of service, whether it has events of its own, and the mark G. -/
structure Source where
  dflt : Nat
  floor : Option Nat
  isolates : Bool
  own : Bool
  g : Bool
deriving DecidableEq, Repr

/-- The table of R453; `none` for a reserved source. -/
def sourceOf (n : Nat) : Option Source :=
  let ev := 1
  if n = 0 then some ⟨4, none, false, true, true⟩
  else if n = 8 then some ⟨0, some 0, false, false, false⟩
  else if n = 9 then some ⟨2, some 1, true, false, true⟩
  else if n = 16 then some ⟨2, some 1, true, false, true⟩
  else if n = 17 then some ⟨0, some 0, false, false, false⟩
  else if n = 24 then some ⟨ev, none, false, true, true⟩
  else if n = 25 then some ⟨ev, some 1, false, true, true⟩
  else if n = 32 ∨ n = 33 ∨ n = 34 ∨ n = 40 then some ⟨4, none, false, true, true⟩
  else if n = 48 then some ⟨ev, some 1, true, true, true⟩
  else if n = 49 then some ⟨ev, some 0, true, true, false⟩
  else if n = 50 then some ⟨ev, some 1, true, true, true⟩
  else if n = 56 then some ⟨ev, some 1, false, true, true⟩
  else if n = 57 then some ⟨0, some 0, false, false, false⟩
  else if n = 58 then some ⟨ev, some 1, false, true, true⟩
  else if n = 64 ∨ n = 65 ∨ n = 66 then some ⟨ev, some 1, true, true, true⟩
  else if n = 67 ∨ n = 72 then some ⟨2, some 1, true, false, true⟩
  else if n = 73 then some ⟨ev, some 0, true, false, false⟩
  else if n = 74 then some ⟨ev, some 1, true, true, true⟩
  else if n = 75 then some ⟨ev, some 1, false, true, true⟩
  else if n = 80 then some ⟨ev, some 1, true, true, true⟩
  else if n = 81 then some ⟨2, some 1, true, true, true⟩
  else if n = 88 then some ⟨ev, none, false, true, true⟩
  else if n = 89 then some ⟨ev, some 1, false, true, true⟩
  else if n = 96 then some ⟨2, some 1, false, false, true⟩
  else if n = 97 then some ⟨ev, some 1, false, true, true⟩
  else if n = 104 then some ⟨ev, some 0, false, false, false⟩
  else if n = 112 then some ⟨ev, some 0, false, false, false⟩
  else if n = 120 then some ⟨0, some 0, false, false, false⟩
  else none

/-- The reaction in force for a source (R460, R468): the image's table, or the default; 0 for a reserved source. -/
def reactionOf (b : Block) (n : Nat) : Nat :=
  match mget b.sage.react n none with
  | some r => r.1
  | none => match sourceOf n with | some s => s.dflt | none => 0

/-- SAGE_REACTn.floored for a source (R466). -/
def flooredOf (b : Block) (n : Nat) : Bool :=
  match mget b.sage.react n none with | some r => r.2 | none => false

/-- ALERT_N (R461, R98). -/
def alertN (b : Block) : Bool :=
  b.sage.safe || b.start.attempts != 0
    || (List.range 256).any fun n => b.sage.pend.getLsbD n && reactionOf b n ≥ 1

/-! ### Recording (R456, R457) -/

/-- Load the first-fault latch. -/
def latchFault (src unit : Nat) (detail : Word) (b : Block) : Block :=
  { b with sage := { b.sage with
      latched := true, source := BitVec.ofNat 8 src, unit := BitVec.ofNat 8 unit
      reaction := BitVec.ofNat 3 (reactionOf b src), detail := detail, time := b.time, latchTick := b.now } }

/-- Change the events of this tick that still wait in the transmit paths and that `f` names. -/
def amendEvents (f : BitVec 128 → Bool) (g : BitVec 128 → BitVec 128) (b : Block) : Block :=
  let new := fun (r : BitVec 128) =>
    if field r.toNat 3 0 == 1 && field r.toNat 63 32 == b.time.toNat % 2 ^ 32 && f r then g r else r
  allPorts (fun x => { x with txEv := x.txEv.map new }) b

/-- Event 0x0101 of a source (R477). -/
def faultEvent (src : Nat) (r : BitVec 128) : Bool := field r.toNat 31 16 == 0x0101 && field r.toNat 71 64 == src

/-- An event record with other detail words. -/
def withDetail (lo hi : Word) (r : BitVec 128) : BitVec 128 :=
  BitVec.ofNat 128 (r.toNat % 2 ^ 64 + lo.toNat <<< 64 + hi.toNat <<< 96)

/-- Event 0x0101 of a source that holds the latch no longer: bit 11 is 0. -/
def unlatchEvent (r : BitVec 128) : BitVec 128 := r &&& ~~~(BitVec.ofNat 128 (1 <<< 75))

/-- Step 1 of R456, with the ordering of R457 within one tick: a lower source takes the latch, and the event of the source that
held it follows. -/
def latchStep (src unit : Nat) (detail : Word) (b : Block) : Block :=
  if !b.sage.latched then latchFault src unit detail b
  else
    let old := b.sage.source.toNat
    let b := if b.sage.latchTick = b.now ∧ src < old then
      latchFault src unit detail (amendEvents (faultEvent old) unlatchEvent b) else b
    { b with sage := { b.sage with overflow := true } }

/-- Record a raise (R456): the latch, SAGE_FAULT_CNT, and the pending or overflow bit. The flag says whether step 3 is
reached. Raises of one source in one tick are one raise, with the detail of the lowest unit (R457). -/
def record (src unit : Nat) (detail : Word) (b : Block) : Block × Bool :=
  let same := b.sage.tick = b.now
  let seen := if same then b.sage.inTick else []
  match seen.find? fun r => r.1 == src with
  | some r =>
    if unit < r.2 then
      let b := if b.sage.latchTick = b.now ∧ b.sage.source.toNat = src then latchFault src unit detail b else b
      ({ b with sage := { b.sage with
          inTick := (seen.filter fun r => r.1 != src) ++ [(src, unit)]
          info := mset b.sage.info src none (some { unit := BitVec.ofNat 8 unit, detail := detail }) } }, false)
    else (b, false)
  | none =>
    let b := latchStep src unit detail (ctrAdd (sageBase + 0x1C) 1 b)
    let b := { b with sage := { b.sage with tick := b.now, inTick := seen ++ [(src, unit)] } }
    if b.sage.pend.getLsbD src then
      ({ b with sage := { b.sage with ovf := bset b.sage.ovf src } }, false)
    else
      ({ b with sage := { b.sage with
          pend := bset b.sage.pend src
          info := mset b.sage.info src none (some { unit := BitVec.ofNat 8 unit, detail := detail }) } }, true)

/-! ### The safe state (R469) -/

/-- The stage that a safe state before READY or CHIVE shows (R470). -/
def safeStage (b : Block) : Block :=
  if b.start.done then b else { b with start := { b.start with stage := 12 } }

/-- The flit that carries a port's last event before its link ends, alone and without waiting for credits, with the port's credit
returns. What waits in the transmit path stays there, so that event_pending shows a waiting event (R201, R462). -/
def lastEventFlit (nme : Bool) (e : Ev) (time : BitVec 64) (x : Port) : Port :=
  let y := pushEvent e time { x with txEv := [] }
  let c := takeCredits y
  let i := x.nextSeq.toNat % 64
  let t := putSlot { credits := c.1, recs := (mget x.rb i {}).recs } 0 5 (packRecs y.txEv) 1
  emitFlit t x.nextSeq nme { c.2 with
    txEv := x.txEv, rb := mset x.rb i {} t, nextSeq := x.nextSeq + 1, replayPtr := x.nextSeq + 1, discard := true }

/-- A host that omits event slots gets none (R154): the event waits, and the flit shows it. -/
def lastPlainFlit (nme : Bool) (e : Ev) (time : BitVec 64) (x : Port) : Port :=
  txFlit nme { pushEvent e time x with discard := true }

/-- A port's last event is placed in its next flit; from then on the port discards what it receives (R410, R469 step 2). `nme` is
the flit's live flag. -/
def sendLastEvent (nme : Bool) (e : Ev) (p : PortId) (b : Block) : Block :=
  if b.ports[p].st != .active then b
  else modPort p (fun x => if x.evOn then lastEventFlit nme e b.time x else lastPlainFlit nme e b.time x) b

/-- Event 0x0103 (R469 step 2). -/
def sendSafeEvent (e : Ev) (p : PortId) (b : Block) : Block := sendLastEvent true e p b

/-- The verify reads among some accesses: they are still to be made. -/
def verifies (l : List Acc) : List (Nat × Bool × Stored) :=
  l.filterMap fun e => match e.src with | .verify p w => some (e.pla, p, w) | _ => none

/-- A channel is to enter self-refresh (R314, R411), its core dies refreshing at a multiplier: queued reads are discarded, writes
drain. -/
def toSelfRefresh (mult : Nat) (x : Chan) : Chan :=
  if x.st == .offline then x else
  { x with srWant := true, srMult := mult
           rq := x.rq.filter Acc.isMasked
           xbar := x.xbar.filter fun g => g.lines.all fun e => !e.isRead
           inflight := x.inflight.filter Acc.isMasked
           served := x.served.filter fun e => e.1.isMasked
           verify := verifies (x.inflight ++ x.served.map (·.1) ++ x.rq) ++ x.verify }

/-- A piece whose read has been discarded issues it again when it goes on (R411). -/
def readAgain (d : Desc) : Desc :=
  let atomic := field d.words.toNat 7 0 == 4 || field d.words.toNat 7 0 == 5
  { d with pieces := d.pieces.map fun x => if x.asked && !atomic then { x with asked := false, try_ := x.try_ + 1 } else x }

/-- A migration in its COMMIT hold ends the hold, so that the writes it holds back are served at the source and reach DRAM
(R411); it takes its hold again when Sorrel goes on (DEDUCED, log entry 122). -/
def unhold (m : Mig) : Mig := if m.stage = .hold then { m with stage := .copy } else m

/-- Every channel is to enter self-refresh at the fastest rate of the REFRESH curve (R410, R469), and the pieces whose reads that
discards issue them again (R411). -/
def allToSelfRefresh (b : Block) : Block :=
  allChans (toSelfRefresh (fastestMult b)) { b with
    ops := { b.ops with descs := b.ops.descs.map readAgain }, srl := { b.srl with migs := b.srl.migs.map unhold } }

/-- Hold an engine at its action boundaries (R410, R469). -/
def holdEngine (x : Eng) : Eng := if x.st == .run then { x with st := .held } else x

/-- An event of R512 ends the BIST run of a test that `f` names. -/
def cutBist (f : Nat → Bool) (b : Block) : Block :=
  match b.bst.run with
  | some r => if f r.test then { b with bst := { b.bst with run := some { r with cut := true } } } else b
  | none => b

/-- Ports after the entry of the safe state: ports 1 to 15 DISABLED, port 0 in DETECT (R469 step 3). -/
def safePorts (b : Block) : Block :=
  forAll 16 (fun p b => if p.val = 0 then detectPort p b else if b.ports[p].st == .disabled then b else disablePort p b) b

/-- Detail of the port events of R164: the port, the direction (0 receive, 1 transmit, 2 both) and the physical lanes. The
spec names what the event carries and no layout (DESIGN CHOICE, log entry 15). -/
def portEvent (code : Nat) (p : PortId) (dir : Nat) (lanes : BitVec 21) : Ev :=
  { code := code, lo := word [(p.val, 0), (dir, 8)], hi := lanes.zeroExtend 32 }

/-- The port changes that a safe state's entry makes (R164), from the ports before it: `f` raises one. -/
def portsDown (before : Vector Port 16) (f : Nat → PortId → Block → Block) (b : Block) : Block :=
  forAll 16 (fun p b =>
    if p.val = 0 then (if before[p].linked then f 0x0304 p b else b)
    else if before[p].st == .disabled then b else f 0x0303 p b) b

/-- A load is in progress (R128). -/
def loading (i : Image) : Bool := i.state == .receiving || i.state == .verifying || i.state == .pendingCommit

/-- The load of an image in a start ends with the start (R95, R97, R99); it reads ABORTED (DESIGN CHOICE, log entry 105). -/
def stopBoot (b : Block) : Block :=
  if b.img.target = 0 ∧ loading b.img then { b with img := { b.img with state := .aborted } } else b

/-- Enter the safe state (R469); the port changes are recorded and no more (R164, R470). -/
def enterSafe (src : Nat) (detail : Word) (byEsc self : Bool) (b : Block) : Block :=
  if b.sage.safe then b else
  let e : Ev := { code := 0x0103, lo := word [(src, 0), (b2n byEsc, 8), (b2n self, 9)], hi := detail, nme := true }
  let b := discardPend { b with
    sage := { b.sage with safe := true, safeAt := b.now, timers := [] }, start := { b.start with supHeld := true }
    clk := { b.clk with queue := [] } }
  let b := forAll 16 (sendSafeEvent e) b
  let before := b.ports
  let b := portsDown before (fun code p b => (record (fs .lnkDegrade) p.val (portEvent code p 2 0).lo b).1)
    (safePorts (cutBist (fun _ => true) b))
  let b := allToSelfRefresh { b with engs := b.engs.map holdEngine }
  stopBoot (safeStage b)

/-! ### Events of a raise (R462) -/

/-- An own event of a source, with the ports it goes on. -/
structure OwnEv where
  mask : BitVec 16
  ev : Ev
deriving DecidableEq, Repr

/-- Report a raise: its own events, or one event 0x0101 (R462, R477), which is non-maskable for FS_CLK_REF (R463). -/
def report (src : Nat) (detail : Word) (own : List OwnEv) (b : Block) : Block :=
  if own = [] then
    let latch := b.sage.latched && b.sage.source.toNat == src && b.sage.latchTick == b.now
    emit allMask
      { code := 0x0101, lo := word [(src, 0), (reactionOf b src, 8), (b2n latch, 11)], hi := detail, nme := src == (fs .clkRef) } b
  else own.foldl (fun b o => emit o.mask o.ev b) b

/-- Start an escalation timer (R464). -/
def startTimer (src : Nat) (second : Bool) (b : Block) : Block :=
  { b with sage := { b.sage with timers := (b.sage.timers.filter fun t => t.1 != src) ++ [(src, second)] } }

/-! ### Isolation (R465) -/

/-- A piece runs, or is dispatched and waits for its engine. -/
def Piece.dispatched (x : Piece) : Bool := x.st == .running || x.st == .queued || x.st == .waiting

/-- A cancelled descriptor whose completion has left, and of which no piece runs any more, is over. -/
def Desc.over (d : Desc) : Bool := d.st == .gone && !d.pieces.any fun x => x.st == .running

/-- End the pieces that an isolated engine runs or that wait for it, with BAD_ARG (R465). -/
def failPieces (e : Nat) (b : Block) : Block :=
  { b with ops := { b.ops with descs := (b.ops.descs.map fun d =>
      { d with pieces := d.pieces.map fun x =>
          if x.eng = e ∧ x.dispatched then { x with st := .ended, status := .badArg } else x }).filter fun d => !d.over } }

/-- An engine HALTED by isolation: its contexts and piece queue end (R465). -/
def isolateEngine (e : EngId) (b : Block) : Block :=
  let b := failPieces e.val b
  modEng e (fun x => { x with
    st := .halted, queue := []
    ctx := x.ctx.map fun k => match k.work with | .piece .. => {} | _ => k }) b

/-- Event 0x0102 (R477). -/
def isolated (src unit : Nat) (b : Block) : Block := emit allMask { code := 0x0102, lo := word [(src, 0), (unit, 8)] } b

/-- Raises that isolation itself makes (FS_LNK_DEGRADE, FS_CHN_OFFLINE): recorded and reported; the unit's own event follows
0x0102 also when its source is pending already (R465). ISOLATE adds event 0x0102 and its timer, for the unit is out of service
already, and SAFE adds what ISOLATE does (R460). -/
def raiseLeaf (src unit : Nat) (detail : Word) (own : List OwnEv) (b : Block) : Block :=
  match record src unit detail b with
  | (b, false) => own.foldl (fun b o => emit o.mask o.ev b) b
  | (b, true) =>
    if b.sage.safe then b else
    let r := reactionOf b src
    let b := report src detail own b
    let b := if r ≥ 3 then isolated src unit b else b
    let b := if r = 2 ∧ b.sage.enable then startTimer src false b else b
    let b := if r = 3 ∧ b.sage.enable then startTimer src true b else b
    if r = 4 then enterSafe src detail false false b else b

/-- A port change (R164): FS_LNK_DEGRADE with the change's event on the lowest-numbered other ACTIVE port. The raise inside
isolation. -/
def portChangeLeaf (code : Nat) (p : PortId) (dir : Nat) (lanes : BitVec 21) (b : Block) : Block :=
  let e := portEvent code p dir lanes
  raiseLeaf (fs .lnkDegrade) p.val e.lo [{ mask := otherActive p b, ev := e }] b

/-- Take a unit out of service (R465), after event 0x0102. -/
def isolate (src unit : Nat) (b : Block) : Block :=
  let b := isolated src unit b
  match sourceOf src with
  | some s =>
    if !s.isolates then b
    else if unit < 0x10 then
      if b.ports[pid unit].st == .disabled then b
      else portChangeLeaf 0x0303 (pid unit) 2 0 (disablePort (pid unit) (lastFlits (pid unit) b))
    else if unit < 0x30 then
      let c := unit - 0x10
      if b.chans[cid c].st == .offline then b else
      let b := offlineChan c b
      let e := offlineEvent c b
      raiseLeaf (fs .chnOffline) unit e.lo [{ mask := allMask, ev := e }] b
    else if unit < 0x50 then
      let e := unit - 0x30
      emit allMask { code := 0x0E01, lo := word [(e, 0)] } (isolateEngine (eid e) b)
    else b
  | none => b

/-! ### Raising a fault (R456 to R464) -/

/-- The sources whose own event is 0x0103, which the safe state sends (R453). -/
def safeOwn (src : Nat) : Bool := src == 0 || src == 32 || src == 33 || src == 34 || src == 40

/-- A raised FS_CLK_REF is an outstanding non-maskable event (R463). -/
def noteRef (src : Nat) (b : Block) : Block :=
  if src = (fs .clkRef) then { b with sage := { b.sage with nmeRef := true } } else b

/-- The report of a raise with reaction EVENT or above; the safe state sends event 0x0103 itself. -/
def reportReact (src : Nat) (detail : Word) (own : List OwnEv) (inj : Bool) (b : Block) : Block :=
  if reactionOf b src ≥ 1 ∧ (inj ∨ !(safeOwn src)) then report src detail own b else b

/-- The reaction of a raise that reached step 3 of R456; each reaction includes those above it (R460). -/
def react (src unit : Nat) (detail : Word) (own : List OwnEv) (inj : Bool) (b : Block) : Block :=
  if b.sage.safe then b else
  let r := reactionOf b src
  let b := reportReact src detail own inj (noteRef src b)
  if r = 2 then (if b.sage.enable then startTimer src false b else b)
  else if r = 3 then
    let b := isolate src unit b
    if b.sage.enable then startTimer src true b else b
  else if r = 4 then
    let b := isolate src unit b
    enterSafe src detail false (src == (fs .sageSelf) && !inj) b
  else b

/-- The detail word that a source was first raised with in this tick, when this raise of it has a lower unit (R457). -/
def lowered (src unit : Nat) (b : Block) : Option Word :=
  if b.sage.tick = b.now ∧ (b.sage.inTick.any fun r => r.1 == src && decide (unit < r.2)) then
    (mget b.sage.info src none).map (·.detail)
  else none

/-- The events of a raise take the detail of the lower unit that the same tick raises the source with (R457). -/
def amendRaise (src : Nat) (old detail : Word) (own : List OwnEv) (b : Block) : Block :=
  let b := amendEvents (faultEvent src) (fun r => withDetail (BitVec.ofNat 32 (field r.toNat 95 64)) detail r) b
  own.foldl (fun b o => amendEvents
    (fun r => field r.toNat 31 16 == o.ev.code && field r.toNat 95 64 == old.toNat) (withDetail o.ev.lo o.ev.hi) b) b

/-- Raise a fault source for a unit, with its detail word and the events of its own that report this cause (R456). -/
def raise (src unit : Nat) (detail : Word) (own : List OwnEv) (b : Block) : Block :=
  let old := lowered src unit b
  match record src unit detail b with
  | (b, false) => (match old with | some d => amendRaise src d detail own b | none => b)
  | (b, true) => react src unit detail own false b

/-- Whether a raise now would be reported by events (R456 step 2, R462). -/
def reports (src : Nat) (b : Block) : Bool :=
  !b.sage.safe && !b.sage.pend.getLsbD src && reactionOf b src ≥ 1
    && !(b.sage.tick == b.now && b.sage.inTick.any fun r => r.1 == src)

/-- A port change outside isolation (R164). -/
def portChange (code : Nat) (p : PortId) (dir : Nat) (lanes : BitVec 21) (b : Block) : Block :=
  let e := portEvent code p dir lanes
  raise (fs .lnkDegrade) p.val e.lo [{ mask := otherActive p b, ev := e }] b

/-- A channel goes OFFLINE (R342). -/
def chanOffline (c : Nat) (b : Block) : Block :=
  if b.chans[cid c].st == .offline then b else
  let b := offlineChan c b
  let e := offlineEvent c b
  raise (fs .chnOffline) (0x10 + c) e.lo [{ mask := allMask, ev := e }] b

/-- Disable a port with its event (R163, R164). -/
def portDisable (p : PortId) (b : Block) : Block :=
  if b.ports[p].st == .disabled then b else portChange 0x0303 p 2 0 (disablePort p (lastFlits p b))

/-- Return a port to DETECT with its event (R164, R165). -/
def portRestart (p : PortId) (b : Block) : Block :=
  let linked := b.ports[p].linked
  let b := detectPort p b
  if linked then portChange 0x0304 p 2 0 b else b

/-- A changed lane rate is a port change (R164). -/
def rateChanged (old : BitVec 4) (p : PortId) (b : Block) : Block :=
  if b.ports[p].rate = old then b else portChange 0x0305 p 2 0 (rcSet (lnkBase p.val + 0x0C) 3 b)

/-- A port enters RECOVER at the rate of R147. `boot` when port 0 leaves its boot rate in step 15 (R167). -/
def recoverAs (boot : Bool) (p : PortId) (b : Block) : Block := rateChanged b.ports[p].rate p (enterRecover boot p b)

/-- A port enters RECOVER at the rate of R147. -/
def recoverPort (p : PortId) (b : Block) : Block := recoverAs false p b

/-- A port that trains or recovers takes the new rate of its quadrant's PLL (R148): its training, or the RECOVER it is in, starts
again at that rate. The spec names no transition for it (DESIGN CHOICE, log entry 117). -/
def retrainPort (p : PortId) (b : Block) : Block :=
  let x := b.ports[p]
  let rate := portRate p b
  if x.rate.toNat = rate then b
  else if x.st == .recover then rateChanged x.rate p (modPort p (portRecover rate false) b)
  else if x.st == .train || x.st == .lock || x.st == .exchange then rateChanged x.rate p (modPort p (portTrain rate) b)
  else b

/-! ### Degradation (R446) -/

/-- FS_CAL_DEGRADE with event 0x0F01, which CAL_EVT.degraded tells (R446, R451): kind 0 regulator, 1 termination, 2 sensor. -/
def degradeEvent (kind n : Nat) (b : Block) : Block :=
  let e : Ev := { code := 0x0F01, lo := word [(kind, 0), (n, 8)] }
  raise (fs .calDegrade) 0x58 e.lo [{ mask := allMask, ev := e }]
    (if reports (fs .calDegrade) b then rcSet (calBase + 0xC) 0 b else b)

/-- A regulator, a port's termination, or a sensor takes its factory trim; only the first time in a start. -/
def degradeReg (n : Nat) (b : Block) : Block :=
  if n ≥ 8 || b.cal.degReg.getLsbD n then b
  else degradeEvent 0 n { b with cal := { b.cal with degReg := bset b.cal.degReg n } }
def degradeTerm (p : PortId) (b : Block) : Block :=
  if b.cal.degTerm.getLsbD p.val then b
  else degradeEvent 1 p.val { b with cal := { b.cal with degTerm := bset b.cal.degTerm p.val } }
def degradeSensor (n : Nat) (b : Block) : Block :=
  if b.cal.degSensors.getLsbD n then b
  else degradeEvent 2 n { b with cal := { b.cal with degSensors := bset b.cal.degSensors n } }

/-- The unit of FS_CFG_PARITY: that whose block holds the register (R455); the IDN block is no unit's. -/
def parityUnit (addr : Nat) : Nat :=
  let base := baseOf addr
  if 0x10000 ≤ base ∧ base < 0x20000 then (base - 0x10000) / 0x1000
  else if 0x40000 ≤ base ∧ base < 0x60000 then 0x10 + (base - 0x40000) / 0x1000
  else if 0x60000 ≤ base ∧ base < 0x80000 then 0x30 + (base - 0x60000) / 0x1000
  else if base = hndBase then 0x50
  else if base = srlBase then 0x51
  else if base = savBase then 0x52
  else if base = supBase then 0x53
  else if base = thmBase then 0x55
  else if base = sageBase then 0x57
  else if base = calBase then 0x58
  else if base = bstBase then 0x59
  else if base = otpBase then 0x5A
  else if base = twpBase then 0x5B
  else if base = clkBase ∨ base = pwrBase then 0x5C
  else 0xFF

/-- FS_SAGE_SELF (R471). -/
def selfFault (b : Block) : Block :=
  if b.start.step < 5 then b else
  raise (fs .sageSelf) 0x57 0 [] { b with sage := { b.sage with selfFault := true } }

/-- A configuration-parity mismatch (R57); one of Sage's own registers is its self-fault (R471). -/
def parityFault (addr : Nat) (b : Block) : Block :=
  if baseOf addr = sageBase then selfFault b
  else raise (fs .cfgParity) (parityUnit addr) (BitVec.ofNat 32 addr) [] b

/-- The block at `base` uses its registers: each live value with wrong parity raises FS_CFG_PARITY (R57, the second check). When a
block uses which of its registers is a DESIGN CHOICE (log entry 27). -/
def useRegs (base : Nat) (b : Block) : Block :=
  (b.regs.badPar.filter fun a => baseOf a == base).foldl (fun b a => parityFault a b) b

/-- One register is used (R57). -/
def useReg (a : Nat) (b : Block) : Block := if b.regs.badPar.contains a then parityFault a b else b

/-- The same over the state. -/
def checked (base : Nat) (s : State) : State := s.upd (useRegs base s.blk)

/-! ### Pending writes -/

/-- The pending writes of a block whose parity is right, and the block without them; a bad one is dropped and raises
FS_CFG_PARITY (R57, R58). -/
def takePend (base : Nat) (b : Block) : List PendWr × Block :=
  let l := b.regs.pend.filter fun w => baseOf w.addr == base
  let b := { b with regs := { b.regs with pend := b.regs.pend.filter fun w => baseOf w.addr != base } }
  (l.filter (·.good), l.foldl (fun b w => if w.good then b else parityFault w.addr b) b)

/-- Make writes live, in order. -/
def applyWrites (l : List PendWr) (b : Block) : Block := l.foldl (fun b w => setLive w.addr w.value b) b

/-- Commit a block whose registers have no further effect. -/
def commitPlain (base : Nat) (b : Block) : Block :=
  let r := takePend base b
  applyWrites r.1 r.2

/-! ### Holding engines (R396) -/

/-- The units that run in a power state (R431, R432, R435). -/
def unitsIn (b : Block) (n : Nat) : BitVec 15 :=
  let en := fun (o : Nat) => BitVec.ofNat 15 (rw (clkBase + o) b).toNat
  if n ≤ 1 then en 0x20 else if n ≤ 3 then en 0x24 else en 0x28 &&& 0x7000

/-- A gateable unit runs in the power state in force: its enable is set, or its gate still waits for idle handshakes (R432,
R433). -/
def unitRuns (b : Block) (k : Nat) : Bool := (unitsIn b b.pwr.state.toNat).getLsbD k || b.clk.gateWait.getLsbD k

/-- The engine's clock is gated (R431, R432). -/
def engGated (b : Block) (e : Nat) : Bool := !unitRuns b (8 + e / 8)

/-- ENG_SRAM tests the engine (R506). -/
def engTested (b : Block) (e : Nat) : Bool :=
  match b.bst.run with | some r => r.test == 0x12 && r.target == e | none => false

/-- The engine is to be held: ENG_CTRL.halt, its clock enable, a test of its memories, or a safe state (R396, R410, R431, R469,
R506). -/
def heldNow (b : Block) (e : Nat) : Bool :=
  rwf (engBase e) 0 0 b == 1 || engGated b e || engTested b e || b.sage.safe || b.thm.safe

end Sys2Proof.Machine
end

