-- ==== Sys2Proof/Machine/Start.lean ====
section
/-! DEFINITION. Resets and the start sequence (chapter 4): what survives, the steps of R86, the application of the image at
step 10, failed starts, READY and CHIVE. -/

namespace Sys2Proof.Machine

open Sys2Proof

/-! ### Resets (R83) -/

/-- What an OTP pulse in progress leaves after a reset: it runs to its end, and the command does not continue (R493). -/
def otpSurvive (o : Otp) : Otp :=
  { words := o.words, weak := o.weak, faint := o.faint
    run := match o.run with
      | some r => if r.phase = .pulse then some { r with dead := true, more := [] } else none
      | none => none }

/-- Every unit at reset; the OTP's charge, the always-on record and the count of free values stay, as do the test access port's
controller, which only power-on reset holds (R74), and Chervil transfers, which no reset ends (R21). -/
def resetUnits (b : Block) : Block :=
  { otp := otpSurvive b.otp, fresh := b.fresh, tap := b.tap, fabric := b.fabric
    start := { pwrok := b.start.pwrok, resetN := b.start.resetN, brown := b.start.brown, straps := b.start.straps
               attempts := b.start.attempts, reason := b.start.reason, lastFail := b.start.lastFail } }

/-- The always-on record cleared (R66, R83), with everything else that needs power: the transfers of the fabric. -/
def clearAlwaysOn (b : Block) : Block :=
  { b with start := { b.start with attempts := 0, reason := 0, lastFail := 0 }, fabric := [] }

/-- Step 1 of R86 is done: STACK_TIME is cleared, and the fuse shifter runs. -/
def beginStart (b : Block) : Block :=
  let b := resetUnits b
  { b with start := { b.start with step := 2 } }

/-- A start runs: neither READY nor CHIVE has been reached, and nothing has ended it. -/
def Block.starting (b : Block) : Bool :=
  b.start.step != 0 && !b.start.done && !b.start.failed && !b.thm.safe && !b.sage.safe

/-! ### Failed starts (R96, R97) -/

/-- Detail of event 0x0403 (R104). -/
def failEvent (reason : BitVec 4) (b : Block) : Ev :=
  { code := 0x0403
    lo := word [(reason.toNat, 0), (b.start.stage.toNat, 4), (min 3 (b.start.attempts.toNat + 1), 8)]
    hi := word [(b.img.failCheck.toNat, 0), (b.img.failSection.toNat, 8)] }

/-- Event 0x0403 on port 0, the reason and stage, and the counter (R97, 1 to 3). -/
def recordFail (reason : BitVec 4) (b : Block) : Block :=
  let b := sendFlit 0 (emit 1 (failEvent reason b) b)
  { b with start := { b.start with
    reason := reason, lastFail := b.start.stage
    attempts := if b.start.attempts = 3 then 3 else b.start.attempts + 1 } }

/-- A start fails (R97): it is recorded, the image load stops, port 0 goes to electrical idle, and the internal restart waits. -/
def startFail (reason : BitVec 4) (b : Block) : Block :=
  let b := stopBoot (recordFail reason b)
  modPort 0 portDisabled (endLink 0 { b with start := { b.start with failed := true } })

/-- The words that wait for their outcome are of no running transaction any more (R520, R524). -/
def outliveTx (b : Block) : Block :=
  { b with defers := b.defers.map fun d => { d with inTx := false }, twp := { b.twp with lateTx := false, due := false } }

/-- The transaction ends: err_seen is loaded (R520). -/
def twpEnd (b : Block) : Block :=
  let b := outliveTx b
  if !b.twp.busy then { b with twp := { b.twp with addressed := false, acked := false, assembly := [] } } else
  { b with twp := { b.twp with
      rsp := (b.twp.rsp &&& ~~~0x200) ||| word [(b2n b.twp.err, 9)]
      busy := false, addressed := false, nacking := false, stretched := false, err := false, acked := false, assembly := [] } }

/-- A restart as a new start: internal (R97) or commanded (R105). Neither leaves a safe state (R470, R105). -/
def internalRestart (b : Block) : Block := beginStart b

/-- The restart command takes effect (R105): the counter is cleared, and the staged image stays when it is to be used, so that
SUP_START.staged reads 1 until bootLinkUp takes it, though its table says "CHIVE only" (DESIGN CHOICE, log entry 103). -/
def doRestart (useStaged : Bool) (b : Block) : Block :=
  let img := b.img
  let b := beginStart { b with start := { b.start with attempts := 0 } }
  if useStaged then
    { b with start := { b.start with useStaged := true }
             img := { b.img with staged := img.staged, stagedOk := img.stagedOk } }
  else b

/-! ### Loading registers at step 10 -/

/-- Load a register, replacing a value that waits (R90). -/
def loadReg (a : Nat) (v : Word) (b : Block) : Block :=
  setLive a v { b with regs := { b.regs with pend := b.regs.pend.filter fun w => w.addr != a } }

/-- A threshold word limited by its default (R136): threshold at most, hysteresis at least. -/
def clampLimit (w d : Word) : Word :=
  let t := if unitVal 1 (wfield w 31 16) > unitVal 1 (wfield d 31 16) then wfield d 31 16 else wfield w 31 16
  let h := if unitVal 1 (wfield w 15 0) < unitVal 1 (wfield d 15 0) then wfield d 15 0 else wfield w 15 0
  word [(t, 16), (h, 0)]

/-- The thresholds of a SENSORS body under their limits. -/
def limitsOf (l : List Byte) : List Word :=
  (List.range 6).map fun k => clampLimit (wordAt l (4 * k)) (limitReset.getD k 0)

/-- Load SENSORS (R406, R416): thresholds and neighbour sets. -/
def loadSensors (l : List Byte) (b : Block) : Block :=
  let ws := limitsOf l
  let b := { b with thm := { b.thm with thrImg := ws, sets := (List.range 192).map fun n => (n, sensorSet l n) } }
  ws.zipIdx.foldl (fun b w => loadReg (thmBase + 0x10 + 4 * w.2) w.1 b) b

/-- The core-die warning threshold in force, in whole °C and as Q8.8. -/
def coreWarn (b : Block) : Int := unitVal 1 (wfield (rw (thmBase + 0x10) b) 31 16)

/-- Load PLACEMENT (R117), after SENSORS; the clamps of R136. -/
def placementCap (l : List Byte) : Word :=
  word [(min 100 (natAt l 8 1), 0), (min 100 (natAt l 9 1), 8)]

/-- SRL_COOL with its trigger at most the core warning threshold (R117). -/
def placementCool (l : List Byte) (b : Block) : Word :=
  let w := wordAt l 0x14
  if 256 * (wfield w 7 0 : Int) > coreWarn b then
    word [(wfield w 31 8, 8), ((coreWarn b / 256).toNat, 0)] else w

def loadPlacement (l : List Byte) (b : Block) : Block :=
  let b := loadReg (srlBase + 0x20) (placementCap l) b
  let b := loadReg (srlBase + 0x24) (wordAt l 0xC) b
  let b := loadReg (srlBase + 0x28) (wordAt l 0x10) b
  let b := loadReg (srlBase + 0x2C) (placementCool l b) b
  let b := loadReg (srlBase + 0x30) (wordAt l 0x18) b
  loadReg (srlBase + 0x34) (wordAt l 0x1C) b

/-- A class entry with the 100 ns limit of a privileged class (R118). -/
def clampClass (w : Word) : Word :=
  if wfield w 20 20 = 1 ∧ wfield w 15 0 < 10 then word [(wfield w 31 16, 16), (10, 0)] else w

/-- Load CLASSES (R118) into the live registers, leaving pending writes as `keep` says (R272). -/
def loadClasses (keep : Bool) (l : List Byte) (b : Block) : Block :=
  let put := fun a v b => if keep then setLive a v b else loadReg a v b
  let b := (List.range 8).foldl (fun b k => put (savBase + 4 * k) (clampClass (wordAt l (4 * k))) b) b
  put (savBase + 0x24) (wordAt l 0x24) (put (savBase + 0x20) (wordAt l 0x20) b)

/-- Load POWER (R120). -/
def loadPower (l : List Byte) (b : Block) : Block :=
  loadReg (pwrBase + 0x18) (BitVec.ofNat 32 (natAt l 1 1)) (loadReg pwrBase (BitVec.ofNat 32 (natAt l 0 1)) b)

/-- The reaction in force for a source from its byte (R466): value, and whether it was floored. -/
def reactLoad (n : Nat) (v : Nat) : Option (Nat × Bool) :=
  match sourceOf n with
  | none => none
  | some s =>
    if n = 0 then none else
    let r := match s.floor with | none => s.dflt | some f => max f v
    if r = s.dflt ∧ r = v then none else some (r, r != v)

/-- Load REACTIONS (R466). -/
def loadReactions (l : List Byte) (b : Block) : Block :=
  { b with sage := { b.sage with react := (List.range 256).filterMap fun n =>
      (reactLoad n (natAt l n 1)).map fun r => (n, some r) } }

/-- Load SAFETY (R467). -/
def loadSafety (l : List Byte) (b : Block) : Block :=
  let c := fun lo hi x => max lo (min hi x)
  { b with sage := { b.sage with
      enable := natAt l 0 4 == 1, stallUs := BitVec.ofNat 5 (c 2 20 (natAt l 4 4))
      escUs := BitVec.ofNat 14 (c 100 10000 (natAt l 8 4)), wdogMs := BitVec.ofNat 4 (c 1 10 (natAt l 0xC 4)) } }

/-! ### Values the image cannot raise (R136) -/

/-- Some value of a section is limited. -/
def sectionClamped (b : Block) (id : Nat) (l : List Byte) : Bool :=
  if id = 4 then
    match (curvesOf l).bind List.head? with
    | some c => ((-32768 : Int) :: (c.pts ++ refreshDefault.pts).map Prod.fst).any fun x =>
        decide (c.eval x < refreshDefault.eval x)
    | none => false
  else if id = 6 then limitsOf l != (List.range 6).map fun k => wordAt l (4 * k)
  else if id = 7 then placementCap l != wordAt l 8 || placementCool l b != wordAt l 0x14
  else if id = 8 then (List.range 8).any fun k => clampClass (wordAt l (4 * k)) != wordAt l (4 * k)
  else if id = 15 then (List.range 4).any fun i =>
      decide (natAt l (4 + 4 * i) 4 < exitDefault (i + 1) ∨ natAt l (0x14 + 4 * i) 4 < evenDefault (i + 1))
  else if id = 16 then (List.range 256).any fun n => (reactLoad n (natAt l n 1)).any (·.2)
  else if id = 17 then
    decide (natAt l 4 4 < 2 ∨ natAt l 4 4 > 20 ∨ natAt l 8 4 < 100 ∨ natAt l 8 4 > 10000 ∨ natAt l 0xC 4 < 1
      ∨ natAt l 0xC 4 > 10)
  else false

/-- The sections of a list that had a value limited, as the bits of event 0x0406. -/
def clampBits (b : Block) (secs : List (Nat × List Byte)) : Word :=
  word (secs.filterMap fun s => if sectionClamped b s.1 s.2 then some (1, s.1) else none)

/-- Record limited values: IDN_IMG_STAT.clamped. -/
def noteClamps (bits : Word) (b : Block) : Block :=
  if bits = 0 then b else { b with img := { b.img with clamped := true } }

/-! ### Step 10: the structure is applied -/

/-- The supervisor loads the engines (R390): LOADING meanwhile (R396). One that isolation took stays HALTED (R465). -/
def loadingEngines (b : Block) : Block :=
  { b with engs := b.engs.map fun e => if e.st = .halted then e else { e with st := .loading } }

/-- Engines loaded, with the constant block of the sequences (R379, R390, R396): each runs, or is held. -/
def loadEngines (b : Block) : Block :=
  let cs := Config.engConstants (engSeq b)
  forAll 32 (fun e b => modEng e (fun x =>
    if x.st = .halted then x else { x with consts := cs, st := if heldNow b e.val then .held else .run }) b) b

/-- Load one section, by id. -/
def loadSection (id : Nat) (l : List Byte) (b : Block) : Block :=
  if id = 6 then loadSensors l b else if id = 7 then loadPlacement l b else if id = 8 then loadClasses false l b
  else if id = 15 then loadPower l b else if id = 16 then loadReactions l b else if id = 17 then loadSafety l b
  else b

/-- The sticky locks that the image's boot firmware writes (R497). -/
def firmwareLocks (fw : List Byte) (b : Block) : Block :=
  [0, 2, 3, 4, 5].foldl (fun b r =>
    match Config.fwSlock fw r with
    | some v =>
      if b.otp.slockSet.getLsbD r then b
      else { b with otp := { b.otp with slockSet := bset b.otp.slockSet r, slock := if v then bset b.otp.slock r else b.otp.slock } }
    | none => b) b

/-- The supervisor's memories and entry point as a SUP_FW body gives them (R121). -/
def loadFirmware (l : List Byte) (b : Block) : Block :=
  let code := natAt l 4 4
  { b with start := { b.start with
      supCode := (l.drop 16).take code, supData := (l.drop (16 + code)).take (natAt l 8 4), supEntry := wordAt l 12 } }

/-- Step 10 of R86: the image becomes the applied one. -/
def applyImage (l : List Byte) (b : Block) : Block :=
  let secs := (List.range 0x12).filterMap fun id => (sectionOf l id).map fun s => (id, s)
  let b := { b with img := { b.img with
    applied := some l, ver := hdrVersion l, build := hdrBuild l, rom := false
    key := if natAt l (hdrSig l + 4) 1 = 0 then 1 else 2, fw := true
    fwVer := match sectionOf l 13 with | some s => wordAt s 0 | none => 0 } }
  let fw := (sectionOf l 13).getD []
  let b := firmwareLocks fw (loadFirmware fw (secs.foldl (fun b s => loadSection s.1 s.2 b) b))
  let bits := clampBits b secs
  let b := noteClamps bits { b with start := { b.start with clampBits := bits } }
  loadEngines b

/-- The registers that an image loads (R117, R118, R120, R406), and CLK_OP. -/
def imageRegs : List Nat :=
  (List.range 6).map (thmBase + 0x10 + 4 * ·) ++ (List.range 6).map (srlBase + 0x20 + 4 * ·)
    ++ (List.range 10).map (savBase + 4 * ·) ++ [pwrBase, pwrBase + 0x18, clkBase + 4]

/-- The ROM image is applied (R101): it replaces what was written before, as step 10 does with an image's values (R90). Its
thresholds are the defaults (R406); the spec gives no other register value of its: each takes its reset value, which for
CLK_OP is OP1 (PRESUMED, log entry 103). -/
def applyRom (b : Block) : Block :=
  let b := imageRegs.foldl (fun b a => loadReg a (rwReset a) b) b
  loadEngines { b with
    img := { b.img with
      rom := true, ver := Config.romVersion, build := Config.romBuild, key := 0, fwVer := Config.romFwVersion }
    thm := { b.thm with thrImg := limitReset } }

/-! ### Steps 2 and 6: the OTP -/

/-- The power-up reads (R482, R483, R485): raw normal reads, MARGINAL words, and the life-cycle state (R499). -/
def otpFault (w : Nat) (b : Block) : Block := raise (fs .otpMarginal) 0x5A (BitVec.ofNat 32 w) [] b

/-- Flag a word MARGINAL once in a start (R485). -/
def otpMarginal (w : Nat) (b : Block) : Block :=
  if b.otp.marginal.getLsbD w then b
  else otpFault w { b with otp := { b.otp with marginal := bset b.otp.marginal w } }

/-- The pattern of a word's reads in a list; no difference when the list leaves it out. -/
def readsOf (l : List OtpReads) (w : Nat) : OtpReads :=
  (l.find? fun r => r.word == w).getD { word := w, normal := 0, high := 0, low := 0 }

/-- A blank word of a region that is sealed incomplete: it reads zero (R498). -/
def sealedBlank (b : Block) (w : Nat) : Bool :=
  otpRaw b w == 0 && (match otpRegion w with | some r => b.otp.sealedInc.getLsbD r | none => false)

/-- The raw reads of a word: normal, margin-high, margin-low. A weak bit reads 0 at margin-high, a faint one 1 at margin-low. -/
def rawReads (b : Block) (r : OtpReads) : BitVec 72 × BitVec 72 × BitVec 72 :=
  let v := otpRaw b r.word
  if sealedBlank b r.word then (0, 0, 0)
  else (v ^^^ r.normal, (v &&& ~~~(mget b.otp.weak r.word 0)) ^^^ r.high, (v ||| mget b.otp.faint r.word 0) ^^^ r.low)

/-- The words that the fuse shifter delivers at step 2, those that the ROM firmware reads at step 6, and all of them (R482). -/
def fuseWord (w : Nat) : Bool :=
  (3 ≤ w && w ≤ 0x3E) || (0x40 ≤ w && w ≤ 0x4B) || (0x50 ≤ w && w < 0x400)
def romWord (w : Nat) : Bool := w ≤ 2 || (0x4C ≤ w && w ≤ 0x4F)
def powerUpWord (w : Nat) : Bool := fuseWord w || romWord w

/-- An element whose factory trim cannot be read runs untrimmed and is degraded (R446, R483): the trims of a word are Xawald's own
(R480). -/
def untrimmed (w : Nat) (b : Block) : Block :=
  if 3 ≤ w ∧ w ≤ 0x3E then
    (Config.trimsOf w).foldl (fun b e =>
      match e with
      | .reg n => degradeReg n b
      | .term p => degradeTerm (pid p) b
      | .sensor n => degradeSensor n b) b
  else b

/-- A power-up read of one word (R483). -/
def powerUpRead (l : List OtpReads) (b : Block) (w : Nat) : Block :=
  let r := rawReads b (readsOf l w)
  let b := { b with otp := { b.otp with
    cap := if r.1 = otpMade w then b.otp.cap else mput b.otp.cap w r.1 } }
  let b := if r.2.1 ≠ r.1 ∨ r.2.2 ≠ r.1 then otpMarginal w b else b
  if (secdedDecode r.1).isNone then
    untrimmed w (otpFault w { b with otp := { b.otp with ue := true } }) else b

/-- The power-up reads of a step's words. -/
def readWords (f : Nat → Bool) (l : List OtpReads) (b : Block) : Block := ((List.range 1024).filter f).foldl (powerUpRead l) b

/-- A life-cycle word programmed but not set raises FS_OTP_MARGINAL (R499). -/
def lifeWords (b : Block) : Block :=
  (List.range 12).foldl (fun b i =>
    let raw := otpCap b (0x40 + i)
    if raw ≠ 0 ∧ !otpIsSet raw then otpFault (0x40 + i) b else b) b

/-- A repair entry whose tag is not 0xA5 raises FS_OTP_MARGINAL (R496). -/
def repairTags (b : Block) : Block :=
  (List.range 920).foldl (fun b i =>
    match otpWord b (0x60 + i) with
    | some d => if otpCap b (0x60 + i) ≠ 0 ∧ field d.toNat 63 56 ≠ 0xA5 then otpFault (0x60 + i) b else b
    | none => b) b

/-- The rows that the repair entries in force name are mapped onto hard redundant rows (R339, R496). -/
def mapRepairs (b : Block) : Block :=
  (repairsInForce b).foldl (fun b r =>
    modChan (cid (r.key / 512)) (fun x => { x with hard := mset x.hard (r.key % 512) none (some r.row) }) b) b

/-- Regions sealed while their completion marker is not set at the start (R498). The marker of FACTORY is no word of R482, so its
read here flags nothing (log entry 127). -/
def sealedIncomplete (l : List OtpReads) (b : Block) : BitVec 6 :=
  BitVec.ofNat 6 (((List.range 6).map fun r =>
    match otpMarker r with
    | some m => if otpSealed b r && !otpIsSet (rawReads b (readsOf l m)).1 then 2 ^ r else 0
    | none => 0).sum)

/-- Step 2 of R86. -/
def fuseStep (l : List OtpReads) (b : Block) : Block :=
  let b := mapRepairs (repairTags (lifeWords (readWords fuseWord l b)))
  let d := draw b
  let n := draw d.2
  { n.2 with otp := { n.2.otp with
    lc := lcState (lcCountOf (otpCap n.2)), nonce := n.1, sealedInc := sealedIncomplete l n.2
    capTemp := d.1.truncate 16 } }

/-- The reads of step 6, in the way of READ, at the temperature then. -/
def romStep (l : List OtpReads) (b : Block) : Block :=
  let d := draw b
  readWords romWord l { d.2 with otp := { d.2.otp with romTemp := d.1.truncate 16 } }

/-! ### The steps -/

/-- Move to a step and its stage. -/
def toStep (step : Nat) (stage : BitVec 4) (b : Block) : Block :=
  { b with start := { b.start with step := step, stage := stage } }

/-- Set channels OFFLINE in a start: their faults are not raised, the start lists them (R91). -/
def startOffline (mask : BitVec 32) (b : Block) : Block :=
  forAll 32 (fun c b => if mask.getLsbD c.val then modChan c (fun x => { x with st := .offline, init := false }) b
    else b) b

/-- Channels the image's mask takes out of service (R116). -/
def maskedChannels (b : Block) : BitVec 32 :=
  match bodyOf b 2 with | some l => ~~~(wordAt l 0) | none => 0

/-- Channels OFFLINE now. -/
def offlineMask (b : Block) : Word :=
  word ((List.finRange 32).filterMap fun c => if b.chans[c].st == .offline then some (1, c.val) else none)

/-- The state in which the bank machines of a channel begin: the initial state of their table's header (R137). -/
def bankInit (b : Block) (c : ChanId) : Nat := wfield ((bankTable b b.clk.tsvOps[quadOf c.val].toNat).getD 0 0) 7 2

/-- Every bank machine of a channel in a state. -/
def initBanks (n : Nat) (x : Chan) : Chan :=
  (List.range (4 * Config.height)).foldl (fun x k => x.modBank k fun y => { y with state := n }) x

/-- Channels initialized and running: refresh starts (step 14), in CHIVE at the fixed multiplier (R309). One whose TSV PLL is not
READY stalls until it is (R418). -/
def initChannels (good : BitVec 32) (b : Block) : Block :=
  forAll 32 (fun c b => if good.getLsbD c.val then
    let m := if b.start.chive then 1024 else b.thm.qMult[quadOf c.val]
    modChan c (fun x => initBanks (bankInit b c)
      { x with st := .run, init := true, stall := !b.clk.tsvLock.getLsbD (quadOf c.val).val, idleAt := b.now, mult := m, multNext := if b.start.chive then 1024 else x.multNext }) b
    else b) b

/-- Begin training: step 15 (R92): DISABLED ports go to DETECT (R155), and port 0 leaves its boot rate through RECOVER, with a full
TRAIN (R167). -/
def trainPorts (b : Block) : Block :=
  let b := { b with start := { b.start with waitRef := false, trained := true } }
  let b := forAll 16 (fun p b => if b.ports[p].st == .disabled then modPort p portDetect b else b) b
  if b.ports[(0 : PortId)].linked || b.ports[(0 : PortId)].st == .pattern then recoverAs true 0 b else b

/-- Enter step 15; it waits for REFCLK to be proven (R89). -/
def enterTraining (b : Block) : Block :=
  let b := toStep 15 9 b
  if b.clk.proven then trainPorts b else { b with start := { b.start with waitRef := true } }

/-! ### READY and CHIVE (R94, R101) -/

/-- Handle 0 (R222). -/
def makeFlat (b : Block) : Block :=
  let l := (List.range 32).filter fun c =>
    b.chans[cid c].st != .offline && (b.start.chive || inQmask (flatMaskOf b) c)
  let n := l.length
  let cap := n * 3072 * Config.height
  let size := if b.start.chive then cap else if n = 0 then 0 else min cap (flatSizeOf b / n * n)
  { b with hnd := { b.hnd with flat := true, flatList := l, flatSize := size } }

/-- Dill's first pass begins (R94, R331): nothing is written yet, so the interval spans the whole pass. -/
def startDill (b : Block) : Block :=
  forAll 32 (fun c b => modChan c (fun x => if x.st == .offline then x else
    { x with dillRun := true, dillSeg := 0, dillLine := 0, dillStart := b.now
             dillIvl := BitVec.ofNat 32 (rwf (chnBase c.val + 0x100) 15 8 b * 360000000000) }) b) b

/-- The detail of events 0x0401 and 0x0402 (R104). -/
def startDetail (b : Block) : Word :=
  word [(b.start.reason.toNat, 0), (b.start.lastFail.toNat, 4), (ones (offlineMask b), 8)]

/-- Event 0x0404, when a channel is OFFLINE. -/
def offlineList (mask : BitVec 16) (b : Block) : Block :=
  if offlineMask b = 0 then b else emit mask { code := 0x0404, lo := offlineMask b } b

/-- READY (R94). -/
def reachReady (b : Block) : Block :=
  let b := { b with start := { b.start with step := 16, stage := 10, done := true, doneAt := b.now, attempts := 0 }
                    ops := { b.ops with collSeq := 0 } }
  let b := startDill (makeFlat b)
  let b := offlineList allMask (emit allMask { code := 0x0401, lo := startDetail b, hi := b.img.ver } b)
  if b.start.clampBits = 0 then b
  else emit allMask { code := 0x0406, lo := b.start.clampBits, hi := b.img.ver } b

/-- CHIVE (R101). -/
def reachChive (b : Block) : Block :=
  let b := { b with start := { b.start with stage := 11, done := true, doneAt := b.now } }
  let b := startDill (makeFlat b)
  offlineList 1 (emit 1 { code := 0x0402, lo := startDetail b } b)

/-- The port has reached ACTIVE and is there, or in the electrical idle that a side may enter from it (R170). -/
def Port.reached (x : Port) : Bool := x.st == .active || x.st == .idle

/-- Port 0 is ACTIVE at full rate (R92). -/
def fullRate (b : Block) : Bool :=
  b.ports[(0 : PortId)].reached && decide (b.ports[(0 : PortId)].rate.toNat = portRate 0 b)

/-- Step 15 is complete when port 0 is ACTIVE at full rate and every other port is ACTIVE or disabled (R92). -/
def tryReady (b : Block) : Block :=
  if b.starting && b.start.step == 15 && b.start.trained && !b.start.waitRef && fullRate b
      && (List.finRange 16).all fun p => b.ports[p].reached || b.ports[p].st == .disabled
  then reachReady b else b

/-! ### The image wait and its end -/

/-- The BOOT load opens (R128). -/
def openBoot (b : Block) : Block :=
  { b with img := { b.img with state := .receiving, target := 0, path := 0, data := [], count := 0, failCheck := 0
                               failSection := 0xFF, errOff := 0 } }

/-- Step 7 is over: port 0 is ACTIVE (R86, R101). In a chive start the ROM image is applied at OP1; a normal start waits for
the image, or takes the staged one at once (R106). -/
def bootLinkUp (b : Block) : Block :=
  if b.start.chive then toStep 12 6 (applyRom b)
  else
    let b := openBoot (toStep 8 3 b)
    match b.start.useStaged, b.img.staged with
    | true, some l =>
      toStep 9 4 { b with img := { b.img with state := .verifying, data := l, count := l.length, staged := none, stagedOk := false } }
    | _, _ => b

/-- Authentication passed (step 9): the structure is applied in step 10. -/
def authPassed (b : Block) : Block :=
  if b.starting then toStep 10 5 (loadingEngines { b with img := { b.img with state := .done } }) else b

/-- VDDL of an operating point, in mV: the value of R424 and the image's guard (R119). -/
def opVddl (b : Block) (op : BitVec 2) : Nat :=
  [620, 700, 780, 850].getD op.toNat 850
    + 5 * (match bodyOf b 14 with | some l => natAt l (4 + op.toNat) 1 | none => 0)

/-- The operating point of step 11 and the locks of the quadrant PLLs. -/
def startOpSet (b : Block) : Block :=
  let op := BitVec.ofNat 2 (startOp b)
  loadReg (clkBase + 4) (op.zeroExtend 32)
    { b with clk := { b.clk with op := op, rateOps := Vector.replicate 4 op, vddl := opVddl b op, tsvOps := Vector.replicate 4 op, linkLock := 0xF, tsvLock := 0xF } }

/-- Core-die work of steps 13 and 14 in SCRAPPED: no channel is calibrated or initialized (R499). -/
def scrapped (b : Block) : Bool := b.otp.lc == 6

/-- Step 6 chooses the start (R88, R100). -/
def chooseStart (b : Block) : Block :=
  let chive := b.otp.lc == 0 || scrapped b || b.start.attempts == 3
  let b := toStep 7 2 { b with start := { b.start with chive := chive } }
  modPort 0 portDetect b

/-- The end of step 14 (R91): READY follows training, CHIVE at once. -/
def initDone (obs : StepObs) (b : Block) : Block :=
  let bad := obs.failedChannels ||| b.start.calFail ||| maskedChannels b ||| (if scrapped b then 0xFFFFFFFF else 0)
  let b := initChannels (~~~bad) (startOffline bad b)
  let n := ones (offlineMask b &&& ~~~(maskedChannels b))
  if b.start.chive then reachChive b
  else if n > 4 then startFail 4 b
  else enterTraining b

/-- Channels whose calibration took spare TSVs (R445). -/
def takeSpares (l : List (Nat × Nat)) (b : Block) : Block :=
  l.foldl (fun b n => modChan (cid n.1) (fun x => { x with tsvSpares := min 8 n.2 }) b) b

/-- The end of step 13: the channels that failed, the TSV margins found, and the spare TSVs taken (R445, R449). -/
def calibrated (obs : StepObs) (b : Block) : Block :=
  let b := takeSpares obs.spares b
  { b with
    start := { b.start with calFail := obs.failedChannels }
    cal := { b.cal with margin := obs.margins.foldl (fun m g => mput m g.1 g.2) b.cal.margin } }

/-- A timed step of the start completes (START_STEP_DONE). The supervisor, which runs from step 5 on, may trap in any step after
it (R96, R101). -/
def stepDone (obs : StepObs) (b : Block) : Block :=
  if !b.starting then b else
  let s := b.start.step
  if obs.trap && decide (6 ≤ s) then startFail 5 b
  else if s = 2 then toStep 3 0 (fuseStep obs.otp b)
  else if s = 3 then toStep 6 1 { b with img := { b.img with fwVer := Config.romFwVersion } }
  else if s = 6 then chooseStart (romStep obs.otp b)
  else if s = 10 then toStep 11 6 (applyImage b.img.data b)
  else if s = 11 then toStep 12 6 (startOpSet b)
  else if s = 12 then toStep 13 7 b
  else if s = 13 then toStep 14 8 (calibrated obs b)
  else if s = 14 then initDone obs b
  else if s = 15 then tryReady b
  else b

/-- The limit of a start step expires (R86, R92, R96). In a chive start steps 12, 13 and 14 keep their limits and reason 4, which
R96 lists for every start and R101 does not repeat (DESIGN CHOICE, log entry 103). -/
def stepLimit (b : Block) : Block :=
  if !b.starting then b else
  let s := b.start.step
  if s = 7 then startFail 3 b
  else if s = 8 then (if b.img.count < 64 then startFail 1 b else b)
  else if s = 9 ∨ s = 10 ∨ s = 11 then startFail 6 b
  else if s = 12 ∨ s = 13 ∨ s = 14 then startFail 4 b
  else if s = 15 then
    (if fullRate b && b.start.trained && !b.start.waitRef then
      tryReady (forAll 16 (fun p b =>
        if b.ports[p].reached || b.ports[p].st == .disabled then b else portDisable p b) b)
     else startFail 3 b)
  else b

/-! ### The commands -/

/-- PWROK rises (R77): power-on reset is released. -/
def pwrokRise (b : Block) : Block :=
  if b.start.pwrok then b else { b with start := { b.start with pwrok := true, brown := false } }

/-- PWROK falls (R78): power-on reset, the always-on domain cleared, the test logic held in Test-Logic-Reset (R74). -/
def pwrokFall (b : Block) : Block :=
  let b := clearAlwaysOn (resetUnits b)
  { b with start := { b.start with pwrok := false }, tap := .testLogicReset }

/-- RESET_N falls (R85): low pulses shorter than 100 ns are ignored. -/
def resetFall (lowNs : Nat) (b : Block) : Block :=
  if lowNs < 100 then b else
  let b := resetUnits b
  { b with start := { b.start with resetN := false } }

/-- RESET_N rises (R86): straps sampled, the start begins. -/
def resetRise (straps : BitVec 3) (b : Block) : Block :=
  if !b.start.pwrok || b.start.brown || b.start.resetN then b else
  beginStart { b with start := { b.start with resetN := true, straps := straps } }

/-- Brown-out (R76): a rail more than 1 µs below its threshold. VIO is the always-on domain's; the other rails hold the stack
until PWROK has fallen and risen. -/
def brownOut (rail : Rail) (ns : Nat) (b : Block) : Block :=
  if ns ≤ 1000 then b else
  let b := clearAlwaysOn (resetUnits b)
  { b with start := { b.start with resetN := false, brown := b.start.brown || rail != .vio } }

def execPwrokRise (s : State) : Res := .next (s.upd (pwrokRise s.blk))
/-- Stored data is lost (R83). -/
def execPwrokFall (s : State) : Res := .next { s with blk := pwrokFall s.blk, mem := [] }
def execResetNFall (lowNs : Nat) (s : State) : Res := .next (s.upd (resetFall lowNs s.blk))
def execResetNRise (straps : BitVec 3) (s : State) : Res := .next (s.upd (resetRise straps s.blk))
/-- Stored data is lost with a reset (R76, R83). -/
def execBrownOutReset (rail : Rail) (ns : Nat) (s : State) : Res :=
  .next { s with blk := brownOut rail ns s.blk, mem := if ns ≤ 1000 then s.mem else [] }
def execStartStepLimitExpiry (s : State) : Res := .next (s.upd (stepLimit s.blk))
def execReadyLimitExpiry (s : State) : Res := .next (s.upd (if s.blk.starting then startFail 6 s.blk else s.blk))
def execInternalRestart (s : State) : Res :=
  .next (s.upd (if s.blk.start.failed && !s.blk.sage.safe && !s.blk.thm.safe then internalRestart s.blk else s.blk))

/-! ### Supervisor faults (R390, R472) -/

/-- A lockstep mismatch or an uncorrectable supervisor word (R390): the safe state. Before READY the start ends with reason 5 as
well: R390 names it for this fault, where R99 leaves the reason on faults that lead to the safe state in general (DESIGN CHOICE,
log entry 103). The boot-attempt counter stays (R99, R470). -/
def lockstepFault (memUe : Bool) (pc : Word) (b : Block) : Block :=
  let b := if memUe then b else { b with start := { b.start with lockstepOk := false } }
  let b := if b.starting then { b with start := { b.start with reason := 5, lastFail := b.start.stage } } else b
  raise (if memUe then (fs .supMemUe) else (fs .supLockstep)) 0x53 pc [] b

def execLockstepMismatch (memUe : Bool) (pc : Word) (s : State) : Res :=
  .next (s.upd (if s.blk.start.step < 5 then s.blk else lockstepFault memUe pc s.blk))

/-- SUPERVISOR_WATCHDOG_EXPIRY (R472): during a start it is a watchdog reset, which discards every pending write (R56) and ends a
two-wire transaction (R528). -/
def execSupervisorWatchdogExpiry (pc : Word) (s : State) : Res :=
  .next (s.upd
    (if s.blk.starting then (if s.blk.start.step < 5 then s.blk else startFail 6 (twpEnd (discardPend s.blk)))
     else if s.blk.start.done && !s.blk.start.supHeld then raise (fs .supWdog) 0x53 pc [] s.blk
     else s.blk))

end Sys2Proof.Machine
end

