-- ==== Sys2Proof/Machine/Lanes.lean ====
section
/-! DEFINITION. The lanes of a port (chapter 6): training blocks, the training states, lane maps, RECOVER, electrical idle and
pattern testing. Lanes are held by physical position. -/

namespace Sys2Proof.Machine

open Sys2Proof

/-! ### Training blocks (R151 to R154) -/

/-- A block whose sync bytes and check word are right (R151). -/
def blockOk (k : BitVec 144) : Bool :=
  byteOf k 0 == 0x5A && byteOf k 1 == 0xC3 && (crc16 (bytesOf 16 k)).toNat == byteOf k 16 + 256 * byteOf k 17

/-- A good block of a type. -/
def blockIs (ty : Nat) (k : BitVec 144) : Bool := blockOk k && byteOf k 2 == ty

/-- The logical lane of a block. -/
def blockLane (k : BitVec 144) : Nat := byteOf k 3 % 32

/-- A physical lane as an index. -/
def laneIx (n : Nat) : Fin 21 := Fin.ofNat 21 n

/-- Change one lane of a port. -/
def modLane (i : Fin 21) (f : Lane → Lane) (x : Port) : Port := { x with lanes := x.lanes.set i (f x.lanes[i]) }

/-- The presets of R153: |c-1| and |c+1|. -/
def presetTaps (n : Nat) : Nat × Nat :=
  [(0, 0), (0, 4), (0, 8), (0, 12), (0, 16), (3, 0), (3, 4), (3, 8), (5, 4), (5, 8)].getD n (0, 8)

/-- A coefficient step of a tap with its limit; c0 stays at least 24 (R153). -/
def tapStep (code tap other limit : Nat) : Nat :=
  if code = 1 then (if tap + 1 ≤ limit ∧ tap + 1 + other + 24 ≤ 48 then tap + 1 else tap)
  else if code = 2 then tap - 1 else tap

/-- A transmitter takes a TRAIN block's requests (R153). -/
def takeTrain (k : BitVec 144) (l : Lane) : Lane :=
  let pr := byteOf k 6 % 16
  let taps := if pr ≠ l.preset ∧ pr ≤ 9 then presetTaps pr else (l.pre, l.post)
  let pre := tapStep (byteOf k 7 % 4) taps.1 taps.2 8
  let post := tapStep (byteOf k 7 / 4 % 4) taps.2 pre 16
  { l with preset := pr, pre := pre, post := post, farEq := byteOf k 8 % 2 == 1, farFail := byteOf k 8 / 2 % 2 == 1 }

/-! ### TRAIN (R157) -/

/-- The port trains: TRAIN, or the TRAIN of RECOVER. -/
def Port.training (x : Port) : Bool := x.st == .train || (x.st == .recover && x.rstep == .train)

/-- Every unfailed lane reports eq_done in both directions. -/
def allEqualized (x : Port) : Bool :=
  (List.finRange 21).all fun i => (x.failRx.getLsbD i.val || x.lanes[i].eqDone) && (x.failTx.getLsbD i.val || x.lanes[i].farEq)

/-- Unfailed lanes of a direction. -/
def goodLanes (failed : BitVec 21) : Nat := 21 - ones failed

/-- Leave TRAIN when it is complete (R157), with its settings stored for the rate (R153); the TRAIN of RECOVER goes on to the lane
check (R167). Fewer than 10 unfailed lanes return a full TRAIN to DETECT. -/
def checkTrain (p : PortId) (b : Block) : Block :=
  let x := b.ports[p]
  if !x.training then b
  else if (x.st == .train || x.recFull) && (goodLanes x.failRx < 10 || goodLanes x.failTx < 10) then
    if x.st == .train then modPort p portDetect b else portRestart p b
  else if !allEqualized x then b
  else modPort p (fun x =>
    let x := { x with stored := sadd x.rate.toNat x.stored, lanes := x.lanes.map (saveTaps x.rate.toNat) }
    if x.st == .train then { x with st := .lock, lanes := x.lanes.map unlockLane } else { x with rstep := .laneCheck }) b

/-- The link PLL of a port's quadrant is READY; a port trains and carries flits only then (R418, R431). -/
def linkReady (p : PortId) (b : Block) : Bool := b.clk.linkLock.getLsbD (p.val / 4)

/-- DETECT senses the terminations (R156); lanes without termination are failed when the port enters TRAIN. -/
def senseDetect (p : PortId) (term : BitVec 21) (b : Block) : Block :=
  if b.ports[p].st != .detect || ones term < 10 || !linkReady p b then b else
  modPort p (fun x => portTrain (portRate p b) { x with failTx := x.failTx ||| ~~~term }) b

/-- A TRAIN block arrives (R153, R157). -/
def trainBlock (p : PortId) (k : BitVec 144) (b : Block) : Block :=
  if !b.ports[p].training || !blockIs 1 k || blockLane k > 20 then b else
  let i := laneIx (laneMap b p true (blockLane k))
  let b := modPort p (fun x =>
    let x := modLane i (takeTrain k) x
    if x.lanes[i].farFail then { x with failTx := bset x.failTx i.val } else x) b
  checkTrain p b

/-- A lane state in which no flits arrive and the receiver still measures its lanes (R177). -/
def Port.measures (x : Port) : Bool :=
  x.st == .train || x.st == .lock || x.st == .exchange || x.st == .recover || x.st == .pattern || x.idleRx

/-- A receiver that is not equalized asks for other settings (R157); an equalized one asks to hold (R152). -/
def askAgain (p : PortId) (time : Nat) (q : LaneQ) (l : Lane) : Lane :=
  if l.eqDone then { l with askPre := 0, askPost := 0 } else
  let a := Config.eqAsk p.val q.lane.val time q.residual q.height q.width
  { l with askPreset := a.1 % 10, askPre := a.2.1 % 4, askPost := a.2.2 % 4 }

/-- The measured quality of a lane (R177). -/
def noteQuality (q : LaneQ) (x : Port) : Port :=
  modLane q.lane (fun l => { l with residual := q.residual, height := q.height, width := q.width }) x

/-- A receive lane is measured. In training it is equalized (R157) at an eye width of at least 0.30 UI (77/256) and an eye
height of at least 24 mV, or asks the far transmitter for other settings. -/
def laneEqualized (p : PortId) (q : LaneQ) (b : Block) : Block :=
  if !b.ports[p].training then (if b.ports[p].measures then modPort p (noteQuality q) b else b) else
  let ok := q.width.toNat ≥ 77 && q.height.toNat ≥ 12
  let b := modPort p (fun x =>
    modLane q.lane (fun l => askAgain p b.now q { l with eqDone := l.eqDone || ok }) (noteQuality q x)) b
  checkTrain p b

/-- A receive lane is not equalized in time (R157). -/
def laneTimeout (p : PortId) (i : Fin 21) (b : Block) : Block :=
  let x := b.ports[p]
  if !x.training || x.lanes[i].eqDone then b else
  checkTrain p (modPort p (fun x =>
    { modLane i (fun l => { l with laneFail := true }) x with failRx := bset x.failRx i.val }) b)

/-! ### Lane maps (R161, R162) -/

/-- What R161 makes of the failed lanes of a direction: width code and the lane the spare replaces; width 0 when the port is
to be disabled. -/
def mapLanes (failedLogical : List Nat) (spareOk : Bool) (good : Nat) : BitVec 2 × BitVec 5 :=
  match failedLogical with
  | [] => (2, 31)
  | [l] => if spareOk then (2, BitVec.ofNat 5 l) else if good ≥ 10 then (1, 31) else (0, 31)
  | _ => if good ≥ 10 then (1, 31) else (0, 31)

/-- The physical lane that carries logical lane `l` of a direction (R161), with the failed physical lanes, the width and the lane
that the spare replaces: at width 20 a lane's own position, or the spare's; at width 10 the ten unfailed lanes of lowest logical
number. -/
def laneAt (b : Block) (p : PortId) (tx : Bool) (failed : BitVec 21) (width : BitVec 2) (spare : BitVec 5) (l : Nat) : Option Nat :=
  if width = 2 then (if l < 20 then some (laneMap b p tx (if spare.toNat = l then 20 else l)) else none)
  else if width = 1 then
    (if l < 10 then (((List.range 21).map (laneMap b p tx)).filter fun i => !failed.getLsbD i)[l]? else none)
  else none

/-- The physical lanes in use in a direction, by the logical lanes they carry. -/
def rxLane (b : Block) (p : PortId) (l : Nat) : Option Nat :=
  laneAt b p false b.ports[p].failRx b.ports[p].widthRx b.ports[p].spareRx l
/-- The transmit direction follows the far end's statement of its failed lanes (R154, R161). -/
def txLane (b : Block) (p : PortId) (l : Nat) : Option Nat :=
  laneAt b p true b.ports[p].farFailed b.ports[p].widthTx b.ports[p].spareTx l

/-- The receive spare carries no logical lane. -/
def spareUnused (b : Block) (p : PortId) : Bool :=
  b.ports[p].widthRx != 0 && !((List.range 20).any fun l => rxLane b p l == some (laneMap b p false 20))

/-- LNK_CFG.narrow_allow. -/
def narrowAllowed (p : PortId) (b : Block) : Bool := rwf (lnkBase p.val + 4) 2 2 b == 1

/-- Report a spare taken into use or a narrowing (R164). The lanes that the events name are all failed lanes of the direction
(DESIGN CHOICE, log entry 15). -/
def mapEvents (p : PortId) (dir : Nat) (oldW newW : BitVec 2) (oldS newS : BitVec 5) (lanes : BitVec 21) (b : Block) :
    Block :=
  let b := if newS ≠ 31 ∧ newS ≠ oldS then portChange 0x0301 p dir lanes (rcSet (lnkBase p.val + 0x0C) 4 b) else b
  if newW = 1 ∧ oldW ≠ 1 then portChange 0x0302 p dir lanes (rcSet (lnkBase p.val + 0x0C) 5 b) else b

/-- Form the receive lane map (R161). -/
def formRx (p : PortId) (b : Block) : Block :=
  let x := b.ports[p]
  let bad := (List.range 20).filter fun l => x.failRx.getLsbD (laneMap b p false l)
  let r := mapLanes bad (!x.failRx.getLsbD (laneMap b p false 20)) (goodLanes x.failRx)
  if r.1 = 0 ∨ (r.1 = 1 ∧ !narrowAllowed p b) then portDisable p b
  else
    mapEvents p 0 x.widthRx r.1 x.spareRx r.2 x.failRx
      (modPort p (fun x => { x with widthRx := r.1, spareRx := r.2 }) b)

/-! ### LOCK (R158) -/

/-- The port locks: LOCK, or the LOCK of RECOVER. -/
def Port.locking (x : Port) : Bool := x.st == .lock || (x.st == .recover && x.rstep == .lock)

/-- A MARKER block on a lane: 8 in a row at 16 blocks (2304 UI) with consecutive counts lock it; its arrival is taken
relative to the marker count. -/
def takeMarker (count at_ : Nat) (l : Lane) : Lane :=
  let inRow := l.run > 0 && count == l.next && at_ == l.lastAt + 2304
  let run := if inRow then min 8 (l.run + 1) else 1
  { l with run := run, next := (count + 1) % 65536, lastAt := at_
           arrival := if run = 8 then some ((at_ : Int) - 2304 * count) else none }

/-- Arrivals of the unfailed receive lanes; `none` until all of them have locked. -/
def lockedArrivals (x : Port) : Option (List (Fin 21 × Int)) :=
  ((List.finRange 21).filter fun i => !x.failRx.getLsbD i.val).mapM fun i => x.lanes[i].arrival.map fun a => (i, a)

/-- Deskew (R158): lanes more than 64 UI behind the earliest are failed, and the others wait for the latest. -/
def deskew (l : List (Fin 21 × Int)) (x : Port) : Port :=
  let first := l.foldl (fun m e => min m e.2) ((l.head?.map (·.2)).getD 0)
  let ok := l.filter fun e => e.2 - first ≤ 64
  let last := ok.foldl (fun m e => max m e.2) first
  let x := (l.filter fun e => e.2 - first > 64).foldl (fun x e => { x with failRx := bset x.failRx e.1.val }) x
  ok.foldl (fun x e => modLane e.1 (fun k => { k with delay := (last - e.2).toNat, drift := 0 }) x) x

/-- Leave LOCK for EXCHANGE. -/
def toExchange (x : Port) : Port :=
  let x := freshExchange x
  if x.st == .recover then { x with rstep := .exchange } else { x with st := .exchange }

/-- A MARKER block arrives (R158). -/
def markerBlock (p : PortId) (k : BitVec 144) (at_ : Nat) (farLocked : Bool) (b : Block) : Block :=
  if !b.ports[p].locking || !blockIs 2 k || blockLane k > 20 then b else
  let i := laneIx (laneMap b p false (blockLane k))
  let b := modPort p (modLane i (takeMarker (byteOf k 6 + 256 * byteOf k 7) at_)) b
  match lockedArrivals b.ports[p] with
  | none => b
  | some l =>
    let b := formRx p (modPort p (deskew l) b)
    if b.ports[p].locking && farLocked then modPort p toExchange b else b

/-! ### EXCHANGE (R154, R159) -/

/-- The port exchanges: EXCHANGE, or the EXCHANGE of RECOVER. -/
def Port.exchanging (x : Port) : Bool := x.st == .exchange || (x.st == .recover && x.rstep == .exchange)

/-- What two identical EXCH blocks share: everything but the lane they came on and the check word. -/
def exchBody (k : BitVec 144) : BitVec 144 := BitVec.ofNat 144 (field k.toNat 127 32)

/-- The stack can honour the values of an EXCH block (R159); feature bit 0 without bit 1 is refused (R183). -/
def exchOk (k : BitVec 144) : Bool :=
  let spare := byteOf k 7 % 32
  let w := byteOf k 7 / 32 % 4
  decide (byteOf k 6 < 16 ∧ (spare < 20 ∨ spare = 31) ∧ (w = 1 ∨ w = 2) ∧ byteOf k 6 % 4 ≠ 1)

/-- Record an EXCH block (R159). -/
def takeExch (k : BitVec 144) (x : Port) : Port :=
  let same := if exchBody k = x.exLast then x.exSame + 1 else 1
  { x with
    exLast := exchBody k, exSame := same, exAck := x.exAck || (decide (same ≥ 4) && exchOk k)
    exAcked := x.exAcked + byteOf k 7 / 128
    capFeatures := BitVec.ofNat 8 (byteOf k 6), capProtocol := BitVec.ofNat 8 (byteOf k 11)
    capPort := BitVec.ofNat 4 (byteOf k 4), capRate := BitVec.ofNat 4 (byteOf k 5)
    farSpare := BitVec.ofNat 5 (byteOf k 7), farFailed := BitVec.ofNat 21 (field k.toNat 84 64) }

/-- ACTIVE (R150, R159): the flit counts and scramblers start afresh, the features in force are those both ends offer, and the
transmitter replays from its oldest unacknowledged flit (R207). -/
def portActive (w : BitVec 2) (x : Port) : Port :=
  { x with
    st := .active, widthTx := w, spareTx := x.farSpare, failTx := x.failTx ||| x.farFailed, attempts := 0, features := x.capFeatures &&& 0x0F, idleRx := false, idleTx := false
    waitMarker := false, txFlits := 0, rxFlits := 0, txMarkers := 0, rxMarkers := 0, txScr := scrSeeds, rxScr := scrSeeds
    crcInPeriod := 0, replayPtr := x.oldest, nakState := false, nakOut := false, naks := 0, timeouts := 0 }

/-- Event 0x0B04 for a port that first reaches ACTIVE after the thermal safe state (R413). -/
def resumeEvent (p : PortId) (b : Block) : Block :=
  if b.thm.owe.getLsbD p.val then
    emit (BitVec.ofNat 16 (1 <<< p.val)) { code := 0x0B04, lo := b.thm.tripZone.zeroExtend 32 }
      { b with thm := { b.thm with owe := bclr b.thm.owe p.val } }
  else b

/-- What ACTIVE means to a start: the end of step 7 for port 0, or perhaps of step 15. -/
def startActive (p : PortId) (b : Block) : Block :=
  if !b.starting then b
  else if p.val = 0 ∧ b.start.step = 7 then bootLinkUp b
  else tryReady b

/-- EXCHANGE is complete: the transmit map is the far end's statement (R161), and the port is ACTIVE. -/
def becomeActive (p : PortId) (k : BitVec 144) (b : Block) : Block :=
  let x := b.ports[p]
  let w := BitVec.ofNat 2 (byteOf k 7 / 32 % 4)
  if w = 1 ∧ !narrowAllowed p b then portDisable p b else
  let b := modPort p (portActive w) b
  let b := mapEvents p 1 x.widthTx w x.spareTx x.farSpare x.farFailed b
  startActive p (resumeEvent p b)

/-- An EXCH block arrives (R159). -/
def exchBlock (p : PortId) (k : BitVec 144) (sent : Nat) (b : Block) : Block :=
  if !b.ports[p].exchanging || !blockIs 3 k then b else
  let b := modPort p (takeExch k) b
  let x := b.ports[p]
  if x.exAck && x.exAcked ≥ 4 && sent ≥ 16 && exchOk k && linkReady p b then becomeActive p k b else b

/-! ### Limits (R160) -/

/-- Lanes that did not lock are failed when LOCK's limit expires (R158). -/
def failUnlocked (x : Port) : Port :=
  if !x.locking then x else
  (List.finRange 21).foldl (fun x i =>
    if x.lanes[i].run < 8 ∧ !x.failRx.getLsbD i.val then { x with failRx := bset x.failRx i.val } else x) x

/-- A training limit expires: DETECT, attempts, DISABLED at 3. -/
def trainingLimit (p : PortId) (b : Block) : Block :=
  let x := b.ports[p]
  if !(x.st == .train || x.st == .lock || x.st == .exchange || x.st == .recover) then b else
  let b := modPort p (fun x => { failUnlocked x with attempts := min 3 (x.attempts + 1) }) b
  if b.ports[p].attempts = 3 then portDisable p b else portRestart p b

/-! ### RECOVER (R166, R167, R169) -/

/-- The delays of the unfailed receive lanes with their recorded changes (R169). -/
def wantedDelays (x : Port) : List Int :=
  ((List.finRange 21).filter fun i => !x.failRx.getLsbD i.val).map fun i => (x.lanes[i].delay : Int) + x.lanes[i].drift

/-- The recorded drifts of the lanes would leave the 64 UI deskew range (R169): delays are relative, so it is their spread. -/
def skewOver (x : Port) : Bool :=
  let v := wantedDelays x
  v.any fun a => v.any fun c => decide (a - c > 64)

/-- The last four of the blocks received are good blocks of a type. -/
def lastFour (ty : Nat) (l : List (BitVec 144)) : Bool :=
  decide (4 ≤ l.length) && (l.drop (l.length - 4)).all (blockIs ty)

/-- The trigger holds. -/
def triggerHolds (p : PortId) (t : RecoverTrigger) (b : Block) : Bool :=
  let x := b.ports[p]
  match t with
  | .bitLockLoss _ => true
  | .crcBurst => decide (x.crcInPeriod > rwf (lnkBase p.val + 4) 15 8 b)
  | .skewLimit => skewOver x
  | .rateChange => x.rate.toNat != portRate p b
  | .farRecover blks => lastFour 5 blks

/-- Four RECOVER blocks from the far end are a trigger of RECOVER. -/
def byFarEnd : RecoverTrigger → Bool
  | .farRecover _ => true
  | _ => false

/-- The RECOVER blocks end once the far end's have come, and the TRAIN of RECOVER starts (R166, R167). -/
def endBlocks (x : Port) : Port := if x.st = .recover ∧ x.rstep = .blocks then { x with rstep := .train } else x

/-- A trigger puts an ACTIVE or idle port into RECOVER, where it sends its RECOVER blocks first (R166); four RECOVER blocks from the
far end are also what a port that sends its own waits for. -/
def recoverBy (p : PortId) (t : RecoverTrigger) (b : Block) : Block :=
  let x := b.ports[p]
  if !triggerHolds p t b then b
  else if x.st == .recover then (if byFarEnd t then modPort p endBlocks b else b)
  else if !(x.st == .active || x.st == .idle) then b
  else if byFarEnd t then recoverPort p (rcSet (lnkBase p.val + 0x0C) 0 b)
  else recoverPort p b

/-- The lane check ends (R167): lanes with more errors than LNK_CFG.lane_check_limit are failed. -/
def laneCheck (p : PortId) (errors : List (Fin 21 × Nat)) (b : Block) : Block :=
  let x := b.ports[p]
  if !(x.st == .recover && x.rstep == .laneCheck) then b else
  let limit := rwf (lnkBase p.val + 4) 7 4 b
  modPort p (fun x =>
    let x := (errors.filter fun e => e.2 > limit).foldl (fun x e => { x with failRx := bset x.failRx e.1.val }) x
    { x with rstep := .lock, lanes := x.lanes.map unlockLane }) b

/-! ### Electrical idle (R170 to R173) -/

/-- The stack's transmitter idles at a flit boundary, once its flits have carried its latest acknowledgement and credit returns
(R170). One that cannot send its credits stays as it is. -/
def idleTransmit (p : PortId) (b : Block) : Block :=
  if !b.ports[p].transmits then b else
  let b := lastFlits p b
  if b.ports[p].owesFlits then b else modPort p (fun x => { x with st := .idle, idleTx := true }) b

/-- IDLE_ENTRY arrives (R171). -/
def idleEntry (p : PortId) (k : BitVec 144) (b : Block) : Block :=
  let x := b.ports[p]
  if !(x.st == .active || x.st == .idle) || !blockIs 4 k then b else
  modPort p (fun x => { x with st := .idle, idleRx := true }) b

/-- A state of ACTIVE or IDLE by what idles. -/
def idleState (x : Port) : Port := { x with st := if x.idleRx || x.idleTx then .idle else .active }

/-- The stack may use a fast exit (R172). -/
def mayFastExit (p : PortId) (b : Block) : Bool :=
  let x := b.ports[p]
  rwf (lnkBase p.val + 4) 1 1 b == 1 && x.capFeatures.getLsbD 3 && b.clk.linkLock.getLsbD (p.val / 4)

/-- The transmit direction leaves idle: a fast exit, or RECOVER (R172). -/
def exitTransmit (p : PortId) (b : Block) : Block :=
  if !b.ports[p].idleTx || b.ports[p].st != .idle then b
  else if mayFastExit p b then
    modPort p (fun x => idleState { x with idleTx := false, burst := true, txFlits := 0, txMarkers := 0, txScr := scrSeeds }) b
  else recoverPort p b

/-- A fast-exit burst ends a direction's idle (R172). -/
def fastExit (p : PortId) (dir : Dir) (b : Block) : Block :=
  if b.ports[p].st != .idle then b else
  match dir with
  | .tx => exitTransmit p b
  | .rx =>
    if !b.ports[p].idleRx then b else
    modPort p (fun x => idleState { x with
      idleRx := false, waitMarker := true, rxFlits := 0, rxMarkers := 0, rxScr := scrSeeds }) b

/-- No good marker flit followed a burst (R173). -/
def fastExitFailed (p : PortId) (b : Block) : Block :=
  if !b.ports[p].waitMarker || !(b.ports[p].st == .active || b.ports[p].st == .idle) then b
  else recoverPort p (rcSet (lnkBase p.val + 0x0C) 1 b)

/-! ### PATTERN (R175) -/

/-- Count lane errors in LNK_LANE_ERRn. -/
def countLaneErrors (p : PortId) (errors : List (Fin 21 × Nat)) (b : Block) : Block :=
  errors.foldl (fun b e => ctrAdd (lnkBase p.val + 0x100 + 4 * e.1.val) e.2 b) b

/-- PATTERN is entered (R175), and its receivers count errors. -/
def enterPattern (p : PortId) (cause : PatternCause) (errors : List (Fin 21 × Nat)) (b : Block) : Block :=
  let a := lnkBase p.val + 0x1C
  let x := b.ports[p]
  let code : Option (BitVec 2) :=
    match cause with
    | .commit => if rwf a 0 0 b = 1 ∧ x.st = .active then some (BitVec.ofNat 2 (rwf a 3 2 b)) else none
    | .far blks =>
      if x.st = .active ∧ lastFour 6 blks then (blks.getLast?).map fun k => BitVec.ofNat 2 (byteOf k 6) else none
  match code with
  | some c => countLaneErrors p errors (modPort p (fun x => { x with st := .pattern, pattern := c, patFar := cause != .commit }) b)
  | none => if x.st = .pattern then countLaneErrors p errors b else b

/-- PATTERN is left through RECOVER (R175). -/
def leavePattern (p : PortId) (b : Block) : Block :=
  if b.ports[p].st = .pattern ∧ rwf (lnkBase p.val + 0x1C) 0 0 b = 0 then recoverPort p b else b

/-! ### LNK_CTRL commands -/

/-- LNK_CTRL.reenable on a DISABLED port (R160): marks and attempts clear, and the port goes to DETECT; in CHIVE and in the
thermal safe state ports 1 to 15 stay in electrical idle (R102, R410). -/
def reenablePort (p : PortId) (b : Block) : Block :=
  let stay := p.val ≠ 0 && (b.start.chive || b.thm.safe)
  modPort p (fun x =>
    let x := { x with failRx := 0, failTx := 0, attempts := 0 }
    if stay then x else portDetect x) b

/-- The termination calibration of RECOVER (R445, R446). -/
def recoverEntered (p : PortId) (calFail : Bool) (b : Block) : Block :=
  if calFail && b.ports[p].st == .recover then degradeTerm p b else b

def execTrainBlockReceived (p : PortId) (blk : BitVec 144) (s : State) : Res := .next (s.upd (trainBlock p blk s.blk))
def execMarkerBlockReceived (p : PortId) (blk : BitVec 144) (arrival : Nat) (farLocked : Bool) (s : State) : Res :=
  .next (s.upd (markerBlock p blk arrival farLocked s.blk))
def execExchBlockReceived (p : PortId) (blk : BitVec 144) (sent : Nat) (s : State) : Res :=
  .next (s.upd (exchBlock p blk sent s.blk))
def execTrainingLimitExpiry (p : PortId) (s : State) : Res := .next (s.upd (trainingLimit p s.blk))
def execRecoverEntry (p : PortId) (trigger : RecoverTrigger) (s : State) (calFail : Bool := false) : Res :=
  .next (s.upd (recoverEntered p calFail (recoverBy p trigger s.blk)))
def execIdleEntryReceived (p : PortId) (blk : BitVec 144) (s : State) : Res := .next (s.upd (idleEntry p blk s.blk))
def execFastExitBurst (p : PortId) (dir : Dir) (s : State) : Res := .next (s.upd (fastExit p dir s.blk))
def execFastExitFail (p : PortId) (s : State) : Res := .next (s.upd (fastExitFailed p s.blk))
def execPatternEntry (p : PortId) (cause : PatternCause) (errors : List (Fin 21 × Nat)) (s : State) : Res :=
  .next (s.upd (enterPattern p cause errors s.blk))
def execPatternExit (p : PortId) (s : State) : Res := .next (s.upd (leavePattern p s.blk))
def execRxLaneEqualized (p : PortId) (q : LaneQ) (s : State) : Res := .next (s.upd (laneEqualized p q s.blk))
def execEqLaneTimeout (p : PortId) (lane : Fin 21) (s : State) : Res := .next (s.upd (laneTimeout p lane s.blk))
def execLaneCheckEnd (p : PortId) (errors : List (Fin 21 × Nat)) (s : State) : Res :=
  .next (s.upd (laneCheck p errors s.blk))

end Sys2Proof.Machine
end

