-- ==== Sys2Proof/Machine/Requests.lean ====
section
/-! DEFINITION. The receiver of a port (R203 to R208) and the data requests of the host (R28 to R35, R186 to R192, R209,
R210). Accepted items wait in the port's receive buffers until their own command takes them. -/

namespace Sys2Proof.Machine

open Sys2Proof

/-! ### Request entries (R186) -/

structure Hdr where
  op : Nat
  cls : Nat
  hint : Nat
  len : Nat
  handle : Nat
  line : Nat
  tag : Nat
deriving DecidableEq, Repr

def hdrOf (e : BitVec 64) : Hdr :=
  let n := e.toNat
  { op := field n 3 0, cls := field n 6 4, hint := field n 8 7, len := field n 10 9, handle := field n 22 11
    line := field n 53 23, tag := field n 63 54 }

/-- Lines of a request: a masked write has one, whatever its length field holds (R190). -/
def Hdr.count (h : Hdr) : Nat := if h.op = 3 then 1 else 2 ^ h.len

/-- A request that reads or writes lines. -/
def Hdr.data (h : Hdr) : Bool := h.op == 1 || h.op == 2 || h.op == 3

/-- A write header. -/
def Hdr.writes (h : Hdr) : Bool := h.op == 2 || h.op == 3

/-- Units of the REQ pool that an entry spends (R198). -/
def Hdr.reqUnits (h : Hdr) : Nat := if h.op = 3 then 2 else 1

/-- Units of the DATA pool that an entry spends (R198). -/
def Hdr.dataUnits (h : Hdr) : Nat := if h.writes then h.count else 0

/-- Two requests share a line of a handle, and one of them writes it (R209). -/
def Hdr.clash (a b : Hdr) : Bool :=
  a.data && b.data && (a.writes || b.writes) && a.handle == b.handle
    && decide (a.line < b.line + b.count) && decide (b.line < a.line + a.count)

/-! ### Protocol errors (R208) -/

/-- A protocol error: its cause is recorded, FS_LNK_PROTO is raised, and the port returns to DETECT as a new link with one
event 0x0304. -/
def protoError (p : PortId) (cause : Nat) (b : Block) : Block :=
  let a := lnkBase p.val + 0x30
  let b := if rcGet a b = 0 then modPort p (fun x => { x with firstCause := BitVec.ofNat 4 cause }) b else b
  let b := rcSet a (cause - 1) b
  let e := portEvent 0x0304 p 2 0
  let told := reports (fs .lnkProto) b
  let b := raise (fs .lnkProto) p.val e.lo [{ mask := otherActive p b, ev := e }] b
  if b.ports[p].st == .disabled then b else
  let b := detectPort p b
  raise (fs .lnkDegrade) p.val e.lo [{ mask := if told then 0 else otherActive p b, ev := e }] b

/-! ### Acceptance of an item (R197 to R199) -/

/-- A tag is outstanding on the link in force. -/
def Port.hasTag (x : Port) (tag : Nat) : Bool := x.tags.any fun t => t.1 == tag

/-- Take a tag into use. -/
def useTag (tag : Nat) (u : TagUse) (x : Port) : Port :=
  { x with tags := mput x.tags tag { u with age := x.rxSeqd, ord := x.arrivals }, arrivals := x.arrivals + 1 }

/-- Spend units of one of the stack's pools. -/
def spendGrant (k : Fin 4) (n : Nat) (x : Port) : Port := { x with grant := x.grant.set k (x.grant[k] - n) }

/-- An item waits in the receive buffers. -/
def pushItem (i : RxItem) (x : Port) : Port := { x with rxq := x.rxq ++ [i] }

/-- The lines of an access as a bit per offset. -/
def lineBits (n : Nat) : BitVec 8 := BitVec.ofNat 8 (2 ^ n - 1)

/-- What a request's tag stands for. -/
def Hdr.tagUse (h : Hdr) : TagUse :=
  if h.op = 1 then { kind := .read, lines := lineBits h.count, wait := lineBits h.count, handle := h.handle }
  else if h.writes then { kind := .write, lines := lineBits h.count, handle := h.handle }
  else { kind := .other, handle := h.handle }

/-- Accept a request entry: causes 2 and 3 of R208. One that both exceeds its credits and carries an outstanding tag records cause
2: R208 gives no order (DESIGN CHOICE, log entry 118). -/
def acceptReq (e mask : BitVec 64) (now : Nat) (x : Port) : Except Nat Port :=
  let h := hdrOf e
  if x.grant[0] < h.reqUnits ∨ x.grant[1] < h.dataUnits then .error 2
  else if x.hasTag (x.itag h.tag) then .error 3
  else .ok (pushItem (.req e mask x.gen now)
    (useTag (x.itag h.tag) h.tagUse (spendGrant 1 h.dataUnits (spendGrant 0 h.reqUnits x))))

/-- Accept a DATA slot: cause 4 of R208 when it matches no write line, repeats one, or comes after the 32nd sequenced flit. -/
def acceptData (tag line : Nat) (poison : Bool) (d : Line) (x : Port) : Except Nat Port :=
  match mfind x.tags (x.itag tag) with
  | some u =>
    if u.kind = .write ∧ u.lines.getLsbD line ∧ x.rxSeqd - u.age ≤ 32 then
      .ok { x with tags := mput x.tags (x.itag tag) { u with lines := bclr u.lines line }
                   rxq := x.rxq ++ [.data (x.itag tag) line poison d x.gen] }
    else .error 4
  | none => .error 4

/-- Accept a register record. -/
def acceptReg (r : BitVec 128) (x : Port) : Except Nat Port :=
  let tag := x.itag (field r.toNat 21 12)
  if x.grant[2] = 0 then .error 2
  else if x.hasTag tag then .error 3
  else .ok (pushItem (.reg r x.gen) (useTag tag { kind := .reg } (spendGrant 2 1 x)))

/-- Tag and handle of a descriptor (R196). -/
def descTag (d : BitVec 512) : Nat := field d.toNat 22 13
def descHandle (d : BitVec 512) : Nat := field d.toNat 34 23

/-- Accept an operation descriptor. -/
def acceptOpd (d : BitVec 512) (x : Port) : Except Nat Port :=
  let tag := x.itag (descTag d)
  if x.grant[3] = 0 then .error 2
  else if x.hasTag tag then .error 3
  else .ok (pushItem (.opd d x.gen) (useTag tag { kind := .desc, handle := descHandle d } (spendGrant 3 1 x)))

/-! ### The slots of an in-sequence flit -/

/-- Go on with the next item unless this one is a protocol error. -/
def thenAccept (r : Except Nat Port) (x : Port) (k : Port → Port × Option Nat) : Port × Option Nat :=
  match r with
  | .ok y => k y
  | .error c => (x, some c)

/-- The entries of a REQ slot: opcode 0 is an unused entry, a masked write takes the next entry as its mask, and cause 5 is a
masked write without one. -/
def acceptEntries (now : Nat) : List (BitVec 64) → Port → Port × Option Nat
  | [], x => (x, none)
  | [e], x =>
    if e.toNat % 16 = 0 then (x, none)
    else if e.toNat % 16 = 3 then (x, some 5)
    else thenAccept (acceptReq e 0 now x) x fun y => (y, none)
  | e :: m :: t, x =>
    if e.toNat % 16 = 0 then acceptEntries now (m :: t) x
    else if e.toNat % 16 = 3 then thenAccept (acceptReq e m now x) x (acceptEntries now t)
    else thenAccept (acceptReq e 0 now x) x (acceptEntries now (m :: t))

/-- The records of a REG slot; type 0 is unused. -/
def acceptRecords : List (BitVec 128) → Port → Port × Option Nat
  | [], x => (x, none)
  | r :: t, x => if r.toNat % 16 = 0 then acceptRecords t x else thenAccept (acceptReg r x) x (acceptRecords t)

/-- Slot `k` of an in-sequence flit from the host (R183). -/
def acceptSlot (f : BitVec 2880) (now k : Nat) (x : Port) : Port × Option Nat :=
  let d := fSlot f k
  match fType f k with
  | 0 => (x, none)
  | 1 =>
    let t := fTag f k
    thenAccept (acceptData (t % 1024) (t / 1024 % 8) (fPoison f k) d x) x fun y => (y, none)
  | 2 => acceptEntries now ((List.range 8).map fun i => BitVec.ofNat 64 (field d.toNat (64 * i + 63) (64 * i))) x
  | 4 => acceptRecords ((List.range 4).map fun i => BitVec.ofNat 128 (field d.toNat (128 * i + 127) (128 * i))) x
  | 6 => if x.features.getLsbD 0 then thenAccept (acceptOpd d x) x fun y => (y, none) else (x, some 1)
  | _ => (x, some 1)

/-- Slots in ascending order; what precedes the first protocol error is accepted (DEDUCED). -/
def acceptSlots (f : BitVec 2880) (now : Nat) : List Nat → Port → Port × Option Nat
  | [], x => (x, none)
  | k :: t, x =>
    match acceptSlot f now k x with
    | (y, none) => acceptSlots f now t y
    | (y, some c) => (y, some c)

/-- The credit returns of an in-sequence flit (R200). -/
def takeReturns (f : BitVec 2880) (x : Port) : Port :=
  { x with far := Vector.ofFn fun k => x.far[k] + fCredit f k.val }

/-! ### The receiver (R205) -/

/-- A port that receives flits (R149, R171). -/
def Port.receives (x : Port) : Bool := (x.st == .active || x.st == .idle) && !x.idleRx && !x.discard

/-- `tx_release`: free the replay entries up to an acknowledged sequence number, and the tags whose final record they carried
(R197); an advance ends the run of replay timeouts. -/
def txRelease (ack : BitVec 16) (x : Port) : Port :=
  let n := (ack + 1 - x.oldest).toNat
  if n = 0 ∨ n > (x.nextSeq - x.oldest).toNat then x else
  let rb := (List.range n).foldl (fun rb i => mdel rb ((x.oldest + BitVec.ofNat 16 i).toNat % 64)) x.rb
  let acked := fun (q : BitVec 16) => decide ((q - x.oldest).toNat < n)
  { x with oldest := ack + 1, rb := rb, timeouts := 0
           tags := x.tags.filter fun t => !(t.2.done.any acked)
           replayPtr := if (x.replayPtr - x.oldest).toNat < n then ack + 1 else x.replayPtr }

/-- `tx_replay_from`: replay from a sequence number that is still held. -/
def replayFrom (seq : BitVec 16) (x : Port) : Port :=
  if (seq - x.oldest).toNat ≤ (x.nextSeq - x.oldest).toNat then { x with replayPtr := seq } else x

/-- A gap or a CRC failure asks for replay, once until the nak timer ends (R205, R206). -/
def startNak (x : Port) : Port := if x.nakState then x else { x with nakState := true, nakOut := true, naks := 1 }

/-- `seq_ahead`: in the half of the numbers that follows the expected one. -/
def seqAhead (seq expected : BitVec 16) : Bool := decide (0 < (seq - expected).toNat ∧ (seq - expected).toNat < 32768)

/-- How much less every lane is delayed so that the wanted delays lie in 0 to 64 UI (R169): delays are relative, and a spread of at
most 64 UI leaves room for both ends. -/
def delayShift (x : Port) : Int :=
  let v := wantedDelays x
  let least := v.foldl (fun m v => min m v) 0
  let most := v.foldl (fun m v => max m v) 64
  if least < 0 then least else most - 64

/-- Apply the recorded changes of the lane delays (R169). -/
def applyDrift (x : Port) : Port :=
  { x with lanes := x.lanes.map fun l => { l with delay := ((l.delay : Int) + l.drift - delayShift x).toNat, drift := 0 } }

/-- What the receiver notes of its lanes at every flit: phase drifts (R169) and, at a marker flit, the changes applied, unless
they leave the deskew range, and the lane quality (R177). -/
def noteLanes (obs : LaneObs) (marker : Bool) (x : Port) : Port :=
  let x := obs.drift.foldl (fun x d => modLane d.1 (fun l => { l with drift := l.drift + d.2 }) x) x
  if !marker then x else
  let x := if skewOver x then x else applyDrift x
  { obs.quality.foldl (fun x q => noteQuality q x) x with crcInPeriod := 0 }

/-- Errors of an unused spare that carries PRBS31 (R176); the count pauses while LINK_LOOPBACK runs on the port (R506). -/
def noteSpare (p : PortId) (n : Nat) (b : Block) : Block :=
  if n ≠ 0 ∧ spareUnused b p ∧ !bstOnPort b p ∧ rwf (lnkBase p.val + 4) 3 3 b = 1
  then ctrAdd (lnkBase p.val + 0x150) n b else b

/-- A CRC-good flit (R205): acknowledgement, replay request, live fields, and the contents of the flit in sequence. The second
value is the cause of a protocol error. -/
def goodFlit (f : BitVec 2880) (now : Nat) (marker : Bool) (x : Port) : Port × Option Nat :=
  let x := txRelease (fAck f) x
  let x := if fNak f then replayFrom (fAck f + 1) x else x
  let x := if x.features.getLsbD 2 then { x with quiet := fQuiet f, quietAt := now } else x
  let x := if marker then { x with waitMarker := false } else x
  if !isNull f && fSeq f == x.expected then
    let x := { x with lastGood := x.expected, expected := x.expected + 1, rxSeqd := x.rxSeqd + 1
                      nakState := false, naks := 0 }
    acceptSlots f now [0, 1, 2, 3, 4] (takeReturns f x)
  else if seqAhead (fSeq f) x.expected then (startNak x, none)
  else (x, none)

/-- A quiet code as 10 ns ticks (R202). -/
def quietTicks (k : Nat) : Nat := if k = 0 then 0 else 100 * 2 ^ k

/-- The code of a port in PWR_QUIET_HINT_LO or _HI. -/
def hintCode (b : Block) (p : PortId) : Nat :=
  let a := pwrBase + 0x10 + 4 * (p.val / 8)
  let k := 4 * (p.val % 8)
  rwf a (k + 3) k b

/-- What is left of a port's quiet time, in ticks (R437). -/
def quietLeft (b : Block) (p : PortId) : Nat :=
  let x := b.ports[p]
  max (x.quietAt + quietTicks x.quiet.toNat - b.now) (b.pwr.hintAt[p] + quietTicks (hintCode b p) - b.now)

/-- Requests, register records and descriptors that wait. -/
def askCount (x : Port) : Nat := (x.rxq.filter fun i => match i with | .data .. => false | _ => true).length

/-- Count requests that arrive in a power state within their port's quiet time (R439). -/
def noteEarly (left n : Nat) (b : Block) : Block :=
  if b.pwr.state = 0 ∨ left = 0 ∨ n = 0 then b else ctrAdd (pwrBase + 0x30) n b

/-- A flit arrives on a port (R205). -/
def rxFlit (p : PortId) (wire : BitVec 2880) (obs : LaneObs) (b : Block) : Block :=
  let x := b.ports[p]
  if !x.receives then b else
  let marker := x.rxFlits % 4096 == 0
  let w := scrFlit (lanesOf x.widthRx) (if marker then scrSeeds else x.rxScr) (bytesOf 360 wire)
  let f : BitVec 2880 := BitVec.ofNat 2880 (natOfBytes w.2)
  let want := if marker then 0x5000 + x.rxMarkers % 4096 else 0
  let b := noteSpare p obs.spareErrors (modPort p (fun x => noteLanes obs marker
    { x with rxScr := w.1, rxFifo := through 8 f x.rxFifo, rxFlits := x.rxFlits + 1, rxMarkers := x.rxMarkers + b2n marker }) b)
  let b :=
    if flitCrc f ≠ fCrc f then
      ctrAdd (lnkBase p.val + 0x20) 1 (modPort p (fun x => startNak { x with crcInPeriod := x.crcInPeriod + 1 }) b)
    else
      let r := goodFlit f b.now (marker && fMarker f == want) b.ports[p]
      let b := noteEarly (quietLeft b p) (askCount r.1 - askCount b.ports[p]) b
      let b := modPort p (fun _ => r.1) b
      match r.2 with
      | some c => protoError p c b
      | none => if marker && fMarker f != want then recoverPort p b else b
  if marker && b.ports[p].receives && skewOver b.ports[p] then recoverPort p b else b

/-- The nak timer ends (R206): nak is sent again, and after 4 naks the port enters RECOVER: when the timer that follows the fourth
nak ends (DESIGN CHOICE, log entry 118). -/
def nakTimer (p : PortId) (b : Block) : Block :=
  let x := b.ports[p]
  if !x.receives || !x.nakState then b
  else if x.naks ≥ 4 then recoverPort p b
  else modPort p (fun x => { x with naks := x.naks + 1, nakOut := true }) b

/-- The oldest unacknowledged flit has waited 512 flit times (R206). -/
def replayTimer (p : PortId) (b : Block) : Block :=
  let x := b.ports[p]
  if !x.transmits || x.oldest = x.nextSeq then b
  else if x.timeouts ≥ 1 then recoverPort p b
  else modPort p (fun x => { x with timeouts := x.timeouts + 1, replayPtr := x.oldest }) b

/-! ### Lookup (step 2 of R28 and R32) -/

/-- The stack serves no data requests now (R90, R412, R470). -/
def refusing (b : Block) : Bool := !b.start.done || b.sage.safe || b.thm.safe

/-- The size of a handle in segments; `none` when requests to it complete with NO_HANDLE (R214). -/
def handleSize (b : Block) (h : Nat) : Option Nat :=
  if h = 0 then (if b.hnd.flat then some b.hnd.flatSize else none)
  else match handleOf b h with
    | some x => if x.st = .active then some x.size else none
    | none => none

/-- What a handle's port mask and existence say of an access that arrives on a port (R90, R214, R220). -/
def handleCheck (b : Block) (p : PortId) (h : Nat) : Status :=
  if refusing b then .accessError
  else match handleSize b h with
    | none => .noHandle
    | some _ => if (portsOf b h).getLsbD p.val then .ok else .accessError

/-- The checks of a READ, WRITE or WRITE_MASKED in the order of R12 (R187). -/
def requestCheck (b : Block) (p : PortId) (h : Hdr) : Status :=
  match handleCheck b p h.handle with
  | .ok =>
    if h.line + h.count > 1024 * (handleSize b h.handle).getD 0 then .accessError
    else if h.line % h.count ≠ 0 ∨ (h.op = 3 ∧ h.len ≠ 0) then .badArg
    else .ok
  | st => st

/-- A request that arrived at a time was accepted on a link that has ended, before the safe states in force began (R411). -/
def outlived (b : Block) (p : PortId) (gen arr : Nat) : Bool :=
  b.start.done && gen != b.ports[p].gen && (!b.sage.safe || decide (arr ≤ b.sage.safeAt))
    && (!b.thm.safe || decide (arr ≤ b.thm.safeAt))

/-- The checks of a write: one whose lines had all arrived when a safe state ended its link is judged as before it (R165, R411). -/
def writeCheck (b : Block) (p : PortId) (h : Hdr) (gen arr : Nat) : Status :=
  requestCheck (if outlived b p gen arr then
    { b with sage := { b.sage with safe := false }, thm := { b.thm with safe := false } } else b) p h

/-- A port holds a write, or the header of one, that is still to reach DRAM before self-refresh (R411). -/
def writesLeft (b : Block) : Bool :=
  b.ports.toList.zipIdx.any fun q =>
    (q.1.writes.any fun w => w.refused.isNone && w.got.length == w.count)
      || q.1.rxq.any fun i => match i with
        | .req e _ gen arr => (hdrOf e).writes && outlived b (Fin.ofNat 16 q.2) gen arr
        | _ => false

/-- Where a line of a handle lies (R215, R223): the physical segment and the line in it; `none` when its logical segment is
quarantined (R242). -/
def placeOf (b : Block) (h line : Nat) : Option (Nat × Nat) :=
  if h = 0 then some (flatMap b line)
  else match mapEntry b h (line / 1024) with
    | some e => if e.quarantined then none else some (e.pseg, line % 1024)
    | none => none

/-- A lookup of the line waits: for the COMMIT hold of its segment (R252), or for the rebuild of its written bit (R344). -/
def lookupHeld (b : Block) (h line : Nat) : Bool :=
  (h != 0 && (match migOf b h (line / 1024) with | some m => m.stage == .hold | none => false))
    || (match placeOf b h line with | some r => b.srl.rebuild.contains (r.1 / 64 * 64) | none => false)

/-- The access of one line of a request (R291). -/
def lineAcc (b : Block) (p : PortId) (h cls hint arr : Nat) (src : AccSrc) (pseg line : Nat) (data : Stored) : Acc :=
  { src := src, pla := plaOf pseg line, pseg := pseg, cls := cls, arr := arr, data := data
    hint := if hint = 0 then attrPage (attrOf b h) else hint
    double := attrProt (attrOf b h) == 1, quad := some (portQuad b p).val }

/-! ### Free line data -/

/-- Sixteen free words: line data to which the spec gives no value (R11, R242). -/
def drawLine (b : Block) : Line × Block :=
  (BitVec.ofNat 512 (((List.range 16).map fun i => (Config.freeWord (b.fresh + i)).toNat <<< (32 * i)).sum),
   { b with fresh := b.fresh + 16 })

/-- Answer every line of a read at once. -/
def sendLines (p : PortId) (tag n : Nat) (poison : Bool) (d : Line) (b : Block) : Block :=
  (List.range n).foldl (fun b i => sendData p { tag := tag, line := i, poison := poison, d := d } b) b

/-! ### READ -/

/-- Execute a READ (R28 to R31, R242). -/
def doRead (p : PortId) (h : Hdr) (tag gen arr : Nat) (b : Block) : Block :=
  let cred : Cred := { port := p, gen := gen, req := 1, data := 0 }
  match requestCheck b p h with
  | .ok =>
    match placeOf b h.handle h.line with
    | none =>
      let d := drawLine (releaseCred (some cred) b)
      sendLines p tag h.count true d.1 d.2
    | some (s, l) =>
      if b.chans[cid (segChan s)].st = .offline then
        sendCmpl p tag .channelOffline 2 h.handle (releaseCred (some cred) b)
      else if !isWritten b s then sendLines p tag h.count false 0 (releaseCred (some cred) b)
      else
        submit (segChan s) ((List.range h.count).map fun i =>
          lineAcc b p h.handle h.cls h.hint arr (.read p tag i h.handle (h.line + i)) s (l + i) 0) none (some cred) b
  | st => sendCmpl p tag st 2 h.handle (releaseCred (some cred) b)

/-! ### Writes -/

/-- All lines of a write have arrived. -/
def WPend.complete (w : WPend) : Bool := w.got.length == w.count

/-- Two pending writes share a line. -/
def WPend.clash (a b : WPend) : Bool :=
  a.handle == b.handle && decide (a.line < b.line + b.count) && decide (b.line < a.line + a.count)

/-- The lines of a write in offset order. -/
def WPend.lineAt (w : WPend) (i : Nat) : Bool × Line :=
  match w.got.find? fun g => g.1 == i with | some g => g.2 | none => (false, 0)

/-- A mask that writes every byte. -/
def fullMask (m : Option (BitVec 64)) : Bool := match m with | some m => m == BitVec.allOnes 64 | none => true

/-- Execute a write whose lines are all in: R32 to R35, R188, R242, R330. -/
def doWrite (p : PortId) (w : WPend) (s : State) : State :=
  let b := s.blk
  let cred : Cred := { port := p, gen := w.tag / 1024, req := if w.mask.isSome then 2 else 1, data := w.count }
  let free := releaseCred (some cred)
  match w.refused with
  | some st => s.upd (sendCmpl p w.tag st 1 w.handle b)
  | none =>
    if w.mask = some 0 then s.upd (sendCmpl p w.tag .ok 1 w.handle (free b)) else
    match placeOf b w.handle w.line with
    | none => s.upd (sendCmpl p w.tag .poisonKept 1 w.handle (free b))
    | some (g, l) =>
      if b.chans[cid (segChan g)].st = .offline then s.upd (sendCmpl p w.tag .channelOffline 1 w.handle (free b))
      else
        let s := firstWrite g w.cls s
        let b := s.blk
        let acc := fun (i : Nat) =>
          let d := w.lineAt i
          if fullMask w.mask then
            lineAcc b p w.handle w.cls w.hint w.arr .write g (l + i) (encodeP d.1 d.2)
          else
            lineAcc b p w.handle w.cls w.hint w.arr
              (.masked p w.tag w.handle w.line (w.mask.getD 0) d.1 d.2) g (l + i) 0
        let done := if fullMask w.mask then some { port := p, tag := w.tag, handle := w.handle, pseg := g } else none
        s.upd (submit (segChan g) ((List.range w.count).map acc) done (some cred) b)

/-- A pending write may go: its lines are in, no earlier pending write shares a line, and no lookup is held. -/
def mayWrite (b : Block) (ahead : List WPend) (w : WPend) : Bool :=
  w.complete && (w.refused.isSome || (!ahead.any (fun a => a.refused.isNone && a.clash w) && !lookupHeld b w.handle w.line))

/-- The first pending write that may go, with the list without it. -/
def takeWrite (b : Block) : List WPend → List WPend → Option (WPend × List WPend)
  | _, [] => none
  | ahead, w :: t =>
    if mayWrite b ahead w then some (w, ahead ++ t) else takeWrite b (ahead ++ [w]) t

/-- Execute every pending write of a port that may go, in arrival order. -/
def flushN (p : PortId) : Nat → State → State
  | 0, s => s
  | n + 1, s =>
    match takeWrite s.blk [] s.blk.ports[p].writes with
    | none => s
    | some (w, rest) => flushN p n (doWrite p w (s.upd (modPort p (fun x => { x with writes := rest }) s.blk)))

def flushWrites (p : PortId) (s : State) : State := flushN p s.blk.ports[p].writes.length s

/-- The pending writes of every port, when a hold or rebuild ends. -/
def flushAll (s : State) : State := (List.finRange 16).foldl (fun s p => flushWrites p s) s

/-- Take a WRITE or WRITE_MASKED header (R189, R190): its lookup decides whether it is refused; its lines follow. -/
def takeWriteHdr (p : PortId) (h : Hdr) (mask : Option (BitVec 64)) (tag gen arr : Nat) (b : Block) : Block :=
  let st := writeCheck b p h gen arr
  let refused := if st = .ok then none else some st
  let b := if refused.isSome then returnCredit p 0 h.reqUnits gen b else b
  modPort p (fun x => { x with writes := x.writes ++
    [{ tag := tag, handle := h.handle, line := h.line, count := h.count, mask := mask, cls := h.cls, hint := h.hint
       refused := refused, arr := arr }] }) b

/-! ### Order in the receive buffers (R209) -/

/-- A waiting or running FENCE of the port covers an item of a handle; a register record names no handle. -/
def fenceCovers (all : Bool) (fh : Nat) (h : Option Nat) : Bool := all || h == some fh

/-- The arrival position of the item that holds a tag. -/
def Port.ordOf (x : Port) (tag : Nat) : Nat := match mfind x.tags tag with | some u => u.ord | none => 0

/-- A FENCE that arrived before an item holds it back (R209, R210): one that waits for the items before it, or one among those
ahead in the receive buffers. -/
def fenced (x : Port) (ahead : List RxItem) (tag : Nat) (h : Option Nat) : Bool :=
  x.fences.any (fun f => decide (f.ord < x.ordOf tag) && fenceCovers f.all f.handle h)
    || ahead.any fun i => match i with
      | .req e _ _ _ => (hdrOf e).op == 4 && (hdrOf e).len ≤ 1 && fenceCovers ((hdrOf e).len == 1) (hdrOf e).handle h
      | _ => false

/-- An earlier request on the port shares a line with this one, and one of them writes (R209). -/
def clashes (x : Port) (ahead : List RxItem) (h : Hdr) : Bool :=
  ahead.any (fun i => match i with | .req e _ _ _ => (hdrOf e).clash h | _ => false)
    || (h.op == 1 && x.writes.any fun w => w.refused.isNone && w.handle == h.handle
          && decide (w.line < h.line + h.count) && decide (h.line < w.line + w.count))

/-- The first item of the receive buffers that fits: those before it, the item, those after it. -/
def takeItem (f : RxItem → Bool) : List RxItem → List RxItem → Option (List RxItem × RxItem × List RxItem)
  | _, [] => none
  | ahead, i :: t => if f i then some (ahead, i, t) else takeItem f (ahead ++ [i]) t

/-- Accept an item that no FLIT_RECEIVE has brought: the link rules apply to it as to one in a flit. A request, register record or
descriptor is counted when it comes within its port's quiet time (R439), and ends the expectation (R202). -/
def acceptNow (p : PortId) (r : Except Nat Port) (b : Block) : Block :=
  if !b.ports[p].receives then b else
  match r with
  | .ok x =>
    if askCount x = askCount b.ports[p] then modPort p (fun _ => x) b
    else modPort p (fun _ => { x with quiet := 0 }) (noteEarly (quietLeft b p) 1 b)
  | .error c => protoError p c b

/-- The state in which the item of a command waits: as it is when it waits already, or after its acceptance. -/
def arrive (p : PortId) (f : RxItem → Bool) (accept : Port → Except Nat Port) (b : Block) : Block :=
  match takeItem f [] b.ports[p].rxq with
  | some _ => b
  | none => acceptNow p (accept b.ports[p]) b

/-- Is this request entry. -/
def isEntry (e mask : BitVec 64) : RxItem → Bool
  | .req e' m' _ _ => e == e' && (e.toNat % 16 != 3 || m' == mask)
  | _ => false

/-- Run a request entry with `k` when it waits and nothing holds it back; `k` gets the header, tag, link and arrival. -/
def runEntry (p : PortId) (e mask : BitVec 64) (ok : Hdr → Bool) (k : Hdr → Nat → Nat → Nat → State → State) (s : State) :
    State :=
  let h := hdrOf e
  if !ok h then s else
  let b := arrive p (isEntry e mask) (acceptReq e mask s.blk.now) s.blk
  match takeItem (isEntry e mask) [] b.ports[p].rxq with
  | some (ahead, .req _ _ gen arr, rest) =>
    if fenced b.ports[p] ahead (h.tag + 1024 * gen) (some h.handle) || clashes b.ports[p] ahead h then s.upd b
    else if h.op = 1 && requestCheck b p h == .ok && lookupHeld b h.handle h.line then s.upd b
    else k h (h.tag + 1024 * gen) gen arr (s.upd (modPort p (fun x => { x with rxq := ahead ++ rest }) b))
  | _ => s.upd b

/-- READ. -/
def readRow (p : PortId) (e : BitVec 64) (s : State) : State :=
  runEntry p e 0 (fun h => h.op == 1) (fun h tag gen arr s => s.upd (doRead p h tag gen arr s.blk)) s

/-- WRITE. -/
def writeRow (p : PortId) (e : BitVec 64) (s : State) : State :=
  runEntry p e 0 (fun h => h.op == 2) (fun h tag gen arr s => s.upd (takeWriteHdr p h none tag gen arr s.blk)) s

/-- WRITE_MASKED. -/
def maskedRow (p : PortId) (e mask : BitVec 64) (s : State) : State :=
  runEntry p e mask (fun h => h.op == 3) (fun h tag gen arr s => s.upd (takeWriteHdr p h (some mask) tag gen arr s.blk)) s

/-- The status of a request with an undefined opcode (R186, R187): what its handle and its port are refused for comes first (R12,
R220). -/
def undefinedStatus (b : Block) (p : PortId) (h : Nat) : Status :=
  match handleCheck b p h with
  | .ok => .badArg
  | st => st

/-- A request with an undefined opcode. -/
def undefinedRow (p : PortId) (e : BitVec 64) (s : State) : State :=
  runEntry p e 0 (fun h => h.op ≥ 5)
    (fun h tag gen _ s =>
      s.upd (sendCmpl p tag (undefinedStatus s.blk p h.handle) 3 h.handle (returnCredit p 0 1 gen s.blk))) s

/-! ### FENCE (R210) -/

/-- The descriptor of a tag sits in a halted operation queue: it is not running. -/
def descHalted (b : Block) (p : PortId) (tag : Nat) : Bool :=
  b.ops.descs.any fun d => d.port == p && d.tag == tag
    && (mfind b.ops.halts (descHandle d.words)).isSome && (d.st == .waiting || d.st == .queued || d.st == .stopped)

/-- A fence after its descriptors in halted queues are dropped (R210). -/
def haltFence (b : Block) (p : PortId) (f : Fence) : Fence :=
  if f.waits.any fun t => descHalted b p t then
    { f with status := .haltedUe, waits := f.waits.filter fun t => !(descHalted b p t) }
  else f

/-- Drop the descriptors in halted queues that the fences of a port wait for. -/
def haltFences (p : PortId) (b : Block) : Block :=
  modPort p (fun x => { x with fences := x.fences.map (haltFence b p) }) b

/-- A FENCE starts: it waits for the earlier items of its scope whose final record has not been sent. -/
def startFence (p : PortId) (h : Hdr) (tag gen : Nat) (b : Block) : Block :=
  let b := returnCredit p 0 1 gen b
  match handleCheck b p h.handle with
  | .ok =>
    if h.len ≥ 2 then sendCmpl p tag .badArg 3 h.handle b
    else
      let ord := b.ports[p].ordOf tag
      let waits := (b.ports[p].tags.filter fun t =>
        decide (t.2.ord < ord) && t.2.done.isNone && (h.len == 1 || (t.2.kind != .reg && t.2.handle == h.handle))).map (·.1)
      let b := modPort p (fun x => { x with fences := x.fences ++
        [{ tag := tag, handle := h.handle, all := h.len == 1, ord := ord, waits := waits }] }) b
      checkFences p (haltFences p b)
  | st => sendCmpl p tag st 3 h.handle b

/-- FENCE. -/
def fenceRow (p : PortId) (e : BitVec 64) (s : State) : State :=
  runEntry p e 0 (fun h => h.op == 4) (fun h tag gen _ s => s.upd (startFence p h tag gen s.blk)) s

/-! ### WRITE_DATA_LINE -/

/-- Is this data line. -/
def isData (tag : Nat) (line : Nat) : RxItem → Bool
  | .data t l _ _ _ => t % 1024 == tag && l == line
  | _ => false

/-- A data line reaches its write (R189): the lines of a refused write are discarded and their credits go back (R190). -/
def takeLine (p : PortId) (t line gen : Nat) (poison : Bool) (d : Line) (b : Block) : Block :=
  let refused := b.ports[p].writes.any fun w => w.tag == t && w.refused.isSome
  let b := if refused then returnCredit p 1 1 gen b else b
  modPort p (fun x => { x with writes := x.writes.map fun w =>
    if w.tag = t then { w with got := w.got ++ [(line, poison, d)] } else w }) b

/-- WRITE_DATA_LINE: the line goes to its write header, which is executed once its last line is in. -/
def dataRow (p : PortId) (tag : BitVec 10) (line : BitVec 3) (poison : Bool) (data : Line) (s : State) : State :=
  let f := isData tag.toNat line.toNat
  let b := arrive p f (acceptData tag.toNat line.toNat poison data) s.blk
  match takeItem f [] b.ports[p].rxq with
  | some (ahead, .data t l po d gen, rest) =>
    if b.ports[p].writes.any (fun w => w.tag == t) then
      flushWrites p (s.upd (takeLine p t l gen po d (modPort p (fun x => { x with rxq := ahead ++ rest }) b)))
    else s.upd b
  | _ => s.upd b

/-! ### The commands -/

def execFlitReceive (p : PortId) (wire : BitVec 2880) (obs : LaneObs) (s : State) : Res := .next (s.upd (rxFlit p wire obs (useRegs (lnkBase p.val) s.blk)))
def execNakTimerExpiry (p : PortId) (s : State) : Res := .next (s.upd (nakTimer p s.blk))
def execReplayTimerExpiry (p : PortId) (s : State) : Res := .next (s.upd (replayTimer p s.blk))
def execWriteDataLine (p : PortId) (tag : BitVec 10) (line : BitVec 3) (poison : Bool) (data : Line) (s : State) : Res :=
  .next (dataRow p tag line poison data s)

end Sys2Proof.Machine
end

