-- ==== Sys2Proof/Machine/Budget.lean ====
section
/-! DEFINITION. Effective priority (R273), the deliverable budget of a channel (R280) and the share of maintenance traffic
(R250, R274). -/

namespace Sys2Proof.Machine

open Sys2Proof

/-- The operating point whose command clock a channel's TSV PLL makes, and with it its timing set and table (R302): during a step
it changes at its quadrant's hop (R426). -/
def chanOp (b : Block) (c : Nat) : Nat := b.clk.tsvOps[quadOf c].toNat

/-- TSV peak of a channel in 0.1 GB/s (R280). -/
def tsvPeak (op : Nat) : Nat :=
  if op ≥ 3 then (if Config.gradeB then 1152 else 1280) else if op = 2 then 1024 else if op = 1 then 640 else 320

/-- A refresh tick period in ns, truncated (R309). -/
def tickNs (mult : Nat) : Nat := 499200 / mult

/-- floor(P × u × k) with u and k in 1/256 percent (R280). -/
def budgetOf (b : Block) (op level ns : Nat) : Nat :=
  tsvPeak op * ((budgetCurve b op).eval level).toNat * ((budgetCurve b 4).eval ns).toNat / (25600 * 25600)

/-- The budget of a channel (R280). -/
def chanBudget (b : Block) (c : Nat) : Nat :=
  let x := b.chans[cid c]
  if x.st = .offline ∨ x.held then 0 else budgetOf b b.clk.op.toNat x.level (tickNs x.mult)

/-- The admission budget of a channel (R281). -/
def chanAdmit (b : Block) (c : Nat) : Nat :=
  if b.chans[cid c].st = .offline ∨ b.chans[cid c].held then 0 else budgetOf b (rwf (savBase + 0x24) 1 0 b) 0 1950

/-- A repair evacuation with the channel as source or destination is queued or active (R250); a soft row repair runs at the
urgent share as well (R338). -/
def urgentChan (b : Block) (c : Nat) : Bool :=
  (b.srl.queue.any fun o => o.reason == .evac &&
      (match mapEntry b o.handle o.lseg with | some e => segChan e.pseg == c | none => false))
    || (b.srl.migs.any fun m => m.order.reason == .evac && (segChan m.src == c || segChan m.dst == c))
    || b.chans[cid c].softRun.isSome

/-- The share of maintenance traffic of a channel in 0.1 % (R250). -/
def maintShare (b : Block) (c : Nat) : Nat :=
  if urgentChan b c then rwf (srlBase + 0x20) 15 8 b else rwf (srlBase + 0x20) 7 0 b

/-- Lines that the pacer gains per 10 ns tick, in 1/64000: budget × 10^8 B/s × share / (1000 × 64 B × 10^8) (R274). -/
def pacerGain (b : Block) (c : Nat) : Nat := chanBudget b c * maintShare b c

/-- The pacer up to now, with a burst of at most 32 lines (R274). -/
def runPacer (c : Nat) (b : Block) : Block :=
  let x := b.chans[cid c]
  let n := x.pacer + pacerGain b c * (b.now - x.pacerAt)
  modChan (cid c) (fun x => { x with pacer := min 2048000 n, pacerAt := b.now }) b

/-- The pacer has released `n` lines that nothing has taken. -/
def paced (b : Block) (c n : Nat) : Bool := b.chans[cid c].pacer ≥ 64000 * n

/-- Take `n` released lines. -/
def takePaced (c n : Nat) (b : Block) : Block := modChan (cid c) (fun x => { x with pacer := x.pacer - 64000 * n }) b

/-- The age of a queued access has reached the age limit (R273). -/
def aged (b : Block) (e : Acc) : Bool := b.now - e.arr ≥ rwf (savBase + 0x20) 15 0 b

/-- Effective priority of a queued access (R273, R274): a class without allowance has no boost (R282). -/
def effPrio (b : Block) (e : Acc) : Nat :=
  if aged b e then 16
  else if e.maint then 0
  else
    let base := rwf (savBase + 4 * e.cls) 19 16 b
    let frac := min 0xFFFF ((b.now - e.arr) * 256 / target b e.cls)
    let boost := if overGrant b (quadOf (segChan e.pseg)) e.cls then 0 else ((rampOf b e.cls).eval frac).toNat
    min 15 (base + boost)

end Sys2Proof.Machine
end

