-- ==== Sys2Proof/Machine/Protect.lean ====
section
/-! DEFINITION. Protecting stored data (chapter 12): what a decoding outcome leads to, scrubs, the correctable-error history,
the remap table, soft row repair, symbol faults and repair evacuation. -/

namespace Sys2Proof.Machine

open Sys2Proof

/-- Raise a fault with one event of its own; bit `bit` of the event register at `addr` is set when the event is sent. -/
def raiseEv (src unit : Nat) (mask : BitVec 16) (e : Ev) (addr bit : Nat) (b : Block) : Block :=
  let b := if reports src b then rcSet addr bit b else b
  raise src unit e.lo [{ mask := mask, ev := e }] b

/-- Unit number of a channel (R455). -/
def chanUnit (c : Nat) : Nat := 0x10 + c

/-! ### Retirement (R259) -/

/-- Order the retirement of a physical segment (R259). -/
def orderRetire (s : Nat) (b : Block) : Block :=
  match ownerOf b s with
  | .owned h l =>
    (match migFrom b s with
     | some _ =>
       modEntry h l (fun e => { e with retired := true })
         { b with srl := { b.srl with retireAt := sadd s b.srl.retireAt } }
     | none => evacSegment h l b)
  | .dest h l =>
    match migOf b h l with
    | some m =>
      let b := abortCopy m { b with srl := { b.srl with retireAt := sadd s b.srl.retireAt } }
      if m.order.reason = .evac ∨ b.srl.retireAt.contains m.src then renewEvac m b
      else if m.order.reason.transient then b
      else enqueueOrder m.order b
    | none => b
  | .free =>
    match migFrom b s with
    | some _ => { b with srl := { b.srl with retireAt := sadd s b.srl.retireAt } }
    | none => retireSeg s b

/-! ### Conditional writes (R332, R333) -/

/-- A maintenance line: no class, hint 00 (R268, R301). -/
def maintAcc (src : AccSrc) (c a : Nat) (now : Nat) (v err : Stored) : Acc :=
  { src := src, pla := a, pseg := plaSeg c a, cls := 0, maint := true, arr := now, data := v, err := err }

/-- A maintenance line waits for the pacer (R274). -/
def awaitPacer (src : AccSrc) (c a : Nat) (v err : Stored) (b : Block) : Block :=
  modChan (cid c) (fun x => { x with maintWait := x.maintWait ++ [maintAcc src c a b.now v err] }) b

/-- A conditional write waits for the pacer. It is dropped at once when a write of the line is in the write queue: that write
entered after the read that causes this one, which it waits for (R294, R333). -/
def maintWrite (src : AccSrc) (c a : Nat) (v : Stored) (b : Block) : Block :=
  if overridden b.chans[cid c] a then b else awaitPacer src c a v 0 b

/-- A maintenance access of the channel waits, for the pacer, in a queue, or for its unit to take it. -/
def maintPending (x : Chan) (f : AccSrc → Bool) : Bool :=
  (x.maintWait ++ x.rq ++ x.wq ++ x.inflight).any (fun e => f e.src) || x.served.any fun e => f e.1.src

/-- Scrub a corrected line (R332). -/
def scrubLine (c a : Nat) (v : Stored) (b : Block) : Block := maintWrite .scrub c a (encode (lineOf v)) b

/-- Poison an uncorrectable line with its data symbols as read (R324, R333); Sorrel sets poison_sum (R240). -/
def poisonLine (c a : Nat) (v : Stored) (b : Block) : Block :=
  poisonSum (plaSeg c a) (maintWrite .poison c a (encodePoison (lineOf v)) b)

/-! ### Remap and soft repair (R336 to R338) -/

/-- The lowest soft spare row of a bank that is free and not being filled. -/
def freeSpare (x : Chan) (bank : Nat) : Option Nat := (List.range 4).find? fun k => mget x.soft (4 * bank + k) none == none

/-- The soft repair of a row runs. -/
def softRuns (x : Chan) (a : Nat) : Bool :=
  match x.softRun with | some r => r.bank == plaBank a && r.row == plaRow a | none => false

/-- Attempt a soft row repair of the row that holds a line (R337); it waits while another runs. -/
def softRepair (c a : Nat) (b : Block) : Block :=
  let x := b.chans[cid c]
  if softRuns x a then b
  else if x.softRun.isSome then modChan (cid c) (fun x => { x with softWait := x.softWait ++ [a] }) b
  else match freeSpare x (plaBank a) with
  | some k =>
    modChan (cid c) (fun x => { x with softRun := some { bank := plaBank a, row := plaRow a, spare := k } }) b
  | none =>
    let s := plaSeg c a
    let stay := inFlat b s || b.start.chive
    let b := emit allMask { code := 0x0C04, lo := word [(c, 0), (b2n (!stay), 5)], hi := BitVec.ofNat 32 s }
      (rcSet (chnBase c + 0x11C) 5 b)
    if stay then b else orderRetire s b

/-- A free remap entry. -/
def freeRemap (x : Chan) : Option Nat := (List.range 16).find? fun k => (x.remap.getD k none).isNone

/-- Allocate a remap entry for a line (R336), or act on a full table (R337). -/
def allocRemap (c a : Nat) (v : Stored) (b : Block) : Block :=
  let x := b.chans[cid c]
  if (remapOf x a).isSome then modChan (cid c) (setRemap a v) b
  else match freeRemap x with
    | some k =>
      ctrAdd (chnBase c + 0x130) 1
        (modChan (cid c) (fun x => { x with remap := x.remap.set k (some { pla := a, data := v }) }) b)
    | none =>
      softRepair c a (raiseEv (fs .dataRemapFull) (chanUnit c) allMask
        { code := 0x0C02, lo := BitVec.ofNat 32 c, hi := BitVec.ofNat 32 a } (chnBase c + 0x11C) 3 b)

/-! ### The correctable-error history (R335) and symbol faults (R340, R341) -/

/-- 24 h in ticks of 10 ns. -/
def day : Nat := 8640000000000

/-- Oldest entry out when the history is full, counted. -/
def addHist (c a : Nat) (b : Block) : Block :=
  let x := b.chans[cid c]
  let full := x.hist.length ≥ 64
  let b := if full then ctrAdd (chnBase c + 0x138) 1 b else b
  modChan (cid c) (fun x => { x with hist := (if full then x.hist.drop 1 else x.hist) ++ [(a, b.now)] }) b

/-- A correctable error of a line enters the history (R335); `v` is the line corrected. -/
def history (c a : Nat) (v : Stored) (b : Block) : Block :=
  match b.chans[cid c].hist.find? fun h => h.1 == a with
  | some h =>
    let b := modChan (cid c) (fun x => { x with hist := x.hist.filter fun h => h.1 != a }) b
    if b.now - h.2 < day then allocRemap c a v b else addHist c a b
  | none => addHist c a b

/-- Count an error of a symbol in its window (R340). -/
def windowOf (b : Block) (c sym a : Nat) : SymWin :=
  let ticks := rwf (chnBase c + 0x114) 15 8 b * 1000
  match mfind b.chans[cid c].sym sym with
  | some w =>
    if b.now - w.start < ticks then { w with n := w.n + 1, banks := sadd (plaBank a) w.banks }
    else { n := 1, banks := [plaBank a], start := b.now }
  | none => { n := 1, banks := [plaBank a], start := b.now }

/-- Count an error of one symbol: the flag says that it belongs to a symbol fault. A fault takes the window's lines out of the
history and orders the recalibration of the symbol's TSV group (R341). -/
def countSymbol (c sym a : Nat) (b : Block) : Block × Bool :=
  let w := windowOf b c sym a
  let hit := w.n ≥ rwf (chnBase c + 0x114) 7 0 b && w.banks.length ≥ 2
  let w := if hit then w else { w with lines := w.lines ++ [a] }
  let new := hit && !w.fault
  let b := modChan (cid c) (fun x => { x with sym := mput x.sym sym { w with fault := w.fault || hit } }) b
  if !new then (b, hit || w.fault) else
  let b := modChan (cid c) (fun x => { x with
    hist := x.hist.filter fun h => !w.lines.contains h.1, recal := x.recal ++ [sym] }) b
  (raiseEv (fs .chnTsvSymbol) (chanUnit c) allMask { code := 0x0C05, lo := word [(c, 0), (sym, 8)] } (chnBase c + 0x11C) 6 b, true)

/-- CHN_ECC_LAST and CHN_ECC_LAST_SYM. Sources: 0 host, 1 engine, 2 Dill, 3 copy or repair. -/
def noteError (c a source : Nat) (d : Decoded) (b : Block) : Block :=
  let f := fun (o : BitVec 3) (p q : BitVec 6) => modChan (cid c) (fun x => { x with
    lastOut := o, lastSrc := BitVec.ofNat 2 source, lastPla := BitVec.ofNat 26 a, symA := p, symB := q }) b
  match d with
  | .clean => b
  | .corrected1 p => f 1 (BitVec.ofNat 6 p) 0x3F
  | .corrected2 p q => f 2 (BitVec.ofNat 6 p) (BitVec.ofNat 6 q)
  | .poisoned => f 3 0x3F 0x3F
  | .uncorrectable => f 4 0x3F 0x3F

/-- Symbols that an outcome corrected. -/
def Decoded.syms : Decoded → List Nat
  | .corrected1 p => [p]
  | .corrected2 p q => [p, q]
  | _ => []

/-- A corrected line is counted, by symbol as well (R328, R340): the flag says that every corrected symbol shows a symbol fault
(R341). -/
def countSyms (c a source : Nat) (d : Decoded) (b : Block) : Block × Bool :=
  let b := noteError c a source d (rcSet (chnBase c + 0x11C) 0 b)
  let b := match d with | .corrected2 .. => ctrAdd (chnBase c + 0x124) 1 b | _ => ctrAdd (chnBase c + 0x120) 1 b
  d.syms.foldl (fun (r : Block × Bool) n => let q := countSymbol c n a r.1; (q.1, r.2 && q.2)) (b, true)

/-- A corrected line is counted, and enters the history unless every corrected symbol shows a symbol fault (R335, R341). -/
def countCe (c a source : Nat) (d : Decoded) (v : Stored) (b : Block) : Block :=
  let r := countSyms c a source d b
  if r.2 then r.1 else history c a v r.1

/-! ### Uncorrectable lines -/

/-- The event detail of a demand access to an uncorrectable line (R347). -/
def ueEvent (c h line : Nat) : Ev := { code := 0x0C07, lo := word [(h, 0), (c, 12)], hi := BitVec.ofNat 32 line }

/-- A demand access finds an uncorrectable line (R328, R330): counted, FS_DATA_UE_DEMAND, event 0x0C07. -/
def demandUe (c a source h line : Nat) (b : Block) : Block :=
  let b := noteError c a source .uncorrectable (ctrAdd (chnBase c + 0x128) 1 b)
  raiseEv (fs .dataUeDemand) (chanUnit c) (portsOf b h) (ueEvent c h line) (chnBase c + 0x11C) 2 b

/-- CHN_DILL.demand_scrub. -/
def demandScrub (b : Block) (c : Nat) : Bool := rwf (chnBase c + 0x100) 16 16 b == 1

/-- What a demand read of a line leads to (R328): the poison mark and the data returned. -/
def demandRead (c a source h line : Nat) (double : Bool) (v : Stored) (b : Block) : Bool × Line × Block :=
  let r := decodeLine double v
  match r.1 with
  | .clean => (false, lineOf v, b)
  | .corrected1 _ | .corrected2 _ _ =>
    let b := countCe c a source r.1 r.2 b
    (false, lineOf r.2, if demandScrub b c then scrubLine c a r.2 b else b)
  | .poisoned => (true, lineOf v, noteError c a source .poisoned (ctrAdd (chnBase c + 0x12C) 1 b))
  | .uncorrectable =>
    (true, lineOf v, demandUe c a source h line (poisonLine c a v (ctrAdd (chnBase c + 0x12C) 1 b)))

/-! ### Dill (R331 to R334) -/

/-- Dill skips a segment (R331). -/
def dillSkips (b : Block) (s : Nat) : Bool :=
  !segExists s || !isWritten b s || b.srl.retired.contains s
    || (match ownerOf b s with | .dest .. => true | _ => false)
    || b.chans[cid (segChan s)].fills.contains s || b.srl.protRebuild.contains (s / 64 * 64)

/-- The next segment of a channel that Dill reads, from segment number `n` of the channel on. -/
def dillNext (b : Block) (c n : Nat) : Option Nat :=
  (b.srl.written.filter fun s => segChan s == c && s % 65536 ≥ n && !dillSkips b s).foldl
    (fun m s => match m with | none => some s | some t => some (min t s)) none

/-- Written lines of a channel from a segment on that Dill is to read. -/
def dillAhead (b : Block) (c n : Nat) : Nat :=
  1024 * (b.srl.written.filter fun s => segChan s == c && s % 65536 ≥ n && !dillSkips b s).length

/-- The pass period in ticks. -/
def passTicks (b : Block) (c : Nat) : Nat := rwf (chnBase c + 0x100) 15 8 b * 360000000000

/-- The read interval at a segment boundary (R331). -/
def dillInterval (b : Block) (c n start : Nat) : Word :=
  let k := dillAhead b c n
  BitVec.ofNat 32 ((start + passTicks b c - b.now) / (if k = 0 then 1 else k))

/-- Enter a segment of the walk, or end the pass and begin the next one. -/
def dillEnter (c n : Nat) (b : Block) : Block :=
  match dillNext b c n with
  | some s => modChan (cid c) (fun x => { x with
      dillSeg := s % 65536, dillLine := 0, dillPois := false, dillIvl := dillInterval b c (s % 65536) x.dillStart }) b
  | none => modChan (cid c) (fun x => { x with
      dillSeg := 0, dillLine := 0, dillPois := false, dillDone := b.time, dillStart := b.now
      dillIvl := dillInterval b c 0 b.now }) b

/-- poison_sum clears when a pass over the whole segment finds no poisoned line (R240). -/
def dillSegEnd (s : Nat) (b : Block) : Block :=
  if b.chans[cid (segChan s)].dillPois then b
  else match ownerOf b s with
    | .owned h l => modEntry h l (fun e => { e with poisonSum := false }) b
    | _ => b

/-- Handle, line index and flat flag of a stored line (R334). -/
def ownerLine (b : Block) (s line : Nat) : Option (Nat × Nat × Bool) :=
  if inFlat b s then some (0, flatLine b s line, true)
  else match ownerOf b s with
    | .owned h l => some (h, l * 1024 + line, false)
    | .dest h l => some (h, l * 1024 + line, false)
    | .free => none

/-- Dill finds an uncorrectable line (R334). -/
def patrolUe (c a : Nat) (v : Stored) (b : Block) : Block :=
  let b := poisonLine c a v (ctrAdd (chnBase c + 0x128) 1 b)
  match ownerLine b (plaSeg c a) (plaLine a) with
  | some (h, line, flat) =>
    raiseEv (fs .dataUePatrol) (chanUnit c) (portsOf b h)
      { code := 0x0C01, lo := word [(h, 0), (c, 12), (b2n flat, 17)], hi := BitVec.ofNat 32 line } (chnBase c + 0x11C) 1 b
  | none => b

/-- What a Dill read of a line leads to (R328). -/
def dillAct (c a : Nat) (v : Stored) (b : Block) : Block :=
  let r := decodeLine (isDouble b (plaSeg c a)) v
  let b := noteError c a 2 r.1 b
  match r.1 with
  | .clean => b
  | .corrected1 _ | .corrected2 _ _ => scrubLine c a r.2 (countCe c a 2 r.1 r.2 b)
  | .poisoned => poisonSum (plaSeg c a) (modChan (cid c) (fun x => { x with dillPois := true }) b)
  | .uncorrectable => patrolUe c a v (modChan (cid c) (fun x => { x with dillPois := true }) b)

/-- Dill may read: a pass runs, the channel serves commands, its engine runs, and the stack is in P0 (R331, R381, R438). -/
def dillMay (b : Block) (c : Nat) : Bool :=
  let x := b.chans[cid c]
  x.dillRun && rwf (chnBase c + 0x100) 0 0 b == 1 && (x.st == .run || x.st == .powerdown) && !x.held
    && b.engs[eid c].st == .run && !b.sage.safe && !b.thm.safe && b.pwr.state == 0

/-- DILL_READ: the read of the next line of the walk waits for the pacer. The walk waits while a read of it is on its way, and for the
rebuild of the written bits (R344). -/
def dillStep (c : Nat) (err : Stored) (s : State) : State :=
  if !dillMay s.blk c then s else
  let x := s.blk.chans[cid c]
  let seg := segOf c 0 0 + x.dillSeg
  if maintPending x (· == .dill) || s.blk.srl.rebuild.contains (seg / 64 * 64) then s
  else if dillSkips s.blk seg then s.upd (dillEnter c x.dillSeg s.blk)
  else s.upd (awaitPacer .dill c (plaOf seg x.dillLine) 0 err s.blk)

/-- The walk goes on to the next line. -/
def dillAdvance (c : Nat) (b : Block) : Block :=
  let x := b.chans[cid c]
  if x.dillLine < 1023 then modChan (cid c) (fun x => { x with dillLine := x.dillLine + 1 }) b
  else dillEnter c (x.dillSeg + 1) (dillSegEnd (segOf c 0 0 + x.dillSeg) b)

/-- A Dill read returns a line as stored: it is acted on, and the walk goes on to the next line. -/
def dillTake (c a : Nat) (v : Stored) (b : Block) : Block :=
  let x := b.chans[cid c]
  if a ≠ plaOf (segOf c 0 0 + x.dillSeg) x.dillLine then b
  else dillAdvance c (dillAct c a v (postCtx c 0 1 (bytesOf 64 (lineOf v)) b))

/-- What a verify read of a scrubbed line leads to (R328, R332): a line corrected again is the second correctable error of R335,
but for errors that R341 leaves out. -/
def verifyScrub (c a : Nat) (v : Stored) (b : Block) : Block :=
  let r := decodeLine (isDouble b (plaSeg c a)) v
  match r.1 with
  | .corrected1 _ | .corrected2 _ _ =>
    let q := countSyms c a 3 r.1 b
    if q.2 then q.1
    else allocRemap c a (encode (lineOf r.2)) (modChan (cid c) (fun x => { x with hist := x.hist.filter fun h => h.1 != a }) q.1)
  | .uncorrectable => patrolUe c a v (noteError c a 3 r.1 b)
  | d => noteError c a 3 d b

/-- What a verify read of a poisoned line leads to (R328, R333): `v` was read, `w` written. -/
def verifyPoison (c a : Nat) (v w : Stored) (b : Block) : Block :=
  match (decodeLine (isDouble b (plaSeg c a)) v).1 with
  | .poisoned => b
  | .uncorrectable => allocRemap c a w (noteError c a 3 .uncorrectable (ctrAdd (chnBase c + 0x128) 1 b))
  | .clean => allocRemap c a w b
  | d => allocRemap c a w (countSyms c a 3 d b).1

/-- SCRUB_VERIFY (R332, R333): the oldest write that waits for its verify read; the read waits for the pacer. -/
def verifyRead (c : Nat) (err : Stored) (s : State) : State :=
  match s.blk.chans[cid c].verify with
  | [] => s
  | (a, pois, w) :: rest =>
    s.upd (awaitPacer (.verify pois w) c a 0 err (modChan (cid c) (fun x => { x with verify := rest }) s.blk))

/-- A verify read returns a line as stored. -/
def verifyTake (c a : Nat) (pois : Bool) (w v : Stored) (b : Block) : Block :=
  let b := postCtx c 0 1 (bytesOf 64 (lineOf v)) b
  if !isWritten b (plaSeg c a) then b else if pois then verifyPoison c a v w b else verifyScrub c a v b

/-! ### The soft row repair (R338) -/

/-- One line of the row as the copy reads it and as it writes it: corrected, poisoned lines with their data as read. An
uncorrectable line is counted and copied as read: the spec gives it no poisoning here (DESIGN CHOICE, log entry 111). -/
def softLine (c a : Nat) (v : Stored) (b : Block) : Stored × Block :=
  let r := decodeLine (isDouble b (plaSeg c a)) v
  match r.1 with
  | .clean => (v, b)
  | .corrected1 _ | .corrected2 _ _ => (encode (lineOf r.2), countCe c a 3 r.1 r.2 b)
  | .poisoned => (encodePoison (lineOf v), noteError c a 3 .poisoned b)
  | .uncorrectable => (v, noteError c a 3 .uncorrectable (ctrAdd (chnBase c + 0x128) 1 b))

/-- The bits flipped at a line by the error patterns of a command. -/
def errAt (errs : List LineErr) (g l : Nat) : Stored :=
  (errs.filter fun e => e.pseg == g && e.line == l).foldl (fun v e => v ^^^ e.err) 0

/-- An access of a soft row repair. -/
def AccSrc.soft : AccSrc → Bool
  | .softRead _ | .softWrite _ => true
  | _ => false

/-- The repair reads the next line of its row, which waits for the pacer. A segment whose written bit is clear is not read (R329), and
one under a rebuild waits (R344). -/
def softNext (c : Nat) (errs : List LineErr) (b : Block) : Block :=
  let x := b.chans[cid c]
  match x.softRun with
  | none => b
  | some r =>
    let a := rowBase r.bank r.row + r.copied
    if b.engs[eid c].st ≠ .run ∨ r.copied ≥ 32 ∨ maintPending x AccSrc.soft ∨ !isWritten b (plaSeg c a)
        ∨ b.srl.rebuild.contains (plaSeg c a / 64 * 64) then b
    else awaitPacer (.softRead r.copied) c a 0 (errAt errs (plaSeg c a) (plaLine a)) b

/-- A read of the repair returns a line as stored: it is corrected, and its write to the spare row waits for the pacer. -/
def softTake (c i : Nat) (v : Stored) (b : Block) : Block :=
  match b.chans[cid c].softRun with
  | none => b
  | some r =>
    if i ≠ r.copied then b else
    let q := softLine c (rowBase r.bank r.row + i) v (postCtx c 0 1 (bytesOf 64 (lineOf v)) b)
    let e := maintAcc (.softWrite i) c (rowBase r.bank (24576 + r.spare) + i) q.2.now q.1 0
    modChan (cid c) (fun x => { x with
      maintWait := x.maintWait ++ [{ e with pseg := plaSeg c (rowBase r.bank r.row) }] }) q.2

/-- A line of the row is in the spare row. -/
def softWrote (i : Nat) (x : Chan) : Chan :=
  match x.softRun with
  | some r => if r.copied = i then { x with softRun := some { r with copied := i + 1 } } else x
  | none => x

/-- The handshake: the row address switches, the row's remap entries are freed, and repairs that waited for the same row with
them. -/
def switchRow (c : Nat) (r : Soft) (b : Block) : Block :=
  let same := fun (a : Nat) => plaBank a == r.bank && plaRow a == r.row
  modChan (cid c) (fun x => { x with
    softRun := none, soft := mset x.soft (4 * r.bank + r.spare) none (some r.row)
    remap := x.remap.map fun o => o.bind fun e => if same e.pla then none else some e
    softWait := x.softWait.filter fun a => !same a }) b

/-- The repairs that wait, until one of them runs (R337). -/
def nextSoftN (c : Nat) : Nat → Block → Block
  | 0, b => b
  | n + 1, b =>
    match b.chans[cid c].softRun, b.chans[cid c].softWait with
    | none, a :: rest => nextSoftN c n (softRepair c a (modChan (cid c) (fun x => { x with softWait := rest }) b))
    | _, _ => b

def nextSoft (c : Nat) (b : Block) : Block := nextSoftN c b.chans[cid c].softWait.length b

/-- A write of the row waits in the write queue, or a masked write of it in the read queue. -/
def rowWaits (x : Chan) (r : Soft) : Bool :=
  let mine := fun (e : Acc) => plaBank e.pla == r.bank && (plaRow e.pla == r.row || plaRow e.pla == 24576 + r.spare)
  x.wq.any mine || (x.rq ++ x.inflight ++ x.served.map (·.1)).any fun e => mine e && e.isMasked

/-- The spare row has every line: they are copied, or the row's segment is unwritten and has none to copy. -/
def rowCopied (b : Block) (c : Nat) (r : Soft) : Bool :=
  r.copied == 32 || (!isWritten b (plaSeg c (rowBase r.bank r.row))
    && !b.srl.rebuild.contains (plaSeg c (rowBase r.bank r.row) / 64 * 64))

/-- SOFT_ROW_REPAIR_DONE (R338): the handshake is accepted once every line is in the spare row and no write of the row waits. -/
def softDone (c : Nat) (errs : List LineErr) (s : State) : State :=
  match s.blk.chans[cid c].softRun with
  | none => s
  | some r =>
    if s.blk.engs[eid c].st ≠ .run then s
    else if !rowCopied s.blk c r || rowWaits s.blk.chans[cid c] r then s.upd (softNext c errs s.blk)
    else
      let s := s.upd (postCtx c 0 6 [] (switchRow c r s.blk))
      let row := rowBase r.bank r.row
      let b := emit allMask { code := 0x0C03, lo := word [(c, 0), (r.spare, 5)], hi := BitVec.ofNat 32 row }
        (rcSet (chnBase c + 0x11C) 4 (ctrAdd (chnBase c + 0x134) 1 s.blk))
      s.upd (nextSoft c b)

/-! ### Base-die SRAM (R242, R343 to R346) -/

/-- Quarantine the logical segment of an uncorrectable map entry (R242). -/
def quarantine (h l : Nat) (b : Block) : Block :=
  match mapEntry b h l with
  | none => b
  | some e =>
    if e.quarantined then b else
    let b := match migOf b h l with | some m => dropMig m b | none => b
    let b := { b with srl := { b.srl with lost := sadd e.pseg b.srl.lost, nQuar := b.srl.nQuar + 1 } }
    let b := dropOrders (fun o => o.handle == h && o.lseg == l) (· == e.pseg) b
    let b := setEntry h l { e with quarantined := true, migrating := false } b
    let ev : Ev := { code := 0x0905, lo := BitVec.ofNat 32 h, hi := BitVec.ofNat 32 l }
    raiseEv (fs .mapUe) 0x51 (portsOf b h) ev (srlBase + 0x60) 2 b

/-- An uncorrectable written-bitmap word (R344): the accesses to its 64 segments wait for the rebuild. -/
def loseWritten (w : Nat) (b : Block) : Block :=
  { b with srl := { b.srl with rebuild := sadd (64 * w) b.srl.rebuild } }

/-- The rebuild of a written-bitmap word (R344): owned segments keep the bit of their entry, free segments lose it, and
flat-region segments are filled with poisoned zero lines. -/
def rebuildWritten (w : Nat) (s : State) : State :=
  if !s.blk.srl.rebuild.contains (64 * w) then s else
  let s := ((List.range 64).map (64 * w + ·)).foldl (fun (s : State) g =>
    if inFlat s.blk g then
      (let s := fillSegment g (encodePoison 0) s
       s.upd (setWritten g true s.blk))
    else match ownerOf s.blk g with
      | .free => if (migFrom s.blk g).isSome then s else s.upd (setWritten g false s.blk)
      | _ => s) s
  let b := { s.blk with srl := { s.blk.srl with rebuild := sdel (64 * w) s.blk.srl.rebuild } }
  let c := segChan (64 * w)
  s.upd (raiseEv (fs .bitmapUe) 0x51 allMask { code := 0x0C08, lo := BitVec.ofNat 32 c, hi := BitVec.ofNat 32 (64 * w) }
    (chnBase c + 0x11C) 7 b)

/-- Rebuild a protection-bitmap word from the owners' attributes (R346). -/
def rebuildProt (w : Nat) (b : Block) : Block :=
  if !b.srl.protRebuild.contains (64 * w) then b else
  let b := ((List.range 64).map (64 * w + ·)).foldl (fun b g =>
    let own := match ownerOf b g with | .owned h _ => some h | .dest h _ => some h | .free => none
    setProt g (match own with | some h => attrProt (attrOf b h) == 1 | none => false) b) b
  { b with srl := { b.srl with protRebuild := sdel (64 * w) b.srl.protRebuild } }

/-- Both copies of a remap tag fail (R343): the entry's line returns POISON from then on. -/
def loseTag (c : Nat) (k : Nat) (both : Bool) (b : Block) : Block :=
  if !both then b else
  let b := modChan (cid c) (fun x => { x with remap := x.remap.modify k fun o => o.map fun r =>
    { r with bad := true, data := encodePoison (lineOf r.data) } }) b
  raise (fs .rmpTagUe) (chanUnit c) (word [(c, 0), (k, 8)]) [] b

end Sys2Proof.Machine
end

