-- ==== Sys2Proof/Machine/Scheduler.lean ====
section
/-! DEFINITION. The channel scheduler (chapter 11): bank machines, the choice of the next command, refresh, neighbour
refresh, power-down, and the return of a read. A bank is numbered 4 × slice + bank. -/

namespace Sys2Proof.Machine

open Sys2Proof

/-! ### Bank machines (R137 to R139, R303, R304) -/

/-- A timing parameter of a channel under its clock divisor (R305). -/
def tpar (b : Block) (c id : Nat) : Nat :=
  let v := timingParam b (chanOp b c) id
  if isAnalogue id then ceilDiv v b.chans[cid c].div else v

/-- FS_CHN_TABLE: the bank issues no further command until the fault is cleared (R304). -/
def tableFault (c k : Nat) (b : Block) : Block :=
  let b := modChan (cid c) (fun x => x.modBank k fun y => { y with stopped := true }) (rcSet (chnBase c + 0x20) 2 b)
  raise (fs .chnTable) (chanUnit c) (word [(c, 0), (k, 8)]) [] b

/-- An access selected for a command: its row, and its queue entry. -/
structure Sel where
  row : Option Nat := none
  acc : Option Acc := none

/-- Open a row. -/
def openRow (k r : Nat) (x : Chan) : Chan :=
  let y := x.modBank k fun y => { y with row := some r, tAct := some x.cycle, hits := 0, actRow := some r }
  let w := x.cycle :: (mget x.faw (k / 4) []).take 3
  { y with lastAct := some x.cycle, faw := mset x.faw (k / 4) [] w }

/-- The first cycle from now on at which a precharge of a bank may issue: the waits of its row's last commands are over, and no
refresh, switch or exit runs (R302, R307, R319). -/
def preAt (b : Block) (c k : Nat) (x : Chan) : Nat :=
  let y := x.bank k
  let w := fun (t : Option Nat) (id : Nat) => match t with | some n => n + tpar b c id | none => 0
  max (max (max x.cycle x.blockTil) y.tBusy) (max (w y.tAct 0x03) (max (w y.tRd 0x08) (w y.tWr 0x09)))

/-- The first cycle from now on at which a refresh or a row cycle of a bank may begin: after the precharge of its row. -/
def restAt (b : Block) (c k : Nat) (x : Chan) : Nat :=
  let y := x.bank k
  if y.row.isSome then preAt b c k x + tpar b c 0x02
  else max (max (max x.cycle x.blockTil) y.tBusy) (match y.tPre with | some n => n + tpar b c 0x02 | none => 0)

/-- Close the row of a bank; the precharge counts from cycle `n`. -/
def closeRow (k n : Nat) (x : Chan) : Chan := x.modBank k fun y => { y with row := none, tPre := some n }

/-- One per-bank refresh: the next 3 rows of the row counter (R308). -/
def refreshBank (b : Block) (c k : Nat) (x : Chan) : Chan :=
  x.modBank k fun y => { y with
    rowCtr := (y.rowCtr + 3) % 24576, tBusy := restAt b c k x + tpar b c 0x0D, row := none, tPre := none }

/-- Rows that a neighbour refresh of row `r` cycles (R315). -/
def neighbours (r : Nat) : Nat := if r = 0 ∨ r = 24575 then 1 else 2

/-- A row cycle ends the bank's neighbour refresh: its row has one neighbour, or the other has been cycled. -/
def lastCycle (y : Bank) : Bool := match y.nrf with | some r => neighbours r == 1 || y.nrfMore == 1 | none => true

/-- One row cycle of a neighbour refresh (R315): it uses an activate slot, and counts in the window of tFAW. -/
def neighbourBank (b : Block) (c k : Nat) (x : Chan) : Chan :=
  let y := x.bank k
  { x.modBank k (fun y => { y with
      nrf := if lastCycle y then none else y.nrf, nrfMore := if lastCycle y then 0 else 1
      tBusy := restAt b c k x + tpar b c 0x10, row := none, tPre := none }) with
    lastAct := some x.cycle, faw := mset x.faw (k / 4) [] (if y.nrf.isSome then x.cycle :: (mget x.faw (k / 4) []).take 3
      else mget x.faw (k / 4) []) }

/-- Remove a queue entry. -/
def dropEntry (e : Acc) (x : Chan) : Chan :=
  { x with rq := x.rq.filter (fun q => q.ord != e.ord), wq := x.wq.filter fun q => q.ord != e.ord }

/-- A line leaves its queue with its column command: hit or miss counted (R320), and, for a read of a host or an engine,
served (R243, R276). -/
def countColumn (c : Nat) (e : Acc) (b : Block) : Block :=
  let b := modChan (cid c) (fun x => if e.miss then { x with nMiss := x.nMiss + 1 } else { x with nHit := x.nHit + 1 }) b
  match e.src with
  | .read .. | .engRead .. => countServed c e b
  | _ => b

/-- A read column of an access. -/
def readColumn (c : Nat) (e : Acc) (b : Block) : Block :=
  countColumn c e (modChan (cid c) (fun x => { dropEntry e x with inflight := x.inflight ++ [e] }) b)

/-- A write column of an access: the line goes where it lies; a conditional write is to be verified (R332, R333). -/
def writeColumn (c : Nat) (e : Acc) (s : State) : State :=
  let s := s.upd (countColumn c e (modChan (cid c) (dropEntry e) s.blk))
  let s := storeLine c e s
  let v := fun (p : Bool) => s.upd (modChan (cid c) (fun x => { x with verify := x.verify ++ [(e.pla, p, e.data)] }) s.blk)
  match e.src with
  | .scrub => v false
  | .poison => v true
  | .softWrite i => s.upd (modChan (cid c) (softWrote i) s.blk)
  | _ => s

/-- Stamp a column command on its bank and channel. -/
def stampColumn (k : Nat) (rd : Bool) (e : Acc) (now : Nat) (x : Chan) : Chan :=
  let n := some x.cycle
  let y := x.modBank k fun y => { y with
    hits := y.hits + 1, hint := if e.maint then 0 else e.hint, lastUse := now
    tRd := if rd then n else y.tRd, tWr := if rd then y.tWr else n }
  { y with wrFifo := if rd then y.wrFifo else through 16 e.data y.wrFifo, lastCol := n, lastRd := if rd then n else y.lastRd, lastWr := if rd then y.lastWr else n }

/-- What keeps a channel out of power-down (R318): an access in a queue, a fill, a neighbour refresh. -/
def quiet (x : Chan) : Bool := x.rq.isEmpty && x.wq.isEmpty && x.fills.isEmpty && x.banks.all fun y => y.2.nrf.isNone

/-- The actions on the channel as a whole (R303, R314, R318, R319): power-down entry and exit, self-refresh entry and exit. The
first bank machine that runs one makes the change, and the exits hold commands for tXP and tXSR (log entry 121). -/
def chanAct (b : Block) (c act : Nat) (x : Chan) : Chan :=
  match act, x.st with
  | 6, .run => { x with st := .powerdown, pdWant := false }
  | 7, .powerdown => { x with st := .run, blockTil := x.cycle + tpar b c 0x0E, wokenRef := quiet x, idleAt := b.now }
  | 8, .run | 8, .powerdown =>
    { x with st := .selfRefresh, srWant := false, dueLeft := []
             banks := x.banks.map fun y => (y.1, { y.2 with owed := [], early := false, row := none }) }
  | 9, .selfRefresh => { x with st := .run, blockTil := x.cycle + tpar b c 0x0F, idleAt := b.now }
  | _, _ => x

/-- Run an action of a bank-machine table on bank `k` (R303). -/
def bankAct (c k act : Nat) (t : Sel) (s : State) : State :=
  let b := s.blk
  match act, t.row, t.acc with
  | 1, some r, _ => s.upd (modChan (cid c) (openRow k r) b)
  | 2, _, some e => s.upd (readColumn c e (modChan (cid c) (stampColumn k true e b.now) b))
  | 3, _, some e => writeColumn c e (s.upd (modChan (cid c) (stampColumn k false e b.now) b))
  | 4, _, _ => s.upd (modChan (cid c) (fun x => closeRow k (preAt b c k x) x) b)
  | 5, _, _ => s.upd (modChan (cid c) (refreshBank b c k) b)
  | 10, _, _ =>
    let done := lastCycle (b.chans[cid c].bank k)
    let b := modChan (cid c) (neighbourBank b c k) b
    s.upd (if done then ctrAdd (chnBase c + 0x68) 1 b else b)
  | n, _, _ => s.upd (modChan (cid c) (chanAct b c n) b)

/-- The entry that a bank's machine holds for an event now. A machine keeps the number of its state when another operating point
makes another table apply: R137 does not say what becomes of it (DESIGN CHOICE, log entry 118). -/
def bankEntry (b : Block) (c k ev : Nat) : Word :=
  tableEntry (bankTable b (chanOp b c)) (b.chans[cid c].bank k).state ev

/-- A guard of a bank machine (R138): 0 is always true, the others are not given by the spec. -/
def bankGuardOk (b : Block) (c k g : Nat) : Bool := g == 0 || Config.bankGuard g c k b.now

/-- A command that a bank machine issues goes through the command FIFO (R24); action 0 issues none. -/
def noteCmd (k act : Nat) (x : Chan) : Chan := if act = 0 then x else { x with cmdFifo := through 16 (k, act) x.cmdFifo }

/-- Examine an event once (R139): the state after it, and whether its action ran. An OFFLINE channel's machines take the abort
only. -/
def bankEvent (c k ev : Nat) (t : Sel) (s : State) : State × Bool :=
  let b := s.blk
  let e := bankEntry b c k ev
  if (b.chans[cid c].bank k).stopped || (b.chans[cid c].st == .offline && ev != 30) then (s, false)
  else if !entValid e then (s.upd (tableFault c k b), false)
  else if !bankGuardOk b c k (entGuard e) then
    (if entHold e then s.upd (modChan (cid c) (fun x => x.modBank k fun y => { y with
        heldEv := y.heldEv ++ [(ev, t.row, t.acc.map (·.ord))] }) b)
     else s, false)
  else
    let s := bankAct c k (entAction e) t s
    let s := s.upd (modChan (cid c) (fun x => noteCmd k (entAction e) (x.modBank k fun y => { y with
      state := entNext e, timed := if entStop e then false else if entTimer e ≠ 0 then true else y.timed })) s.blk)
    (if entFault e then s.upd (tableFault c k s.blk) else s, true)

/-- What was selected with a held event: its access while that is still queued. -/
def heldSel (x : Chan) (h : Nat × Option Nat × Option Nat) : Sel :=
  { row := h.2.1, acc := h.2.2.bind fun n => (x.rq ++ x.wq).find? fun e => e.ord == n }

/-- Keep events held behind those that are. -/
def keepHeld (c k : Nat) (l : List (Nat × Option Nat × Option Nat)) (s : State) : State :=
  s.upd (modChan (cid c) (fun x => x.modBank k fun y => { y with heldEv := y.heldEv ++ l }) s.blk)

/-- Examine held events in order up to the first that makes a transition; the rest stay held. -/
def heldScan (c k : Nat) : List (Nat × Option Nat × Option Nat) → State → State × Bool
  | [], s => (s, false)
  | h :: t, s =>
    if (s.blk.chans[cid c].bank k).stopped then (keepHeld c k (h :: t) s, false) else
    let r := bankEvent c k h.1 (heldSel s.blk.chans[cid c] h) s
    if r.2 then (keepHeld c k t r.1, true) else heldScan c k t r.1

/-- Held events are examined again after every transition, in the order they were held (R139). -/
def bankHeld (c k : Nat) : Nat → State → State
  | 0, s => s
  | n + 1, s =>
    let l := (s.blk.chans[cid c].bank k).heldEv
    let r := heldScan c k l (s.upd (modChan (cid c) (fun x => x.modBank k fun y => { y with heldEv := [] }) s.blk))
    if r.2 then bankHeld c k n r.1 else r.1

/-- A change of a channel that a fault has not taken OFFLINE meanwhile. -/
def unlessOffline (f : Chan → Chan) (x : Chan) : Chan := if x.st = .offline then x else f x

/-- Deliver an event to a bank's machine. -/
def fire (c k ev : Nat) (t : Sel) (s : State) : State × Bool :=
  let r := bankEvent c k ev t s
  if r.2 then (bankHeld c k (r.1.blk.chans[cid c].bank k).heldEv.length r.1, true) else r

/-- BANK_TIMER_EXPIRY (R303): event 31. -/
def bankTimer (c k : Nat) (s : State) : State :=
  if !(s.blk.chans[cid c].bank k).timed then s else
  (fire c k 31 {} (s.upd (modChan (cid c) (fun x => x.modBank k fun y => { y with timed := false }) s.blk))).1

/-- Banks of the part. -/
def banksOf : List Nat := List.range (4 * Config.height)

/-- Deliver an event to every bank's machine in turn. -/
def fireAll (c ev : Nat) (s : State) : State := banksOf.foldl (fun s k => (fire c k ev {} s).1) s

/-- Close every open row (event 3). -/
def closeAll (c : Nat) (s : State) : State :=
  banksOf.foldl (fun s k => if (s.blk.chans[cid c].bank k).row.isSome then (fire c k 3 {} s).1 else s) s

/-! ### Entropy and neighbour refresh (R315 to R317) -/

/-- One step of the whitening register: x^32 + x^22 + x^2 + x + 1, the raw bit XORed into the feedback. -/
def lfsrStep (raw : Bool) (v : BitVec 32) : BitVec 32 :=
  let f := (v.getLsbD 31 ^^ v.getLsbD 21) ^^ (v.getLsbD 1 ^^ v.getLsbD 0) ^^ raw
  (v <<< 1) ||| (if f then 1 else 0)

/-- The register after one draw: 16 steps, the draw's raw bit in the first. -/
def lfsrDraw (raw : Bool) (v : BitVec 32) : BitVec 32 :=
  (List.range 15).foldl (fun v _ => lfsrStep false v) (lfsrStep raw v)

/-- A draw of a channel with its raw bit: 64 identical raw bits in a row raise FS_CHN_ENTROPY, and the register goes on
without them. The value is the register's low 16 bits. -/
def drawChan (c : Nat) (raw : Bool) (b : Block) : Nat × Block :=
  let x := b.chans[cid c]
  let run := if x.rawRun > 0 ∧ raw = x.rawLast then x.rawRun + 1 else 1
  let bad := x.entropyBad || run ≥ 64
  let v := lfsrDraw (raw && !bad) x.lfsr
  let b := modChan (cid c) (fun x => { x with lfsr := v, rawLast := raw, rawRun := min 64 run, entropyBad := bad }) b
  let b := if bad && !x.entropyBad then
      raise (fs .chnEntropy) (chanUnit c) (BitVec.ofNat 32 c) [] (rcSet (chnBase c + 0x20) 0 b)
    else b
  (v.toNat % 65536, b)

/-- The draw of an activate of row `r` (R315). -/
def drawRow (c k r : Nat) (raw : Bool) (b : Block) : Block :=
  let prob := rwf (chnBase c + 0x14) 15 0 b
  if prob = 0 then b else
  let d := drawChan c raw b
  if d.1 < prob then modChan (cid c) (fun x => x.modBank k fun y => { y with nrf := some r, nrfAt := d.2.now }) d.2 else d.2

/-! ### Timing (R296, R302, R305, R306) -/

/-- A wait of `w` cycles since a stamp is over. -/
def since (t : Option Nat) (n w : Nat) : Bool := match t with | some s => s + w ≤ n | none => true

/-- The activate slot of this cycle is masked by the throttle level (R306). -/
def slotMasked (b : Block) (c : Nat) : Bool :=
  let x := b.chans[cid c]
  x.mask.getLsbD ((x.cycle - x.slotAt) / max 1 (tpar b c 0x05) % 4)

/-- An activate-slot command may issue on a bank. -/
def actOk (b : Block) (c k : Nat) : Bool :=
  let x := b.chans[cid c]
  let y := x.bank k
  let n := x.cycle
  let fourth := (mget x.faw (k / 4) []).getD 3 0
  since y.tPre n (tpar b c 0x02) && since y.tAct n (tpar b c 0x04) && since x.lastAct n (tpar b c 0x05)
    && decide (y.tBusy ≤ n) && !slotMasked b c
    && ((mget x.faw (k / 4) []).length < 4 || fourth + tpar b c 0x06 ≤ n)

/-- A precharge may issue on a bank. -/
def preOk (b : Block) (c k : Nat) : Bool :=
  let x := b.chans[cid c]
  let y := x.bank k
  since y.tAct x.cycle (tpar b c 0x03) && since y.tRd x.cycle (tpar b c 0x08) && since y.tWr x.cycle (tpar b c 0x09)
    && decide (y.tBusy ≤ x.cycle)

/-- A column command may issue on a bank. -/
def colOk (b : Block) (c k : Nat) (rd : Bool) : Bool :=
  let x := b.chans[cid c]
  let y := x.bank k
  since y.tAct x.cycle (tpar b c 0x01) && since x.lastCol x.cycle (tpar b c 0x07) && decide (y.tBusy ≤ x.cycle)
    && (if rd then since x.lastWr x.cycle (tpar b c 0x0A) else since x.lastRd x.cycle (tpar b c 0x0B))

/-! ### Order among accesses to one line (R294) -/

/-- R294 allows the access now: reads of a line keep their order, a read waits for an older masked write of its line to merge,
and a write for every older read of its line to return and every older write of it to drain. A read that the write queue serves
behind a fill takes no command (R30). -/
def orderOk (x : Chan) (e : Acc) : Bool :=
  let older := fun (q : Acc) => q.pla == e.pla && decide (q.ord < e.ord)
  if e.isRead || e.isMasked then
    e.held.isNone && !(x.rq.any older) && !(x.inflight.any fun q => older q && q.isMasked) && !(e.isMasked && x.wq.any older)
  else !(x.rq ++ x.inflight ++ x.wq).any older

/-- The bank is reserved for a forced refresh (R311). -/
def reserved (y : Bank) : Bool := y.owed.head? == some 0

/-- The command that an access needs next. -/
inductive Need where
  | remap | column | activate | precharge
deriving DecidableEq, Repr

/-- What an access needs (R296); a line in a remap entry needs no DRAM (R336). -/
def needOf (x : Chan) (e : Acc) : Need :=
  if (remapOf x e.pla).isSome then .remap
  else match (x.bank (plaBank e.pla)).row with
    | some r => if r = plaRow e.pla then .column else .precharge
    | none => .activate

/-- Issuable, but for the rule on precharges (R296). -/
def readyFor (b : Block) (c : Nat) (e : Acc) : Bool :=
  let x := b.chans[cid c]
  let k := plaBank e.pla
  let y := x.bank k
  orderOk x e && !b.srl.rebuild.contains (e.pseg / 64 * 64) &&
  match needOf x e with
  | .remap => true
  | .column => !y.stopped && !reserved y && colOk b c k (e.isRead || e.isMasked)
  | .activate => !y.stopped && !reserved y && actOk b c k && (y.nrf.isNone || y.nrf == some (plaRow e.pla))
  | .precharge => !y.stopped && !reserved y && preOk b c k

/-- A precharge for a waiting access is allowed (R298). -/
def preAllowed (b : Block) (c : Nat) (e : Acc) : Bool :=
  let x := b.chans[cid c]
  let k := plaBank e.pla
  effPrio b e == 16 || (x.bank k).hits ≥ rwf (chnBase c + 0x0C) 21 16 b
    || !(x.rq ++ x.wq).any fun q =>
        plaBank q.pla == k && needOf x q == .column && readyFor b c q && effPrio b q ≥ effPrio b e

/-- Issuable (R296). -/
def issuable (b : Block) (c : Nat) (e : Acc) : Bool :=
  readyFor b c e && (needOf b.chans[cid c] e != .precharge || preAllowed b c e)

/-! ### The pick (R297) -/

/-- `better` of R297, but for the entry index. -/
def better (b : Block) (c : Nat) (p q : Acc) : Bool :=
  let x := b.chans[cid c]
  let band := rwf (chnBase c + 0x0C) 7 0 b
  let hit := fun (e : Acc) => needOf x e == .column || needOf x e == .remap
  let bp := (b.now - p.arr) / band
  let bq := (b.now - q.arr) / band
  if effPrio b p ≠ effPrio b q then effPrio b p > effPrio b q
  else if bp ≠ bq then bp > bq
  else if hit p ≠ hit q then hit p
  else p.arr < q.arr

/-- The best issuable entry of a queue, the lower entry on a tie. -/
def bestOf (b : Block) (c : Nat) (l : List Acc) : Option Acc := bestBy (better b c) (l.filter (issuable b c))

/-- Drain mode by the watermarks (R299). -/
def drainMode (b : Block) (c : Nat) : Bool :=
  let x := b.chans[cid c]
  let d := x.draining || wqUsed x ≥ rwf (chnBase c + 0x04) 22 16 b
  d && !(wqUsed x ≤ rwf (chnBase c + 0x04) 6 0 b)

/-- `pick` of R297; an entry that a masked write waits for goes ahead of every read that is not promoted (R294). -/
def pickAcc (b : Block) (c : Nat) : Option Acc :=
  let x := b.chans[cid c]
  let r := bestOf b c x.rq
  let w := bestOf b c x.wq
  let u := bestOf b c (x.wq.filter (·.urgent))
  match r, u, w with
  | some r, some u, _ => if effPrio b r = 16 then some r else some u
  | none, some u, _ => some u
  | some r, none, some w => if effPrio b r = 16 then some r else if drainMode b c then some w else some r
  | some r, none, none => some r
  | none, none, w => w

/-- Mark the accesses that have reached the age limit; each request counts one promotion (R276). -/
def promote (c : Nat) (b : Block) : Block :=
  let x := b.chans[cid c]
  let new := (x.rq ++ x.wq).filter fun e => !e.promoted && aged b e
  let mark := fun (e : Acc) => if aged b e then { e with promoted := true } else e
  let b' := modChan (cid c) (fun x => { x with rq := x.rq.map mark, wq := x.wq.map mark }) b
  (new.foldl (fun (r : Block × List Nat) e =>
    if e.maint || r.2.contains e.grp then r else (ctrAdd (chnBase c + 0x60C + 0x10 * e.cls) 1 r.1, e.grp :: r.2)) (b', [])).1

/-! ### Issuing -/

/-- Maintenance lines that stand in the queue that a maintenance line takes. -/
def maintHeld (x : Chan) (e : Acc) : Nat := ((if e.isRead then x.rq else x.wq).filter (·.maint)).length

/-- Lines released by the pacer enter their queues while maintenance holds fewer than its share of entries (R274, R293). -/
def releaseMaint (c : Nat) (b : Block) : Block :=
  let b := runPacer c b
  let x := b.chans[cid c]
  match x.maintWait with
  | [] => b
  | e :: rest =>
    if x.pacer ≥ 64000 ∧ fits x [e] ∧ maintHeld x e < rwf (chnBase c + 0x0C) 15 12 b then
      enterLine c { e with arr := b.now } (modChan (cid c) (fun x => { x with maintWait := rest, pacer := x.pacer - 64000 }) b)
    else b

/-- The row of the bank closes with this column command (R300), judged as the command is picked: hint 10 with the access's last
column command, which for a masked write is that of a merged line, unless another queued access that hits the row is issuable;
hint 11 with column line 31. -/
def closesWith (b : Block) (c : Nat) (e : Acc) : Bool :=
  let x := b.chans[cid c]
  let k := plaBank e.pla
  let hint := if e.maint then 0 else e.hint
  let rest := (x.rq ++ x.wq).filter fun q => q.ord != e.ord
  (hint == 2 && !e.isMasked && !(rest.any fun q => q.grp == e.grp) && !(x.inflight.any fun q => q.isMasked && q.grp == e.grp)
      && !rest.any fun q => plaBank q.pla == k && needOf x q == .column && issuable b c q)
    || (hint == 3 && plaCol e.pla == 31)

/-- Issue the command that the picked access needs. -/
def issueAcc (c : Nat) (raw : Bool) (e : Acc) (s : State) : State :=
  let b := s.blk
  let k := plaBank e.pla
  let rd := e.isRead || e.isMasked
  match needOf b.chans[cid c] e with
  | .remap => if rd then s.upd (readColumn c e b) else writeColumn c e s
  | .activate =>
    let r := fire c k 0 { row := some (plaRow e.pla) } s
    if !r.2 then r.1 else
    let mark := fun (q : Acc) => if q.ord = e.ord then { q with miss := true } else q
    let b := modChan (cid c) (fun x => { x with rq := x.rq.map mark, wq := x.wq.map mark }) r.1.blk
    r.1.upd (drawRow c k (plaRow e.pla) raw b)
  | .precharge => (fire c k 3 {} s).1
  | .column =>
    let r := fire c k (if rd then 1 else 2) { acc := some e } s
    if r.2 && closesWith b c e then (fire c k 3 {} r.1).1 else r.1

/-! ### Refresh (R308 to R312) -/

/-- The banks of a group in the order of their turns (R308, R310). -/
def groupBanks (g : Nat) : List Nat := banksOf.filter fun k => k % 4 / 2 == g

/-- A due refresh of the bank is postponed (R311). -/
def postponed (b : Block) (c k : Nat) : Bool :=
  let x := b.chans[cid c]
  !b.start.chive && rwf (chnBase c + 0x10) 4 4 b == 1
    && (x.rq ++ x.wq).any fun e => plaBank e.pla == k && effPrio b e ≥ rwf (chnBase c + 0x10) 3 0 b

/-- Close the bank's row, if one is open, and refresh the bank (events 3 and 4). -/
def refreshNow (c k : Nat) (s : State) : State :=
  let s := if (s.blk.chans[cid c].bank k).row.isSome then (fire c k 3 {} s).1 else s
  (fire c k 4 {} s).1

/-- Change the owed refreshes of a bank. -/
def modOwed (c k : Nat) (f : List Nat → List Nat) (b : Block) : Block :=
  modChan (cid c) (fun x => x.modBank k fun y => { y with owed := f y.owed }) b

/-- Leave power-down (R319): event 6, whose action holds commands for tXP. -/
def leavePowerDown (c : Nat) (s : State) : State :=
  if s.blk.chans[cid c].st ≠ .powerdown then s else fireAll c 6 s

/-- A refresh reaches its deadline (R311). -/
def forceRefresh (c k : Nat) (s : State) : State :=
  if !reserved (s.blk.chans[cid c].bank k) || s.blk.chans[cid c].stall then s else
  refreshNow c k (s.upd (rcSet (chnBase c + 0x20) 1 (ctrAdd (chnBase c + 0x64) 1 (modOwed c k (·.drop 1) s.blk))))

/-- The turn of a bank within a tick (R310): an early refresh satisfies it; one at its deadline is forced before the next falls
due, so a bank owes at most 4 (R311); it is owed while the channel stalls (R423), it is postponed, or the oldest refresh that the
bank owes is issued. A refresh that falls due wakes the channel (R319). -/
def refreshTurn (c k : Nat) (s : State) : State :=
  let y := s.blk.chans[cid c].bank k
  let s := s.upd (modChan (cid c) (fun x => { x with dueLeft := sdel k x.dueLeft }) s.blk)
  if y.early then s.upd (modChan (cid c) (fun x => x.modBank k fun y => { y with early := false }) s.blk)
  else
    let s := forceRefresh c k (leavePowerDown c s)
    if s.blk.chans[cid c].stall then s.upd (modOwed c k (· ++ [8]) s.blk)
    else if postponed s.blk c k then s.upd (ctrAdd (chnBase c + 0x60) 1 (modOwed c k (· ++ [8]) s.blk))
    else refreshNow c k (s.upd (modOwed c k (fun l => if l = [] then [] else l.drop 1 ++ [8]) s.blk))

/-- The first bank whose owed refresh has its gap (R311). -/
def gapBank (b : Block) (c : Nat) : Option Nat :=
  let x := b.chans[cid c]
  banksOf.find? fun k =>
    let y := x.bank k
    y.owed != [] && !reserved y && !y.stopped && !postponed b c k && decide (y.tBusy ≤ x.cycle)
      && (if y.row.isSome then preOk b c k else since y.tPre x.cycle (tpar b c 0x02))

/-- An owed refresh at its gap: the row closes first. -/
def gapRefresh (c k : Nat) (s : State) : State :=
  if (s.blk.chans[cid c].bank k).row.isSome then (fire c k 3 {} s).1
  else (fire c k 4 {} (s.upd (modOwed c k (·.drop 1) s.blk))).1

/-- The first bank whose neighbour refresh may issue: its row is closed, or half of the 1 µs that R315 allows has passed, which
leaves the other half for the precharge and the row cycles (DESIGN CHOICE, log entry 113). -/
def nrfBank (b : Block) (c : Nat) : Option Nat :=
  let x := b.chans[cid c]
  banksOf.find? fun k =>
    let y := x.bank k
    y.nrf.isSome && !y.stopped && !reserved y
      && (match y.row with | some _ => b.now - y.nrfAt ≥ 50 && preOk b c k | none => actOk b c k)

/-- A neighbour refresh, or the precharge it waits for. -/
def nrfIssue (c k : Nat) (s : State) : State :=
  if (s.blk.chans[cid c].bank k).row.isSome then (fire c k 3 {} s).1 else (fire c k 9 {} s).1

/-- An adaptive row closes after its idle time (R300). -/
def idleBank (b : Block) (c : Nat) : Option Nat :=
  let x := b.chans[cid c]
  banksOf.find? fun k =>
    let y := x.bank k
    y.row.isSome && !y.stopped && (y.hint == 0 || y.hint == 3) && preOk b c k
      && b.now - y.lastUse ≥ rwf (chnBase c + 0x08) 7 0 b

/-- Nothing is pending anywhere in the channel (R312): nothing queued, in the crossbar or released by the pacer, no fill and no
neighbour refresh. -/
def noWork (x : Chan) : Bool := quiet x && x.xbar.isEmpty && (x.maintWait.isEmpty || decide (x.pacer < 64000))

/-- The next bank of the next group to refresh early (R312). -/
def pullBank (b : Block) (c : Nat) : Option Nat :=
  let x := b.chans[cid c]
  if !(rwf (chnBase c + 0x10) 8 8 b == 1 && noWork x) then none else
  (groupBanks x.group).find? fun k =>
    let y := x.bank k
    !y.early && decide (y.tBusy ≤ x.cycle) && !y.stopped && y.owed == [] && x.dueLeft.all (· != k)
      && (if y.row.isSome then preOk b c k else since y.tPre x.cycle (tpar b c 0x02))

/-- Refresh a bank early; an open row closes first, in a cycle of its own (R296). -/
def pullIn (c k : Nat) (s : State) : State :=
  if (s.blk.chans[cid c].bank k).row.isSome then (fire c k 3 {} s).1 else
  let q := fire c k 4 {} s
  if q.2 then q.1.upd (modChan (cid c) (fun x => x.modBank k fun y => { y with early := true }) q.1.blk) else q.1

/-! ### Self-refresh (R314) -/

/-- What self-refresh entry waits for first is done: queued reads have completed, the write queue is drained, and in a safe state
every accepted write has reached DRAM (R314, R411). -/
def srReady (b : Block) (c : Nat) : Bool :=
  let x := b.chans[cid c]
  x.srWant && x.rq.isEmpty && x.wq.isEmpty && x.inflight.isEmpty && x.xbar.isEmpty && x.fills.isEmpty
    && !((b.sage.safe || b.thm.safe) && writesLeft b)

/-- Every neighbour refresh that a bank has pending (R315) and every refresh that it owes, at once. -/
def settleBank (c k : Nat) (s : State) : State :=
  let y := s.blk.chans[cid c].bank k
  let s := match y.nrf with
    | none => s
    | some r =>
      let s := if y.row.isSome then (fire c k 3 {} s).1 else s
      (List.range (neighbours r - y.nrfMore)).foldl (fun s _ => (fire c k 9 {} s).1) s
  y.owed.foldl (fun s _ => refreshNow c k s) (s.upd (modOwed c k (fun _ => []) s.blk))

/-- Enter self-refresh on the stack's choice, at once (R314): owed refreshes, rows closed, event 7. -/
def enterSelfRefresh (c : Nat) (s : State) : State :=
  fireAll c 7 (closeAll c (banksOf.foldl (fun s k => settleBank c k s) s))

/-- Leave self-refresh (R314): event 8, whose action holds commands for tXSR. -/
def leaveSelfRefresh (c : Nat) (s : State) : State :=
  if s.blk.chans[cid c].st ≠ .selfRefresh then s.upd (modChan (cid c) (fun x => { x with srWant := false }) s.blk)
  else fireAll c 8 s

/-! ### Power-down (R316, R318, R319) -/

/-- A bank of the channel is busy with a refresh, a row cycle or a neighbour refresh. -/
def banksBusy (x : Chan) : Bool := x.banks.any fun y => decide (x.cycle < y.2.tBusy) || y.2.nrf.isSome

/-- The draws of a power-down entry (R316): a bank that activated a row since the last entry, and on success has a neighbour
refresh to make. -/
def drawBanks (c : Nat) : List Nat → List Bool → Block → Block
  | [], _, b => b
  | k :: t, raws, b =>
    match (b.chans[cid c].bank k).actRow with
    | none => drawBanks c t raws b
    | some r =>
      drawBanks c t (raws.drop 1)
        (modChan (cid c) (fun x => x.modBank k fun y => { y with actRow := none }) (drawRow c k r (raws.headD false) b))

/-- Enter power-down (R318): the draws, then event 5 once the neighbour refreshes that they ask for are made and every row is
closed, a command a cycle (R296, R316). -/
def enterPowerDown (c : Nat) (raws : List Bool) (s : State) : State :=
  let s := s.upd (drawBanks c banksOf raws s.blk)
  if s.blk.chans[cid c].banks.any fun y => y.2.nrf.isSome || (y.2.row.isSome && !y.2.stopped) then
    s.upd (modChan (cid c) (fun x => { x with pdWant := true }) s.blk)
  else fireAll c 5 s

/-- Enter power-down on the stack's choice, at once (R318): what the banks owe and the neighbour refreshes of the draws are made,
the rows close, and event 5. -/
def sinkPowerDown (c : Nat) (raws : List Bool) (s : State) : State :=
  fireAll c 5 (closeAll c (banksOf.foldl (fun s k => settleBank c k s) (s.upd (drawBanks c banksOf raws s.blk))))

/-! ### One cycle -/

/-- The first bank that meets a condition and issues commands. -/
def bankThat (f : Nat → Bank → Bool) (x : Chan) : Option Nat := banksOf.find? fun k => !(x.bank k).stopped && f k (x.bank k)

/-- The cycle's command of a channel that settles before it enters a state of low power (R296, R314, R316, R318): a neighbour
refresh, an owed refresh, a precharge, each once it may issue; the entry itself, by event `ev`, when none is left and no bank is
busy. -/
def settleCycle (c ev : Nat) (s : State) : State :=
  let b := s.blk
  let x := b.chans[cid c]
  let rest := fun (k : Nat) (y : Bank) => decide (y.tBusy ≤ x.cycle) && since y.tPre x.cycle (tpar b c 0x02)
  match bankThat (fun k y => y.row.isSome && preOk b c k) x, bankThat (fun k y => y.nrf.isSome && y.row.isNone && actOk b c k) x,
      bankThat (fun k y => y.owed != [] && y.nrf.isNone && y.row.isNone && rest k y) x with
  | some k, _, _ => (fire c k 3 {} s).1
  | none, some k, _ => (fire c k 9 {} s).1
  | none, none, some k => (fire c k 4 {} (s.upd (modOwed c k (·.drop 1) b))).1
  | none, none, none =>
    if (bankThat (fun _ y => y.row.isSome || y.nrf.isSome || y.owed != [] || decide (x.cycle < y.tBusy)) x).isSome then s
    else fireAll c ev s

/-- Stamps and waits, counted in cycles whose period is to `old` as that of the new clock is to `new`, in the cycles of the new
clock (R305): a wait in progress ends no sooner than it would have. -/
def retime (old new : Nat) (x : Chan) : Chan :=
  let past := fun (t : Nat) => x.cycle - (x.cycle - t) * old / new
  let ahead := fun (t : Nat) => x.cycle + ceilDiv ((t - x.cycle) * old) new
  { x with
    lastRd := x.lastRd.map past, lastWr := x.lastWr.map past, lastAct := x.lastAct.map past, lastCol := x.lastCol.map past
    faw := x.faw.map fun y => (y.1, y.2.map past)
    blockTil := ahead x.blockTil
    banks := x.banks.map fun y => (y.1, { y.2 with
      tAct := y.2.tAct.map past, tPre := y.2.tPre.map fun t => if t ≤ x.cycle then past t else ahead t
      tRd := y.2.tRd.map past, tWr := y.2.tWr.map past, tBusy := ahead y.2.tBusy }) }

/-- The command clock switches to a divisor, and activate slots are numbered from here (R306, R307). -/
def rescale (old new : Nat) (x : Chan) : Chan :=
  { retime old new x with slotAt := x.cycle, div := new, divNext := none }

/-- The cycle of a channel whose clock divisor is to change (R307): it closes its rows one by one, each precharge once it may
issue, and the clock switches tRP after the last. A refresh in progress is the core dies' own and is not waited for: R307 bounds
the switch by 80 ns and tRFCpb alone is 120 ns (DEDUCED, log entry 121). -/
def switchCycle (c div : Nat) (s : State) : State :=
  let b := s.blk
  let x := b.chans[cid c]
  match bankThat (fun k y => y.row.isSome && preOk b c k) x with
  | some k => (fire c k 3 {} s).1
  | none =>
    if (bankThat (fun _ y => y.row.isSome || !since y.tPre x.cycle (tpar b c 0x02)) x).isSome then s
    else s.upd (modChan (cid c) (rescale x.div div) b)

/-- The channel issues commands: it runs, is not held by BIST, its TSV PLL is locked, and it has no switch or exit in progress. -/
def chanRuns (x : Chan) : Bool := x.st == .run && !x.held && !x.stall && decide (x.blockTil ≤ x.cycle)

/-- The command of a cycle: an owed refresh at its gap, a neighbour refresh, an access, an adaptive close, an early
refresh. During a fill only refreshes issue (R295). -/
def cycleCommand (c : Nat) (raw : Bool) (s : State) : State :=
  let b := s.blk
  match gapBank b c, nrfBank b c with
  | some k, _ => gapRefresh c k s
  | none, some k => nrfIssue c k s
  | none, none =>
    if b.chans[cid c].fills ≠ [] then s else
    match pickAcc b c with
    | some e => issueAcc c raw e s
    | none =>
      match idleBank b c with
      | some k => (fire c k 3 {} s).1
      | none => match pullBank b c with | some k => pullIn c k s | none => s

/-- The bank machines of a channel that went OFFLINE see the abort (R303). -/
def abortBanks (c : Nat) (s : State) : State :=
  fireAll c 30 (s.upd (modChan (cid c) (fun x => { x with abort := false }) s.blk))

/-- A power-down entry that waits for its neighbour refreshes and precharges goes on, unless an access or a fill has come. -/
def pdGoes (x : Chan) : Bool := x.pdWant && x.rq.isEmpty && x.wq.isEmpty && x.fills.isEmpty

/-- What the cycle of a running channel issues: at most one command (R296). -/
def runCycle (c : Nat) (raw : Bool) (s : State) : State :=
  let x := s.blk.chans[cid c]
  if srReady s.blk c then settleCycle c 7 s
  else match x.divNext with
    | some d => switchCycle c d s
    | none =>
      if pdGoes x then settleCycle c 5 s
      else cycleCommand c raw (s.upd (modChan (cid c) (fun x => { x with pdWant := false }) s.blk))

/-- SCHEDULER_CYCLE (R297). The time of R318 runs while nothing is queued and no bank is busy. In power-down, lines enter the
queues, which wakes the channel (R319), and a wanted self-refresh is entered when nothing is left to do. -/
def schedule (c : Nat) (raw : Bool) (s : State) : State :=
  let s := s.upd (modChan (cid c) (fun x => { x with cycle := x.cycle + 1 }) s.blk)
  let s := if s.blk.chans[cid c].srWant then flushAll s else s
  let x := s.blk.chans[cid c]
  if x.abort then abortBanks c s
  else if x.st == .powerdown && !x.held && !x.stall then
    let s := s.upd (letIn c (promote c (releaseMaint c s.blk)))
    if !srReady s.blk c then s
    else if x.banks.any fun y => y.2.nrf.isSome || !y.2.owed.isEmpty then leavePowerDown c s else fireAll c 7 s
  else if !chanRuns x then s
  else
    let b := promote c (releaseMaint c s.blk)
    let b := modChan (cid c) (fun x => { x with draining := drainMode b c }) b
    let s := runCycle c raw (s.upd b)
    let b := letIn c s.blk
    let y := b.chans[cid c]
    s.upd (if quiet y && !banksBusy y then b
      else modChan (cid c) (fun x => { x with idleAt := b.now, wokenRef := x.wokenRef && quiet x }) b)

/-- The channel may enter power-down on its own (R318, R319). -/
def mayPowerDown (b : Block) (c : Nat) : Bool :=
  let x := b.chans[cid c]
  chanRuns x && rwf (chnBase c + 0x18) 8 8 b == 1 && quiet x
    && (x.banks.all fun y => y.2.owed.isEmpty && decide (y.2.tBusy ≤ x.cycle))
    && (x.wokenRef || b.now - x.idleAt ≥ rwf (chnBase c + 0x18) 7 0 b)

/-- Something wakes the channel (R319): an access in a queue, a scheduled neighbour refresh, a refresh that is due. -/
def wakes (x : Chan) : Bool := !quiet x || x.banks.any fun y => !y.2.owed.isEmpty

/-! ### The refresh tick (R38, R308) -/

/-- The channel issues refresh ticks: it is initialized and not in self-refresh or OFFLINE. -/
def ticking (x : Chan) : Bool := x.st == .run || x.st == .powerdown

/-- What a tick does before the commit (R38 step 1), under the old settings: turns of the tick before that are still to come,
refreshes past their deadline, and the next group falls due, whose first bank takes its turn with the tick (R310). -/
def tickRefresh (c : Nat) (s : State) : State :=
  let s := s.blk.chans[cid c].dueLeft.foldl (fun s k => refreshTurn c k s) s
  let s := banksOf.foldl (fun s k => forceRefresh c k s) s
  let s := s.upd (modChan (cid c) (fun x => { x with
    ticks := x.ticks + 1, tickAt := s.blk.now, group := 1 - x.group, dueLeft := groupBanks x.group
    banks := x.banks.map fun y => (y.1, { y.2 with owed := y.2.owed.map (· - 1) }) }) s.blk)
  refreshTurn c ((s.blk.chans[cid c].dueLeft).headD 0) s

/-- Adopt the refresh interval and throttle level of the last sample (R38 step 3, R306, R307). A change of divisor waits for the
rows to close; a channel that runs no commands switches at once. -/
def adoptLevel (c : Nat) (s : State) : State :=
  let b := s.blk
  let x := b.chans[cid c]
  let mask := BitVec.ofNat 4 ((throttleCurve b 2).eval x.levelNext).toNat
  let div := ((throttleCurve b 3).eval x.levelNext).toNat
  let y := { x with
    mult := x.multNext, level := x.levelNext, mask := mask
    slotAt := if x.level = x.levelNext then x.slotAt else x.cycle
    divNext := if div = x.div then none else some div }
  s.upd (modChan (cid c) (fun _ => if div ≠ x.div ∧ x.st ≠ .run then rescale x.div div y else y) b)

/-! ### The return of a read (R328, R330) -/

/-- The bytes of a mask, as bits of a line. -/
def maskBits (m : BitVec 64) : Line :=
  BitVec.ofNat 512 (((List.range 64).map fun i => if m.getLsbD i then 255 <<< (8 * i) else 0).sum)

/-- Merge the written bytes of a line into the old one (R188). -/
def mergeLine (m : BitVec 64) (old new : Line) : Line := (old &&& ~~~(maskBits m)) ||| (new &&& maskBits m)

/-- Reads of the line that wait and are younger than a merge take its data (R209, R294). -/
def serveYounger (c : Nat) (e : Acc) (v : Stored) (b : Block) : Block :=
  let next := (b.chans[cid c].rq.filter fun q => q.isMasked && q.pla == e.pla && decide (q.ord > e.ord)).foldl
    (fun n q => min n q.ord) (b.chans[cid c].ord)
  let l := b.chans[cid c].rq.filter fun q =>
    q.isRead && q.pla == e.pla && decide (q.ord > e.ord) && decide (q.ord < next)
  l.foldl (fun b q => serveQueued c q v (modChan (cid c) (dropEntry q) b)) b

/-- The merged line takes its write-queue entry, in the place of its request; a younger queued write of the line stands
instead (R294). -/
def enterMerged (e : Acc) (v : Stored) (x : Chan) : Chan :=
  let x := supersede e.pla x
  if x.wq.any fun q => q.pla == e.pla then x else
  let urgent := x.rq.any fun q => q.isMasked && q.pla == e.pla && decide (q.ord > e.ord)
  let w : Acc := { e with src := .write, data := v, urgent := urgent, miss := false }
  { x with wq := (x.wq.filter fun q => q.ord < e.ord) ++ [w] ++ x.wq.filter fun q => q.ord > e.ord }

/-- The merge of a masked write (R330). -/
def mergeWrite (c : Nat) (e : Acc) (p : PortId) (tag h line : Nat) (m : BitVec 64) (poison : Bool) (d : Line) (v : Stored)
    (b : Block) : Block :=
  let r := decodeLine e.double v
  let bad := r.1 == .poisoned || r.1 == .uncorrectable
  let b :=
    match r.1 with
    | .clean => b
    | .corrected1 _ | .corrected2 _ _ => countCe c e.pla 0 r.1 r.2 b
    | .poisoned => noteError c e.pla 0 .poisoned b
    | .uncorrectable => demandUe c e.pla 0 h line b
  let v := encodeP (bad || poison) (mergeLine m (lineOf r.2) d)
  let b := if bad || poison then poisonSum e.pseg b else b
  let b := serveLine c e.cls e.pseg e.quad (modChan (cid c) (enterMerged e v) b)
  let b := endLatency c e.cls e.arr e.inGrant b
  let w : WDone := { port := p, tag := tag, handle := h, pseg := e.pseg }
  serveYounger c e v (writeDone c w (if bad then .poisonKept else .ok) b)

/-- DRAM_READ_RETURN (R328): the oldest read in flight. A read of the stack's own units goes to its unit. -/
def readReturn (c : Nat) (err : Stored) (s : State) : State :=
  match s.blk.chans[cid c].inflight with
  | [] => s
  | e :: rest =>
    let b := modChan (cid c) (fun x => { x with inflight := rest }) s.blk
    let v := storedAt b s.mem c e.pla ^^^ e.err ^^^ err
    let b := modChan (cid c) (fun x => { x with rdFifo := through 16 v x.rdFifo }) b
    let b :=
      match e.src with
      | .read p tag off h line =>
        let r := demandRead c e.pla 0 h line e.double v b
        deliverRead c p tag off e r.1 r.2.1 r.2.2
      | .masked p tag h line m poison d => mergeWrite c e p tag h line m poison d v b
      | _ => serveOwn c e v b
    s.upd (letIn c b)

/-- The banks of the slice of a segment. -/
def sliceBanks (g : Nat) : List Nat := (List.range 4).map (4 * segSlice g + ·)

/-- The rows of a filled segment in the order of its lines: row and bank (R19). -/
def fillRows (g : Nat) : List (Nat × Nat) :=
  (List.range 8).flatMap fun j => (List.range 4).map fun i => (8 * segIn g + j, 4 * segSlice g + i)

/-- A neighbour refresh that a bank has pending is made before the burst activates another row of it, on activate slots of its
own (R315). -/
def fillCycle (c k : Nat) (b : Block) : Block :=
  match (b.chans[cid c].bank k).nrf with
  | none => b
  | some r =>
    let made := fun (x : Chan) =>
      let n := neighbours r - (x.bank k).nrfMore
      { x.modBank k (fun y => { y with nrf := none, nrfMore := 0 }) with
        lastAct := some x.cycle, faw := mset x.faw (k / 4) [] ((List.replicate n x.cycle ++ mget x.faw (k / 4) []).take 4) }
    ctrAdd (chnBase c + 0x68) 1 (modChan (cid c) made b)

/-- The draws of the activates of a fill, one raw bit each (R315); each bank last activated the segment's last row (R316). -/
def fillDraws (c : Nat) : List (Nat × Nat) → List Bool → Block → Block
  | [], _, b => b
  | r :: t, raws, b =>
    fillDraws c t (raws.drop 1) (modChan (cid c) (fun x => x.modBank r.2 fun y => { y with actRow := some r.1 })
      (drawRow c r.2 r.1 (raws.headD false) (fillCycle c r.2 b)))

/-- The rows that the burst opened and closed: those that were open before it are closed (R301), and a precharge has just ended
it. -/
def fillClose (c g : Nat) (s : State) : State :=
  (sliceBanks g).foldl (fun s k =>
    let s := if (s.blk.chans[cid c].bank k).row.isSome then (fire c k 3 {} s).1 else s
    s.upd (modChan (cid c) (unlessOffline fun x => x.modBank k fun y => { y with tPre := some (preAt s.blk c k x) }) s.blk)) s

/-- SEGMENT_FILL_DONE (R35, R295): the burst ends. The reads behind it that the write queue is to serve are served, in order
(R30), and the writes behind it complete in the order of acceptance (R35). -/
def fillDone (c : Nat) (raws : List Bool) (s : State) : State :=
  match s.blk.chans[cid c].fills with
  | [] => s
  | g :: rest =>
    let s := fillClose c g s
    let b := fillDraws c (fillRows g) raws s.blk
    let l := b.chans[cid c].rq.filter fun q => q.pseg == g && q.held.isSome
    let b := modChan (cid c) (fun x => { x with fills := rest }) b
    let b := l.foldl (fun b q => serveQueued c q (q.held.getD 0) (modChan (cid c) (dropEntry q) b)) b
    s.upd (letIn c (drainAwait c g b))

/-! ### The commands -/

def execSegmentFillDone (c : ChanId) (s : State) (raws : List Bool := []) : Res := .next (fillDone c.val raws s)
def execBankTimerExpiry (c : ChanId) (bank : Fin 64) (s : State) : Res := .next (bankTimer c.val bank.val s)
/-- PER_BANK_REFRESH_DUE: the turns come in order (R310). -/
def execPerBankRefreshDue (c : ChanId) (bank : Fin 64) (s : State) : Res :=
  let x := s.blk.chans[c]
  .next (if ticking x ∧ x.dueLeft.head? = some bank.val then refreshTurn c.val bank.val s else s)
def execForcedRefresh (c : ChanId) (bank : Fin 64) (s : State) : Res :=
  .next (if s.blk.chans[c].st = .run then forceRefresh c.val bank.val s else s)
def execPowerDownEntry (c : ChanId) (raws : List Bool) (s : State) : Res :=
  .next (if mayPowerDown s.blk c.val then enterPowerDown c.val raws s else s)
def execPowerDownExit (c : ChanId) (s : State) : Res :=
  .next (if wakes s.blk.chans[c] then leavePowerDown c.val s else s)
def execDillRead (c : ChanId) (err : Stored) (s : State) : Res := .next (dillStep c.val err (checked (chnBase c.val) s))
def execScrubVerify (c : ChanId) (err : Stored) (s : State) : Res := .next (verifyRead c.val err s)
def execSoftRowRepairDone (c : ChanId) (s : State) (errs : List LineErr := []) : Res := .next (softDone c.val errs s)
def execProtBitmapRebuildDone (w : Nat) (s : State) : Res := .next (s.upd (rebuildProt w s.blk))

end Sys2Proof.Machine
end

