-- ==== Sys2Proof/Machine/Opq.lean ====
section
/-! DEFINITION. Operation descriptors (chapter 13): their fields, acceptance, the operation queues with halt, resume and
cancel, the completion collector, and the placing of pieces on engines (R381). What a piece does is in `Engines.lean`. -/

namespace Sys2Proof.Machine

open Sys2Proof

/-! ### Fields of a descriptor (R349, R350) -/

def dField (d : BitVec 512) (hi lo : Nat) : Nat := field d.toNat hi lo
def dOp (d : BitVec 512) : Nat := dField d 7 0
def dClass (d : BitVec 512) : Nat := dField d 10 8
def dFence (d : BitVec 512) : Bool := d.getLsbD 35
def dFast (d : BitVec 512) : Bool := d.getLsbD 36
def dSub (d : BitVec 512) : Nat := dField d 40 37
def dLine (d : BitVec 512) : Nat := dField d 94 64
def dCount (d : BitVec 512) : Nat := dField d 127 96
def dHandle2 (d : BitVec 512) : Nat := dField d 139 128
def dLine2 (d : BitVec 512) : Nat := dField d 190 160
def dOpa (d : BitVec 512) : BitVec 64 := BitVec.ofNat 64 (dField d 255 192)
def dOpb (d : BitVec 512) : BitVec 64 := BitVec.ofNat 64 (dField d 319 256)
/-- First line of the buffer of a GATHER or SCATTER (R353). -/
def dBuf (d : BitVec 512) : Nat := dField d 222 192
/-- Lines of the list of a GATHER or SCATTER (R353). -/
def dListLen (d : BitVec 512) : Nat := ceilDiv (dCount d) 16

/-- An opcode of the owner range (R351). -/
def ownerOp (op : Nat) : Bool := 0x80 ≤ op && op ≤ 0x8F

/-- The format entry of an owner-defined opcode (R143), and its fields. -/
def ownerFmt (b : Block) (op : Nat) : Option (List Byte) := if ownerOp op then formatOf b op else none
def fmtTable (f : List Byte) : Nat := natAt f 1 1
def fmtSplit (f : List Byte) : Bool := natAt f 2 1 == 1
def fmtCombine (f : List Byte) : Nat := natAt f 3 1
def fmtFlag (f : List Byte) (k : Nat) : Bool := natAt f 4 2 / 2 ^ k % 2 == 1
def fmtMax (f : List Byte) : Nat := natAt f 6 2

/-- A list and buffer operation: GATHER or SCATTER. -/
def listOp (op : Nat) : Bool := op == 7 || op == 8

/-- The opcode is defined (R351). -/
def opDefined (b : Block) (op : Nat) : Bool := (1 ≤ op && op ≤ 10) || (ownerFmt b op).isSome

/-- The operation uses handle2 (R351, R375). -/
def uses2 (b : Block) (op : Nat) : Bool :=
  op == 1 || listOp op || op == 10 || (match ownerFmt b op with | some f => fmtFlag f 2 | none => false)

/-- The operation has a range in handle (R353, R375). -/
def usesRange (b : Block) (op : Nat) : Bool :=
  (1 ≤ op && op ≤ 6) || op == 9 || op == 10
    || (match ownerFmt b op with | some f => fmtFlag f 0 || fmtFlag f 1 | none => false)

/-- The operation has a second range in handle2 of as many lines. -/
def usesRange2 (b : Block) (op : Nat) : Bool := uses2 b op && !listOp op

/-! ### Acceptance (R352) -/

/-- Two runs of lines overlap. -/
def linesOverlap (a n c m : Nat) : Bool := decide (a < c + m) && decide (c < a + n)

/-- Check 3: a line of the range, the second range, the list or the buffer lies beyond its handle. An empty one has no line. -/
def descBeyond (b : Block) (d : BitVec 512) : Bool :=
  let op := dOp d
  let size := fun h => 1024 * (handleSize b h).getD 0
  let past := fun (first n h : Nat) => decide (n > 0 ∧ first + n > size h)
  (usesRange b op && past (dLine d) (dCount d) (descHandle d))
    || (usesRange2 b op && past (dLine2 d) (dCount d) (dHandle2 d))
    || (listOp op && (past (dLine2 d) (dListLen d) (dHandle2 d) || past (dBuf d) (dCount d) (dHandle2 d)))

/-- The sub-code is in range (R351). -/
def subOk (op sub : Nat) : Bool :=
  if op = 4 ∨ op = 5 then sub < 8
  else if op = 6 then sub % 4 ≤ 2 && sub / 4 ≤ 2
  else ownerOp op || sub == 0

/-- The operands that the operation does not use are zero (R353). -/
def operandsOk (d : BitVec 512) : Bool :=
  let op := dOp d
  let a := dOpa d == 0
  let c := dOpb d == 0
  if op = 2 ∨ op = 5 then c else if op = 4 then true
  else if listOp op then dField d 255 223 == 0 && c
  else ownerOp op || (a && c)

/-- The count is in range (R351). -/
def countOk (b : Block) (d : BitVec 512) : Bool :=
  let op := dOp d
  let n := dCount d
  if op = 4 ∨ op = 5 then n == 1
  else match ownerFmt b op with
    | some f => 1 ≤ n && n ≤ fmtMax f
    | none => 1 ≤ n && n ≤ 262144

/-- Check 4: opcode, sub, fast, zero fields, count and overlaps. -/
def descFormed (b : Block) (d : BitVec 512) : Bool :=
  let op := dOp d
  opDefined b op && subOk op (dSub d) && (!dFast d || op == 6 || op == 8 || ownerOp op)
    && dField d 12 11 == 0 && dField d 63 41 == 0 && dField d 95 95 == 0 && dField d 159 140 == 0 && dField d 191 191 == 0
    && (ownerOp op || dField d 511 320 == 0) && (uses2 b op || dHandle2 d == 0) && operandsOk d && countOk b d
    && !(op == 1 && descHandle d == dHandle2 d && linesOverlap (dLine d) (dCount d) (dLine2 d) (dCount d))
    && !(listOp op && linesOverlap (dLine2 d) (dListLen d) (dBuf d) (dCount d))

/-- A port may use a handle for operations: check 2, but for the queue depth. -/
def descPort (b : Block) (p : PortId) (h : Nat) : Bool := h != 0 && (portsOf b h).getLsbD p.val

/-- The checks of R352 in order, after those of R90, R102, R412 and R470. -/
def descCheck (b : Block) (p : PortId) (d : BitVec 512) : Status :=
  let h := descHandle d
  let two := uses2 b (dOp d)
  if refusing b || b.start.chive then .accessError
  else if (handleSize b h).isNone || (two && (handleSize b (dHandle2 d)).isNone) then .noHandle
  else if !descPort b p h || (two && !descPort b p (dHandle2 d)) || opqDepth (attrOpq (attrOf b h)) == 0 then .accessError
  else if descBeyond b d then .accessError
  else if !descFormed b d then .badArg
  else .ok

/-! ### The operation queues (R221, R365) -/

/-- Entries in use, of one handle and of the shared pool. -/
def opqUsed (b : Block) (h : Nat) : Nat := (b.ops.descs.filter fun d => d.inq && descHandle d.words == h).length
def poolUsed (b : Block) : Nat := (b.ops.descs.filter fun d => d.inq).length

/-- The descriptor with a number. -/
def descOf (b : Block) (id : Nat) : Option Desc := b.ops.descs.find? fun d => d.id == id

/-- An accepted descriptor takes a queue entry when one is free, and its credit goes back. -/
def admitDesc (b : Block) (d : Desc) : Block :=
  let h := descHandle d.words
  if d.st = .waiting ∧ opqUsed b h < opqDepth (attrOpq (attrOf b h)) ∧ poolUsed b < 4096 then
    returnCredit d.port 3 1 (d.tag / 1024) (modDesc d.id (fun d => { d with st := .queued, inq := true }) b)
  else b

/-- Waiting descriptors enter in acceptance order. -/
def admitDescs (b : Block) : Block := b.ops.descs.foldl admitDesc b

/-- Accept a descriptor, or refuse it with its status (R352). -/
def acceptDesc (p : PortId) (w : BitVec 512) (gen : Nat) (b : Block) : Block :=
  let st := descCheck b p w
  let size := fun h => (handleSize b h).getD 0
  let d : Desc := { id := b.ops.nextId, port := p, tag := descTag w + 1024 * gen, words := w, status := st
                    st := if st = .ok then .waiting else .done, size1 := size (descHandle w), size2 := size (dHandle2 w) }
  let b := { b with ops := { b.ops with nextId := b.ops.nextId + 1, descs := b.ops.descs ++ [d] } }
  if st = .ok then admitDescs b else returnCredit p 3 1 gen b

/-- Is this descriptor. -/
def isOpd (w : BitVec 512) : RxItem → Bool
  | .opd d _ => d == w
  | _ => false

/-- Any descriptor. -/
def RxItem.isOpd : RxItem → Bool
  | .opd .. => true
  | _ => false

/-- OPERATION_DESCRIPTOR: in arrival order, and behind the fences of its scope (R209, R210). -/
def descRow (p : PortId) (w : BitVec 512) (b : Block) : Block :=
  let b := arrive p (isOpd w) (acceptOpd w) b
  match takeItem (isOpd w) [] b.ports[p].rxq with
  | some (ahead, .opd _ gen, rest) =>
    if fenced b.ports[p] ahead (descTag w + 1024 * gen) (some (descHandle w)) || ahead.any RxItem.isOpd then b
    else acceptDesc p w gen (modPort p (fun x => { x with rxq := ahead ++ rest }) b)
  | _ => b

/-! ### Pieces on engines (R261, R381) -/

/-- Table of a descriptor's pieces (R380). -/
def descTable (b : Block) (w : BitVec 512) : Option Nat :=
  match ownerFmt b (dOp w) with
  | some f => some (fmtTable f)
  | none => Config.engDirectory (engSeq b) (0x10 + dOp w)

/-- Argument `k` of a format entry: the descriptor field that its map names, or zero where the map is not used (R143). -/
def fmtArg (f : List Byte) (w : BitVec 512) (k : Nat) : Nat :=
  let m := natAt f (8 + 2 * k) 2
  if m % 2 = 1 then natAt (bytesOf 64 w) (m / 1024) (2 ^ (m / 256 % 4)) else 0

/-- The 12 arguments of an owner-defined sequence as its window first holds them (R143, R383), each in a little-endian word of 8
bytes, argument 0 first: the spec gives the order and not the width of a word (DESIGN CHOICE, log entry 114). -/
def fmtArgs (f : List Byte) (w : BitVec 512) : List Byte :=
  (List.range 12).flatMap fun k => bytesOf 8 (BitVec.ofNat 64 (fmtArg f w k))

/-- The words that a context's window begins with: the arguments of an owner-defined piece. -/
def argsOf (b : Block) (w : Work) : List Byte :=
  match w with
  | .piece id _ =>
    (match descOf b id with
     | some d => (match ownerFmt b (dOp d.words) with | some f => fmtArgs f d.words | none => [])
     | none => [])
  | _ => []

/-- A fresh context with its work, its table in the initial state (R139), its window with the arguments (R383). -/
def startCtx (b : Block) (w : Work) (table : Option Nat) : Ctx :=
  { work := w, table := table, window := argsOf b w
    state := match table.bind (Config.engTable (engSeq b)) with | some ws => wfield (ws.getD 0 0) 7 2 | none => 0 }

/-- A free context for pieces. -/
def freeCtx (x : Eng) : Option Nat :=
  [2, 3, 4, 5].find? fun k => (match x.ctx[Fin.ofNat 6 k].work with | .none => true | _ => false)

/-- The first piece of an engine's queue that may start: those of stopped descriptors are held (R371). -/
def nextPiece (b : Block) (x : Eng) : Option (Nat × Nat) :=
  x.queue.find? fun q => match descOf b q.1 with | some d => d.st != .stopped | none => false

/-- The pieces that wait for room in an engine's queue: place in the order of dispatch, descriptor, number. -/
def waitingPieces (b : Block) (e : Nat) : List (Nat × Nat × Nat) :=
  b.ops.descs.flatMap fun d => (d.pieces.zipIdx.filter fun x => x.1.st == .waiting && x.1.eng == e).map fun x => (x.1.ord, d.id, x.2)

/-- The first of them in the order of dispatch (R381). -/
def waitingPiece (b : Block) (e : Nat) : Option (Nat × Nat) :=
  (bestBy (fun x y => decide (x.1 < y.1)) (waitingPieces b e)).map (·.2)

/-- Waiting pieces enter the queue of an engine while it has room. -/
def refillQueue (e : Nat) : Nat → Block → Block
  | 0, b => b
  | n + 1, b =>
    if b.engs[eid e].queue.length ≥ 64 then b else
    match waitingPiece b e with
    | none => b
    | some q =>
      refillQueue e n (modEng (eid e) (fun x => { x with queue := x.queue ++ [q] })
        (modPiece q.1 q.2 (fun x => { x with st := .queued }) b))

/-- A table instance starts on an engine: its block commits (R53), which may hold the engine (R396). -/
def instanceStarts (e : Nat) (b : Block) : Block :=
  if !(b.regs.pend.any fun w => baseOf w.addr == engBase e) then b else
  let b := commitPlain (engBase e) b
  if heldNow b e then modEng (eid e) holdEngine b else b

/-- Start queued pieces on free contexts of an engine that runs. -/
def startPieces (e : Nat) : Nat → Block → Block
  | 0, b => b
  | n + 1, b =>
    let x := b.engs[eid e]
    if x.st ≠ .run then b else
    match freeCtx x, nextPiece b x with
    | some k, some q =>
      let c := startCtx b (.piece q.1 q.2) ((descOf b q.1).bind fun d => descTable b d.words)
      let b := modEng (eid e) (fun x => { x with
        queue := x.queue.filter (· != q), ctx := x.ctx.set (Fin.ofNat 6 k) c, evq := x.evq ++ [(k, 0, [])] }) b
      startPieces e n (instanceStarts e (refillQueue e 64 (modPiece q.1 q.2 (fun x => { x with st := .running }) b)))
    | _, _ => b

/-- The engine takes what its contexts and queue have room for. -/
def kickEngine (e : Nat) (b : Block) : Block := startPieces e 4 (refillQueue e 64 b)

/-- Every engine in turn. -/
def kickAll (b : Block) : Block := (List.range 32).foldl (fun b e => kickEngine e b) b

/-- A piece of a descriptor leaves its context, and the events for it go with it. -/
def leaveCtx (e : Nat) (id i : Nat) (b : Block) : Block :=
  let mine := fun (x : Eng) (k : Nat) => x.ctx[Fin.ofNat 6 k].work == .piece id i
  modEng (eid e) (fun x => { x with
    evq := x.evq.filter fun v => !mine x v.1
    ctx := x.ctx.map fun k => if k.work = .piece id i then {} else k }) b

/-- The handle whose segments the pieces of a descriptor follow (R362). -/
def pieceHandle (w : BitVec 512) : Nat := if listOp (dOp w) then dHandle2 w else descHandle w

/-- First and last line, in that handle, of a descriptor (R362); an owner-defined operation without a range runs on the handle's
first segment (DESIGN CHOICE, log entry 52). -/
def pieceSpan (b : Block) (w : BitVec 512) : Nat × Nat :=
  if listOp (dOp w) then (dLine2 w, dLine2 w + dListLen w - 1)
  else if usesRange b (dOp w) then (dLine w, dLine w + dCount w - 1)
  else (0, 0)

/-- The pieces of a descriptor (R362, R375). -/
def splitDesc (b : Block) (w : BitVec 512) : List Piece :=
  let r := pieceSpan b w
  let one := match ownerFmt b (dOp w) with | some f => !fmtSplit f | none => false
  if one then [{ lseg := r.1 / 1024 }]
  else (List.range (r.2 / 1024 + 1 - r.1 / 1024)).map fun i => { lseg := r.1 / 1024 + i }

/-- Offsets within the descriptor's span, [lo, hi), that a piece covers. -/
def pieceOffs (b : Block) (w : BitVec 512) (x : Piece) : Nat × Nat :=
  let r := pieceSpan b w
  let one := match ownerFmt b (dOp w) with | some f => !fmtSplit f | none => false
  if one then (0, r.2 + 1 - r.1)
  else (max r.1 (1024 * x.lseg) - r.1, min (r.2 + 1) (1024 * x.lseg + 1024) - r.1)

/-- First entry (GATHER, SCATTER) or offset of a piece. -/
def pieceFirst (b : Block) (w : BitVec 512) (x : Piece) : Nat :=
  (if listOp (dOp w) then 16 else 1) * (pieceOffs b w x).1

/-- The suppression of accesses to handle2 after SHRINK or DESTROY of it (R368). -/
def suppressed (d : Desc) (line : Nat) : Option Status :=
  if descHandle d.words = dHandle2 d.words then none
  else if d.gone2 then some .noHandle
  else if line ≥ 1024 * d.size2 then some .accessError
  else none

/-- End a piece with a status; its partial reaches the lead engine (R362). -/
def endPiece (id i : Nat) (st : Status) (b : Block) : Block :=
  let n := b.ops.arrivals
  modPiece id i (fun x => { x with st := .ended, status := st, arrival := n })
    { (if i = 0 then b else postPiece id 0 4 [] b) with ops := { b.ops with arrivals := n + 1 } }

/-- A piece of a quarantined segment (R242): it ends as poisoned, with data of no meaning. -/
def poisonPiece (d : Desc) (i : Nat) (x : Piece) (b : Block) : Block :=
  let r := drawLine b
  let ty : LaneTy := match dSub d.words / 4 with | 0 => .int32 | 1 => .binary32 | _ => .bfloat16
  endPiece d.id i .poison (modPiece d.id i (fun y => { y with
    off := some (pieceFirst b d.words x), lanes := laneIn ty r.1, value := r.1.truncate 64 }) r.2)

/-- Dispatch a held piece to the engine that owns its segment now (R261); a piece whose lookup is held waits. -/
def dispatchPiece (d : Desc) (i : Nat) (x : Piece) (b : Block) : Block :=
  let h := pieceHandle d.words
  let line := 1024 * x.lseg
  if lookupHeld b h line then b else
  match (if listOp (dOp d.words) then suppressed d line else none) with
  | some st => endPiece d.id i st b
  | none =>
    match mapEntry b h x.lseg with
    | none => endPiece d.id i .accessError b
    | some m =>
      if m.quarantined then poisonPiece d i x b else
      let e := segChan m.pseg
      let b := if i = 0 then modDesc d.id (fun d => { d with lead := e, led := true }) b else b
      let n := b.ops.dispatched
      let b := { b with ops := { b.ops with dispatched := n + 1 } }
      if b.chans[cid e].st = .offline then endPiece d.id i .channelOffline b
      else kickEngine e (modPiece d.id i (fun y => { y with
        st := .waiting, eng := e, pseg := m.pseg, pos := pieceFirst b d.words x, ord := n }) b)

/-- Dispatch the held pieces of a running descriptor, in order. -/
def dispatchDesc (id : Nat) (b : Block) : Block :=
  match descOf b id with
  | none => b
  | some d =>
    if d.st ≠ .running then b else
    d.pieces.zipIdx.foldl (fun b x => if x.1.st = .held then dispatchPiece d x.2 x.1 b else b) b

/-- Dispatch what a hold no longer keeps back, and start what engines have room for. -/
def dispatchAll (b : Block) : Block :=
  kickAll ((b.ops.descs.map (·.id)).foldl (fun b id => dispatchDesc id b) b)

/-- The descriptor at the front of a handle's queue may start (R365, R366, R371). -/
def mayStart (b : Block) (h : Nat) : Option Desc :=
  if (mfind b.ops.halts h).isSome then none else
  let q := b.ops.descs.filter fun d => d.inq && descHandle d.words == h
  let ahead := q.takeWhile fun d => d.st != .queued
  match q.dropWhile fun d => d.st != .queued with
  | [] => none
  | d :: _ =>
    if ahead.any (fun a => dFence a.words) || (dFence d.words && !ahead.isEmpty) then none else some d

/-- DESCRIPTOR_START: split and dispatched (R362, R365). -/
def startDesc (h : Nat) (b : Block) : Block :=
  match mayStart b h with
  | none => b
  | some d =>
    dispatchDesc d.id (modDesc d.id (fun d => { d with st := .running, pieces := splitDesc b d.words }) b)

/-! ### Halt, resume and cancel (R371 to R374) -/

/-- The fences of every port look at a queue that has halted (R210). -/
def recheckFences (b : Block) : Block := forAll 16 (fun p b => checkFences p (haltFences p b)) b

/-- A completion whose status is fixed now; its running pieces go on, the others are discarded (R373). -/
def finishDesc (st : Status) (d : Desc) : Desc :=
  { d with st := .done, status := st, result := 0xFFFFFFFF, pieces := d.pieces.map fun x =>
      if x.st = .running then x else { x with st := .ended } }

/-- Complete every descriptor that satisfies `f` with HALTED_UE; a waiting one gives its credit back. -/
def haltDescs (f : Desc → Bool) (b : Block) : Block :=
  let l := b.ops.descs.filter f
  let gone := l.map (·.id)
  let b := l.foldl (fun b d =>
    let b := if d.st = .waiting then returnCredit d.port 3 1 (d.tag / 1024) b else b
    let b := d.pieces.zipIdx.foldl (fun b x => if x.1.st = .running then postPiece d.id x.2 30 [] b else b) b
    modDesc d.id (finishDesc .haltedUe) b) b
  { b with engs := b.engs.map fun x => { x with queue := x.queue.filter fun q => !gone.contains q.1 } }

/-- What R233 ends when DESTROY meets a halted queue: stopped, queued and waiting descriptors. -/
def endHalted (h : Nat) (b : Block) : Block :=
  let b := haltDescs (fun d => descHandle d.words == h && (d.st == .stopped || d.st == .queued || d.st == .waiting)) b
  { b with ops := { b.ops with halts := mdel b.ops.halts h } }

/-- The halt of a queue whose handle drains (R233). -/
def endDrained (h : Nat) (b : Block) : Block :=
  match handleOf b h with
  | some x => if x.st = .draining then endHalted h b else b
  | none => b

/-- Halt a handle's operation queue (R371): the first cause and the first stopped tag stand. A handle that DESTROY drains has no
resume or cancel, so its stopped and waiting descriptors end (R233). -/
def haltQueue (h cause tag : Nat) (b : Block) : Block :=
  let t := BitVec.ofNat 10 tag
  let new : Halt :=
    match (mfind b.ops.halts h).join with
    | some x => if x.tag = 0x3FF then { x with tag := t } else x
    | none => { cause := BitVec.ofNat 3 cause, tag := t }
  let b := { b with ops := { b.ops with halts := mput b.ops.halts h (some new) } }
  endDrained h (recheckFences b)

/-- Event 0x0D01 (R378). -/
def stopEvent (h cause tag : Nat) (hi : Word) : Ev :=
  { code := 0x0D01, lo := word [(h, 0), (cause, 12), (tag % 1024, 16)], hi := hi }

/-- Migrations of a handle that wait under R257. -/
def haltedMigs (b : Block) (h : Nat) : List Mig := b.srl.migs.filter fun m => m.halted && m.order.handle == h

/-- A stopped piece waits for its engine again. -/
def restartPiece (x : Piece) : Piece := if x.st = .stopped then { x with st := .waiting } else x

/-- A stopped descriptor of a handle runs again. -/
def restartDesc (h : Nat) (d : Desc) : Desc :=
  if descHandle d.words = h ∧ d.st = .stopped then { d with st := .running, pieces := d.pieces.map restartPiece } else d

/-- RESUME (R372): stopped pieces wait for their engine again, held ones go on, and a waiting migration continues. -/
def resumeQueue (h : Nat) (b : Block) : Block :=
  let ops := b.ops
  let go := fun (m : Mig) => if m.order.handle = h then { m with halted := false } else m
  dispatchAll { b with
    ops := { ops with halts := mdel ops.halts h, descs := ops.descs.map (restartDesc h) }
    srl := { b.srl with migs := b.srl.migs.map go } }

/-- CANCEL and CANCEL_ALL (R373, R394): stopped descriptors and held completions end with HALTED_UE, with `all` the queued ones
too; waiting migrations abort. -/
def cancelQueue (all : Bool) (h : Nat) (b : Block) : Block :=
  let b := haltDescs (fun d => d.inq && descHandle d.words == h
    && (d.st == .stopped || d.st == .done || (all && d.st == .queued))) b
  let b := (haltedMigs b h).foldl (fun b m => renewEvac m (abortCopy m b)) b
  kickAll { b with ops := { b.ops with halts := mdel b.ops.halts h } }

/-- SUP_OPQ_STAT for a handle. A descriptor is RUNNING until its last piece ends (R365). -/
def opqStat (b : Block) (h : Nat) : Word :=
  let n := fun (f : Desc → Bool) => (b.ops.descs.filter fun d => d.inq && descHandle d.words == h && f d).length
  let x := (mfind b.ops.halts h).join
  word [(b2n x.isSome, 31), (match x with | some x => x.cause.toNat | none => 0, 28),
        (match x with | some x => x.tag.toNat | none => 0x3FF, 18),
        (n (fun d => (d.st == .running || d.st == .stopped) && d.pieces.any fun x => x.st != .ended), 8),
        (n (fun d => d.st == .queued), 0)]

/-- A queue command finishes: the result registers (R377). -/
def opqFinish (op h : Nat) (st : Status) (b : Block) : Block :=
  { b with ops := { b.ops with
      seq := b.ops.seq + 1, resOp := BitVec.ofNat 3 op, resHandle := BitVec.ofNat 12 h, resStatus := st } }

/-- A queue command starts and finishes (R377). A code that names no command does not look at SUP_OPQ_ARG, and its result names
no handle. -/
def opqCommand (op : Nat) (b : Block) : Block :=
  if op = 0 ∨ op ≥ 5 then
    let r := draw b
    opqFinish op (wfield r.1 11 0) .badArg r.2
  else
    let h := rwf (supBase + 0x604) 11 0 b
    let st : Status :=
      if (handleSize b h).isNone then .noHandle
      else if h = 0 then .accessError
      else if op ≠ 4 ∧ (mfind b.ops.halts h).isNone then .badArg
      else .ok
    let b := if st ≠ .ok then b else if op = 1 then resumeQueue h b
      else if op = 2 then cancelQueue false h b else if op = 3 then cancelQueue true h b else b
    opqFinish op h st { b with ops := { b.ops with stat := opqStat b h } }

/-! ### The completion collector (R391 to R394) -/

/-- An operation-completion record (R195, R369). -/
def opRecord (d : Desc) (seq : Word) (time : BitVec 64) : BitVec 128 :=
  BitVec.ofNat 128 (2 + d.status.code <<< 4 + (d.tag % 1024) <<< 8 + (descHandle d.words) <<< 18 + seq.toNat <<< 32
    + (time.toNat % 2 ^ 32) <<< 64 + d.result.toNat <<< 96)

/-- The descriptor is complete: its queue entry frees, and it is forgotten once none of its pieces runs (R365, R373). -/
def forgetDesc (id : Nat) (b : Block) : Block :=
  let b := modDesc id (fun d => { d with st := .gone, inq := false }) b
  admitDescs { b with ops := { b.ops with descs := b.ops.descs.filter fun d => !d.over } }

/-- COMPLETION_ACCEPT (R391, R393). -/
def collect (id : Nat) (b : Block) : Block :=
  match descOf b id with
  | none => b
  | some d =>
    if d.st ≠ .done ∨ b.ops.coll.length ≥ 256 then b else
    let r := opRecord d b.ops.collSeq b.time
    let b := postPiece id 0 5 [] b
    let b := { b with ops := { b.ops with collSeq := b.ops.collSeq + 1 } }
    let b :=
      if b.ports[d.port].sends d.tag then
        let b := { b with ops := { b.ops with coll := b.ops.coll ++ [(d.port, r)] } }
        if b.ops.coll.length = 256 then ctrAdd (supBase + 0x18) 1 b else b
      else tagLost d.port d.tag b
    forgetDesc id b

/-- A record may go to its port: pool 3 credits are there for it (R201), it is the first of its port, and the DATA slot of its
operation has gone (R369). -/
def collReady (b : Block) (ahead : List (PortId × BitVec 128)) (r : PortId × BitVec 128) : Bool :=
  let x := b.ports[r.1]
  !ahead.any (fun q => q.1 == r.1) && x.evOn && decide (x.far[3] > x.txEv.length)
    && !x.txData.any fun d => !d.read && d.tag == x.itag (field r.2.toNat 17 8)

/-- The first record that may go. -/
def collTake (b : Block) : List (PortId × BitVec 128) → List (PortId × BitVec 128) →
    Option ((PortId × BitVec 128) × List (PortId × BitVec 128))
  | _, [] => none
  | ahead, r :: t => if collReady b ahead r then some (r, ahead ++ t) else collTake b (ahead ++ [r]) t

/-- COMPLETION_SEND (R393). -/
def collSend (b : Block) : Block :=
  match collTake b [] b.ops.coll with
  | none => b
  | some (r, rest) =>
    modPort r.1 (fun x => { x with txEv := x.txEv ++ [r.2] }) { b with ops := { b.ops with coll := rest } }

def execDescriptorStart (handle : Nat) (s : State) : Res := .next (s.upd (startDesc handle s.blk))
def execCompletionAccept (desc : Nat) (s : State) : Res := .next (s.upd (collect desc s.blk))
def execCompletionSend (s : State) : Res := .next (s.upd (collSend s.blk))

end Sys2Proof.Machine
end

