-- ==== Sys2Proof/Machine/Engines.lean ====
section
/-! DEFINITION. The channel engines (chapter 14): what an operation piece does with the data (R353 to R363), the fold at the lead
engine, traps and reloads (R385 to R389), and the steps of a context's state table (R382 to R384). -/

namespace Sys2Proof.Machine

open Sys2Proof

/-! ### Statuses of a piece (R12) -/

/-- The lesser of two offsets, where there are any. -/
def lowest (a : Option Nat) (n : Nat) : Option Nat := match a with | some m => some (min m n) | none => some n

/-- Note a poisoned line at an offset or entry (R360). -/
def Piece.poison (off : Nat) (x : Piece) : Piece := { x.note .poison with off := lowest x.off off }

/-- Note a list entry beyond the handle (R358). -/
def Piece.skipAt (j : Nat) (x : Piece) : Piece := { x.note .accessError with skip := lowest x.skip j }

/-! ### Line accesses of a piece -/

/-- A piece at work on a line or entry: the state, the piece and its number, the map of SCATTER, the error patterns of the command,
the answers not yet used, and whether it waits: for an answer, for room or for a lookup. -/
structure Work1 where
  s : State
  pc : Piece
  i : Nat := 0
  scat : SMap Nat := []
  errs : List LineErr := []
  ans : List Ans := []
  wait : Bool := false

/-- Change the piece at work. -/
def Work1.on (r : Work1) (f : Piece → Piece) : Work1 := { r with pc := f r.pc }

/-- Where an access of a piece goes: a line in memory, a quarantined segment, or nowhere, with a status; or its lookup is held. -/
inductive Spot where
  | at_ (pseg line : Nat)
  | lost
  | none_ (st : Status)
  | held

/-- A line lies in the segment that a piece was dispatched for, and the migration of that segment has committed since: the piece
goes on at the source (R253). -/
def atSource (b : Block) (d : Desc) (x : Piece) (second : Bool) (line : Nat) : Bool :=
  second == listOp (dOp d.words) && line / 1024 == x.lseg
    && b.srl.migs.any fun m => m.src == x.pseg && m.stage == .release

/-- A line lies in the segment that a piece was dispatched for, whose migration is not yet committed: the piece was looked up before
the hold (R253). -/
def ownLookup (b : Block) (d : Desc) (x : Piece) (second : Bool) (line : Nat) : Bool :=
  second == listOp (dOp d.words) && line / 1024 == x.lseg
    && b.srl.migs.any fun m => m.src == x.pseg && m.stage == .hold

/-- Look up a line of handle (`second` false) or handle2 for a piece, as a request is (R253, R362, R368). -/
def spotOf (b : Block) (d : Desc) (x : Piece) (second : Bool) (line : Nat) : Spot :=
  let h := if second then dHandle2 d.words else descHandle d.words
  match (if second then suppressed d line else none) with
  | some st => .none_ st
  | none =>
    match mapEntry b h (line / 1024) with
    | none => .none_ .accessError
    | some e =>
      if e.quarantined then .lost
      else if atSource b d x second line then
        (if b.chans[cid (segChan x.pseg)].st = .offline then .none_ .channelOffline else .at_ x.pseg (line % 1024))
      else if lookupHeld b h line && !ownLookup b d x second line then .held
      else if b.chans[cid (segChan e.pseg)].st = .offline then .none_ .channelOffline
      else .at_ e.pseg (line % 1024)

/-- The handle of an access. -/
def accHandle (d : Desc) (second : Bool) : Nat := if second then dHandle2 d.words else descHandle d.words

/-- A line access of a piece: its descriptor's class (R268), hint 00 (R301), its arrival as the engine issues it (R269). -/
def engAcc (b : Block) (d : Desc) (second : Bool) (src : AccSrc) (g l : Nat) (v err : Stored) : Acc :=
  { src := src, pla := plaOf g l, pseg := g, cls := dClass d.words, arr := b.now, data := v, err := err
    double := attrProt (attrOf b (accHandle d second)) == 1 }

/-- Use an answer: the poison mark and data of a line, or nothing when no access was made. -/
def useAns (a : Ans) (off : Nat) (r : Work1) : Option (Bool × Line) × Work1 :=
  match a with
  | .line po v => (some (po, v), if po then r.on (Piece.poison off) else r)
  | .lost v => (some (true, v), r.on (Piece.poison off))
  | .refused st => (none, r.on (Piece.note st))
  | .word .. => (none, r)

/-- An answer that needs no access is known at once. -/
def knowAns (a : Ans) (off : Nat) (r : Work1) : Option (Bool × Line) × Work1 :=
  useAns a off (r.on fun x => { x with log := x.log ++ [a] })

/-- Send an access of a piece to its channel once its lookup is answered (event 3, R383); a read is answered later. -/
def Work1.ask (r : Work1) (id : Nat) (e : Acc) : Work1 :=
  { r with s := r.s.upd (submit (segChan e.pseg) [e] none none (postPiece id r.i 3 [] r.s.blk))
           pc := { r.pc with asked := true }, wait := true }

/-- An engine read: poison mark and data of the line, or nothing when no access is made or the piece waits for it. -/
def engRead (d : Desc) (second : Bool) (line off : Nat) (r : Work1) : Option (Bool × Line) × Work1 :=
  if r.wait then (none, r) else
  match r.ans with
  | a :: t => useAns a off { r with ans := t }
  | [] =>
    if r.pc.asked then (none, { r with wait := true }) else
    match spotOf r.s.blk d r.pc second line with
    | .held => (none, { r with wait := true })
    | .none_ st => knowAns (.refused st) off r
    | .lost =>
      let q := drawLine r.s.blk
      knowAns (.lost q.1) off { r with s := r.s.upd q.2 }
    | .at_ g l =>
      if !isWritten r.s.blk g then knowAns (.line false 0) off r
      else (none, r.ask d.id (engAcc r.s.blk d second (.engRead d.id r.i r.pc.try_ second line) g l 0 (errAt r.errs g l)))

/-- An engine write of a whole line (R354): it fills an unwritten segment first, and goes to its channel's write queue. -/
def engWrite (d : Desc) (second : Bool) (line off : Nat) (poison : Bool) (v : Line) (r : Work1) : Work1 :=
  if r.wait then r else
  match spotOf r.s.blk d r.pc second line with
  | .held => { r with wait := true }
  | .none_ st => r.on (Piece.note st)
  | .lost => r.on (Piece.poison off)
  | .at_ g l =>
    let s := firstWrite g (dClass d.words) r.s
    let b := submit (segChan g) [engAcc s.blk d second (.engWrite d.id r.i) g l (encodeP poison v) 0] none none (postPiece d.id r.i 3 [] s.blk)
    { r with s := s.upd b, pc := { r.pc with
        at_ := some (segChan g)
        fills := if b.chans[cid (segChan g)].fills.contains g then sadd g r.pc.fills else r.pc.fills } }

/-! ### The operations (R353), one line or entry at a time -/

/-- COPY of offset `i`. -/
def copyStep (d : Desc) (r : Work1) (i : Nat) : Work1 :=
  match engRead d false (dLine d.words + i) i r with
  | (some (po, v), r) => engWrite d true (dLine2 d.words + i) i po v r
  | (none, r) => r

/-- FILL: operand A repeated 8 times. -/
def fillStep (d : Desc) (r : Work1) (i : Nat) : Work1 :=
  engWrite d false (dLine d.words + i) i false (BitVec.ofNat 512 (((List.range 8).map fun k => (dOpa d.words).toNat <<< (64 * k)).sum)) r

/-- ZERO of a line that is not de-allocated with its segment. -/
def zeroStep (d : Desc) (r : Work1) (i : Nat) : Work1 :=
  match spotOf r.s.blk d r.pc false (dLine d.words + i) with
  | .at_ g _ => if isWritten r.s.blk g then engWrite d false (dLine d.words + i) i false 0 r else r
  | _ => engWrite d false (dLine d.words + i) i false 0 r

/-- Fold a line into the lanes of REDUCE (R356). -/
def reduceStep (d : Desc) (r : Work1) (i : Nat) : Work1 :=
  let ty : LaneTy := match dSub d.words / 4 with | 0 => .int32 | 1 => .binary32 | _ => .bfloat16
  match engRead d false (dLine d.words + i) i r with
  | (some (_, v), r) =>
    let xs := laneIn ty v
    r.on fun x => { x with
      lanes := if x.lanes = [] then xs.map (laneOne ty) else lanesOp ty (dSub d.words % 4) x.lanes xs }
  | (none, r) => r

/-- CRC32C of a line joined to that of the lines before (R359). -/
def crcStep (d : Desc) (r : Work1) (i : Nat) : Work1 :=
  match engRead d false (dLine d.words + i) i r with
  | (some (_, v), r) => r.on fun x => { x with
      value := (crc32cJoin (x.value.truncate 32) (crc32c (bytesOf 64 v)) 64).zeroExtend 64 }
  | (none, r) => r

/-- COMPARE of offset `i`: the value is the lowest differing offset plus 1. -/
def compareStep (d : Desc) (r : Work1) (i : Nat) : Work1 :=
  match engRead d false (dLine d.words + i) i r with
  | (some (_, v), r) =>
    match engRead d true (dLine2 d.words + i) i r with
    | (some (_, w), r) => if v ≠ w ∧ r.pc.value = 0 then r.on fun x => { x with value := BitVec.ofNat 64 (i + 1) } else r
    | (none, r) => r
  | (none, r) => r

/-- Word `k` of a line, and a line with that word replaced. -/
def word64 (v : Line) (k : Nat) : BitVec 64 := BitVec.ofNat 64 (field v.toNat (64 * k + 63) (64 * k))
def setWord64 (v : Line) (k : Nat) (w : BitVec 64) : Line :=
  (v &&& ~~~(BitVec.ofNat 512 ((2 ^ 64 - 1) <<< (64 * k)))) ||| BitVec.ofNat 512 (w.toNat <<< (64 * k))

/-- The word of a line that CAS64 and FADD64 work at, whether they write it, and the line as they leave it (R353). -/
def atomicWord (w : BitVec 512) (v : Line) : BitVec 64 := word64 v (dSub w % 8)
def atomicHits (w : BitVec 512) (v : Line) : Bool := dOp w == 5 || atomicWord w v == dOpa w
def atomicLine (w : BitVec 512) (v : Line) : Line :=
  setWord64 v (dSub w % 8) (if dOp w = 5 then atomicWord w v + dOpa w else dOpb w)

/-- CAS64 and FADD64 (R353, R354): the channel makes one read-modify-write; a word of an unwritten segment is 0, and only a write
reaches the channel then. -/
def atomicStep (d : Desc) (r : Work1) (_ : Nat) : Work1 :=
  match r.ans with
  | .word old wrote po :: _ =>
    let r := r.on fun x => { x with value := old, wrote := wrote }
    if po then r.on (Piece.poison 0) else r
  | .lost v :: _ => (r.on fun x => { x with value := atomicWord d.words v }).on (Piece.poison 0)
  | a :: _ => (useAns a 0 r).2
  | [] =>
    if r.pc.asked then { r with wait := true } else
    match spotOf r.s.blk d r.pc false (dLine d.words) with
    | .held => { r with wait := true }
    | .none_ st => r.on (Piece.note st)
    | .lost =>
      let q := drawLine r.s.blk
      ({ r with s := r.s.upd q.2 }.on fun x => { x with value := atomicWord d.words q.1 }).on (Piece.poison 0)
    | .at_ g l =>
      if isWritten r.s.blk g then r.ask d.id (engAcc r.s.blk d false (.engRmw d.id r.i (dLine d.words)) g l 0 (errAt r.errs g l))
      else if atomicHits d.words 0 then
        engWrite d false (dLine d.words) 0 false (atomicLine d.words 0) (r.on fun x => { x with value := 0, wrote := true })
      else r.on fun x => { x with value := 0 }

/-- Lines of handle that a list entry may name: those of its size at acceptance while a SHRINK drains it, or now (R232, R358). -/
def entryLimit (b : Block) (d : Desc) : Nat :=
  1024 * max d.size1 (match handleOf b (descHandle d.words) with | some x => x.size | none => 0)

/-- Entry `j` of a GATHER, whose list line is at hand. -/
def gatherEntry (d : Desc) (idx j : Nat) (r : Work1) : Work1 :=
  if idx ≥ entryLimit r.s.blk d then r.on (Piece.skipAt j) else
  match engRead d false idx j r with
  | (some (po, v), r) => engWrite d true (dBuf d.words + j) j po v r
  | (none, r) => r

/-- Whether entry `j` of a SCATTER writes its line: the highest entry stands in ordered mode, either in fast mode (R358). -/
def scatterWins (d : Desc) (idx j : Nat) (r : Work1) : Bool × Work1 :=
  match mfind r.scat idx with
  | none => (true, { r with scat := mput r.scat idx j })
  | some i =>
    if dFast d.words then
      let q := draw r.s.blk
      (q.1.getLsbD 0, { r with s := r.s.upd q.2 })
    else (decide (j ≥ i), { r with scat := mput r.scat idx (max i j) })

/-- Entry `j` of a SCATTER. -/
def scatterEntry (d : Desc) (idx j : Nat) (r : Work1) : Work1 :=
  if idx ≥ entryLimit r.s.blk d then r.on (Piece.skipAt j) else
  match engRead d true (dBuf d.words + j) j r with
  | (some (po, v), r) =>
    let w := scatterWins d idx j r
    if w.1 then engWrite d false idx j po v w.2 else w.2
  | (none, r) => r

/-- List line `t`, which a piece keeps while it works at its entries. -/
def listLine (d : Desc) (t j : Nat) (r : Work1) : Option (Bool × Line) × Work1 :=
  match r.pc.list with
  | some (t', po, v) =>
    if t' = t then (some (po, v), r) else
    match engRead d true (dLine2 d.words + t) j r with
    | (some q, r) => (some q, r.on fun x => { x with list := some (t, q) })
    | (none, r) => (none, r)
  | none =>
    match engRead d true (dLine2 d.words + t) j r with
    | (some q, r) => (some q, r.on fun x => { x with list := some (t, q) })
    | (none, r) => (none, r)

/-- Entry `j` of a list (R353); those of a poisoned list line are skipped (R360). -/
def listStep (d : Desc) (r : Work1) (j : Nat) : Work1 :=
  match listLine d (j / 16) j r with
  | (some (false, v), r) =>
    let idx := field v.toNat (32 * (j % 16) + 30) (32 * (j % 16))
    if dOp d.words = 7 then gatherEntry d idx j r else scatterEntry d idx j r
  | (some (true, _), r) => r.on (Piece.poison (16 * (j / 16)))
  | (none, r) => r

/-! ### Owner-defined pieces (R375) -/

/-- The lines that an owner-defined piece sees: those of its range, then those of the second range. -/
def ownerRead (d : Desc) (fl : List Byte) (lo hi : Nat) (r : Work1) : List Line × Work1 :=
  let get := fun (second : Bool) (base : Nat) (a : List Line × Work1) (i : Nat) =>
    if a.2.wait then a else
    match engRead d second (base + i) i a.2 with
    | (some (_, v), r) => (a.1 ++ [v], r)
    | (none, r) => (a.1 ++ [0], r)
  let offs := (List.range (hi - lo)).map (lo + ·)
  let a := if fmtFlag fl 0 then offs.foldl (get false (dLine d.words)) ([], r) else ([], r)
  if fmtFlag fl 2 then offs.foldl (get true (dLine2 d.words)) a else a

/-- The writes of an owner-defined piece: index below the count in the range, above it in the second range; a write elsewhere,
or to a range that the format entry does not write, ends the piece with ACCESS_ERROR. -/
def ownerWrite (d : Desc) (fl : List Byte) (r : Work1) (w : Nat × Line) : Work1 :=
  let n := dCount d.words
  if r.pc.status = .accessError then r
  else if w.1 < n ∧ fmtFlag fl 1 then engWrite d false (dLine d.words + w.1) w.1 false w.2 r
  else if n ≤ w.1 ∧ w.1 < 2 * n ∧ fmtFlag fl 2 then engWrite d true (dLine2 d.words + (w.1 - n)) (w.1 - n) false w.2 r
  else r.on (Piece.note .accessError)

/-- An owner-defined piece. -/
def ownerStep (d : Desc) (fl : List Byte) (lo hi : Nat) (r : Work1) (_ : Nat) : Work1 :=
  let a := ownerRead d fl lo hi r
  if a.2.wait then a.2 else
  let seq := engSeq r.s.blk
  let args := fmtArgs fl d.words
  let r := a.2.on fun x => { x with value := Config.ownerPiece seq (fmtTable fl) args d.words r.pc.lseg a.1 }
  (Config.ownerWrites seq (fmtTable fl) args d.words r.pc.lseg a.1).foldl (ownerWrite d fl) r

/-! ### A piece goes on -/

/-- A write of the piece waits in the crossbar for room in its channel's write queue (R292). -/
def writeHeld (b : Block) (id i : Nat) (x : Piece) : Bool :=
  match x.at_ with
  | some c => b.chans[cid c].xbar.any fun w => w.lines.any fun e => e.src == .engWrite id i
  | none => false

/-- One line or entry. While the piece waits for an answer only what it has been told is kept; the rest is done once all of it is
known. -/
def runStep (d : Desc) (f : Work1 → Nat → Work1) (r : Work1) (i : Nat) : Work1 :=
  if r.wait then r
  else if writeHeld r.s.blk d.id r.i r.pc then { r with wait := true }
  else
    let q := f { r with ans := r.pc.log } i
    if q.wait then { q with scat := r.scat, pc := { r.pc with log := q.pc.log, asked := q.pc.asked, at_ := q.pc.at_, fills := q.pc.fills } }
    else { q with pc := { q.pc with pos := i + 1, log := [] } }

/-- Run steps lo, lo + 1, … until the piece waits. -/
def runSteps (d : Desc) (f : Work1 → Nat → Work1) (lo hi : Nat) (r : Work1) : Work1 :=
  let r := (List.range (hi - lo)).foldl (fun r i => runStep d f r (lo + i)) r
  if r.wait then r else r.on fun x => { x with fin := true }

/-! ### PIECE_END -/

/-- An access to a physical segment is in its channel's queues (R355). -/
def segBusy (x : Chan) (g : Nat) : Bool :=
  (x.rq ++ x.wq ++ x.inflight).any (fun e => e.pseg == g) || x.served.any (fun e => e.1.pseg == g)
    || x.xbar.any (fun w => w.lines.any fun e => e.pseg == g) || x.fills.contains g || x.await.any fun w => w.pseg == g

/-- The piece of a ZERO de-allocates its segment (R355). -/
def deallocates (b : Block) (d : Desc) (x : Piece) : Bool :=
  let o := pieceOffs b d.words x
  dOp d.words == 3 && o.2 - o.1 == 1024 && x.pos == pieceFirst b d.words x
    && (match mapEntry b (descHandle d.words) x.lseg with | some e => !e.migrating && !e.quarantined | none => false)

/-- The zero-segment handshake: the written bit and poison_sum clear (R355). -/
def dealloc (h l : Nat) (b : Block) : Block :=
  match mapEntry b h l with
  | some e =>
    modChan (cid (segChan e.pseg)) (supersedeSeg e.pseg)
      (setWritten e.pseg false (modEntry h l (fun e => { e with poisonSum := false }) b))
  | none => b

/-- The handshake waits: for the accesses to the segment that the queues hold, or for the rebuild of its written bit (R344, R355). -/
def deallocWaits (b : Block) (h l : Nat) : Bool :=
  match mapEntry b h l with
  | some e => lookupHeld b h (1024 * l) || (isWritten b e.pseg && segBusy b.chans[cid (segChan e.pseg)] e.pseg)
  | none => false

/-- What a running piece does, from where it stands. -/
def runPiece (d : Desc) (r : Work1) : Work1 :=
  if r.pc.fin then r else
  let b := r.s.blk
  let o := pieceOffs b d.words r.pc
  let op := dOp d.words
  let steps := fun f => runSteps d f r.pc.pos o.2 r
  let done := fun (r : Work1) => r.on fun x => { x with fin := true }
  if op = 1 then steps (copyStep d)
  else if op = 2 then steps (fillStep d)
  else if op = 3 then
    (if !deallocates b d r.pc then steps (zeroStep d)
     else if deallocWaits b (descHandle d.words) r.pc.lseg then { r with wait := true }
     else done { r with s := r.s.upd (dealloc (descHandle d.words) r.pc.lseg b) })
  else if op = 4 ∨ op = 5 then steps (atomicStep d)
  else if op = 6 then steps (reduceStep d)
  else if listOp op then runSteps d (listStep d) r.pc.pos (min (16 * o.2) (dCount d.words)) r
  else if op = 9 then steps (crcStep d)
  else if op = 10 then steps (compareStep d)
  else match ownerFmt b op with
    | some fl => runSteps d (ownerStep d fl o.1 o.2) 0 1 r
    | none => done (r.on (Piece.note .badArg))

/-- A run of `n` lines from line `a` on reaches a logical segment. -/
def hitsSeg (a n l : Nat) : Bool := decide (n > 0) && decide (a / 1024 ≤ l) && decide (l ≤ (a + n - 1) / 1024)

/-- The lines that a list line of a SCATTER names, from entry `from_` of the descriptor up to its count. -/
def listNames (s : State) (d : Desc) (x : Piece) (t : Nat) : List Nat :=
  match spotOf s.blk d x true (dLine2 d.words + t) with
  | .at_ g l =>
    let v := lineOf (lineNow s.blk s.mem (segChan g) (plaOf g l))
    ((List.range 16).filter fun j => decide (16 * t + j < dCount d.words)).map fun j => field v.toNat (32 * j + 30) (32 * j)
  | _ => []

/-- A piece writes a logical segment (R256): COPY its own offsets of the second range, GATHER the buffer lines of its own entries,
SCATTER the lines that its list lines name, an owner-defined piece the ranges that its format entry lets it write. -/
def pieceHits (s : State) (d : Desc) (x : Piece) (h l : Nat) : Bool :=
  let op := dOp d.words
  let o := pieceOffs s.blk d.words x
  let own := descHandle d.words == h
  let two := dHandle2 d.words == h
  if op = 1 then two && hitsSeg (dLine2 d.words + o.1) (o.2 - o.1) l
  else if op = 2 ∨ op = 3 ∨ op = 4 ∨ op = 5 then own && x.lseg == l
  else if op = 7 then two && hitsSeg (dBuf d.words + 16 * o.1) (min (16 * o.2) (dCount d.words) - 16 * o.1) l
  else if op = 8 then
    own && ((List.range (o.2 - o.1)).any fun i => (listNames s d x (o.1 + i)).any fun n => n / 1024 == l)
  else match ownerFmt s.blk op with
    | some fl => (own && fmtFlag fl 1 && hitsSeg (dLine d.words) (dCount d.words) l)
        || (two && fmtFlag fl 2 && hitsSeg (dLine2 d.words) (dCount d.words) l)
    | none => false

/-- A stopped piece leaves its context, and its descriptor stops (R371); the piece of a cancelled descriptor is over. -/
def stopPiece (id i : Nat) (x : Piece) (b : Block) : Block :=
  modDesc id (fun d =>
    let live := d.st == .running || d.st == .stopped
    { d with st := if live then .stopped else d.st
             pieces := d.pieces.set i { x with st := if live then .stopped else .ended } }) b

/-- A running piece goes on as far as it can (R382): `errs` are the error patterns of the lines that it reads from now on. -/
def advancePiece (id i : Nat) (errs : List LineErr) (s : State) : State :=
  match (descOf s.blk id).bind fun d => (d.pieces[i]?).map fun x => (d, x) with
  | none => s
  | some (d, x) =>
    if x.st ≠ .running ∨ s.blk.engs[eid x.eng].st ≠ .run ∨ s.blk.chans[cid (segChan x.pseg)].st = .offline then s
    else
      let r := runPiece d { s := s, pc := x, i := i, scat := d.scat, errs := errs }
      r.s.upd (modDesc id (fun d => { d with scat := r.scat, pieces := d.pieces.set i r.pc }) r.s.blk)

/-- A piece may end: its last line or entry is done, and its writes are in their write queues (R364), behind no fill (R35). -/
def pieceOver (b : Block) (id i : Nat) (x : Piece) : Bool :=
  x.fin && !writeHeld b id i x && !x.fills.any fun g => b.chans[cid (segChan g)].fills.contains g

/-- A piece ends with a status and leaves its context. -/
def finishPiece (id i : Nat) (st : Status) (e : Nat) (b : Block) : Block :=
  let b := endPiece id i st (leaveCtx e id i b)
  kickEngine e { b with ops := { b.ops with descs := b.ops.descs.filter fun d => !d.over } }

/-- PIECE_END: the piece has run on its engine (R362, R363). One that is not over goes on as far as it can. -/
def pieceDone (id i : Nat) (errs : List LineErr) (s : State) : State :=
  match pieceOf s.blk id i with
  | none => s
  | some x =>
    if x.st ≠ .running ∨ s.blk.engs[eid x.eng].st ≠ .run then s
    else if s.blk.chans[cid (segChan x.pseg)].st = .offline then s.upd (finishPiece id i .channelOffline x.eng s.blk)
    else
      let s := advancePiece id i errs s
      match pieceOf s.blk id i with
      | none => s
      | some x => if pieceOver s.blk id i x then s.upd (finishPiece id i x.status x.eng s.blk) else s

/-! ### What a line read leads to (R328, R345, R354) -/

/-- Poison an uncorrectable line (R324, R333, R240): the write enters the write queue at once, so that the line reads as poisoned
from here on. -/
def poisonAt (g l : Nat) (v : Stored) (b : Block) : Block :=
  let c := segChan g
  poisonSum g (submit c [maintAcc .poison c (plaOf g l) b.now (encodePoison (lineOf v)) 0] none none b)

/-- An uncorrectable line met by a piece (R345, R361): poisoned, FS_DATA_UE_DEMAND with events 0x0C07 and 0x0D01, and the queue
halts with cause 1. A piece of a descriptor that a CANCEL has completed stops nothing more (R373). -/
def engUe (d : Desc) (second : Bool) (line g l : Nat) (v : Stored) (b : Block) : Block :=
  let c := segChan g
  let own := descHandle d.words
  let h := accHandle d second
  let b := poisonAt g l v b
  let b := noteError c (plaOf g l) 1 .uncorrectable (ctrAdd (chnBase c + 0x12C) 1 (ctrAdd (chnBase c + 0x128) 1 b))
  let told := reports (fs .dataUeDemand) b
  let stops := d.st == .running || d.st == .stopped
  let e := ueEvent c h line
  let st := stopEvent own 1 d.tag (word [(line, 0), (b2n second, 31)])
  let evs : List OwnEv := [{ mask := portsOf b h, ev := e }]
  let evs := if stops then evs ++ [{ mask := portsOf b own, ev := st }] else evs
  let b := if told then rcSet (chnBase c + 0x11C) 2 b else b
  let b := raise (fs .dataUeDemand) (chanUnit c) e.lo evs b
  let b := if stops && !told then emit (portsOf b own) st b else b
  haltQueue own 1 (if stops then d.tag % 1024 else 0x3FF) b

/-- The piece that met the line stops at it (R371, R372). -/
def stopAt (d : Desc) (i : Nat) (x : Piece) (b : Block) : Block :=
  let y := { x with log := [], asked := false, try_ := x.try_ + 1 }
  let b := endDrained (descHandle d.words) (stopPiece d.id i y (leaveCtx x.eng d.id i b))
  kickEngine x.eng { b with ops := { b.ops with descs := b.ops.descs.filter fun d => !d.over } }

/-- The read or read-modify-write of a piece that still works at it: its descriptor and the piece. -/
def askerOf (b : Block) (id i try_ : Nat) : Option (Desc × Piece) :=
  (descOf b id).bind fun d => (d.pieces[i]?).bind fun x => if x.asked && x.try_ == try_ then some (d, x) else none

/-- A read of a piece returns a line as stored (R328, R345). What the write queue served has been decoded before. -/
def readTook (c : Nat) (e : Acc) (id i try_ : Nat) (second : Bool) (line : Nat) (v : Stored) (s : State) : State :=
  let b := s.blk
  let r := decodeLine e.double v
  let ans := fun (po : Bool) (w : Stored) (b : Block) => advancePiece id i [] (s.upd (answerPiece id i try_ (.line po (lineOf w)) b))
  match r.1 with
  | .clean => ans false v b
  | .corrected1 _ | .corrected2 _ _ =>
    let b := countCe c e.pla 1 r.1 r.2 b
    ans false r.2 (if demandScrub b c then scrubLine c e.pla r.2 b else b)
  | .poisoned =>
    let b := ctrAdd (chnBase c + 0x12C) 1 b
    ans true v (if e.held.isSome then b else noteError c e.pla 1 .poisoned b)
  | .uncorrectable =>
    match descOf b id with
    | none => s.upd (poisonAt e.pseg (plaLine e.pla) v b)
    | some d =>
      let b := engUe d second line e.pseg (plaLine e.pla) v b
      match askerOf b id i try_ with
      | some (d, x) => s.upd (stopAt d i x b)
      | none => s.upd b

/-- The read-modify-write of CAS64 or FADD64 has its line (R354): in one step it decides and takes the write-queue entry of its line,
in the place of its request. A poisoned line is not written (R360). -/
def rmwTook (c : Nat) (e : Acc) (id i line : Nat) (v : Stored) (s : State) : State :=
  match (descOf s.blk id).bind fun d => (d.pieces[i]?).map fun x => (d, x) with
  | none => s
  | some (d, x) =>
    let b := countServed c e s.blk
    let r := decodeLine e.double v
    let ans := fun (w : Stored) (wrote po : Bool) (b : Block) =>
      advancePiece id i [] (s.upd (answerPiece id i x.try_ (.word (atomicWord d.words (lineOf w)) wrote po) b))
    let put := fun (w : Stored) (b : Block) =>
      if atomicHits d.words (lineOf w) then
        let new := encode (atomicLine d.words (lineOf w))
        ans w true false (serveYounger c e new (modChan (cid c) (enterMerged e new) b))
      else ans w false false b
    match r.1 with
    | .clean => put v b
    | .corrected1 _ | .corrected2 _ _ =>
      let b := countCe c e.pla 1 r.1 r.2 b
      put r.2 (if demandScrub b c && !atomicHits d.words (lineOf r.2) then scrubLine c e.pla r.2 b else b)
    | .poisoned => ans v false true (noteError c e.pla 1 .poisoned (ctrAdd (chnBase c + 0x12C) 1 b))
    | .uncorrectable => s.upd (stopAt d i x (engUe d false line e.pseg (plaLine e.pla) v b))

/-! ### The fold at the lead engine (R357, R359, R362, R369, R375) -/

/-- Insert a piece in order of arrival. -/
def insertPiece (x : Piece) : List Piece → List Piece
  | [] => [x]
  | y :: t => if x.arrival < y.arrival then x :: y :: t else y :: insertPiece x t

/-- The pieces in the order of the fold: by logical segment, or by arrival in fast mode. -/
def foldOrder (d : Desc) : List Piece :=
  if dFast d.words && dOp d.words == 6 then d.pieces.foldl (fun l x => insertPiece x l) [] else d.pieces

/-- The result line of a REDUCE. -/
def reduceLine (d : Desc) : Line :=
  let ty : LaneTy := match dSub d.words / 4 with | 0 => .int32 | 1 => .binary32 | _ => .bfloat16
  match (foldOrder d).map (·.lanes) with
  | [] => 0
  | l :: t => laneOut ty (t.foldl (fun a x => lanesOp ty (dSub d.words % 4) a x) l)

/-- The CRC of the whole range. -/
def foldCrc (b : Block) (d : Desc) : Word :=
  d.pieces.foldl (fun c x =>
    let o := pieceOffs b d.words x
    crc32cJoin c (x.value.truncate 32) (64 * (o.2 - o.1))) 0

/-- The lowest differing offset of a COMPARE. -/
def foldDiff (d : Desc) : Word :=
  match (d.pieces.filter fun x => x.value != 0).map fun x => x.value.toNat - 1 with
  | [] => 0xFFFFFFFF
  | n :: t => BitVec.ofNat 32 (t.foldl min n)

/-- The combined value of owner-defined pieces; what the combine code leaves open is free. -/
def foldOwner (d : Desc) (fl : List Byte) (b : Block) : BitVec 64 × Block :=
  let vs := d.pieces.map (·.value)
  let lo := vs.map fun v => (v.truncate 32 : Word)
  let r := draw b
  let q := draw r.2
  let put := fun (w : Word) => (r.1 ++ w, r.2)
  match fmtCombine fl, vs, lo with
  | 1, _, l :: t => put (t.foldl (· + ·) l)
  | 2, _, l :: t => put (t.foldl (i32Sel false) l)
  | 3, _, l :: t => put (t.foldl (i32Sel true) l)
  | 4, v :: t, _ => (t.foldl (· ^^^ ·) v, b)
  | _, [v], _ => (v, b)
  | _, _, _ => (q.1 ++ r.1, q.2)

/-- Status of a descriptor: the first in the order of R12 among its pieces (R363). -/
def foldStatus (d : Desc) : Status := d.pieces.foldl (fun a x => a.first x.status) .ok

/-- The least of the offsets that the pieces hold. -/
def leastOf (l : List (Option Nat)) : Option Nat := l.foldl (fun a x => match x with | some n => lowest a n | none => a) none

/-- The result line, if the operation has a DATA slot, and result_lo on OK (R353). -/
def foldResult (d : Desc) (b : Block) : Option Line × Word × Block :=
  let op := dOp d.words
  let v := (d.pieces.headD { lseg := 0 }).value
  if op = 4 then (some (v.zeroExtend 512), BitVec.ofNat 32 (b2n (d.pieces.any (·.wrote))), b)
  else if op = 5 then (some (v.zeroExtend 512), v.truncate 32, b)
  else if op = 6 then (some (reduceLine d), 0xFFFFFFFF, b)
  else if op = 9 then (none, foldCrc b d, b)
  else if op = 10 then (none, foldDiff d, b)
  else match ownerFmt b op with
    | some fl =>
      if fmtFlag fl 3 then let r := foldOwner d fl b; (some (r.1.zeroExtend 512), r.1.truncate 32, r.2)
      else (none, 0xFFFFFFFF, b)
    | none => (none, 0xFFFFFFFF, b)

/-- LEAD_FOLD_DONE: the lead engine, which runs, has folded the partials: the DATA slot goes, and the completion waits for the collector. -/
def leadFold (id : Nat) (b : Block) : Block :=
  match descOf b id with
  | none => b
  | some d =>
    if d.st ≠ .running ∨ (d.pieces.any fun x => x.st != .ended) ∨ (d.led ∧ b.engs[eid d.lead].st ≠ .run) then b else
    let st := foldStatus d
    let r := foldResult d b
    let b := r.2.2
    let b := match r.1 with
      | some v =>
        if st = .ok ∨ st = .poison then
          sendData d.port { tag := d.tag, line := 0, poison := st == .poison, d := v, read := false } b
        else b
      | none => b
    let off := fun (o : Option Nat) => match o with | some n => BitVec.ofNat 32 n | none => 0xFFFFFFFF
    let res : Word := match st with
      | .ok => r.2.1
      | .poison => off (leastOf (d.pieces.map (·.off)))
      | .accessError => off (leastOf (d.pieces.map (·.skip)))
      | _ => 0xFFFFFFFF
    modDesc id (fun d => { d with st := .done, status := st, result := res }) b

/-! ### Contexts (R381 to R384) -/

/-- An access of a migration's copy. -/
def AccSrc.copyOf (src : Nat) : AccSrc → Bool
  | .copyRead g _ | .copy g _ => g == src
  | _ => false

/-- A migration that an engine's context 1 copies: its channel is the source (R381). -/
def copyOf (b : Block) (e : Nat) : Option Mig := b.srl.migs.find? fun m => segChan m.src == e && m.stage != .release

/-- What a context works on now. -/
def ctxWork (b : Block) (e : Nat) (k : Nat) : Work :=
  if k = 0 then
    if b.start.step = 13 then .tsv
    else if b.start.step = 14 then .train
    else if b.chans[cid e].softRun.isSome then .soft
    else if (b.cal.busy && b.cal.op == 1 && b.cal.target.toNat == e) || b.chans[cid e].recal != [] then .tsv
    else if b.chans[cid e].dillRun && rwf (chnBase e + 0x100) 0 0 b == 1 then .dill
    else .none
  else if k = 1 then (match copyOf b e with | some m => .mig m.src | none => .none)
  else b.engs[eid e].ctx[Fin.ofNat 6 k].work

/-- The table of a task (R380). -/
def workTable (b : Block) (w : Work) : Option Nat :=
  let dir := Config.engDirectory (engSeq b)
  match w with
  | .none => none
  | .dill => dir 0
  | .mig _ => dir 1
  | .soft => dir 2
  | .tsv => dir 3
  | .train => dir 4
  | .piece id _ => (descOf b id).bind fun d => descTable b d.words

/-- An owner-defined piece runs in the context. -/
def ownerWork (b : Block) (w : Work) : Bool :=
  match w with
  | .piece id _ => (match descOf b id with | some d => ownerOp (dOp d.words) | none => false)
  | _ => false

/-- An action may run in a context (R384). -/
def actionOk (act k : Nat) (owner : Bool) : Bool :=
  if act ≥ 0x3C0 then false
  else if 0x300 ≤ act ∧ act ≤ 0x37F then k == 0
  else if (0x280 ≤ act ∧ act ≤ 0x2FF) ∨ 0x380 ≤ act then k ≤ 1 && !owner
  else true

/-! ### Traps (R386 to R389) -/

/-- ENG_TRAP. -/
def trapWord (cause k state ev act : Nat) : Word := word [(cause, 28), (k, 25), (state, 19), (ev, 14), (act, 0)]

/-- Event 0x0E01 (R395). -/
def trapEvent (e cause k state ev act : Nat) : Ev :=
  { code := 0x0E01, lo := word [(e, 0), (cause, 8), (k, 12)], hi := word [(act, 0), (state, 10), (ev, 16)] }

/-- A piece goes back to its first line (R388). CAS64 and FADD64 have one access, which is not made twice (R372). -/
def rewindPiece (b : Block) (w : BitVec 512) (x : Piece) : Piece :=
  if dOp w = 4 ∨ dOp w = 5 then x else
  { x with pos := pieceFirst b w x, lanes := [], value := 0, status := .ok, off := none, skip := none
           log := [], asked := false, try_ := x.try_ + 1, list := none, fin := false }

/-- What was running restarts (R388): pieces, the copy and the Dill walk go back to their first line. -/
def rewindWork (e : Nat) (b : Block) : Block :=
  let descs := b.ops.descs.map fun d =>
    { d with pieces := d.pieces.map fun x => if x.eng = e ∧ x.st = .running then rewindPiece b d.words x else x }
  let b := { b with
    ops := { b.ops with descs := descs }
    srl := { b.srl with migs := b.srl.migs.map fun m => if segChan m.src = e ∧ m.stage = .copy then { m with copied := 0 } else m } }
  let b := modChan (cid e) (fun x => { x with softRun := x.softRun.map fun r => { r with copied := 0 } }) b
  modEng (eid e) (fun x => { x with evq := [], ctx := x.ctx.map fun c => startCtx b c.work c.table })
    (modChan (cid e) (fun x => { x with dillLine := 0 }) b)

/-- The treatment of the piece that caused a trap (R386). -/
def trapPiece (e k cause : Nat) (b : Block) : Block :=
  match b.engs[eid e].ctx[Fin.ofNat 6 k].work with
  | .piece id i =>
    match (descOf b id).bind fun d => (d.pieces[i]?).map fun x => (d, x) with
    | none => b
    | some (d, x) =>
      if cause = 1 then b
      else if cause = 2 then
        let h := descHandle d.words
        let live := d.st == .running || d.st == .stopped
        let b := leaveCtx e id i (stopPiece id i (rewindPiece b d.words x) b)
        let r := draw b
        let b := if live then emit (portsOf b h) (stopEvent h 2 d.tag r.1) r.2 else b
        haltQueue h 2 (if live then d.tag % 1024 else 0x3FF) b
      else leaveCtx e id i (endPiece id i .badArg b)
  | _ => b

/-- 1 s in ticks. -/
def second1 : Nat := 100000000

/-- An engine traps (R387): its record, FS_ENG_TRAP, the piece, then the reload, or HALTED after too many traps (R389). -/
def engTrap (e k cause state ev act : Nat) (addr : Word) (b : Block) : Block :=
  let x := b.engs[eid e]
  if x.st ≠ .run ∧ x.st ≠ .held then b else
  let times := (x.traps.filter fun t => b.now - t < second1) ++ [b.now]
  let b := modEng (eid e) (fun x =>
    let y := { x with traps := times }
    if wfield x.trap 31 28 ≠ 0 then y else { y with trap := trapWord cause k state ev act, trapAddr := addr }) b
  let ev1 := trapEvent e cause k state ev act
  let b := raise (fs .engTrap) (0x30 + e) ev1.lo [{ mask := allMask, ev := ev1 }] (ctrAdd (engBase e + 0x14) 1 b)
  if b.engs[eid e].st = .halted then b else
  let b := rewindWork e (trapPiece e k cause b)
  if times.length ≥ rwf (supBase + 8) 3 0 b then
    let b := modEng (eid e) (fun x => { x with st := .halted }) b
    let ev2 : Ev := { code := 0x0E02, lo := word [(e, 0), (min 15 times.length, 8)] }
    raise (fs .engRepeat) (0x30 + e) ev2.lo [{ mask := allMask, ev := ev2 }] b
  else modEng (eid e) (fun x => { x with st := .loading }) b

/-- ENGINE_RELOAD_DONE (R387, R388). -/
def reloadDone (e : Nat) (b : Block) : Block :=
  if b.engs[eid e].st ≠ .loading then b else
  let b := modEng (eid e) (fun x => { x with
    st := if heldNow b e then .held else .run, consts := Config.engConstants (engSeq b) }) (ctrAdd (supBase + 0x1C) 1 b)
  kickEngine e b

/-- A write of 1 to ENG_CTRL.reload (R389), which an engine under ENG_SRAM refuses (R506; log entry 125): a HALTED engine is loaded
again and a new 1 s window begins; the work that it leaves begins anew (R388, R465). -/
def reloadEngine (e : Nat) (b : Block) : Status × Block :=
  if b.engs[eid e].st ≠ .halted ∨ engTested b e then (.badArg, b)
  else (.ok, rewindWork e (modEng (eid e) (fun x => { x with st := .loading, traps := [] }) b))

/-! ### ENGINE_EVENT -/

/-- The context of an engine, at the start of its table when its task has changed. -/
def ctxNow (b : Block) (e k : Nat) : Ctx :=
  let c := b.engs[eid e].ctx[Fin.ofNat 6 k]
  let t := workTable b (ctxWork b e k)
  if c.table = t then c else startCtx b (if k ≥ 2 then c.work else .none) t

/-- Store a context. -/
def setCtx (e k : Nat) (c : Ctx) (b : Block) : Block :=
  modEng (eid e) (fun x => { x with ctx := x.ctx.set (Fin.ofNat 6 k) c }) b

/-- Lines that the work of a context has still to do (R384). -/
def ctxLeft (b : Block) (e k : Nat) : Nat :=
  match ctxWork b e k with
  | .none | .tsv | .train => 0
  | .dill => 1024 - b.chans[cid e].dillLine
  | .soft => (match b.chans[cid e].softRun with | some r => 32 - r.copied | none => 0)
  | .mig src => (match migFrom b src with | some m => 1024 - m.copied | none => 0)
  | .piece id i =>
    (match descOf b id, pieceOf b id i with
     | some d, some x => (if listOp (dOp d.words) then min (16 * (pieceOffs b d.words x).2) (dCount d.words)
         else (pieceOffs b d.words x).2) - x.pos
     | _, _ => 0)

/-- The context window as an action leaves it: 4 KiB (R379). -/
def windowOf4K (l : List Byte) : List Byte := l.take 4096

/-- A context's access to data memory outside its window and the constant block (R382). -/
def outside (k : Nat) (a : Nat) : Bool := !((0x1000 * k ≤ a && a < 0x1000 * k + 0x1000) || (0x6000 ≤ a && a < 0x8000))

/-- Examine an event once (R139, R382): the state after it, and whether its action ran. -/
def ctxEvent (e k ev : Nat) (b : Block) : Block × Bool :=
  let c := ctxNow b e k
  match c.table.bind (Config.engTable (engSeq b)) with
  | none => (b, false)
  | some ws =>
    let x := tableEntry ws c.state ev
    let act := entAction x
    if !entValid x then (engTrap e k 4 c.state ev act 0 (setCtx e k c b), false)
    else if entGuard x ≠ 0 ∧ !Config.engGuard (entGuard x) c.window b.engs[eid e].consts (ctxLeft b e k) b.now then
      (setCtx e k { c with heldEv := if entHold x then c.heldEv ++ [ev] else c.heldEv } b, false)
    else if !actionOk act k (ownerWork b (ctxWork b e k)) then (engTrap e k 5 c.state ev act 0 (setCtx e k c b), false)
    else if (match Config.engAccess act c.window with | some a => outside k a | none => false) then
      (engTrap e k 6 c.state ev act (BitVec.ofNat 32 ((Config.engAccess act c.window).getD 0)) (setCtx e k c b), false)
    else
      let timed := if entStop x then false else if entTimer x ≠ 0 then true else c.timed
      let w := if act = 0 then c.window else windowOf4K (Config.engAction act c.window b.engs[eid e].consts (ctxLeft b e k) b.now)
      let b := setCtx e k { c with window := w, state := entNext x, timed := timed } b
      if entFault x then (engTrap e k 4 c.state ev act 0 b, false) else (b, true)

/-- Examine held events of a context in order up to the first that makes a transition; the rest stay held. -/
def ctxScan (e k : Nat) : List Nat → Block → Block × Bool
  | [], b => (b, false)
  | ev :: t, b =>
    let r := ctxEvent e k ev b
    let c := r.1.engs[eid e].ctx[Fin.ofNat 6 k]
    if r.2 then (setCtx e k { c with heldEv := c.heldEv ++ t } r.1, true)
    else if r.1.engs[eid e].st ≠ .run then (r.1, false)
    else ctxScan e k t r.1

/-- Held events are examined again after every transition, in the order they were held (R139). -/
def ctxHeld (e k : Nat) : Nat → Block → Block
  | 0, b => b
  | n + 1, b =>
    let c := b.engs[eid e].ctx[Fin.ofNat 6 k]
    let r := ctxScan e k c.heldEv (setCtx e k { c with heldEv := [] } b)
    if r.2 then ctxHeld e k n r.1 else r.1

/-- The context's window with the line that event 1 returns (R383). -/
def giveLine (e k : Nat) (line : List Byte) (b : Block) : Block :=
  if line = [] then b else
  let c := ctxNow b e k
  setCtx e k { c with window := windowOf4K (line ++ c.window.drop line.length) } b

/-- An engine takes an event of a context, with the line that it returns. -/
def engineEvent (e k ev : Nat) (line : List Byte) (b : Block) : Block :=
  if b.engs[eid e].st ≠ .run ∨ ctxWork b e k = .none then b else
  let b := giveLine e k line b
  let c := ctxNow b e k
  if ev = 31 ∧ !c.timed then b else
  let b := if ev = 31 then setCtx e k { c with timed := false } b else b
  let r := ctxEvent e k ev b
  if r.2 then ctxHeld e k c.heldEv.length r.1 else r.1

/-- An access of a context is held back by its receiver: it waits in a crossbar for room in its queue (R292), or for the pacer
(R274). -/
def heldBack (b : Block) (e k : Nat) : Bool :=
  let waits := fun (f : AccSrc → Bool) => b.chans.toList.any fun x =>
    (x.xbar.any fun w => w.lines.any fun a => f a.src) || x.maintWait.any fun a => f a.src
  match ctxWork b e k with
  | .piece id i => waits fun a => match a with
    | .engRead d n .. | .engRmw d n _ | .engWrite d n => d == id && n == i
    | _ => false
  | .mig src => waits fun a => a.copyOf src
  | .dill => b.chans[cid e].maintWait.any fun a => a.src == .dill
  | .soft => b.chans[cid e].maintWait.any fun a => a.src.soft
  | _ => false

/-- CONTEXT_WATCHDOG_EXPIRY (R385): it is suspended while the context's timer runs, and while an access of it is held back. -/
def watchdogExpiry (e k : Nat) (b : Block) : Block :=
  let c := ctxNow b e k
  if b.engs[eid e].st ≠ .run ∨ ctxWork b e k = .none ∨ c.timed ∨ heldBack b e k then b
  else
    let r := draw b
    engTrap e k 3 c.state (wfield r.1 4 0) (wfield r.1 14 5) 0 r.2

def execPieceEnd (desc piece : Nat) (errs : List LineErr) (s : State) : Res := .next (pieceDone desc piece errs s)
def execLeadFoldDone (desc : Nat) (s : State) : Res := .next (s.upd (leadFold desc s.blk))
def execContextWatchdogExpiry (e : EngId) (ctx : Fin 6) (s : State) : Res := .next (s.upd (watchdogExpiry e.val ctx.val s.blk))
def execEngineReloadDone (e : EngId) (s : State) : Res := .next (s.upd (reloadDone e.val s.blk))

end Sys2Proof.Machine
end

