-- ==== Sys2Proof/Machine/Migration.lean ====
section
/-! DEFINITION. Migrations (R248 to R261, R549) and the Sorrel commands (R262 to R265). -/

namespace Sys2Proof.Machine

open Sys2Proof

/-! ### The queue (R249) -/

/-- Priority of a reason (R248); 1 is the highest. -/
def Reason.prio : Reason → Nat
  | .evac => 1 | .host => 2 | .thermal => 3 | .balance => 4 | .compact => 5 | .pack => 5

/-- Migrations that a channel takes part in. -/
def migCount (b : Block) (c : Nat) : Nat := (b.srl.migs.filter fun m => segChan m.src == c || segChan m.dst == c).length

/-- The queue in the order in which it is looked at: by priority, then arrival. -/
def queueOrdered (b : Block) : List Order :=
  [1, 2, 3, 4, 5].flatMap fun k => b.srl.queue.filter fun o => o.reason.prio == k

/-- The segment of an order is under a drain of SHRINK or DESTROY: it is released where it lies (R234). -/
def drained (b : Block) (o : Order) : Bool :=
  match b.hnd.run with
  | some r => r.draining && r.handle == o.handle && decide (o.lseg ≥ r.first)
  | none => false

/-- A queued order can start (R249). -/
def canStart (b : Block) (o : Order) : Bool :=
  match mapEntry b o.handle o.lseg with
  | none => false
  | some e =>
    let c := segChan e.pseg
    !drained b o && !o.waiting && !e.quarantined && !e.migrating && decide (migCount b c < 2) && !chanClosed b c
      && !(b.srl.migs.any fun m => m.order.handle == o.handle && m.order.lseg == o.lseg)
      && (match o.reason, o.dest with | .host, some d => decide (migCount b d < 2) | _, _ => true)
      && b.engs[eid c].st != .held && b.engs[eid c].st != .halted && (copyOf b c).isNone
      && !b.sage.safe && !b.thm.safe

/-! ### The destination (R549) -/

/-- A channel may take a destination for a handle. -/
def candChan (b : Block) (qmask c : Nat) : Bool := inQmask qmask c && !chanClosed b c && decide (migCount b c < 2)

/-- The channel has a free segment that the reason may take (R251). -/
def hasRoom (b : Block) (fromReserve : Bool) (c : Nat) : Bool :=
  if fromReserve then freeInChan b c > 0 else freeAbove b c > 0

/-- Insert a channel before the first with fewer free segments. -/
def insertChan (b : Block) (c : Nat) : List Nat → List Nat
  | [] => [c]
  | d :: t => if freeInChan b c > freeInChan b d then c :: d :: t else d :: insertChan b c t

/-- Channels by free segments, most first, ties to the lower number. -/
def byFree (b : Block) (l : List Nat) : List Nat := l.foldl (fun a c => insertChan b c a) []

/-- Zone number of a core-die layer of a quadrant (R400). -/
def zoneOf (q l : Nat) : Nat := 17 * q + l

/-- Temperature of a core-die zone, Q8.8. -/
def coreTemp (b : Block) (q l : Nat) : Int := (b.thm.zones[Fin.ofNat 68 (zoneOf q l)]).temp.toInt

/-- SRL_COOL.trigger, or the core-die warning threshold where that is lower (R406), and the trigger less hysteresis, in Q8.8 °C.
-/
def coolTrigger (b : Block) : Int := min (256 * (rwf (srlBase + 0x2C) 7 0 b : Int)) (coreWarn b)
def coolBelow (b : Block) : Int := coolTrigger b - 256 * (rwf (srlBase + 0x2C) 11 8 b : Int)

/-- A slice reads below trigger less hysteresis. -/
def coolSlice (b : Block) (c d : Nat) : Bool := decide (coreTemp b (c / 8) d < coolBelow b)

/-- Candidates of a repair evacuation over the free segments that `res` names. -/
def evacDest (b : Block) (policy qmask src : Nat) (res : Bool) : Option Nat :=
  let c := segChan src
  let same := if candChan b qmask c && hasRoom b res c then pickIn b policy c (· != segSlice src) else none
  match same with
  | some s => some s
  | none =>
    (byFree b ((List.range 32).filter fun d => d != c && candChan b qmask d && hasRoom b res d)).findSome? (pickSeg b policy)

/-- Candidates of a temperature migration. -/
def thermalDest (b : Block) (qmask src : Nat) : Option Nat :=
  let c := segChan src
  let in_ := fun (d : Nat) => pickIn b 3 d (coolSlice b d)
  let l := c :: (List.range 32).filter (· != c)
  (l.filter fun d => candChan b qmask d && hasRoom b false d).findSome? in_

/-- Insert before the first element that does not come before it. -/
def insertBy (lt : Nat → Nat → Bool) (x : Nat) : List Nat → List Nat
  | [] => [x]
  | y :: t => if lt x y then x :: y :: t else y :: insertBy lt x t

/-- Sort; equal elements keep their order. -/
def sortBy (lt : Nat → Nat → Bool) (l : List Nat) : List Nat := l.foldl (fun a x => insertBy lt x a) []

/-- The channel of a balance move of a segment: the eligible channel of least heat, in home_q when the mask has it (R248). -/
def balanceChan (b : Block) (h l : Nat) : Option Nat :=
  let q := attrQmask (attrOf b h)
  let home := match mapEntry b h l with | some e => e.homeQ | none => 0
  bestBy (fun x y => decide (b.srl.chHeat[cid x] < b.srl.chHeat[cid y]))
    ((eligible b q).filter fun c => q / 2 ^ home % 2 == 0 || c / 8 == home)

/-- Another quadrant of a mask that holds more than 64 × high_water free segments, the lowest (R248). -/
def roomyQuad (b : Block) (qmask q : Nat) : Option Nat :=
  (List.range 4).find? fun r => r != q && qmask / 2 ^ r % 2 == 1
    && decide (spaceQ b r > 64 * rwf (srlBase + 0x30) 31 16 b)

/-- The channel of a compaction move of a handle's segment out of quadrant `q`: that quadrant's eligible channel with the most
free segments (R248). -/
def compactChan (b : Block) (h q : Nat) : Option Nat :=
  (roomyQuad b (attrQmask (attrOf b h)) q).bind fun r =>
    (byFree b ((eligible b (attrQmask (attrOf b h))).filter fun c => c / 8 == r)).head?

/-- Segments of a handle in a channel. -/
def inChan (b : Block) (h c : Nat) : Nat :=
  (b.srl.map.filter fun e => e.1 / 2 ^ 21 == h && segChan e.2.pseg == c && !e.2.quarantined).length

/-- Channels that hold a handle's segments, fullest first, ties to the lower number. -/
def heldChans (b : Block) (h : Nat) : List Nat :=
  sortBy (fun x y => decide (inChan b h x > inChan b h y)) ((List.range 32).filter fun c => decide (inChan b h c > 0))

/-- The channel of a gathering move: the handle's fullest eligible channel (R248). -/
def gatherChan (b : Block) (h : Nat) : Option Nat :=
  (heldChans b h).find? fun c => (eligible b (attrQmask (attrOf b h))).contains c

/-- The channel that R248 names for an order, from the state at RESERVE (R549). -/
def namedChan (b : Block) (o : Order) (src : Nat) : Option Nat :=
  match o.reason with
  | .balance => balanceChan b o.handle o.lseg
  | .compact => compactChan b o.handle (segChan src / 8)
  | .pack => gatherChan b o.handle
  | _ => o.dest

/-- The destination of an order (R549). -/
def destOf (b : Block) (o : Order) (src : Nat) : Option Nat :=
  let a := attrOf b o.handle
  let p := attrPolicy a
  let q := attrQmask a
  let at_ := fun (c : Nat) => if candChan b q c && hasRoom b false c then pickSeg b p c else none
  match o.reason, o.dest with
  | .evac, _ =>
    match evacDest b p q src false with
    | some s => some s
    | none => evacDest b p q src true
  | .host, none => (byFree b ((List.range 32).filter fun c => candChan b q c && hasRoom b false c)).findSome? (pickSeg b p)
  | .thermal, _ => thermalDest b q src
  | _, _ => (namedChan b o src).bind at_

/-! ### MIGRATION_START -/

/-- Take a waiting order out, with the place that it holds (R249). -/
def unqueue (o : Order) (b : Block) : Block :=
  let seg := (mapEntry b o.handle o.lseg).map (·.pseg)
  dropOrders (· == o) (fun s => o.reason == .evac && seg == some s) b

/-- RESERVE takes the destination (R251, R252 step 1), and COPY begins: the copy reads no line of a source that is unwritten now
(R255). -/
def reserveDest (o : Order) (src dst : Nat) (b : Block) : Block :=
  let b := setProt dst (attrProt (attrOf b o.handle) == 1) (unqueue o (runPacer (segChan src) (runPacer (segChan dst) b)))
  let b := modEntry o.handle o.lseg (fun e => { e with migrating := true }) b
  { b with srl := { b.srl with
      migs := b.srl.migs ++ [{ order := o, src := src, dst := dst, blank := !isWritten b src }] } }

/-- An evacuation finds no destination (R260): event 0x0902 once, and the order waits for the next decay epoch. -/
def evacWaits (o : Order) (src : Nat) (b : Block) : Block :=
  let w := { o with waiting := true, waitSent := true }
  let b := { b with srl := { b.srl with queue := b.srl.queue.map fun x => if x = o then w else x } }
  if o.waitSent then b else
  emit (portsOf b o.handle) { code := 0x0902, lo := BitVec.ofNat 32 src, hi := BitVec.ofNat 32 o.handle }
    (rcSet (srlBase + 0x60) 0 (ctrAdd (srlBase + 0x50) 1 b))

/-- An order of priority 3 to 5 without a destination is dropped and counted (R249, R252). -/
def dropOrder (o : Order) (b : Block) : Block := rcSet (srlBase + 0x60) 4 (ctrAdd (srlBase + 0x4C) 1 (unqueue o b))

/-- Start one order; `none` when it stays as it is. -/
def startOrder (b : Block) (o : Order) : Option Block :=
  if !canStart b o then none else
  let src := match mapEntry b o.handle o.lseg with | some e => e.pseg | none => 0
  match destOf b o src with
  | some d => some (reserveDest o src d b)
  | none =>
    match o.reason with
    | .evac => some (evacWaits o src b)
    | .host => none
    | _ => some (dropOrder o b)

/-- MIGRATION_START: the first order that can start. -/
def migStart (b : Block) : Block := ((queueOrdered b).findSome? (startOrder b)).getD b

/-! ### COPY_DONE (R252 step 2, R257) -/

/-- Change the migration whose source is a physical segment. -/
def modMig (src : Nat) (f : Mig → Mig) (b : Block) : Block :=
  { b with srl := { b.srl with migs := b.srl.migs.map fun m => if m.src = src then f m else m } }

/-- A copy read of a migration, or a copy write of it. -/
def AccSrc.copyReadOf (src : Nat) : AccSrc → Bool
  | .copyRead g _ => g == src
  | _ => false
def AccSrc.copyWriteOf (src : Nat) : AccSrc → Bool
  | .copy g _ => g == src
  | _ => false

/-- The copy write of line `l`: it waits for the destination's pacer (R250), and the copy goes on to the next line. -/
def copyPut (m : Mig) (l : Nat) (v : Stored) (b : Block) : Block :=
  awaitPacer (.copy m.src l) (segChan m.dst) (plaOf m.dst l) v 0 (modMig m.src (fun x => { x with copied := l + 1 }) b)

/-- The copy meets an uncorrectable line (R257): both sides poisoned, the queue halted, event 0x0904; the migration waits unless
it is a repair evacuation or the handle has no queue. -/
def copyUe (m : Mig) (l : Nat) (v : Stored) (b : Block) : Block :=
  let h := m.order.handle
  let c := segChan m.src
  let b := copyPut m l (encodePoison (lineOf v)) (poisonAt m.src l v b)
  let b := noteError c (plaOf m.src l) 3 .uncorrectable (ctrAdd (chnBase c + 0x128) 1 b)
  let waits := m.order.reason != .evac && opqDepth (attrOpq (attrOf b h)) != 0
  let b := emit (portsOf b h) { code := 0x0904, lo := word [(h, 0), (l, 16)], hi := BitVec.ofNat 32 m.order.lseg }
    (rcSet (srlBase + 0x60) 3 b)
  let b := modMig m.src (fun x => { x with halted := waits }) b
  haltQueue h 3 0x3FF (emit (portsOf b h) (stopEvent h 3 0x3FF (word [(1024 * m.order.lseg + l, 0)])) b)

/-- A copy read returns line `l` as stored (R252, R254): corrected, with fresh check bytes; a poisoned line stays poisoned. What the
write queue served has been decoded before. -/
def copyTook (e : Acc) (src l : Nat) (v : Stored) (b : Block) : Block :=
  match migFrom b src with
  | none => b
  | some m =>
    if m.stage ≠ .copy ∨ l ≠ m.copied then b else
    let c := segChan src
    let b := postCtx c 1 1 (bytesOf 64 (lineOf v)) b
    let r := decodeLine (isDouble b src) v
    match r.1 with
    | .clean => copyPut m l (encode (lineOf v)) b
    | .corrected1 _ | .corrected2 _ _ => copyPut m l (encode (lineOf r.2)) (countCe c (plaOf src l) 3 r.1 r.2 b)
    | .poisoned =>
      copyPut m l (encodePoison (lineOf v)) (if e.held.isSome then b else noteError c (plaOf src l) 3 .poisoned b)
    | .uncorrectable => copyUe m l v b

/-- The copy of a migration may go on: the source's engine runs it, and the stack is in no safe state (R410, R469). -/
def copyMay (b : Block) (m : Mig) : Bool :=
  m.stage == .copy && !m.halted && b.engs[eid (segChan m.src)].st == .run && b.engs[eid (segChan m.dst)].st != .halted
    && !b.sage.safe && !b.thm.safe

/-- Lines of the copy are still to be made: to be read, or to enter the destination's write queue. A source that was unwritten when
COPY began has none (R255). -/
def copyLeft (b : Block) (m : Mig) : Bool :=
  !m.blank && (decide (m.copied < 1024)
    || maintPending b.chans[cid (segChan m.src)] (AccSrc.copyReadOf m.src)
    || b.chans[cid (segChan m.dst)].maintWait.any fun e => AccSrc.copyWriteOf m.src e.src)

/-- The copy reads its next line: the read waits for the source's pacer (R250). One line is on its way at a time. -/
def copyNext (src : Nat) (errs : List LineErr) (b : Block) : Block :=
  match migFrom b src with
  | none => b
  | some m =>
    let c := segChan src
    if !copyMay b m || m.blank || decide (m.copied ≥ 1024) || maintPending b.chans[cid c] (AccSrc.copyReadOf src)
        || b.chans[cid (segChan m.dst)].maintWait.any (fun e => AccSrc.copyWriteOf src e.src) then b
    else awaitPacer (.copyRead src m.copied) c (plaOf src m.copied) 0 (errAt errs src m.copied) b

/-! ### COMMIT (R255, R256) -/

/-- A piece has been dispatched to an engine and has not ended. -/
def Piece.placed (x : Piece) : Bool := x.st == .waiting || x.st == .queued || x.st == .running || x.st == .stopped

/-- A piece that was dispatched to an engine and satisfies `f` writes a logical segment. -/
def pieceWrites (f : Piece → Bool) (s : State) (e h l : Nat) : Bool :=
  s.blk.ops.descs.any fun d => d.pieces.any fun x => x.placed && f x && x.eng == e && pieceHits s d x h l

/-- A piece that stopped on its engine writes the segment: it may stand until the host resumes its queue. The COMMIT hold neither
begins nor goes on meanwhile, so that no lookup is held for it (DESIGN CHOICE, log entry 119). -/
def stoppedWriter (s : State) (m : Mig) : Bool :=
  pieceWrites (fun x => x.st == .stopped) s (segChan m.src) m.order.handle m.order.lseg

/-- COPY_DONE: the COMMIT hold begins when every line is copied. A copy that is not done goes on with its next line. -/
def copyDone (src : Nat) (errs : List LineErr) (s : State) : State :=
  match migFrom s.blk src with
  | none => s
  | some m =>
    if !copyMay s.blk m then s
    else if copyLeft s.blk m then s.upd (copyNext src errs s.blk)
    else if stoppedWriter s m then s
    else s.upd (modMig src (fun x => { x with stage := .hold }) s.blk)

/-- A write to a physical segment waits in its channel: in the crossbar, in the queues or behind a fill (R256); a conditional write
that waits for the pacer is applied and forwarded as well (R333). -/
def writesWait (x : Chan) (g : Nat) : Bool :=
  (x.wq.any fun e => e.pseg == g) || (x.rq ++ x.inflight ++ x.served.map (·.1)).any (fun e => e.pseg == g && e.isMasked)
    || (x.xbar.any fun w => w.lines.any fun e => e.pseg == g && !e.isRead) || x.fills.contains g
    || (x.maintWait.any fun e => e.pseg == g && !e.isRead) || x.await.any fun w => w.pseg == g

/-- The destination has still to take a write: one that is forwarded waits in its crossbar, or its fill runs (R255, R256). -/
def destWaits (x : Chan) (g : Nat) : Bool :=
  x.fills.contains g || (x.xbar.any fun w => w.lines.any fun e => e.pseg == g)

/-- The COMMIT handshake is accepted (R256). -/
def mayCommit (s : State) (m : Mig) : Bool :=
  let x := s.blk.chans[cid (segChan m.src)]
  m.stage == .hold && !writesWait x m.src && !destWaits s.blk.chans[cid (segChan m.dst)] m.dst
    && !pieceWrites (fun _ => true) s (segChan m.src) m.order.handle m.order.lseg

/-- The entry takes the destination, in one handshake (R252 step 3). A repair evacuation that still waits for the segment has
nothing left to move: it leaves, and its source is retired at this migration's RELEASE (R259; log entry 120). -/
def switchEntry (m : Mig) (b : Block) : Block :=
  let w := isWritten b m.src
  let heat := heatOf b m.src
  let b := modEntry m.order.handle m.order.lseg (fun e => { e with pseg := m.dst, migrating := false, retired := false }) b
  let b := setWritten m.dst w b
  let srl := b.srl
  let b := { b with srl := { srl with heat := mput (mdel srl.heat m.src) m.dst heat } }
  let b := dropOrders (fun o => o.reason == .evac && o.handle == m.order.handle && o.lseg == m.order.lseg) (· == m.src) b
  ctrAdd (srlBase + 0x44) 1 (modMig m.src (fun x => { x with stage := .release }) b)

/-- COMMIT: held lookups go on at the destination. -/
def commitMig (src : Nat) (s : State) : State :=
  if s.blk.sage.safe || s.blk.thm.safe then s else
  match migFrom s.blk src with
  | none => s
  | some m =>
    if mayCommit s m then
      let s := s.upd (switchEntry m (postCtx (segChan src) 1 6 [] s.blk))
      flushAll (s.upd (dispatchAll s.blk))
    else if m.stage = .hold ∧ stoppedWriter s m then
      let s := s.upd (modMig src (fun x => { x with stage := .copy }) s.blk)
      flushAll (s.upd (dispatchAll s.blk))
    else s

/-! ### RELEASE (R252 step 4) -/

/-- A piece that was dispatched to a physical segment has not ended. -/
def pieceAt (b : Block) (g : Nat) : Bool := b.ops.descs.any fun d => d.pieces.any fun x => x.placed && x.pseg == g

/-- RELEASE: the source is freed or retired, and a host-requested migration ends with event 0x0901 (R264, R266). -/
def releaseMig (src : Nat) (b : Block) : Block :=
  match migFrom b src with
  | none => b
  | some m =>
    if m.stage ≠ .release ∨ segBusy b.chans[cid (segChan src)] src ∨ pieceAt b src ∨ b.sage.safe ∨ b.thm.safe then b else
    let b := { b with srl := { b.srl with migs := b.srl.migs.filter fun x => x.src != src } }
    let b := releaseSeg src (m.order.reason == .evac) b
    if m.order.reason = .host then
      emit (portsOf b m.order.handle)
        { code := 0x0901, lo := word [(m.order.handle, 0), (if m.late then Status.tooLate.code else 0, 12)]
          hi := BitVec.ofNat 32 m.order.lseg } b
    else b

/-! ### The Sorrel commands (R263 to R265) -/

/-- A Sorrel command finishes (R263). -/
def srlFinish (op : BitVec 3) (st : Status) (b : Block) : Block :=
  { b with srl := { b.srl with seq := b.srl.seq + 1, resOp := op, resStatus := st } }

/-- The running command finishes: SRL_CMD.busy clears. -/
def srlDone (st : Status) (b : Block) : Block :=
  let op := b.srl.runOp
  let b := srlFinish op st b
  { b with srl := { b.srl with busy := false } }

/-- Checks 1 and 2 of R265 for a command that names a handle, and check 3 on its segment. -/
def srlHandle (b : Block) (h l : Nat) (drain : Bool) : Status :=
  if h = 0 then (if b.hnd.flat then .accessError else .noHandle)
  else match handleOf b h with
    | none => .noHandle
    | some x =>
      if x.st = .creating then .noHandle
      else if drain && x.st == .draining then .accessError
      else if decide (l ≥ x.size) || (mapEntry b h l).isNone then .badArg
      else .ok

/-- A segment has an order or a migration. -/
def hasMove (b : Block) (h l : Nat) : Bool :=
  (orderOf b h l).isSome || b.srl.migs.any fun m => m.order.handle == h && m.order.lseg == l

/-- SEG_QUERY. -/
def segQuery (b : Block) : Block :=
  let h := b.srl.runHandle
  let l := b.srl.runSeg
  match srlHandle b h l false, mapEntry b h l with
  | .ok, some e =>
    if e.quarantined then
      let r := draw b
      srlDone .ok { r.2 with srl := { r.2.srl with resEntry := r.1 } }
    else srlDone .ok { b with srl := { b.srl with resEntry := entryWord b e } }
  | .ok, none => srlDone .badArg b
  | st, _ => srlDone st b

/-- Kind, handle and logical segment of a physical segment (R262, R251). -/
def physKind (b : Block) (s : Nat) : Nat × Nat × Nat :=
  if inFlat b s then (4, 0, 0)
  else if b.srl.retired.contains s then (5, 0, 0)
  else if b.srl.lost.contains s then (6, 0, 0)
  else match ownerOf b s with
    | .owned h l => (1, h, l)
    | .dest h l => (2, h, l)
    | .free =>
      if (migFrom b s).isSome then (6, 0, 0)
      else if freeInChan b (segChan s) ≤ reserve b then (3, 0, 0) else (0, 0, 0)

/-- PHYS_QUERY. -/
def physQuery (b : Block) : Block :=
  let s := b.srl.runSeg
  if !segExists s then srlDone .badArg b else
  let k := physKind b s
  srlDone .ok { b with srl := { b.srl with
    resOwner := word [(k.1, 16), (k.2.1, 0)], resLseg := BitVec.ofNat 32 k.2.2 } }

/-- Checks 3 to 5 of MIGRATE. -/
def migrateCheck (b : Block) (h l dest : Nat) : Status :=
  match srlHandle b h l true, mapEntry b h l with
  | .ok, some e =>
    let q := attrQmask (attrOf b h)
    let any := dest == 0x3F
    if (!any && (decide (dest ≥ 32) || !inQmask q dest)) || hasMove b h l || e.quarantined then .badArg
    else if (any && (eligible b q).isEmpty)
        || (!any && decide (((List.range 16).map (unusedIn b dest)).sum ≤ reserve b))
        || decide (b.srl.queue.length - evacQueued b ≥ 4096) then .noSpace
    else if b.chans[cid (segChan e.pseg)].st = .offline ∨ (any = false ∧ b.chans[cid dest].st = .offline) then .channelOffline
    else .ok
  | .ok, none => .badArg
  | st, _ => st

/-- MIGRATE. -/
def migrateCmd (b : Block) : Block :=
  let h := b.srl.runHandle
  let l := b.srl.runSeg
  let st := migrateCheck b h l b.srl.runDest
  if st ≠ .ok then srlDone st b else
  srlDone .ok (queueOrder { reason := .host, handle := h, lseg := l
                            dest := if b.srl.runDest = 0x3F then none else some b.srl.runDest } b)

/-- ABORT (R258). -/
def abortCmd (b : Block) : Block :=
  let h := b.srl.runHandle
  let l := b.srl.runSeg
  match srlHandle b h l false with
  | .ok =>
    match orderOf b h l, migOf b h l with
    | some o, _ => srlDone .ok (unqueue o b)
    | none, some m => srlDone .ok (renewEvac m (abortCopy m b))
    | none, none =>
      match b.srl.migs.find? fun m => m.order.handle == h && m.order.lseg == l with
      | some m => srlDone .tooLate (modMig m.src (fun x => { x with late := true }) b)
      | none => srlDone .badArg b
  | st => srlDone st b

/-- RETIRE (R259). -/
def retireCmd (b : Block) : Block :=
  let s := b.srl.runSeg
  if !segExists s || inFlat b s || b.srl.retired.contains s then srlDone .badArg b
  else srlDone .ok (orderRetire s b)

/-- A running command of a code. -/
def whenRuns (op : BitVec 3) (f : Block → Block) (s : State) : State :=
  if s.blk.srl.busy && s.blk.srl.runOp == op && !s.blk.sage.safe && !s.blk.thm.safe then s.upd (f s.blk) else s

/-- A Sorrel go that commits (R263): it starts the command, or finishes at once; a go without a command or in CHIVE has no
effect there. -/
def srlGo (op : BitVec 3) (b : Block) : Block :=
  if !b.ready || b.sage.safe || b.thm.safe then srlFinish op .accessError b
  else if b.srl.busy || op == 0 || op == 6 || op == 7 then srlFinish op .badArg b
  else { b with srl := { b.srl with
    busy := true, runOp := op, runHandle := rwf (srlBase + 4) 11 0 b, runSeg := rwf (srlBase + 8) 20 0 b
    runDest := rwf (srlBase + 0xC) 5 0 b } }

def execMigrationStart (s : State) : Res := .next (s.upd (migStart s.blk))
/-- COPY_DONE. -/
def execCopyDone (src : Nat) (errs : List LineErr) (s : State) : Res := .next (copyDone src errs s)
def execCommit (src : Nat) (s : State) : Res := .next (commitMig src s)
def execRelease (src : Nat) (s : State) : Res := .next (s.upd (releaseMig src s.blk))
def execSegQuery (s : State) : Res := .next (whenRuns 1 segQuery s)
def execPhysQuery (s : State) : Res := .next (whenRuns 2 physQuery s)
def execMigrate (s : State) : Res := .next (whenRuns 3 migrateCmd s)
/-- A hold may have ended: held lookups go on. -/
def settle (s : State) : State := flushAll (s.upd (dispatchAll s.blk))

def execAbort (s : State) : Res := .next (settle (whenRuns 4 abortCmd s))
def execRetire (s : State) : Res := .next (whenRuns 5 retireCmd s)

end Sys2Proof.Machine
end

