-- ==== Sys2Proof/Machine/Handles.lean ====
section
/-! DEFINITION. The handle commands of R226 to R236: the checks, the instant of change of each command, the drain, and the end.
The register write that issues a command is in `RegWrite.lean`. -/

namespace Sys2Proof.Machine

open Sys2Proof

/-! ### Checks (R217, R229) -/

/-- The encodings of R217 that CREATE refuses. -/
def attrOk (a : Word) : Bool := attrMigr a != 3 && decide (attrOpq a ≤ 5) && attrQmask a != 0 && attrPorts a != 0

/-- The lowest FREE number (R228). -/
def freeHandle (b : Block) : Option Nat := ((List.range 4096).drop 1).find? fun h => (handleOf b h).isNone

/-- Free segments in the quadrants of a mask (R228). -/
def maskSpace (b : Block) (q : Nat) : Nat := (((List.range 4).filter fun i => q / 2 ^ i % 2 == 1).map (spaceQ b)).sum

/-- Bandwidth and class of HND_ARG_RESV (R218). -/
def resvBw (r : Word) : Nat := wfield r 15 0
def resvClass (r : Word) : Nat := wfield r 18 16

/-- The share of a reservation in each quadrant of its mask (R282). -/
def resvShare (r : Word) (q : Nat) : Nat := ceilDiv (resvBw r) ((List.range 4).filter fun i => q / 2 ^ i % 2 == 1).length

/-- SAV_QRESVq: the sum of all shares (R282). -/
def resvSum (x : SavQ) : Nat := x.resv.toList.sum

/-- Savory admits a reservation (R286). -/
def admits (b : Block) (r : Word) (q : Nat) : Bool :=
  resvBw r == 0 ||
    (List.finRange 4).all fun i =>
      q / 2 ^ i.val % 2 == 0 || decide (resvSum b.sav.q[i] + resvShare r q ≤ b.sav.q[i].admission)

/-- Change the reservations of a class in every quadrant of a mask. -/
def modResv (f : Nat → Nat) (r : Word) (q : Nat) (b : Block) : Block :=
  if resvBw r = 0 then b else
  forAll 4 (fun i b =>
    if q / 2 ^ i.val % 2 = 1 then
      modSavQ i (fun x => { x with resv := x.resv.set (Fin.ofNat 8 (resvClass r)) (f x.resv[Fin.ofNat 8 (resvClass r)]) }) b
    else b) b

/-- The latched arguments of a handle command (R226). -/
structure HndArgs where
  op : Nat
  h : Nat
  size : Nat
  attr : Word
  resv : Word
deriving DecidableEq, Repr

def hndArgs (op : Nat) (b : Block) : HndArgs :=
  { op := op, h := rwf (hndBase + 4) 11 0 b, size := rwf (hndBase + 8) 20 0 b, attr := rw (hndBase + 0xC) b
    resv := rw (hndBase + 0x10) b }

/-- A code that names no command (R228). -/
def hndNoCommand (op : Nat) : Bool := op == 0 || op == 6 || op == 7

/-- Checks 1 to 5 of CREATE. -/
def createCheck (b : Block) (a : HndArgs) : Status :=
  if (freeHandle b).isNone then .noHandle
  else if !attrOk a.attr || a.size == 0 then .badArg
  else if maskSpace b (attrQmask a.attr) < a.size then .noSpace
  else if !admits b a.resv (attrQmask a.attr) then .overcommit
  else .ok

/-- Checks 1 to 6 of GROW, SHRINK and DESTROY. -/
def changeCheck (b : Block) (a : HndArgs) : Status :=
  match handleSize b a.h with
  | none => .noHandle
  | some n =>
    if a.h = 0 then .accessError
    else if (a.op == 2 && decide (a.size ≤ n)) || (a.op == 3 && decide (a.size ≥ n)) then .badArg
    else if a.op = 2 ∧ maskSpace b (attrQmask (attrOf b a.h)) < a.size - n then .noSpace
    else if a.op = 3 ∧ (mfind b.ops.halts a.h).isSome then .haltedUe
    else .ok

/-- Check 1 of QUERY: a DRAINING handle is served. -/
def queryCheck (b : Block) (h : Nat) : Status :=
  if h = 0 then (if b.hnd.flat then .ok else .noHandle)
  else match handleOf b h with
    | some x => if x.st = .creating then .noHandle else .ok
    | none => .noHandle

/-- The outcome of the checks of R229, R90, R102, R412 and R470. -/
def hndCheck (b : Block) (a : HndArgs) : Status :=
  if refusing b then .accessError
  else if b.start.chive then
    (if a.op = 5 ∧ a.h = 0 then queryCheck b 0 else if a.op = 1 then .noHandle else .accessError)
  else if hndNoCommand a.op then .badArg
  else if a.op = 1 then createCheck b a
  else if a.op = 5 then queryCheck b a.h
  else changeCheck b a

/-! ### The instant of change (R231) -/

/-- Written segments of a handle within its size. -/
def writtenOf (b : Block) (h size : Nat) : Nat :=
  if h = 0 then (b.srl.written.filter (inFlat b)).length
  else (b.srl.map.filter fun e => e.1 / 2 ^ 21 == h && decide (e.1 % 2 ^ 21 < size) && !e.2.quarantined
    && isWritten b e.2.pseg).length

/-- What QUERY takes (R225, R231). -/
def queryInfo (b : Block) (h : Nat) : HndInfo :=
  if h = 0 then
    { size := b.hnd.flatSize, attr := word [(0xFFFF, 16), (flatQmask b, 12)], resv := 0, state := word [(1, 3), (1, 0)]
      written := writtenOf b 0 0 }
  else match handleOf b h with
    | some x =>
      { size := x.size, attr := x.attr, resv := x.resv, written := writtenOf b h x.size
        state := word [(b2n (mfind b.ops.halts h).isSome, 2), (if x.st = .draining then 2 else 1, 0)] }
    | none => { size := 0, attr := 0, resv := 0, state := 0, written := 0 }

/-- Store a general handle. -/
def setHandle (h : Nat) (x : Handle) (b : Block) : Block :=
  { b with hnd := { b.hnd with table := mput b.hnd.table h x } }

/-- Change a general handle. -/
def modHandle (h : Nat) (f : Handle → Handle) (b : Block) : Block :=
  match handleOf b h with
  | some x => setHandle h (f x) b
  | none => b

/-- CREATE takes a number, its reservation and its segments (R231, R245, R286). -/
def createStart (a : HndArgs) (h : Nat) (b : Block) : Block :=
  let q := attrQmask a.attr
  let x : Handle := { st := .creating, size := a.size, attr := a.attr, resv := a.resv }
  placeMany (eligible b q) a.attr h 0 a.size (setHandle h x (modResv (· + resvShare a.resv q) a.resv q b))

/-- GROW takes the segments to add. -/
def growStart (a : HndArgs) (b : Block) : Block :=
  let at_ := attrOf b a.h
  let n := (handleSize b a.h).getD 0
  placeMany (eligible b (attrQmask at_)) at_ a.h n (a.size - n) b

/-- Suppress what descriptors of other handles do to the affected lines from now on (R368). -/
def cutSecond (h size : Nat) (gone : Bool) (d : Desc) : Desc :=
  if dHandle2 d.words = h then { d with size2 := min d.size2 size, gone2 := d.gone2 || gone } else d

/-- A run of lines reaches the affected segments. -/
def touches (first a n : Nat) : Bool := decide (n > 0) && decide (a + n > 1024 * first)

/-- A descriptor of the draining handle may touch the affected segments. -/
def descTouches (b : Block) (h first : Nat) (d : Desc) : Bool :=
  let op := dOp d.words
  let n := dCount d.words
  listOp op || (usesRange b op && touches first (dLine d.words) n)
    || (usesRange2 b op && dHandle2 d.words == h && touches first (dLine2 d.words) n)

/-- The affected segments of SHRINK and DESTROY leave migration (R234): orders are removed, migrations before COMMIT abort. -/
def cutMigs (h first : Nat) (b : Block) : Block :=
  let mine := fun (o : Order) => o.handle == h && decide (o.lseg ≥ first)
  let b := dropOrders mine
    (fun s => match ownerOf b s with | .owned k l => k == h && decide (l ≥ first) | _ => false) b
  (b.srl.migs.filter fun m => mine m.order && m.stage != .release).foldl (fun b m => abortCopy m b) b

/-- The running pieces that may touch the affected segments receive event 30 when the drain begins (R383). -/
def postDrain (touch : Desc → Bool) (b : Block) : Block :=
  b.ops.descs.foldl (fun b d => if touch d then
    d.pieces.zipIdx.foldl (fun b x => if x.1.st = .running then postPiece d.id x.2 30 [] b else b) b else b) b

/-- SHRINK: lines beyond the new size are out of reach. -/
def shrinkStart (a : HndArgs) (b : Block) : Block :=
  let b := postDrain (fun d => descHandle d.words == a.h && descTouches b a.h a.size d) b
  let b := modHandle a.h (fun x => { x with size := a.size }) b
  cutMigs a.h a.size { b with ops := { b.ops with descs := b.ops.descs.map (cutSecond a.h a.size false) } }

/-- DESTROY: the handle drains; a halted queue ends (R233). -/
def destroyStart (a : HndArgs) (b : Block) : Block :=
  let halted := (mfind b.ops.halts a.h).isSome
  let b := postDrain (fun d => descHandle d.words == a.h) b
  let b := modHandle a.h (fun x => { x with st := .draining }) b
  let b := cutMigs a.h 0 { b with ops := { b.ops with descs := b.ops.descs.map (cutSecond a.h 0 true) } }
  if halted then endHalted a.h b else b

/-- The event's size word of a command that does not change its handle (R230). A FREE number has no size: free value. -/
def sizeNow (b : Block) (h : Nat) : Word × Block :=
  if h = 0 then (BitVec.ofNat 32 b.hnd.flatSize, b)
  else match handleOf b h with
    | some x => (BitVec.ofNat 32 x.size, b)
    | none => draw b

/-- Record the command that runs. -/
def setRun (r : HndRun) (b : Block) : Block := { b with hnd := { b.hnd with run := some r } }

/-- A refused command. CREATE and a code without a command name no handle: free values. -/
def refusedRun (a : HndArgs) (path : Path) (st : Status) (b : Block) : Block :=
  let op := BitVec.ofNat 3 a.op
  if a.op = 1 ∨ hndNoCommand a.op then
    let h := draw b
    let n := draw h.2
    setRun { op := op, path := path, handle := wfield h.1 11 0, status := st, size := n.1 } n.2
  else
    let n := sizeNow b a.h
    setRun { op := op, path := path, handle := a.h, status := st, size := n.1 } n.2

/-- A command whose checks pass starts. The size word of event 0x0801 after a DESTROY, whose number is FREE then, is 0: the spec
gives a FREE number no size (DESIGN CHOICE, log entry 118). -/
def startedRun (a : HndArgs) (path : Path) (b : Block) : Block :=
  let mark := b.ops.nextId
  let op := BitVec.ofNat 3 a.op
  let new := BitVec.ofNat 32 a.size
  if a.op = 1 then
    let h := (freeHandle b).getD 0
    setRun { op := op, path := path, handle := h, size := new } (createStart a h b)
  else if a.op = 2 then setRun { op := op, path := path, handle := a.h, size := new } (growStart a b)
  else if a.op = 3 then
    setRun { op := op, path := path, handle := a.h, size := new, first := a.size, mark := mark, draining := true }
      (shrinkStart a b)
  else if a.op = 4 then
    setRun { op := op, path := path, handle := a.h, mark := mark, draining := true } (destroyStart a b)
  else
    let n := sizeNow b a.h
    setRun { op := op, path := path, handle := a.h, size := n.1, info := some (queryInfo b a.h) } n.2

/-- A handle command starts (R226, R229, R231). -/
def hndGo (op : Nat) (path : Path) (b : Block) : Block :=
  let a := hndArgs op b
  match hndCheck b a with
  | .ok => startedRun a path b
  | st => refusedRun a path st b

/-! ### The drain (R232 to R235) -/

/-- What the drain still waits for. -/
def drainWaits (b : Block) (r : HndRun) : Bool :=
  let mine := fun (h l : Nat) => h == r.handle && decide (l ≥ r.first)
  (b.ports.toList.any fun x => x.writes.any fun w =>
      w.handle == r.handle && w.refused.isNone && touches r.first w.line w.count)
    || (b.srl.map.any fun e => mine (e.1 / 2 ^ 21) (e.1 % 2 ^ 21) && !e.2.quarantined
          && segBusy b.chans[cid (segChan e.2.pseg)] e.2.pseg)
    || (b.ops.descs.any fun d => decide (d.id < r.mark) && descHandle d.words == r.handle
          && (r.op == 4 || descTouches b r.handle r.first d))
    || (b.srl.migs.any fun m => mine m.order.handle m.order.lseg)

/-- The segments of a handle from a segment on. -/
def segsFrom (b : Block) (h first : Nat) : List Nat :=
  (b.srl.map.filter fun e => e.1 / 2 ^ 21 == h && decide (e.1 % 2 ^ 21 ≥ first)).map fun e => e.1 % 2 ^ 21

/-- HND_DRAIN_END: the affected segments are released (R235). -/
def drainEnd (b : Block) : Block :=
  match b.hnd.run with
  | none => b
  | some r =>
    if !r.draining || b.sage.safe || drainWaits b r then b else
    let b := promoteEvac ((segsFrom b r.handle r.first).foldl (fun b l => releaseLseg r.handle l b) b)
    setRun { r with draining := false } b

/-! ### The end (R230) -/

/-- What the command changes at its end (R231, R236). -/
def finishChange (r : HndRun) (b : Block) : Block :=
  if r.status ≠ .ok then b
  else if r.op = 1 then modHandle r.handle (fun x => { x with st := .active }) b
  else if r.op = 2 then modHandle r.handle (fun x => { x with size := r.size.toNat }) b
  else if r.op = 4 then
    match handleOf b r.handle with
    | none => b
    | some x =>
      { b with
        hnd := { b.hnd with table := mdel b.hnd.table r.handle }
        sav := { b.sav with released := b.sav.released ++ [(x.resv, BitVec.ofNat 4 (attrQmask x.attr))] }
        ops := { b.ops with halts := mdel b.ops.halts r.handle } }
  else b

/-- The queried values become visible. -/
def loadInfo (i : Option HndInfo) (x : Hnd) : Hnd :=
  match i with
  | none => x
  | some i =>
    { x with resSize := i.size, resAttr := i.attr, resResv := i.resv, resState := i.state, resWritten := i.written }

/-- HND_RESULT. -/
def hndResult (b : Block) : Word :=
  word [(b.hnd.seq.toNat, 24), (b.hnd.resOp.toNat, 20), (b.hnd.resHandle.toNat, 8), (b.hnd.resStatus.code, 0)]

/-- HND_COMMAND_FINISH. In the safe state the command that runs finishes with ACCESS_ERROR (R470), whatever it waits for, and
changes nothing more (log entry 61). -/
def hndFinish (b : Block) : Block :=
  match b.hnd.run with
  | none => b
  | some r =>
    if r.draining && !b.sage.safe then b else
    let r := if b.sage.safe then { r with status := .accessError, info := none } else r
    let b := finishChange r b
    let b := { b with hnd := { loadInfo r.info b.hnd with
      resOp := r.op, resHandle := BitVec.ofNat 12 r.handle, resStatus := r.status, seq := b.hnd.seq + 1, run := none } }
    match r.path with
    | .link p => emit (bset 0 p.val) { code := 0x0801, lo := hndResult b, hi := r.size } b
    | .twp => b

def execHndCommandFinish (s : State) : Res := .next (s.upd (hndFinish s.blk))
def execHndDrainEnd (s : State) : Res := .next (s.upd (drainEnd s.blk))

end Sys2Proof.Machine
end

