-- ==== Sys2Proof/Machine/Commit.lean ====
section
/-! DEFINITION. Commit boundaries: the live sections of an image (R132 to R136),
and the commit of the SAV and SRL blocks (R263, R272). -/

namespace Sys2Proof.Machine

open Sys2Proof

/-! ### Live sections (R132 to R136) -/

/-- A live section comes into force. -/
def commitSection (s : Nat × List Byte) (b : Block) : Block :=
  let b := { b with img := { b.img with live := mput b.img.live s.1 s.2, liveWait := mdel b.img.liveWait s.1 } }
  if s.1 = 8 then loadClasses true s.2 b else b

/-- The load's last group has committed (R132). -/
def liveDone (b : Block) : Block :=
  if b.img.liveWait ≠ [] then b else
  let b := { b with img := { b.img with state := .done, liveVersion := b.img.liveVer } }
  emit allMask { code := 0x0405, lo := b.img.liveVer, hi := b.img.liveBuild } b

/-- Commit the waiting live sections whose ids satisfy `f`, as one step. -/
def commitLive (f : Nat → Bool) (b : Block) : Block :=
  let secs := b.img.liveWait.filter fun s => f s.1
  if b.img.state ≠ .pendingCommit ∨ secs = [] then b else
  let bits := clampBits b secs
  let b := secs.foldl (fun b s => commitSection s b) { b with img := { b.img with liveSome := true } }
  let b := noteClamps bits b
  let b := if bits = 0 then b else emit allMask { code := 0x0406, lo := bits, hi := b.img.liveVer } b
  liveDone b

/-- The sections that commit at a thermal sample, and those that commit at a class epoch (R114). -/
def thmSection (id : Nat) : Bool := id == 4 || id == 5
def savSection (id : Nat) : Bool := id == 8 || id == 9 || id == 10

/-! ### SAV and SRL -/

/-- A write to a SAV_CLASSk register that sets mode GUARANTEE. -/
def classWrite (w : PendWr) : Bool := decide (w.addr < savBase + 0x20)
def guarantees (w : PendWr) : Bool := classWrite w && w.value.getLsbD 20

/-- Privileged classes of the live table. -/
def privCount (b : Block) : Nat := ((List.range 8).filter (privileged b)).length

/-- A write that makes a class privileged, unless it would be the third (R272): then it is dropped and SAV_EVT.class_conflict is
set. -/
def addPrivileged (w : PendWr) (b : Block) : Block :=
  if privCount b ≥ 2 ∧ !privileged b ((w.addr - savBase) / 4) then rcSet (savBase + 0x2C) 5 b
  else setLive w.addr w.value b

/-- Commit the SAV block (R272): writes that leave a class in COUNT go first, the others in their order. -/
def commitSav (b : Block) : Block :=
  let r := takePend savBase b
  let b := applyWrites (r.1.filter fun w => !guarantees w) r.2
  (r.1.filter guarantees).foldl (fun b w => addPrivileged w b) b

/-- Commit the SRL block: the other registers first, then a go of SRL_CMD (R263), which uses the argument registers (R57). -/
def commitSrl (b : Block) : Block :=
  let r := takePend srlBase b
  let b := applyWrites (r.1.filter fun w => w.addr != srlBase) r.2
  match r.1.find? fun w => w.addr == srlBase with
  | none => b
  | some w =>
    let b := setLive srlBase (w.value &&& 0xE) b
    if w.value.getLsbD 0 then srlGo (BitVec.ofNat 3 (wfield w.value 3 1)) (useRegs srlBase b) else b

/-- SRL_CMD_INVALID: a go that names no command, or that meets a running command or a stack that is not READY, commits and
finishes at once; other commits start a command of another row. -/
def srlInvalid (op : BitVec 3) (b : Block) : Block :=
  if b.start.step < 5 || b.inChive then b
  else if !b.ready || b.srl.busy || op == 0 || op == 6 || op == 7 then srlGo op b
  else b

def execSrlCmdInvalid (op : BitVec 3) (s : State) : Res := .next (s.upd (srlInvalid op s.blk))

end Sys2Proof.Machine
end

