-- ==== Sys2Proof/Machine/Epochs.lean ====
section
/-! DEFINITION. The class epoch (R280 to R288) and the heat-decay epoch (R243, R244, R248, R260). -/

namespace Sys2Proof.Machine

open Sys2Proof

/-! ### The class epoch -/

/-- Deliverable and admission budgets of a quadrant (R280, R281). -/
def quadBudget (b : Block) (q : Nat) : Nat := ((List.range 8).map fun i => chanBudget b (8 * q + i)).sum
def quadAdmit (b : Block) (q : Nat) : Nat := ((List.range 8).map fun i => chanAdmit b (8 * q + i)).sum

/-- Steps 2 and 3: released reservations leave, and budgets are formed. -/
def epochBudgets (b : Block) : Block :=
  let b := b.sav.released.foldl (fun b r =>
    modResv (· - resvShare r.1 r.2.toNat) r.1 r.2.toNat b) b
  let b := { b with sav := { b.sav with released := [] } }
  forAll 4 (fun q b => modSavQ q (fun x => { x with budget := quadBudget b q.val, admission := quadAdmit b q.val }) b) b

/-- The grants of privileged classes, in class order from 7 (R283): grants and what is left. -/
def privGrant (priv : Nat → Bool) (resv : Nat → Nat) : List Nat → Nat → (Nat → Nat) × Nat
  | [], left => (fun _ => 0, left)
  | c :: t, left =>
    if priv c then
      let g := min (resv c) left
      let r := privGrant priv resv t (left - g)
      (fun k => if k = c then g else r.1 k, r.2)
    else privGrant priv resv t left

/-- The grants of a quadrant (R283). -/
def grantsOf (priv : Nat → Bool) (resv : Nat → Nat) (budget : Nat) : List Nat :=
  let r := privGrant priv resv [7, 6, 5, 4, 3, 2, 1, 0] budget
  let np := (((List.range 8).filter fun c => !priv c).map resv).sum
  (List.range 8).map fun c =>
    if priv c then r.1 c else if np ≤ r.2 then resv c else resv c * r.2 / np

/-- floor(scale × grant / reservation) of a class, by the reservation its grant was formed from; `scale` when it had none. -/
def grantShare (scale : Nat) (x : SavQ) (c : Nat) : Nat :=
  let r := x.granted[Fin.ofNat 8 c]
  if r = 0 then scale else scale * x.grant[Fin.ofNat 8 c] / r

/-- Detail of 0x0A03 (R288). -/
def overEvent (code : Nat) (q : Nat) (x : SavQ) : Ev :=
  { code := code, lo := word [(x.budget % 65536, 0), (q, 16)]
    hi := if code = 0x0A03 then word ((List.range 8).map fun c => (grantShare 15 x c, 4 * c)) else 0 }

/-- Step 4 for a quadrant: grants, allowances and the overcommit mark (R282, R283). -/
def formGrants (b : Block) (x : SavQ) : SavQ :=
  let g := grantsOf (privileged b) (fun c => x.resv[Fin.ofNat 8 c]) x.budget
  { x with granted := x.resv
           grant := Vector.ofFn fun c => g.getD c.val 0
           allow := Vector.ofFn fun c => g.getD c.val 0 * 1000 / 64
           overG := decide (resvSum x > x.budget) }

/-- Event 0x0A03 of step 5 for a quadrant, from its state before step 4. -/
def overOn (old : SavQ) (q : QuadId) (b : Block) : Block :=
  let x := b.sav.q[q]
  if !x.overG then b
  else if !old.overG then emit allMask (overEvent 0x0A03 q.val x) (rcSet (savBase + 0x2C) 2 b)
  else if old.grant ≠ x.grant then emit allMask (overEvent 0x0A03 q.val x) (rcSet (savBase + 0x2C) 4 b)
  else b

/-- Event 0x0A04 of step 5 for a quadrant. -/
def overOff (old : SavQ) (q : QuadId) (b : Block) : Block :=
  let x := b.sav.q[q]
  if old.overG && !x.overG then emit allMask (overEvent 0x0A04 q.val x) (rcSet (savBase + 0x2C) 3 b) else b

/-- Event 0x0A01 of step 5 for a class (R278). -/
def missEvent (k : Fin 8) (b : Block) : Block :=
  let m := b.sav.miss[k]
  if m.1 = 0 then b else
  emit allMask { code := 0x0A01, lo := word [(k.val, 0), (min 0xFFFF m.1, 16)], hi := m.2 } (rcSet (savBase + 0x2C) 0 b)

/-- Steps 4 and 5. -/
def epochGrants (b : Block) : Block :=
  let old := b.sav.q
  let b := forAll 4 (fun q b => modSavQ q (formGrants b) b) b
  let b := forAll 4 (fun q b => overOn old[q] q b) b
  let b := forAll 4 (fun q b => overOff old[q] q b) b
  let b := forAll 8 missEvent b
  { b with sav := { b.sav with miss := Vector.replicate 8 (0, 0) } }

/-- CLASS_EPOCH (R284), at a multiple of 10 µs of STACK_TIME (R25). Savory stands still while the stack is held in reset and in
the safe state (R470). -/
def classEpoch (b : Block) : Block :=
  if b.start.step < 5 || b.sage.safe || !strobe 1000 b then b else
  let b := useRegs savBase b
  if b.sage.safe then b else
  epochGrants (epochBudgets (commitSrl (commitSav (commitLive savSection b))))

/-! ### The heat-decay epoch -/

/-- The halving, and the channel heat formed after it, over the segments that belong to a handle, handle 0 among them (R243,
R244). -/
def decayHeat (b : Block) : Block :=
  let heat := (b.srl.heat.map fun e => (e.1, e.2 / 2)).filter fun e => e.2 != 0
  let own := (b.srl.map.filter fun e => !e.2.quarantined).map fun e => e.2.pseg
  { b with srl := { b.srl with
      heat := heat
      chHeat := Vector.ofFn fun c =>
        ((heat.filter fun e => segChan e.1 == c.val && (own.contains e.1 || inFlat b e.1)).map fun e => e.2).sum } }

/-- A segment of the map that may move under a set of policies and permissions, has no order and no migration: its key. -/
def movable (b : Block) (ok : Nat → Nat → Bool) (e : Nat × MapEntry) : Bool :=
  let h := e.1 / 2 ^ 21
  let a := attrOf b h
  !e.2.quarantined && !e.2.migrating && ok (attrPolicy a) (attrMigr a) && !hasMove b h (e.1 % 2 ^ 21)
    && (match handleOf b h with | some x => x.st == .active && decide (e.1 % 2 ^ 21 < x.size) | none => false)

/-- Physical segments that may move, ascending. -/
def movableSegs (b : Block) (ok : Nat → Nat → Bool) (at_ : Nat → Bool) : List Nat :=
  sortBy (· < ·) ((b.srl.map.filter fun e => movable b ok e && at_ e.2.pseg).map fun e => e.2.pseg)

/-- Hottest first, ties to the lower segment number; and coldest first. -/
def hottest (b : Block) (l : List Nat) : List Nat := sortBy (fun x y => heatOf b x > heatOf b y) l
def coldest (b : Block) (l : List Nat) : List Nat := sortBy (fun x y => heatOf b x < heatOf b y) l

/-- Order the move of an owned physical segment; the destination is chosen at RESERVE (R549). -/
def orderMove (r : Reason) (s : Nat) (b : Block) : Block :=
  match ownerOf b s with
  | .owned h l => enqueueOrder { reason := r, handle := h, lseg := l } b
  | _ => b

/-- The channel of greatest heat, the lowest on a tie. -/
def hotChannel (b : Block) : Option Nat :=
  bestBy (fun x y => decide (b.srl.chHeat[cid x] > b.srl.chHeat[cid y])) ((List.range 32).filter fun c => b.chans[cid c].st != .offline)

/-- The balance trigger (R248): the excess over the mean in 1/16, and the least heat. -/
def unbalanced (b : Block) (c : Nat) : Bool :=
  let on := (List.range 32).filter fun c => b.chans[cid c].st != .offline
  let sum := (on.map fun c => b.srl.chHeat[cid c]).sum
  let h := b.srl.chHeat[cid c]
  decide (16 * on.length * h > (16 + rwf (srlBase + 0x28) 7 0 b) * sum) && decide (h ≥ rwf (srlBase + 0x28) 31 16 b)

/-- Balance orders of a decay epoch. -/
def orderBalance (b : Block) : Block :=
  match hotChannel b with
  | none => b
  | some c =>
    if !unbalanced b c then b else
    let l := hottest b (movableSegs b (fun p m => (p == 0 || p == 3) && m == 2) fun s => segChan s == c)
    (l.take (rwf (srlBase + 0x28) 15 8 b)).foldl (fun b s => orderMove .balance s b) b

/-- Compaction moves that leave a quadrant already. -/
def leaving (b : Block) (q : Nat) : Nat :=
  (b.srl.queue.filter fun o => o.reason == .compact &&
    (match mapEntry b o.handle o.lseg with | some e => segChan e.pseg / 8 == q | none => false)).length
  + (b.srl.migs.filter fun m => m.order.reason == .compact && segChan m.src / 8 == q).length

/-- Compaction orders of a quadrant. -/
def compactQuad (q : Nat) (b : Block) : Block :=
  let free := spaceQ b q
  if free ≥ 64 * rwf (srlBase + 0x30) 15 0 b then b else
  let n := 64 * rwf (srlBase + 0x30) 31 16 b - free - leaving b q
  let l := coldest b (movableSegs b (fun p m => (p == 0 || p == 1 || p == 3) && (m == 1 || m == 2))
    fun s => segChan s / 8 == q && (match ownerOf b s with | .owned h _ => (compactChan b h q).isSome | _ => false))
  (l.take n).foldl (fun b s => orderMove .compact s b) b

/-- PACK gathering of a handle: segments outside its fullest channels, as many as its size requires, move to its fullest eligible
channel. -/
def gatherHandle (h : Nat) (x : Handle) (b : Block) : Block :=
  let p := attrPolicy x.attr
  let m := attrMigr x.attr
  let l := heldChans b h
  let n := ceilDiv x.size (3072 * Config.height)
  if x.st ≠ .active ∨ p ≠ 1 ∨ !(m == 1 || m == 2) ∨ l.length ≤ n then b else
  match gatherChan b h with
  | none => b
  | some d =>
    let keep := l.take n
    let segs := movableSegs b (fun p m => p == 1 && (m == 1 || m == 2)) fun s =>
      !keep.contains (segChan s) && segChan s != d && (match ownerOf b s with | .owned k _ => k == h | _ => false)
    segs.foldl (fun b s => orderMove .pack s b) b

/-- Evacuations that waited try again (R260). -/
def retryEvac (b : Block) : Block :=
  { b with srl := { b.srl with queue := b.srl.queue.map fun o => { o with waiting := false } } }

/-- HEAT_DECAY_EPOCH, at a multiple of 10 ms of STACK_TIME (R25). Sorrel stands still in both safe states and has nothing to
move in CHIVE (R102, R410, R470). -/
def heatDecay (b : Block) : Block :=
  if b.start.step < 5 || b.sage.safe || b.thm.safe || !strobe 1000000 b then b else
  let b := useRegs srlBase b
  if b.sage.safe then b else
  let b := decayHeat b
  if !b.ready then b else
  let b := orderBalance (retryEvac b)
  let b := (List.range 4).foldl (fun b q => compactQuad q b) b
  b.hnd.table.foldl (fun b e => gatherHandle e.1 e.2 b) b

def execClassEpoch (s : State) : Res := .next (s.upd (classEpoch s.blk))
def execHeatDecayEpoch (s : State) : Res := .next (s.upd (heatDecay s.blk))

end Sys2Proof.Machine
end

