-- ==== Sys2Proof/Machine/Sage.lean ====
section
/-! DEFINITION. The commands of Sage: raises, escalation timers, clears, injection, the self-fault and the stall watchdog
(R26, R456 to R471). The register writes that carry them are in `RegWrite.lean`. -/

namespace Sys2Proof.Machine

open Sys2Proof

/-! ### FAULT_RAISE -/

/-- The codes of a source's own events (R453). -/
def ownCodes (src : Nat) : List Nat :=
  if src = 24 then [0x0202] else if src = 25 then [0x0204] else if src = 48 then [0x0301, 0x0302, 0x0303, 0x0304, 0x0305]
  else if src = 49 ∨ src = 50 then [0x0304] else if src = 56 then [0x0905] else if src = 58 then [0x0C08]
  else if src = 64 then [0x0C07] else if src = 65 then [0x0C01] else if src = 66 then [0x0C02] else if src = 74 then [0x0C05]
  else if src = 75 then [0x0C06] else if src = 80 then [0x0E01] else if src = 81 then [0x0E02] else if src = 88 then [0x0B03]
  else if src = 89 then [0x0B05] else if src = 97 then [0x0F01] else []

/-- The ports of a raise's own event: those of a port change (R164), of the handle that the event carries (R266, R347), or every
port. -/
def ownMask (src unit : Nat) (detail : Word) (b : Block) : BitVec 16 :=
  if (src = 48 ∨ src = 49 ∨ src = 50) ∧ unit < 16 then otherActive (pid unit) b
  else if src = 56 ∨ src = 64 ∨ src = 65 then portsOf b (wfield detail 11 0)
  else allMask

/-- The own event of a raise of which only the detail word is known (R454): its low word is the detail word; its code, where
causes differ, and its high word belong to the cause: free values. -/
def ownEvent (src unit : Nat) (detail : Word) (b : Block) : List OwnEv × Block :=
  match ownCodes src with
  | [] => ([], b)
  | l =>
    let k := draw b
    let h := draw k.2
    ([{ mask := ownMask src unit detail b, ev := { code := l.getD (k.1.toNat % l.length) 0, lo := detail, hi := h.1, nme := src == 24 } }], h.2)

/-- FAULT_RAISE (R456): a checker raises a source. Sage runs from step 5 on (R468); a reserved source is never raised. -/
def faultRaise (src unit : Nat) (detail : Word) (b : Block) : Block :=
  if b.start.step < 5 || (sourceOf src).isNone then b
  else if src = 0 then selfFault b
  else
    let o := ownEvent src unit detail b
    raise src unit detail o.1 o.2

/-! ### Escalation (R464) -/

/-- Unit and detail of a pending source. -/
def infoOf (b : Block) (src : Nat) : PendInfo := (mget b.sage.info src none).getD { unit := 0xFF, detail := 0 }

/-- A timer ends. -/
def dropTimer (src : Nat) (b : Block) : Block :=
  { b with sage := { b.sage with timers := b.sage.timers.filter fun t => t.1 != src } }

/-- ESCALATION_TIMER_EXPIRY: the first escalates to ISOLATE and restarts the timer, the second enters the safe state. -/
def escalate (src : Nat) (b : Block) : Block :=
  match b.sage.timers.find? fun t => t.1 == src with
  | none => b
  | some t =>
    let i := infoOf b src
    let b := dropTimer src b
    if !b.sage.pend.getLsbD src then b
    else if t.2 then enterSafe src i.detail true false b
    else
      let b := isolate src i.unit.toNat { b with sage := { b.sage with esc := bset b.sage.esc src } }
      if b.sage.safe then b else startTimer src true b

/-! ### Clear (R458, R459) -/

/-- Banks that a table fault stopped go on when FS_CHN_TABLE is cleared, except those of a channel that is OFFLINE (R304, R460).
-/
def resumeBanks (b : Block) : Block :=
  allChans (fun x => if x.st == .offline then x else { x with banks := (x.banks.map fun e => (e.1, { e.2 with stopped := false })).filter fun e => e.2 != {} }) b

/-- The latch is emptied when it holds a source. -/
def emptyLatch (src : Nat) (b : Block) : Block :=
  if b.sage.latched && b.sage.source.toNat == src then
    { b with sage := { b.sage with
        latched := false, overflow := false, source := 0, unit := 0xFF, reaction := 0, detail := 0, time := 0 } }
  else b

/-- Clear one source. -/
def clearSource (src : Nat) (b : Block) : Block :=
  if src = 0 || !b.sage.pend.getLsbD src then b else
  let b := emptyLatch src (dropTimer src b)
  let b := { b with sage := { b.sage with
    pend := bclr b.sage.pend src, ovf := bclr b.sage.ovf src, esc := bclr b.sage.esc src
    info := mset b.sage.info src none none, inTick := b.sage.inTick.filter fun r => r.1 != src
    nmeRef := b.sage.nmeRef && src != (fs .clkRef) } }
  if src = (fs .chnTable) then resumeBanks b else b

/-- The sources that a clear names. -/
def clearList (all : Bool) (src : Nat) : List Nat := if all then List.range 256 else [src]

/-- A clear through SAGE_CLEAR with its status: TOO_LATE when a source it cleared had escalated (R459). -/
def sageClear (all : Bool) (src : Nat) (b : Block) : Status × Block :=
  let l := clearList all src
  let late := l.any fun n => n != 0 && b.sage.esc.getLsbD n
  (if late then .tooLate else .ok, l.foldl (fun b n => clearSource n b) b)

/-! ### Injection (R478) -/

/-- An injection through SAGE_INJECT with its status. -/
def sageInject (src : Nat) (b : Block) : Status × Block :=
  if src = 0 || (sourceOf src).isNone then (.badArg, b) else
  match record src 0xFF 0xFFFFFFFF b with
  | (b, false) => (.ok, b)
  | (b, true) => (.ok, react src 0xFF 0xFFFFFFFF [] true b)

/-! ### The stall watchdog (R26, R27) -/

/-- The bit of R431 that gates a unit of R455. -/
def gateBit (unit : Nat) : Option Nat :=
  if unit < 0x10 then some (unit / 4)
  else if unit < 0x30 then some (4 + (unit - 0x10) / 8)
  else if unit < 0x50 then some (8 + (unit - 0x30) / 8)
  else if unit = 0x59 then some 12 else if unit = 0x58 then some 13 else none

/-- Units that P4 quiesces with the fabric (R435): not those that go on in every state, which are the supervisor, Tarragon, Sage,
the two-wire port and the sequencer. -/
def fabricUnit (unit : Nat) : Bool := !(unit == 0x53 || unit == 0x55 || unit == 0x57 || unit == 0x5B || unit == 0x5C)

/-- The watchdog of a unit is suspended (R27, R432): its gate is closed, or a power state has quiesced it. -/
def quiesced (b : Block) (unit : Nat) : Bool :=
  let n := b.pwr.state.toNat
  (gateBit unit).any (fun k => !unitRuns b k)
    || (decide (n ≥ 2) &&
      (if unit < 0x10 then b.ports[pid unit].st == .idle
       else if unit < 0x30 then b.chans[cid (unit - 0x10)].st == .selfRefresh else false))
    || (n == 4 && fabricUnit unit)

/-- A stalled transfer stays between its phases, with the watchdog that found it (R21, R26). -/
def stallTransfer (sender receiver : Nat) (b : Block) : Block :=
  let from_ := b.now - 100 * b.sage.stallUs.toNat
  if b.fabric.any fun t => t.sender == sender && t.receiver == receiver then b
  else { b with fabric := b.fabric ++ [{ sender := sender, receiver := receiver, dog := from_ }] }

/-- The gateable units at the ends of transfers that have not reached phase 4: their handshakes are not idle (R433). -/
def fabricBusy (b : Block) : BitVec 15 :=
  BitVec.ofNat 15 (((List.range 15).filter fun k =>
    b.fabric.any fun t => gateBit t.sender == some k || gateBit t.receiver == some k).map (2 ^ ·)).sum

/-- STALL_WATCHDOG_EXPIRY: FS_FAB_STALL, which isolates the receiver; the transfer is left as it stands (R26). -/
def fabricStall (sender receiver : Nat) (b : Block) : Block :=
  if b.start.step < 5 || quiesced b sender || quiesced b receiver then b else
  raise (fs .fabStall) receiver (word [(receiver, 0), (sender, 8)]) [] (stallTransfer sender receiver b)

def execFaultRaise (source unit : Byte) (detail : Word) (s : State) : Res :=
  .next (s.upd (faultRaise source.toNat unit.toNat detail s.blk))
def execEscalationTimerExpiry (source : Byte) (s : State) : Res := .next (s.upd (escalate source.toNat s.blk))
def execSageSelfFault (s : State) : Res := .next (s.upd (selfFault s.blk))
def execStallWatchdogExpiry (sender receiver : Byte) (s : State) : Res :=
  .next (s.upd (fabricStall sender.toNat receiver.toNat s.blk))

end Sys2Proof.Machine
end

