-- ==== Sys2Proof/Machine/Power.lean ====
section
/-! DEFINITION. Clock sources, operating points, ratio mode, clock enables and power states (chapter 16). -/

namespace Sys2Proof.Machine

open Sys2Proof

/-! ### Sources and the REFCLK monitor (R89, R418 to R423) -/

/-- The sources in use follow the selects while REFCLK is proven, and are IOSC otherwise (R419). -/
def applySources (b : Block) : Block :=
  let eff := if b.clk.proven then BitVec.ofNat 3 (rwf (clkBase + 8) 2 0 b) else 0
  { b with clk := { b.clk with srcEff := eff }, iosc := !eff.getLsbD 0 }

/-- A port that a lane-rate change finds in ACTIVE, IDLE or PATTERN, from which RECOVER is entered (R155). -/
def Port.mayRecover (x : Port) : Bool := x.st == .active || x.st == .idle || x.st == .pattern

/-- Every port that satisfies `f` enters RECOVER at the rate of R147, from the states that lead there (R155, R168); one that
trains or recovers takes a changed rate (R148). -/
def recoverPorts (f : PortId → Bool) (b : Block) : Block :=
  forAll 16 (fun p b => if !f p then b else if b.ports[p].mayRecover then recoverPort p b else retrainPort p b) b

/-- Ports whose rate is no longer that of R147 enter RECOVER (R148, R168). -/
def followRates (b : Block) : Block := recoverPorts (fun p => decide (b.ports[p].rate.toNat ≠ portRate p b)) b

/-- A window count in range (R421). -/
def inRange (n : Nat) : Bool := 980 ≤ n && n ≤ 1020

/-- REFCLK is lost (R421). -/
def refLost (count : BitVec 16) (b : Block) : Block :=
  let b := applySources { b with clk := { b.clk with proven := false, windows := 0, count := count, lostOnce := true } }
  let b := if b.starting && b.start.step == 15 then { b with start := { b.start with waitRef := true } } else b
  let b := rcSet (clkBase + 0x14) 2 (ctrAdd (clkBase + 0x30) 1 b)
  let e : Ev := { code := 0x0202, lo := count.zeroExtend 32, nme := true }
  let b := raise (fs .clkRef) 0x5C e.lo [{ mask := allMask, ev := e }] b
  recoverPorts (fun _ => true) b

/-- REFCLK proving runs from step 4 on, beside step 3: the trim of IOSC is in force (R86, R89). -/
def proving (b : Block) : Bool := decide (3 ≤ b.start.step)

/-- A monitor window ends (R89, R421). -/
def monitorWindow (count : BitVec 16) (b : Block) : Block :=
  if !proving b then b
  else if inRange count.toNat then
    { b with clk := { b.clk with count := count, windows := min 10 (b.clk.windows + 1) } }
  else if b.clk.proven then refLost count b
  else { b with clk := { b.clk with count := count, windows := 0 } }

/-- Step 15 goes on once REFCLK is proven: it trains the ports, or resumes the training that a loss interrupted (R89). -/
def resumeTraining (b : Block) : Block :=
  if !b.start.waitRef then b
  else if b.start.trained then { b with start := { b.start with waitRef := false } }
  else trainPorts b

/-- REFCLK is proven after ten windows in range (R89, R422). -/
def refProven (b : Block) : Block :=
  if !proving b || b.clk.proven || decide (b.clk.windows < 10) then b else
  let again := b.clk.lostOnce
  let b := resumeTraining (applySources { b with clk := { b.clk with proven := true } })
  let b := if again then recoverPorts (fun _ => true) (emit allMask { code := 0x0203 } b) else b
  tryReady b

/-! ### PLL locks (R423) -/

/-- Detail of event 0x0204. -/
def pllWord : Pll → Word
  | .link q => word [(q.val, 0)]
  | .tsv q => word [(q.val, 0), (1, 2)]
  | .mgmt => word [(1, 3)]

/-- Change the lock flag of a PLL. -/
def setLock (l : Pll) (v : Bool) (b : Block) : Block :=
  let c := b.clk
  let put := fun (w : BitVec 4) (q : Nat) => if v then bset w q else bclr w q
  { b with clk := match l with
      | .link q => { c with linkLock := put c.linkLock q.val }
      | .tsv q => { c with tsvLock := put c.tsvLock q.val }
      | .mgmt => { c with mgmtLock := v } }

def locked (b : Block) : Pll → Bool
  | .link q => b.clk.linkLock.getLsbD q.val
  | .tsv q => b.clk.tsvLock.getLsbD q.val
  | .mgmt => b.clk.mgmtLock

/-- The channels of a quadrant stall, or go on. -/
def stallQuad (q : QuadId) (v : Bool) (b : Block) : Block :=
  forAll 32 (fun c b => if quadOf c.val = q then modChan c (fun x => { x with stall := v }) b else b) b

/-- A running PLL loses lock. -/
def pllLost (l : Pll) (b : Block) : Block :=
  if !locked b l then b else
  let b := rcSet (clkBase + 0x14) 3 (setLock l false b)
  let e : Ev := { code := 0x0204, lo := pllWord l }
  let b := raise (fs .clkPll) 0x5C e.lo [{ mask := allMask, ev := e }] b
  match l with
  | .link q => recoverPorts (fun p => p.val / 4 == q.val) b
  | .tsv q => stallQuad q true b
  | .mgmt => b

/-- The channels that leave self-refresh: those of `f` whose TSV PLL is READY, outside both safe states (R418, R440). -/
def wakeChans (f : Nat → Bool) (s : State) : State :=
  if s.blk.sage.safe || s.blk.thm.safe then s else
  (List.range 32).foldl (fun s c =>
    if f c && s.blk.chans[cid c].st == .selfRefresh && s.blk.clk.tsvLock.getLsbD (quadOf c).val then leaveSelfRefresh c s else s) s

/-- A PLL may lock: its clock runs and the power state keeps it on. -/
def mayLock (b : Block) : Pll → Bool
  | .link q => decide (b.start.step ≥ 3) && b.pwr.state != 4 && unitRuns b q.val
  | .tsv q => decide (b.start.step ≥ 3) && b.pwr.state != 4 && unitRuns b (4 + q.val)
  | .mgmt => decide (b.start.step ≥ 3)

/-- The ports of a quadrant that idled with their PLL off retrain from stored settings (R440). -/
def retrainQuad (q : QuadId) (b : Block) : Block :=
  forAll 16 (fun p b => if p.val / 4 = q.val ∧ b.ports[p].st = .idle ∧ b.ports[p].idleTx then recoverPort p b else b) b

/-- PLL_LOCK_ACQUIRED. -/
def pllLocked (l : Pll) (s : State) : State :=
  let b := s.blk
  if locked b l || !mayLock b l then s else
  let b := setLock l true b
  match l with
  | .link q => s.upd (retrainQuad q b)
  | .tsv q => wakeChans (fun c => quadOf c == q) (s.upd (stallQuad q false b))
  | .mgmt => s.upd b

/-! ### Idleness, quiet time and known events (R434, R437, R438) -/

/-- No access is anywhere in a channel (R434). -/
def chanIdle (x : Chan) : Bool :=
  noWork x && x.await.isEmpty && x.inflight.isEmpty && x.served.isEmpty && x.maintWait.isEmpty

/-- The stack is idle (R434). -/
def isIdle (b : Block) : Bool :=
  (b.ports.toList.all fun x => x.tags.isEmpty) && b.chans.toList.all chanIdle
    && (b.ops.descs.all fun d => d.st == .gone || d.st == .done)
    && b.srl.queue.isEmpty && b.srl.migs.isEmpty
    && b.hnd.run.isNone && !b.srl.busy && b.otp.run.isNone && b.bst.run.isNone

/-- The stack's quiet time in ticks; `none` when every port is DISABLED (R437). -/
def quietTime (b : Block) : Option Nat :=
  let on := (List.finRange 16).filter fun p => b.ports[p].st != .disabled
  let left := fun p => if b.ports[p].st = .active ∨ b.ports[p].st = .idle then quietLeft b p else 0
  match on with
  | [] => none
  | p :: t => some (t.foldl (fun m q => min m (left q)) (left p))

/-- Ticks to the next multiple of a period. -/
def toNext (b : Block) (n : Nat) : Nat := n - b.now % n

/-- Ticks to the earliest postponement deadline of an owed refresh, by the last tick and the tick period (R438). -/
def refreshDeadline (b : Block) : Option Nat :=
  leastOf (b.chans.toList.map fun x =>
    leastOf (x.banks.map fun y => y.2.owed.head?.map fun n => x.tickAt + n * tickNs x.mult / 10 - b.now))

/-- Ticks to the latest instant at which a channel's walk can resume (R438). -/
def dillTimer (b : Block) (c : Nat) : Option Nat :=
  let x := b.chans[cid c]
  if !x.dillRun || rwf (chnBase c + 0x100) 0 0 b = 0 || x.st = .offline then none else
  let lines := dillAhead b c x.dillSeg - x.dillLine
  let rate := chanBudget b c * rwf (srlBase + 0x20) 7 0 b
  if lines = 0 then none
  else if rate = 0 then some 0
  else some (x.dillStart + passTicks b c - b.now - ceilDiv (lines * 64000) rate)

/-- PACK gathering has a handle to gather (R248). -/
def gathers (b : Block) : Bool :=
  b.hnd.table.any fun e => attrPolicy e.2.attr == 1 && (attrMigr e.2.attr == 1 || attrMigr e.2.attr == 2)

/-- Ticks to the migration timer. -/
def migTimer (b : Block) : Option Nat :=
  if b.srl.queue ≠ [] then some 0
  else if b.ready && (rwf (srlBase + 0x28) 15 8 b != 0 || rwf (srlBase + 0x30) 15 0 b != 0 || gathers b) then
    some (toNext b 1000000)
  else none

/-- Ticks to the class epoch that something waits for. -/
def epochTimer (b : Block) : Option Nat :=
  if pendingAt savBase b || pendingAt srlBase b || b.srl.busy || b.img.liveWait.any fun s => savSection s.1 then
    some (toNext b 1000) else none

/-- The earlier of two known events, the first on a tie: source code and ticks. -/
def sooner (a : Option (Nat × Nat)) (src : Nat) (t : Option Nat) : Option (Nat × Nat) :=
  match a, t with
  | none, some n => some (src, n)
  | some x, some n => if n < x.2 then some (src, n) else some x
  | a, none => a

/-- The next known event (R438): its source as in PWR_NEXT, and the ticks to it. -/
def nextKnown (b : Block) : Option (Nat × Nat) :=
  sooner (sooner (sooner (sooner none 1 (refreshDeadline b)) 2 (leastOf ((List.range 32).map (dillTimer b)))) 3 (migTimer b))
    4 (epochTimer b)

/-! ### Power states (R434 to R441) -/

/-- max_allowed (R436). -/
def maxAllowed (b : Block) : Nat :=
  min (rwf pwrBase 2 0 b) (if b.start.chive then 2 else if b.clk.ratio then 3 else 4)

/-- Whether Pn fits the quiet time, and the time to the next known event. -/
def fitsQuiet (b : Block) (n : Nat) : Bool := match quietTime b with | some t => decide (powerExit b n ≤ 10 * t) | none => true
def fitsEvent (b : Block) (n : Nat) : Bool := match nextKnown b with | some e => decide (powerEven b n ≤ 10 * e.2) | none => true

/-- choose_state (R436). -/
def chooseState (b : Block) : Nat :=
  (([4, 3, 2, 1].filter fun n => n ≤ maxAllowed b).find? fun n => fitsQuiet b n && fitsEvent b n).getD 0

/-- What prevents the state after `n` (PWR_STAT.limit). -/
def limitOf (b : Block) (n : Nat) : BitVec 3 :=
  if n ≥ 4 then 0 else if n + 1 > maxAllowed b then 1 else if !fitsQuiet b (n + 1) then 2 else 3

/-- A refused gate (R433): the lowest unit is named. -/
def refuseGate (units : BitVec 15) (b : Block) : Block :=
  let k := ((List.range 15).find? fun i => units.getLsbD i).getD 0
  raise (fs .gateBusy) 0x5C (BitVec.ofNat 32 k) [] (rcSet (clkBase + 0x14) 1 b)

/-- The channels of P2 that enter self-refresh: those of least heat, ties to the lower number (R435). -/
def dozing (b : Block) : List Nat :=
  (sortBy (fun x y => decide (b.srl.chHeat[cid x] < b.srl.chHeat[cid y]))
    ((List.range 32).filter fun c => b.chans[cid c].st != .offline)).take (dozeChannels b)

/-- A channel that enters power-down on the stack's choice (P1, P2): its draws take free entropy bits (R316). -/
def sleepChan (c : Nat) (s : State) : State :=
  if s.blk.chans[cid c].st ≠ .run then s else
  let x := draw s.blk
  let y := draw x.2
  sinkPowerDown c ((List.range 64).map fun i => if i < 32 then x.1.getLsbD i else y.1.getLsbD (i - 32)) (s.upd y.2)

/-- A channel that enters self-refresh on the stack's choice: nothing is queued. -/
def dozeChan (c : Nat) (s : State) : State :=
  if s.blk.chans[cid c].st = .run ∨ s.blk.chans[cid c].st = .powerdown then enterSelfRefresh c s else s

/-- The stack's transmitters idle (R170, R435): in P1 to P3 only with fast exit in force. -/
def idlePorts (n : Nat) (b : Block) : Block :=
  forAll 16 (fun p b => if n = 4 ∨ mayFastExit p b then idleTransmit p b else b) b

/-- The PLLs that the enables of a power state leave running lock on, and the channels of the others stall (R432, R435). -/
def pllsGate (units : BitVec 15) (b : Block) : Block :=
  let n := units.toNat
  let b := forAll 4 (fun q b => if n.testBit (4 + q.val) then b else stallQuad q true b) b
  { b with clk := { b.clk with linkLock := b.clk.linkLock &&& BitVec.ofNat 4 n, tsvLock := b.clk.tsvLock &&& BitVec.ofNat 4 (n / 16) } }

/-- The PLLs of the quadrants go off in P4, and VDDL and VDDS fall to what retains all SRAM (R435). -/
def pllsOff (n : Nat) (b : Block) : Block :=
  let b := if n ≤ 1 then b else pllsGate (unitsIn b n) b
  if n = 4 then { b with clk := { b.clk with vddl := 600, vdds := 700 } } else b

/-- Engines follow their clock enables (R431, R432). -/
def gateEngines (b : Block) : Block :=
  (List.range 32).foldl (fun b e =>
    if heldNow b e then modEng (eid e) holdEngine b
    else if b.engs[eid e].st = .held then kickEngine e (modEng (eid e) (fun x => { x with st := .run }) b)
    else b) b

/-- The wake timer of the always-on domain runs in P3 and P4 to the next known event (R24, R438). -/
def setWake (n : Nat) (b : Block) : Block :=
  { b with pwr := { b.pwr with wakeAt := if n ≥ 3 then (nextKnown b).map fun e => b.now + e.2 else none } }

/-- Enter Pn. -/
def enterState (n : Nat) (s : State) : State :=
  let b := ctrAdd (pwrBase + 0x1C + 4 * n) 1 (idlePorts n s.blk)
  let s := s.upd { b with pwr := { b.pwr with state := BitVec.ofNat 3 n, limit := limitOf b n } }
  let doze := if n = 1 then [] else if n = 2 then dozing b else List.range 32
  let s := doze.foldl (fun s c => dozeChan c s) s
  let s := if n ≤ 2 then (List.range 32).foldl (fun s c => sleepChan c s) s else s
  s.upd (setWake n (gateEngines (pllsOff n s.blk)))

/-- PWR_STAT.limit. -/
def setLimit (l : BitVec 3) (b : Block) : Block := { b with pwr := { b.pwr with limit := l } }

/-- POWER_STATE_ENTRY: the choice of R436, in READY and CHIVE and outside both safe states. A unit that is busy, or at an end of a
transfer that has not reached phase 4 (R21), refuses its gate. -/
def enterPower (busy : BitVec 15) (s : State) : State :=
  let b := useRegs pwrBase s.blk
  let s := s.upd b
  if refusing b then s
  else if !isIdle b || b.clk.running.isSome || b.clk.queue != [] then s.upd (setLimit 4 b)
  else
    let n := chooseState b
    if n ≤ b.pwr.state.toNat then s.upd (setLimit (limitOf b b.pwr.state.toNat) b)
    else
      let gate := unitsIn b b.pwr.state.toNat &&& ~~~(unitsIn b n) &&& (busy ||| fabricBusy b)
      if gate ≠ 0 then s.upd (setLimit 5 (refuseGate gate b)) else enterState n s

/-- VDDL of the clocks in force, in mV: that of the operating point, and 0.85 V in ratio mode (R424, R429). -/
def clkVddl (b : Block) : Nat := if b.clk.ratio then 850 else opVddl b b.clk.op

/-- The regulators whose trim failed take their factory trim (R445, R446), outside both safe states (R448). -/
def trimRegs (fail : List Nat) (b : Block) : Block :=
  if b.sage.safe || b.thm.safe then b else fail.foldl (fun b n => degradeReg n b) b

/-- The return to P0 (R439, R440): gated units are released; after P4 the regulators return to the point's voltages and are
trimmed, with the failures given, and the PLLs relock first. -/
def exitWith (ivrFail : List Nat) (s : State) : State :=
  let b := s.blk
  if b.pwr.state = 0 then s else
  let deep := b.pwr.state == 4
  let b := if deep then trimRegs ivrFail b else b
  let b := gateEngines { b with pwr := { b.pwr with state := 0, limit := 0, wakeAt := none } }
  if deep then s.upd { b with clk := { b.clk with vddl := clkVddl b, vdds := 750 } }
  else wakeChans (fun _ => true) (s.upd (forAll 16 exitTransmit b))

/-- The return to P0 beside another event: which trims fail after P4 is a free value (log entry 126). -/
def exitPower (s : State) : State :=
  if s.blk.pwr.state = 4 then
    let d := draw s.blk
    exitWith ((List.range 8).filter d.1.getLsbD) (s.upd d.2)
  else exitWith [] s

/-- Blocks that the two-wire port reaches without a wake (R439). -/
def wakeless (a : Nat) : Bool :=
  let base := baseOf a
  base == 0 || base == sageBase || base == thmBase || base == twpBase || base == clkBase || base == pwrBase

/-- Something ends the power state (R439). -/
def wakeHolds (b : Block) : WakeCause → Bool
  | .request p => decide (askCount b.ports[p] > 0)
  | .squelch _ => b.pwr.state == 4
  | .knownEvent => if b.pwr.state.toNat ≥ 3 then b.pwr.wakeAt.isSome else (nextKnown b).isSome
  | .sequencer => b.clk.queue != []
  | .trip => b.thm.zones.toList.any fun z => z.trip
  | .fault => (List.range 256).any fun n => b.sage.pend.getLsbD n && decide (reactionOf b n ≥ 1)
  | .twoWire => b.twp.addressed && (b.twp.reading || b.twp.ptrSet) && !wakeless b.twp.ptr.toNat

/-- A squelch detector that wakes the stack within its port's quiet time counts as an early request (R439). -/
def wakeCount (c : WakeCause) (b : Block) : Block :=
  match c with
  | .squelch p => noteEarly (quietLeft b p) 1 b
  | _ => b

/-- POWER_STATE_EXIT: the regulators are trimmed in an exit from P4. -/
def leavePower (c : WakeCause) (ivrFail : List Nat) (s : State) : State :=
  if s.blk.pwr.state = 0 || !wakeHolds s.blk c then s else
  exitWith ivrFail (s.upd (wakeCount c s.blk))

/-! ### The sequencer (R424 to R430) -/

/-- Nothing runs or waits in the sequencer. -/
def seqIdle (b : Block) : Bool := b.clk.running.isNone && b.clk.queue.isEmpty

/-- Queue a step. -/
def queueStep (x : SeqStep) (b : Block) : Block := { b with clk := { b.clk with queue := b.clk.queue ++ [x] } }

/-- CLK_OP.target, CLK_MODE.ratio and CLK_RATIO as they are live. -/
def opTarget (b : Block) : BitVec 2 := BitVec.ofNat 2 (rwf (clkBase + 4) 1 0 b)
def ratioStep (b : Block) : SeqStep :=
  .ratio (rwf clkBase 0 0 b == 1) (BitVec.ofNat 2 (rwf (clkBase + 0x18) 1 0 b)) (BitVec.ofNat 5 (rwf (clkBase + 0x18) 12 8 b))

/-- The step that committed clock registers ask for (R425, R429). -/
def askSteps (b : Block) : Block :=
  let want := rwf clkBase 0 0 b == 1
  if want != b.clk.ratio then queueStep (ratioStep b) b
  else if want then
    (if rwf (clkBase + 0x18) 1 0 b = b.clk.tsvDiv.toNat ∧ rwf (clkBase + 0x18) 12 8 b = b.clk.mgmtDiv.toNat then b
     else queueStep (ratioStep b) b)
  else if opTarget b ≠ b.clk.op then queueStep (.op (opTarget b)) b
  else b

/-- A source select commits (R420): a switch to a REFCLK that is not READY drops the write. -/
def commitSrc (w : Word) (b : Block) : Block :=
  if !b.clk.proven && (w &&& ~~~(rw (clkBase + 8) b)) != 0 then rcSet (clkBase + 0x14) 0 b
  else followRates (applySources (setLive (clkBase + 8) w b))

/-- A CLK_CLKEN_RUN change runs (R431, R433): the gate of a unit whose bit goes to 0 waits for idle handshakes. -/
def runClken (w : Word) (b : Block) : Block :=
  let old := rw (clkBase + 0x20) b
  let b := setLive (clkBase + 0x20) w b
  let on := BitVec.ofNat 15 w.toNat
  gateEngines { b with clk := { b.clk with gateWait := (b.clk.gateWait ||| BitVec.ofNat 15 old.toNat) &&& ~~~on } }

/-- CLK_CLKEN_RUN commits. In a power state, or behind steps that committed before it, the change becomes a step of the queue, which
wakes the stack first (R428). -/
def commitClken (w : Word) (b : Block) : Block :=
  if b.pwr.state = 0 && seqIdle b then runClken w b else queueStep (.clken w) b

/-- The wait of the gates ends (R433): a unit that is not idle, and the BIST controller during a run (R512), runs on and its live bit
returns to 1; the others are gated. -/
def endGates (busy : BitVec 15) (b : Block) : Block :=
  let keep := b.clk.gateWait &&& (busy ||| fabricBusy b ||| if b.bst.run.isSome then 0x1000 else 0)
  let w := rw (clkBase + 0x20) b ||| keep.zeroExtend 32
  let b := if keep = 0 then b else refuseGate keep (setLive (clkBase + 0x20) w b)
  gateEngines { b with clk := { b.clk with gateWait := 0, linkLock := b.clk.linkLock &&& BitVec.ofNat 4 w.toNat } }

/-- A quiet hint commits: its codes run from now (R437). -/
def commitHint (a : Nat) (w : Word) (b : Block) : Block :=
  let k := (a - (pwrBase + 0x10)) / 4
  let b := setLive a w b
  { b with pwr := { b.pwr with hintAt := Vector.ofFn fun p => if p.val / 8 = k then b.now else b.pwr.hintAt[p] } }

/-- One clock or power register commits. -/
def commitClkReg (w : PendWr) (b : Block) : Block :=
  if w.addr = clkBase + 8 then commitSrc w.value b
  else if w.addr = clkBase + 0x20 then commitClken w.value b
  else if w.addr = pwrBase + 0x10 ∨ w.addr = pwrBase + 0x14 then commitHint w.addr w.value b
  else setLive w.addr w.value b

/-- Committed writes of the CLK and PWR blocks come into force as one step (R52), which queues the step that the clock registers
ask for. -/
def applyClk (l : List PendWr) (b : Block) : Block :=
  let b := l.foldl (fun b w => commitClkReg w b) b
  if l.any fun w => w.addr == clkBase || w.addr == clkBase + 4 || w.addr == clkBase + 0x18 then askSteps b else b

/-- One of the two blocks commits on its own, as a forced commit takes them (R55). -/
def commitClkBlock (base : Nat) (b : Block) : Block :=
  let r := takePend base b
  applyClk r.1 r.2

/-- Both blocks commit at a sequencer step (R53). -/
def commitClk (b : Block) : Block :=
  let r := takePend clkBase b
  let q := takePend pwrBase r.2
  applyClk (r.1 ++ q.1) q.2

/-- Writes commit at once while the sequencer is idle (R53). -/
def commitClkNow (b : Block) : Block := if seqIdle b then commitClk b else b

/-- A write to a register of the two blocks waits. -/
def clkWaits (a : Nat) (b : Block) : Bool := b.regs.pend.any fun w => w.addr == a

/-- CLK_SRC_COMMIT: a source select that waits forms a sequencer step with all that waits beside it, after the steps that
committed before (R428). -/
def srcCommit (b : Block) : Block := if seqIdle b && clkWaits (clkBase + 8) b then commitClk b else b

/-- A CLKEN_RUN change that commits wakes the stack to P0 first (R428). -/
def wakeClken (s : State) : State := if clkWaits (clkBase + 0x20) s.blk then exitPower s else s

/-- The CLK_CLKEN_RUN change at the head of the queue runs, with the stack in P0 (R428). -/
def clkenStep (s : State) : State :=
  match s.blk.clk.queue with
  | .clken w :: rest =>
    if s.blk.sage.safe || s.blk.thm.safe then s else
    let s := exitPower s
    s.upd (runClken w { s.blk with clk := { s.blk.clk with queue := rest } })
  | _ => s

/-- CLKEN_RUN_COMMIT: what waits commits as a step in its turn (R428), and the wait of the gates ends. -/
def clkenCommit (busy : BitVec 15) (s : State) : State :=
  if s.blk.clk.running.isSome then s else
  let s := if seqIdle s.blk then wakeClken s else clkenStep s
  let b := if seqIdle s.blk && clkWaits (clkBase + 0x20) s.blk then commitClk s.blk else s.blk
  s.upd (if b.clk.gateWait = 0 then b else endGates busy b)

/-- Command clock of an operating point in MHz (R424). -/
def commandMhz (op : Nat) : Nat :=
  if op ≥ 3 then (if Config.gradeB then 1800 else 2000) else if op = 2 then 1600 else if op = 1 then 1000 else 500

/-- The dividers keep the ratio of the command clock to MGMT between 4:1 and 16:1 (R430). -/
def ratioOk (tsv div : Nat) : Bool := decide (3200 ≤ commandMhz tsv * div) && decide (commandMhz tsv * div ≤ 12800)

/-- The operating point whose clocks a step sets. -/
def stepOp (b : Block) : SeqStep → BitVec 2
  | .op t => t
  | .ratio true tsv _ => tsv
  | .ratio false _ _ => opTarget b
  | .clken _ => b.clk.op

/-- A TSV PLL hops to an operating point's command clock with every row of its quadrant closed (R426); waits in progress go on by
the new clock, and centring starts again on every TSV group (R448). -/
def hopTsv (q : QuadId) (op : BitVec 2) (s : State) : State :=
  let cs := (List.range 32).filter fun c => quadOf c == q && (s.blk.chans[cid c].st == .run || s.blk.chans[cid c].st == .powerdown)
  let s := cs.foldl (fun s c => closeAll c s) s
  let old := s.blk.clk.tsvOps[q]
  let b := cs.foldl (fun b c => modChan (cid c) (retime (commandMhz op.toNat) (commandMhz old.toNat)) b) s.blk
  let b := forAll 32 (fun c b => if quadOf c.val = q then modChan c (fun x => { x with centre := List.range 36 }) b else b) b
  s.upd { b with clk := { b.clk with tsvOps := b.clk.tsvOps.set q op } }

/-- A link PLL takes an operating point's lane-rate ceiling, and its ports enter RECOVER at their new rate (R168, R426). -/
def hopLink (q : QuadId) (op : BitVec 2) (b : Block) : Block :=
  followRates { b with clk := { b.clk with rateOps := b.clk.rateOps.set q op } }

/-- One PLL change. -/
def takeHop (s : State) (h : Hop) : State := if h.link then s.upd (hopLink h.quad h.op s.blk) else hopTsv h.quad h.op s

/-- Make the PLL changes that `f` names, in their order. -/
def hopWhere (f : Hop → Bool) (s : State) : State :=
  let l := s.blk.clk.hops
  if l = [] then s else
  (l.filter f).foldl takeHop (s.upd { s.blk with clk := { s.blk.clk with hops := l.filter fun h => !f h } })

/-- The PLL changes whose time has come. -/
def hopsNow (s : State) : State := hopWhere (fun h => decide (h.at_ ≤ s.blk.now)) s

/-- One change in each quadrant, 1 µs apart (R426). -/
def quadHops (link : Bool) (op : BitVec 2) (t : Nat) : List Hop :=
  (List.finRange 4).map fun q => { at_ := t + 100 * q.val, link := link, quad := q, op := op }

/-- Add PLL changes. -/
def addHops (l : List Hop) (b : Block) : Block := { b with clk := { b.clk with hops := b.clk.hops ++ l } }

/-- VDDL at the end of a step (R424, R429). -/
def stepVddl (b : Block) : SeqStep → Nat
  | .op t => opVddl b t
  | .ratio true _ _ => 850
  | .ratio false _ _ => opVddl b (opTarget b)
  | .clken _ => b.clk.vddl

/-- The step does not raise the TSV rate: the TSV PLLs hop before VDDL falls; a step that raises it hops after VDDL has risen
(R23, R426). -/
def stepDown (b : Block) (x : SeqStep) : Bool := b.clk.tsvOps.toList.all fun o => decide (stepOp b x ≤ o)

/-- The step lowers a lane rate. -/
def rateFalls (b : Block) (x : SeqStep) : Bool := b.clk.rateOps.toList.any fun o => decide (opRate (stepOp b x) < opRate o)

/-- The PLL changes of a step from its start on (R23, R168, R426): falling lane rates first, then the TSV hops, which in a step up
wait for VDDL to ramp at 50 mV/µs and settle. The times are those that R426 calls typical (log entry 124). -/
def stepHops (b : Block) (x : SeqStep) : List Hop :=
  let op := stepOp b x
  let falls := rateFalls b x
  let ramp := if stepDown b x then 0 else 2 * (stepVddl b x - b.clk.vddl) + 100
  (if falls then quadHops true op b.now else []) ++ quadHops false op (b.now + (if falls then 400 else 0) + ramp)

/-- The queued step runs: the stack is woken, and what the step before it has left to do is done. A step up raises VDDL first; a
step down lowers the lane rates, then the TSV rate (R23, R168, R426). -/
def startStep (x : SeqStep) (s : State) : State :=
  let s := hopWhere (fun _ => true) (exitPower (checked clkBase s))
  let l := stepHops s.blk x
  let b := cutBist (fun t => t == 3 || t == 0x11) s.blk
  hopsNow (s.upd (addHops l { b with clk := { b.clk with
    running := some x, queue := b.clk.queue.drop 1, startedAt := b.now, vddl := max b.clk.vddl (stepVddl b x) } }))

/-- The step at the head of the queue, when the sequencer is free and no safe state holds it. -/
def nextStep (b : Block) : Option SeqStep :=
  if b.clk.running.isSome || b.sage.safe || b.thm.safe || !b.start.done then none else b.clk.queue.head?

/-- What is left of a step at its end: a step up still has to raise the TSV rate, a step down to lower VDDL; then the point is the
current one (R23, R425, R426). -/
def finishStep (x : SeqStep) (s : State) : State :=
  let op := stepOp s.blk x
  let s := hopWhere (fun _ => true) s
  let b := s.blk
  let c := { b.clk with op := op, vddl := stepVddl b x }
  s.upd { b with clk := match x with
    | .op _ => c
    | .ratio m tsv div => { c with ratio := m, tsvDiv := tsv, mgmtDiv := div }
    | .clken _ => c }

/-- A ratio-mode change trims no regulator; an operating-point step does (R445). -/
def stepTrims : SeqStep → Bool
  | .op _ => true
  | .ratio .. | .clken _ => false

/-- SEQUENCER_STEP_END: the regulators' trim, CLK_OP.current and event 0x0201, then rising lane rates, the writes that waited,
and the next step. -/
def stepEnd (ivrFail : List Nat) (s : State) : State :=
  match s.blk.clk.running with
  | none => s
  | some x =>
    let old := s.blk.clk.op
    let s := finishStep x s
    let b := if stepTrims x then trimRegs ivrFail s.blk else s.blk
    let ms := (b.now - b.clk.startedAt) / 10
    let b := emit allMask
      { code := 0x0201, lo := word [(b.clk.op.toNat, 0), (old.toNat, 2), (b2n b.clk.ratio, 4), (ms % 65536, 16)] } b
    let b := addHops (quadHops true b.clk.op b.now) { b with clk := { b.clk with running := none } }
    let s := hopsNow (s.upd b)
    s.upd (commitClk s.blk)

def execRefclkLoss (count : BitVec 16) (s : State) : Res :=
  .next (if inRange count.toNat then s else s.upd (monitorWindow count s.blk))
def execRefclkProven (s : State) : Res := .next (s.upd (refProven s.blk))
def execPllLockLoss (pll : Pll) (s : State) : Res := .next (s.upd (pllLost pll s.blk))
def execPllLockAcquired (pll : Pll) (s : State) : Res := .next (pllLocked pll s)
def execOpStep (s : State) : Res :=
  match nextStep s.blk with
  | some (.op t) => .next (startStep (.op t) s)
  | _ => .next s
def execRatioModeChange (s : State) : Res :=
  match nextStep s.blk with
  | some (.ratio m tsv div) =>
    if m && !ratioOk tsv.toNat div.toNat then .fault .ratioUndefined else .next (startStep (.ratio m tsv div) s)
  | _ => .next s
def execClkSrcCommit (s : State) : Res := .next (s.upd (srcCommit s.blk))
def execClkenRunCommit (busy : BitVec 15) (s : State) : Res := .next (clkenCommit busy s)
def execPowerStateEntry (busy : BitVec 15) (s : State) : Res := .next (enterPower busy s)
def execPowerStateExit (cause : WakeCause) (s : State) (ivrFail : List Nat := []) : Res := .next (leavePower cause ivrFail s)
def execSequencerStepEnd (s : State) (ivrFail : List Nat := []) : Res := .next (stepEnd ivrFail s)

end Sys2Proof.Machine
end

