-- ==== Sys2Proof/Machine/Thermal.lean ====
section
/-! DEFINITION. Tarragon (chapter 15): the thermal sample of R37, neighbour checks, zones, throttle levels, and the thermal safe
state. -/

namespace Sys2Proof.Machine

open Sys2Proof

/-! ### Sensors and zones (R398 to R403) -/

/-- The neighbour set of a sensor: that of the SENSORS section, or of the ROM image. -/
def neighboursOf (b : Block) (n : Nat) : List Nat := (mfind b.thm.sets n).getD (Config.romNeighbours n)

/-- A sensor by number. -/
def sensorAt (b : Block) (n : Nat) : Sensor := b.thm.sensors[Fin.ofNat 192 n]

/-- Change a sensor. -/
def modSensor (n : Nat) (f : Sensor → Sensor) (b : Block) : Block :=
  { b with thm := { b.thm with sensors := b.thm.sensors.set (Fin.ofNat 192 n) (f (sensorAt b n)) } }

/-- The sensors of the part. -/
def sensorList : List Nat := (List.range 192).filter sensorPresent

/-- Insert a number in ascending order. -/
def insertInt (x : Int) : List Int → List Int
  | [] => [x]
  | y :: t => if x ≤ y then x :: y :: t else y :: insertInt x t

/-- The middle value of a list, the higher of the two middle ones for an even count (R401). -/
def medianOf (l : List Int) : Option Int := (l.foldl (fun a x => insertInt x a) [])[l.length / 2]?

/-- The median of a sensor's neighbour set over its members that are not suspect. -/
def neighbourMedian (b : Block) (n : Nat) : Option Int :=
  medianOf (((neighboursOf b n).filter fun m => sensorPresent m && !(sensorAt b m).suspect).map fun m =>
    (sensorAt b m).value.toInt)

/-- Die layers of the part: its core dies, and 16 for the base die (R400). -/
def layers : List Nat := List.range Config.height ++ [16]

/-- The zones of a quadrant, and all zones, ascending. -/
def zonesIn (q : Nat) : List Nat := layers.map (zoneOf q)
def zoneList : List Nat := (List.range 4).flatMap zonesIn

/-- The sensors of a zone (R400). -/
def zoneSensors (z : Nat) : List Nat :=
  let q := z / 17
  let l := z % 17
  if l = 16 then (List.range 16).map (16 * q + ·) else [64 + 8 * l + 2 * q, 65 + 8 * l + 2 * q]

/-- The zone of a sensor. -/
def sensorZone (n : Nat) : Nat := if n < 64 then zoneOf (n / 16) 16 else zoneOf ((n - 64) % 8 / 2) ((n - 64) / 8)

/-- A zone by number. -/
def zoneAt (b : Block) (z : Nat) : Zone := b.thm.zones[Fin.ofNat 68 z]

/-- Change a zone. -/
def modZone (z : Nat) (f : Zone → Zone) (b : Block) : Block :=
  { b with thm := { b.thm with zones := b.thm.zones.set (Fin.ofNat 68 z) (f (zoneAt b z)) } }

/-- The greatest of a list. -/
def maxInt (l : List Int) : Int := match l with | [] => 0 | x :: t => t.foldl max x

/-- The guard of 5 °C (R403). -/
def guardStep : Int := 1280

/-- A zone's temperature, and whether it is on the guard and blind (R403). -/
def zoneForm (b : Block) (z : Nat) : Int × Bool × Bool :=
  let l := zoneSensors z
  let bad := l.filter fun n => (sensorAt b n).suspect
  let own := fun n => (sensorAt b n).value.toInt
  let stand := fun n => if (sensorAt b n).suspect then (neighbourMedian b n).getD (own n) else own n
  if bad = [] then (maxInt (l.map own), false, false)
  else if bad.length = l.length then (maxInt (l.map stand) + guardStep, true, true)
  else if 3 * bad.length > l.length then (maxInt ((l.filter fun n => !bad.contains n).map own) + guardStep, true, false)
  else if bad.all fun n => (neighbourMedian b n).isSome then (maxInt (l.map stand), false, false)
  else (maxInt (l.map stand) + guardStep, true, false)

/-! ### Step 3: suspects (R402 to R404) -/

/-- The clears that were asked for (R404). -/
def takeClears (b : Block) : Block :=
  let b' := (List.range 192).foldl (fun b n =>
    if b.thm.clr.getLsbD n then modSensor n (fun x => { x with suspect := false, strikes := 0, told := false }) b else b) b
  { b' with thm := { b'.thm with clr := 0 } }

/-- The results of the sample; a present sensor without one is suspect (R399). -/
def takeResults (results : List (Nat × BitVec 16)) (b : Block) : Block :=
  sensorList.foldl (fun b n =>
    match results.find? fun r => r.1 == n with
    | some r => modSensor n (fun x => { x with value := r.2 }) b
    | none => modSensor n (fun x => { x with suspect := true, strikes := 4 }) b) b

/-- A sensor's count against the median of its set (R402). -/
def judge (v m : Int) (x : Sensor) : Sensor :=
  if v - m > 2048 ∨ m - v > 2048 then { x with strikes := x.strikes + 1, suspect := decide (x.strikes + 1 ≥ 4) }
  else { x with strikes := 0 }

/-- Judge every sensor that is not suspect, all against the marks as the step found them. -/
def judgeSensors (b : Block) : Block :=
  sensorList.foldl (fun r n =>
    if (sensorAt b n).suspect then r else
    match neighbourMedian b n with
    | some m => modSensor n (judge (sensorAt b n).value.toInt m) r
    | none => r) b

/-! ### Events of step 3 -/

/-- The low detail word of event 0x0B05, and its low half of the high word: the median, where one was formed. -/
def suspectLo (b : Block) (n z : Nat) (guard : Bool) : Word :=
  word [(n, 0), (z, 8), (b2n guard, 15), ((sensorAt b n).value.toNat, 16)]
def suspectHi (b : Block) (n : Nat) (blind : Bool) : Word × Block :=
  match neighbourMedian b n with
  | some m => (word [((BitVec.ofInt 16 m).toNat, 0), (b2n blind, 16)], b)
  | none => let d := draw b; (word [(d.1.toNat % 65536, 0), (b2n blind, 16)], d.2)

/-- Event 0x0B05 of a sensor in its zone. -/
def suspectEvent (n z : Nat) (guard blind : Bool) (b : Block) : Ev × Block :=
  let h := suspectHi b n blind
  ({ code := 0x0B05, lo := suspectLo b n z guard, hi := h.1 }, h.2)

/-- The sensor's 0x0B05 is sent. -/
def tellSensor (n : Nat) (b : Block) : Block := modSensor n (fun x => { x with told := true }) b

/-- A zone goes on the guard or goes blind: FS_THM_SENSOR, whose event serves its sensor as well. -/
def guardRaise (z : Nat) (blind : Bool) (b : Block) : Block :=
  match (zoneSensors z).find? fun n => (sensorAt b n).suspect with
  | none => b
  | some n =>
    let e := suspectEvent n z true blind b
    let b := if reports (fs .thmSensor) b then tellSensor n e.2 else e.2
    raise (fs .thmSensor) 0x55 e.1.lo [{ mask := allMask, ev := e.1 }] b

/-- A suspect whose event has not been sent sends it (R404). -/
def tellSuspect (n : Nat) (b : Block) : Block :=
  let x := sensorAt b n
  if !x.suspect || x.told then b else
  let z := zoneAt b (sensorZone n)
  let e := suspectEvent n (sensorZone n) z.guard z.blind b
  emit allMask e.1 (rcSet (thmBase + 0xC) 3 (tellSensor n e.2))

/-- The temperature as a zone holds it: a value outside Q8.8 is not stated, and is free. -/
def storeTemp (t : Int) (b : Block) : BitVec 16 × Block :=
  if -32768 ≤ t ∧ t ≤ 32767 then (BitVec.ofInt 16 t, b)
  else let d := draw b; (d.1.truncate 16, d.2)

/-- One zone takes its temperature and marks. -/
def formZone (z : Nat) (f : Int × Bool × Bool) (b : Block) : Block :=
  let old := zoneAt b z
  let t := storeTemp f.1 b
  let b := modZone z (fun x => { x with temp := t.1, guard := f.2.1, blind := f.2.2 }) t.2
  let b := if f.2.1 && !old.guard then rcSet (thmBase + 0xC) 2 b else b
  if (f.2.1 && !old.guard) || (f.2.2 && !old.blind) then guardRaise z f.2.2 b else b

/-- Sensors that became suspect set THM_EVT.suspect. -/
def noteSuspects (old b : Block) : Block :=
  if sensorList.any fun n => (sensorAt b n).suspect && !(sensorAt old n).suspect then rcSet (thmBase + 0xC) 3 b else b

/-- Step 3 of R37: the marks, and the zone temperatures, which the steps that follow judge. -/
def sampleZones (results : List (Nat × BitVec 16)) (b : Block) : List (Nat × Int) × Block :=
  let c := takeResults results (takeClears b)
  let b := noteSuspects c (judgeSensors c)
  let b := if sensorList.any fun n => (sensorAt c n).suspect && !(sensorAt c n).told then rcSet (thmBase + 0xC) 3 b else b
  let forms := zoneList.map fun z => (z, zoneForm b z)
  let b := forms.foldl (fun b f => formZone f.1 f.2 b) b
  (forms.map fun f => (f.1, f.2.1), sensorList.foldl (fun b n => tellSuspect n b) b)

/-! ### Step 4: thresholds (R405 to R407, R413) -/

/-- Threshold `k` of a zone's die type: 0 warning, 1 throttle, 2 shutdown; with its hysteresis. -/
def limitOfZone (b : Block) (z k : Nat) : Int × Int :=
  let w := rw (thmBase + 0x10 + (if z % 17 = 16 then 0xC else 0) + 4 * k) b
  (unitVal 1 (wfield w 31 16), unitVal 1 (wfield w 15 0))

/-- The warning and trip marks of one zone. -/
def compareZone (z : Nat) (t : Int) (b : Block) : Block :=
  let old := zoneAt b z
  let w := limitOfZone b z 0
  let warn := if old.warn then decide (w.1 - w.2 ≤ t) else decide (w.1 ≤ t)
  let b := modZone z (fun x => { x with warn := warn, trip := decide ((limitOfZone b z 2).1 ≤ t) }) b
  if warn = old.warn then b else
  emit allMask { code := 0x0B01, lo := word [(z, 0), (b2n warn, 8), (old.temp.toNat, 16)] } (rcSet (thmBase + 0xC) 0 b)

/-- Every zone is below its shutdown threshold less hysteresis. -/
def coolEnough (b : Block) (temps : List (Nat × Int)) : Bool :=
  temps.all fun t => decide (t.2 < (limitOfZone b t.1 2).1 - (limitOfZone b t.1 2).2)

/-- Step 4 of R37. -/
def compareZones (temps : List (Nat × Int)) (b : Block) : Block :=
  let b := temps.foldl (fun b t => compareZone t.1 t.2 b) b
  if b.thm.safe && !b.thm.inStart && coolEnough b temps then { b with thm := { b.thm with resumeOk := true } } else b

/-! ### Step 5: the thermal safe state (R410, R411, R414) -/

/-- The hottest zone at or above shutdown; the lowest number on a tie. -/
def tripZone (b : Block) (temps : List (Nat × Int)) : Option (Nat × Int) :=
  bestBy (fun x y => decide (x.2 > y.2)) (temps.filter fun t => (zoneAt b t.1).trip)

/-- THERMTRIP_N and the trip record. -/
def tripRecord (z : Nat) (b : Block) : Block :=
  { b with thm := { b.thm with tripPin := true, tripZone := BitVec.ofNat 7 z, tripTemp := (zoneAt b z).temp } }

/-- A start that a thermal trip ends shows stage SAFE, and its image load stops (R95). -/
def tripStart (inStart : Bool) (b : Block) : Block :=
  if inStart then stopBoot { b with start := { b.start with stage := 12 } } else b

/-- Enter the thermal safe state from P0. A start lasts until READY or CHIVE, the time after its failure included (R95, R97). -/
def thermalTrip (z : Nat) (b : Block) : Block :=
  let inStart := !b.start.done
  let b := rcSet (thmBase + 0xC) 4 (tripRecord z b)
  let e : Ev := { code := 0x0B03, lo := word [(z, 0), ((zoneAt b z).temp.toNat, 16)] }
  let b := (record (fs .thmTrip) 0x55 e.lo b).1
  let b := forAll 16 (sendLastEvent (nmeOut b) e) b
  let b := { b with thm := { b.thm with safe := true, safeAt := b.now, inStart := inStart, resumeOk := false }, clk := { b.clk with queue := [] } }
  let before := b.ports
  let b := portsDown before (fun code p b => portChange code p 2 0 b) (safePorts (cutBist (fun _ => true) b))
  tripStart inStart (allToSelfRefresh { b with engs := b.engs.map holdEngine })

/-- Step 5 of R37. -/
def sampleTrip (temps : List (Nat × Int)) (s : State) : State :=
  match tripZone s.blk temps with
  | none => s
  | some t =>
    if s.blk.sage.safe then (if s.blk.thm.tripPin then s else s.upd (tripRecord t.1 s.blk))
    else if s.blk.thm.safe then s
    else let s := exitWith [] s; s.upd (thermalTrip t.1 s.blk)

/-! ### Step 6: throttle levels (R36, R408) -/

/-- The level of R408. -/
def zoneLevel (c : Curve) (t thr hyst : Int) (lvl : Nat) : Nat :=
  let up := if thr ≤ t then (c.eval (t - thr)).toNat else 0
  let down := if thr ≤ t + hyst then (c.eval (t + hyst - thr)).toNat else 0
  if up > lvl then up else min down lvl

/-- Update one zone's level. -/
def levelZone (b0 : Block) (t : Nat × Int) (b : Block) : Block :=
  let l := limitOfZone b0 t.1 1
  let c := throttleCurve b0 (if t.1 % 17 = 16 then 1 else 0)
  modZone t.1 (fun x => { x with level := zoneLevel c t.2 l.1 l.2 x.level }) b

/-- The zone that sets a quadrant's level (R408). -/
def settingZone (b : Block) (q : Nat) : Nat :=
  (bestBy (fun x y =>
    let u := zoneAt b x
    let v := zoneAt b y
    decide (u.level > v.level) || (u.level == v.level && decide (u.temp.toInt > v.temp.toInt))) (zonesIn q)).getD (zoneOf q 16)

/-- The highest core-die zone temperature of a quadrant. -/
def coreMax (b : Block) (q : Nat) : Int := maxInt ((List.range Config.height).map fun l => coreTemp b q l)

/-- The refresh multiplier: CHIVE refreshes at its fastest rate (R102). -/
def quadMult (b : Block) (q : Nat) : Nat := if b.start.chive then 1024 else refreshMult b (coreMax b q)

/-- A quadrant takes its level and multiplier, and its channels adopt them at their next refresh ticks. -/
def levelQuad (q : QuadId) (b : Block) : Block :=
  let old := b.thm.qLevel[q]
  let z := settingZone b q.val
  let lvl := (zoneAt b z).level
  let m := quadMult b q.val
  let b := { b with
    thm := { b.thm with qLevel := b.thm.qLevel.set q lvl, qMult := b.thm.qMult.set q m }
    chans := Vector.ofFn fun c => if quadOf c.val = q then { b.chans[c] with levelNext := lvl, multNext := m } else b.chans[c] }
  if lvl = old then b else
  emit allMask { code := 0x0B02
                 lo := word [(q.val, 0), (lvl, 2), (old, 4), (z, 8), ((zoneAt b z).temp.toNat, 16)] } (rcSet (thmBase + 0xC) 1 b)

/-- Step 6 of R37. -/
def sampleLevels (temps : List (Nat × Int)) (b : Block) : Block :=
  forAll 4 levelQuad (temps.foldl (fun r t => levelZone b t r) b)

/-! ### Step 9: Sorrel (R247, R248) -/

/-- The ranking of a quadrant's die layers, coolest first, ties to the higher die. -/
def rankQuad (b : Block) (q : Nat) : List Nat :=
  sortBy (fun x y => decide (coreTemp b q x < coreTemp b q y)) (List.range Config.height).reverse

/-- The trigger zones, as 16 * quadrant + layer. -/
def triggers (b : Block) : List Nat :=
  (List.range 64).filter fun k =>
    decide (k % 16 < Config.height) &&
      (if b.srl.trig.contains k then decide (coolBelow b ≤ coreTemp b (k / 16) (k % 16))
       else decide (coolTrigger b ≤ coreTemp b (k / 16) (k % 16)))

/-- A physical segment lies in a trigger zone. -/
def inTrigger (b : Block) (s : Nat) : Bool := b.srl.trig.contains (16 * (segChan s / 8) + segSlice s)

/-- Temperature migrations of a sample. -/
def orderCool (b : Block) : Block :=
  let l := movableSegs b (fun p m => p == 3 && m == 2) fun s => inTrigger b s && decide (heatOf b s ≥ 1)
  ((hottest b l).take (rwf (srlBase + 0x2C) 23 16 b)).foldl (fun b s => orderMove .thermal s b) b

/-- Step 9 of R37. -/
def sampleSorrel (b : Block) : Block :=
  let b := { b with srl := { b.srl with rank := Vector.ofFn fun q => rankQuad b q.val, trig := triggers b } }
  if b.ready then orderCool b else b

/-! ### THERMAL_SAMPLE -/

/-- Step 10 of R37: the quadrant summaries. -/
def sampleTelemetry (b : Block) : Block :=
  { b with thm := { b.thm with
      qMax := Vector.ofFn fun q => BitVec.ofInt 16 (coreMax b q.val)
      qHot := Vector.ofFn fun q => settingZone b q.val % 17 } }

/-- The thermal sample, at a multiple of 1 ms of STACK_TIME (R25). Tarragon's sensors convert from step 6 of a start on (R445). In
the sample whose step 5 begins the thermal safe state, steps 6 to 10 are not run (R37). -/
def thermalSample (results : List (Nat × BitVec 16)) (s : State) : State :=
  if s.blk.start.step < 6 || !strobe 100000 s.blk then s else
  let b := commitLive thmSection (commitPlain thmBase (useRegs thmBase s.blk))
  let z := sampleZones results b
  let old := b.thm.safe
  let s := sampleTrip z.1 (s.upd (compareZones z.1 z.2))
  let b := s.blk
  if b.thm.safe && !old then s else
  let b := if b.sage.safe || b.thm.safe then b else sampleSorrel (sampleLevels z.1 b)
  s.upd (sampleTelemetry b)

def execThermalSample (results : List (Nat × BitVec 16)) (s : State) : Res := .next (thermalSample results s)

/-! ### Resumption (R413) -/

/-- The ports move on: 1 to 15 to DETECT, an ACTIVE port 0 to RECOVER. -/
def resumePorts (b : Block) : Block :=
  let b := forAll 16 (fun p b => if p.val = 0 then b else modPort p portDetect b) b
  if b.ports[(0 : PortId)].st == .active then recoverPort 0 b else b

/-- The stack leaves the thermal safe state. -/
def thermalResume (s : State) : State :=
  let b := s.blk
  let b := rcSet (thmBase + 0xC) 5
    { b with thm := { b.thm with safe := false, tripPin := false, resumeOk := false, owe := allMask } }
  let s := wakeChans (fun _ => true) (s.upd (allChans (fun x => { x with srWant := false, srMult := 0 }) b))
  s.upd (resumePorts (gateEngines s.blk))

/-- A write to THM_TRIP_ACK, with its status. -/
def tripAck (data : Word) (s : State) : Status × State :=
  if !data.getLsbD 0 then (.ok, s)
  else if s.blk.thm.safe && s.blk.thm.resumeOk && !s.blk.thm.inStart then (.ok, thermalResume s)
  else (.badArg, s)

/-! ### Threshold writes (R406) -/

/-- The thresholds of one die type would ascend strictly in the shadow view. -/
def limitsAscend (k : Nat) (w : Word) (b : Block) : Bool :=
  let t := fun j => unitVal 1 (wfield (if j = k then w else shadow (thmBase + 0x10 + 4 * j) b) 31 16)
  let o := k / 3 * 3
  decide (t o < t (o + 1)) && decide (t (o + 1) < t (o + 2))

/-- A value of THM_LIMIT register `k` is within the image's limits. -/
def limitOk (k : Nat) (w : Word) (b : Block) : Bool :=
  let i := b.thm.thrImg.getD k 0
  decide (unitVal 1 (wfield w 31 16) ≤ unitVal 1 (wfield i 31 16)) && decide (unitVal 1 (wfield i 15 0) ≤ unitVal 1 (wfield w 15 0))
    && limitsAscend k w b

end Sys2Proof.Machine
end

