-- ==== Sys2Proof/Machine/Calibration.lean ====
section
/-! DEFINITION. Calibration (chapter 17): the in-service steps, the CAL commands and the quality figures. -/

namespace Sys2Proof.Machine

open Sys2Proof

/-! ### Steps and retries (R445) -/

/-- CAL_CFG fields. -/
def calRetries (b : Block) : Nat := rwf (calBase + 4) 3 0 b
def tsvMin (b : Block) : Nat := rwf (calBase + 4) 15 8 b
def ageWarnAt (b : Block) : Nat := rwf (calBase + 4) 31 16 b

/-- The attempts of a step: the first and its retries; an attempt without a result reached its timeout. -/
def attemptsOf {α : Type} (b : Block) (tries : List (Attempt α)) : List (Attempt α) :=
  (List.range (calRetries b + 1)).map fun i => (tries.getD i none)

/-- The result of the first attempt that succeeds. -/
def firstGood {α : Type} (ok : α → Bool) (l : List (Attempt α)) : Option α :=
  l.findSome? fun a => match a with | some v => if ok v then some v else none | none => none

/-- The result last measured: of the attempts up to the first that succeeds. -/
def lastSeen {α : Type} (ok : α → Bool) (l : List (Attempt α)) : Option α :=
  match firstGood ok l with
  | some v => some v
  | none => l.foldl (fun a x => match x with | some v => some v | none => a) none

/-- In-service calibration runs (R448): in P0 and P1, outside both safe states, with its sequencer's clock on. -/
def calRuns (b : Block) : Bool :=
  b.start.done && !b.sage.safe && !b.thm.safe && decide (b.pwr.state.toNat < 2) && unitRuns b 13

/-! ### Band-gap and regulators -/

/-- The two references agree within 1 % of 1.200 V, in 0.1 mV. -/
def bandgapOk (v : BitVec 16) : Bool := decide (-120 ≤ v.toInt ∧ v.toInt ≤ 120)

/-- The band-gap cross-check: CAL_BG, and FS_CAL_BANDGAP after the last retry. -/
def bandgapCheck (devs : List (Attempt (BitVec 16))) (b : Block) : Block :=
  let l := attemptsOf b devs
  let b := { b with cal := { b.cal with bg := (lastSeen bandgapOk l).getD b.cal.bg } }
  if (firstGood bandgapOk l).isSome then b else raise (fs .calBandgap) 0x58 (b.cal.bg.zeroExtend 32) [] b

/-- The periodic check, which SAGE_SAFETY.enable stops as well (R467). -/
def bandgapPeriod (devs : List (Attempt (BitVec 16))) (b : Block) : Block :=
  if calRuns b && b.sage.enable then bandgapCheck devs b else b

/-! ### Sensor offsets -/

/-- An offset within 1.0 °C. -/
def offsetOk (v : BitVec 16) : Bool := decide (-256 ≤ v.toInt ∧ v.toInt ≤ 256)

/-- The offset check of one sensor: when no attempt finds it within 1.0 °C it is suspect and degraded. -/
def offsetSensor (n : Nat) (tries : List (Attempt (BitVec 16))) (b : Block) : Block :=
  if !sensorPresent n then b else
  let l := attemptsOf b tries
  let b := match lastSeen offsetOk l with
    | some v => { b with cal := { b.cal with drift := mset b.cal.drift n 0 v } }
    | none => b
  if (firstGood offsetOk l).isSome then b
  else degradeSensor n (tellSuspect n (modSensor n (fun x => { x with suspect := true, strikes := 4 }) b))

/-- The offset check of the sensors that were measured: a sensor's entries in the list are its attempts in turn, and what they do
not name reached its timeout, as did every attempt of a sensor in `late`. -/
def offsetCheck (drifts : List (Nat × BitVec 16)) (late : List Nat) (b : Block) : Block :=
  let b := ((drifts.map (·.1)).eraseDups).foldl (fun b n =>
    offsetSensor n ((drifts.filter fun d => d.1 == n).map fun d => some d.2) b) b
  late.foldl (fun b n => if drifts.any fun d => d.1 == n then b else offsetSensor n [] b) b

/-! ### Step 6 of a start (R86, R445) -/

/-- What step 6 checks before the start goes on: CAL_BG, the regulators' trims and the sensors' offsets. The ROM firmware traps when
the references disagree after the last retry. -/
def startChecks (obs : StepObs) (b : Block) : Block :=
  let l := attemptsOf b obs.bandgap
  let b := { b with cal := { b.cal with bg := (lastSeen bandgapOk l).getD b.cal.bg } }
  if (firstGood bandgapOk l).isNone then startFail 5 b
  else obs.offsets.foldl (fun b d => offsetSensor d.1 d.2 b) (trimRegs obs.ivrFail b)

/-- START_STEP_DONE. -/
def execStartStepDone (obs : StepObs) (s : State) : Res :=
  .next (s.upd (stepDone obs (if s.blk.starting ∧ s.blk.start.step = 6 ∧ !obs.trap then startChecks obs s.blk else s.blk)))

/-! ### TSV centring (R445, R447) -/

/-- Store the margin of a group. -/
def setMargin (c g : Nat) (m : Byte) (b : Block) : Block :=
  { b with cal := { b.cal with margin := mput b.cal.margin (64 * c + g) m } }

/-- TSV_SPARE tests the spare TSVs of a channel (R506). -/
def sparesTested (b : Block) (c : Nat) : Bool :=
  match b.bst.run with | some r => r.test == 3 && r.target == c | none => false

/-- A group that fails takes a spare TSV; with none left the channel goes OFFLINE (R342). While a test has the spares, the group
waits for its end (R506; DESIGN CHOICE, log entry 125). -/
def spareTsv (c g : Nat) (b : Block) : Block :=
  if sparesTested b c then modChan (cid c) (fun x => { x with recal := x.recal ++ [g] }) b
  else if b.chans[cid c].tsvSpares < 8 then modChan (cid c) (fun x => { x with tsvSpares := x.tsvSpares + 1 }) b
  else chanOffline c b

/-- One in-service step on a group: the margin it reached, `none` when a spare was needed. -/
def centre (c g : Nat) (tries : List (Attempt Byte)) (b : Block) : Option Byte × Block :=
  match firstGood (fun _ => true) (attemptsOf b tries) with
  | some m => (some m, setMargin c g m b)
  | none => (none, spareTsv c g b)

/-- The attempts that remain after a step that succeeded. -/
def afterGood {α : Type} : List (Attempt α) → List (Attempt α)
  | [] => []
  | some _ :: t => t
  | none :: t => afterGood t

/-- A margin below CAL_CFG.tsv_min: the group is recalibrated, with event 0x0F03 (R449). -/
def lowMargin (c g : Nat) (before : Byte) (tries : List (Attempt Byte)) (b : Block) : Block :=
  let b := { b with cal := { b.cal with recal := b.cal.recal.set (cid c) (min 15 (b.cal.recal[cid c] + 1)) } }
  match centre c g tries b with
  | (some m, b) =>
    emit allMask { code := 0x0F03, lo := word [(c, 0), (g, 8), (before.toNat, 16)], hi := m.zeroExtend 32 }
      (rcSet (calBase + 0xC) 2 b)
  | (none, b) => b

/-- One in-service step with the action that its margin asks for (R449); its measurement is event 7 of the engine's table (R383). -/
def centreGroup (c g : Nat) (tries : List (Attempt Byte)) (b : Block) : Block :=
  match centre c g tries (postCtx c 0 7 [] b) with
  | (some m, b) => if m.toNat < tsvMin b then lowMargin c g m (afterGood tries) b else b
  | (none, b) => b

/-- One group is centred in service, or recalibrated for a symbol fault. The channel's engine makes the step: one that a trap or a
hold stops makes it later (R388, R448). -/
def centreStep (c g : Nat) (tries : List (Attempt Byte)) (b : Block) : Block :=
  if !calRuns b || b.chans[cid c].st == .offline || b.engs[eid c].st != .run then b else
  centreGroup c g tries
    (modChan (cid c) (fun x => { x with recal := x.recal.filter (· != g), centre := x.centre.filter (· != g) }) b)

/-! ### Aging (R450) -/

/-- A quadrant's slowdown, and event 0x0F02 once at the warning level. -/
def ageQuad (q : QuadId) (slow : Nat) (b : Block) : Block :=
  let v := BitVec.ofNat 16 slow
  let b := { b with cal := { b.cal with age := b.cal.age.set q v } }
  if v.toNat < ageWarnAt b || b.cal.ageWarn.getLsbD q.val then b else
  emit allMask { code := 0x0F02, lo := word [(q.val, 0), (v.toNat, 16)] }
    (rcSet (calBase + 0xC) 1 { b with cal := { b.cal with ageWarn := bset b.cal.ageWarn q.val } })

/-- The measurement of every quadrant. -/
def ageMeasure (s0 s1 s2 s3 : Nat) (b : Block) : Block :=
  if !b.start.done then b else ageQuad 3 s3 (ageQuad 2 s2 (ageQuad 1 s1 (ageQuad 0 s0 b)))

/-! ### CAL commands (R451) -/

/-- A status the spec leaves open. -/
def freeStatus (b : Block) : Status × Block :=
  let d := draw b
  (([Status.ok, .poison, .poisonKept, .channelOffline, .haltedUe, .tooLate, .writeIgnored, .overcommit, .noSpace, .noHandle,
    .badArg, .accessError]).getD (d.1.toNat % 12) .ok, d.2)

/-- A go of CAL_CMD, with the write's status: op 0 finishes at once. -/
def calGo (op target : Nat) (b : Block) : Status × Block :=
  if b.cal.busy then (.badArg, b)
  else if op = 0 then (.ok, { b with cal := { b.cal with status := .badArg } })
  else if op = 1 ∧ (b.start.chive ∨ b.chans[cid target].st = .offline) then (.badArg, b)
  else (.ok, { b with cal := { b.cal with busy := true, op := BitVec.ofNat 2 op, target := BitVec.ofNat 5 target } })

/-- A command ends. -/
def calFinish (st : Status) (b : Block) : Block := { b with cal := { b.cal with busy := false, status := st } }

/-- Finish the command that runs, when it is `op`. With the sequencer's clock off it waits; in the thermal safe state and before
the stack is in service it ends without a result. -/
def calRun (op : Nat) (f : Block → Status × Block) (b : Block) : Block :=
  if !b.cal.busy || b.cal.op.toNat != op then b
  else if b.thm.safe || b.sage.safe || !b.start.done then let r := freeStatus b; calFinish r.1 r.2
  else if !calRuns b then b
  else let r := f b; calFinish r.1 r.2

/-- Recalibrate every group of a channel, one after another, until it goes OFFLINE. -/
def recalChan (c : Nat) (tries : List (Fin 36 × List (Attempt Byte))) (b : Block) : Status × Block :=
  let b := (List.finRange 36).foldl (fun b g =>
    if b.chans[cid c].st = .offline then b
    else centreGroup c g.val (((tries.find? fun t => t.1 == g).map (·.2)).getD []) b) b
  (if b.chans[cid c].st = .offline then .channelOffline else .ok, b)

/-- The work of the three commands. The first is the work of the channel's engine, and waits for it (R388, R448). -/
def calTsv (tries : List (Fin 36 × List (Attempt Byte))) (b : Block) : Block :=
  if b.cal.busy && b.cal.op == 1 && calRuns b && b.engs[eid b.cal.target.toNat].st != .run then b else
  calRun 1 (fun b => recalChan b.cal.target.toNat tries b) b
def calBandgap (devs : List (Attempt (BitVec 16))) (ivrFail : List Nat) (b : Block) : Block :=
  calRun 2 (fun b => (.ok, trimRegs ivrFail (bandgapCheck devs b))) b
def calSensor (drifts : List (Nat × BitVec 16)) (late : List Nat) (b : Block) : Block :=
  calRun 3 (fun b => (.ok, offsetCheck drifts late b)) b

/-- A value of CAL_CFG in range. -/
def calCfgOk (w : Word) : Bool :=
  decide (100 ≤ wfield w 31 16 ∧ wfield w 31 16 ≤ 500 ∧ 26 ≤ wfield w 15 8 ∧ wfield w 15 8 ≤ 90 ∧ wfield w 3 0 ≤ 7)

/-! ### The REFCLK monitor and DETECT -/

/-- A monitor window ends: CAL_IOSC follows REFCLK, once proven. -/
def refWindow (count ioscDev : BitVec 16) (b : Block) : Block :=
  let b := monitorWindow count b
  if b.start.step = 0 then b else
  { b with cal := { b.cal with iosc := if b.clk.proven then ioscDev else 0 } }

/-- DETECT senses the terminations; a termination that cannot be calibrated takes its factory trim. -/
def detectSense (p : PortId) (term : BitVec 21) (calFail : Bool) (b : Block) : Block :=
  if b.ports[p].st != .detect then b else
  senseDetect p term (if calFail then degradeTerm p b else b)

def execBandgapCheck (devs : List (Attempt (BitVec 16))) (s : State) : Res := .next (s.upd (bandgapPeriod devs s.blk))
def execSensorOffsetCheck (drifts : List (Nat × BitVec 16)) (s : State) (late : List Nat := []) : Res :=
  .next (s.upd (if calRuns s.blk then offsetCheck drifts late s.blk else s.blk))
def execTsvCentringStep (c : ChanId) (group : Fin 36) (tries : List (Attempt Byte)) (s : State) : Res :=
  .next (s.upd (centreStep c.val group.val tries s.blk))
def execAgingMeasure (s0 s1 s2 s3 : Nat) (s : State) : Res := .next (s.upd (ageMeasure s0 s1 s2 s3 s.blk))
def execRefclkMonitorWindow (count ioscDev : BitVec 16) (s : State) : Res := .next (s.upd (refWindow count ioscDev s.blk))
def execLinkDetectSense (p : PortId) (term : BitVec 21) (calFail : Bool) (s : State) : Res :=
  .next (s.upd (detectSense p term calFail s.blk))

end Sys2Proof.Machine
end

