-- ==== Sys2Proof/Machine/Sram.lean ====
section
/-! DEFINITION. Uncorrectable words of base-die SRAM (R343) and the end of a bitmap rebuild. -/

namespace Sys2Proof.Machine

open Sys2Proof

/-- Eight heat counters are set to 0 (R343). -/
def loseHeat (w : Nat) (b : Block) : Block :=
  raise (fs .sramHeat) 0x51 (BitVec.ofNat 32 (8 * w))
    [] { b with srl := { b.srl with heat := b.srl.heat.filter fun e => decide (e.1 / 8 ≠ w) } }

/-- A protection-bitmap word waits for its rebuild (R346). -/
def loseProt (w : Nat) (b : Block) : Block :=
  { b with srl := { b.srl with protRebuild := sadd (64 * w) b.srl.protRebuild } }

/-- A word of sequence memory: the scrubber met it in no context's run, so what the trap record says of the context is free. -/
def loseSeq (e addr : Nat) (b : Block) : Block :=
  let d := draw b
  let n := d.1.toNat
  engTrap e (n % 6) 1 (n / 8 % 64) (n / 512 % 32) (n / 16384 % 1024) (BitVec.ofNat 32 addr) d.2

/-- A word of data memory, met by a context; the event and action it met are free. -/
def loseData (e addr k : Nat) (b : Block) : Block :=
  let d := draw b
  let n := d.1.toNat
  engTrap e k 2 b.engs[eid e].ctx[Fin.ofNat 6 k].state (n % 32) (n / 32 % 1024) (BitVec.ofNat 32 addr) d.2

/-- A word of the replay buffer: FS_LNK_SRAM, and the port restarts as a new link with one event 0x0304. -/
def loseReplay (p : PortId) (b : Block) : Block :=
  let e := portEvent 0x0304 p 2 0
  let told := reports (fs .lnkSram) b
  let b := raise (fs .lnkSram) p.val e.lo [{ mask := otherActive p b, ev := e }] b
  if b.ports[p].st == .disabled then b else
  let linked := b.ports[p].linked
  let b := detectPort p b
  if linked then raise (fs .lnkDegrade) p.val e.lo [{ mask := if told then 0 else otherActive p b, ev := e }] b else b

/-- SRAM_SCRUB: a corrected word is counted; an uncorrectable one is handled by its store (R343). -/
def sramScrub (w : SramWord) (uncorrectable : Bool) (b : Block) : Block :=
  if b.start.step < 5 then b
  else if !uncorrectable then { b with sramCe := b.sramCe + 1 }
  else
  match w with
  | .mapEntry h l => quarantine h l b
  | .written w => loseWritten w b
  | .prot w => loseProt w b
  | .heat w => loseHeat w b
  | .remapTag c k both => loseTag c.val k.val both b
  | .engSeq e addr => loseSeq e.val addr b
  | .engData e addr k => loseData e.val addr k.val b
  | .replay p => loseReplay p b
  | .collector k => raise (fs .collUe) 0x54 (k.zeroExtend 32) [] b

def execSramScrub (word : SramWord) (uncorrectable : Bool) (s : State) : Res :=
  .next (s.upd (sramScrub word uncorrectable s.blk))
def execBitmapRebuildDone (w : Nat) (s : State) : Res := .next (settle (rebuildWritten w s))

end Sys2Proof.Machine
end

