-- ==== Sys2Proof/Machine/Otp.lean ====
section
/-! DEFINITION. The OTP commands (chapter 19): tokens, checks, program pulses, reads, scans, locks and life-cycle changes. -/

namespace Sys2Proof.Machine

open Sys2Proof

/-! ### Results -/

/-- Why an OTP operation failed (R502). -/
inductive OtpCause where
  | written | sticky | permanent | key | signature | nonceUid | state | format | prereq | marginalCause | fail | aborted
deriving DecidableEq, Repr

/-- OTP_RESULT.cause (R502). -/
def otpCode : OtpCause → BitVec 4
  | .written => 1
  | .sticky => 2
  | .permanent => 3
  | .key => 4
  | .signature => 5
  | .nonceUid => 6
  | .state => 7
  | .format => 8
  | .prereq => 9
  | .marginalCause => 10
  | .fail => 11
  | .aborted => 12

/-- The operation uses a token. -/
def usesToken (op : BitVec 3) : Bool := op == 2 || op == 3 || op == 4

/-- The token's target and data, with missing bytes as zero. -/
def tokenTarget (b : Block) : Nat := natAt b.otp.token 8 2
def tokenData (b : Block) : BitVec 64 := BitVec.ofNat 64 (natAt b.otp.token 0x18 8)

/-- The word a command acts on, where its operands name one. -/
def otpNamed (b : Block) (op : BitVec 3) : Option Nat :=
  if op = 1 then some (rwf (otpBase + 4) 9 0 b)
  else if op = 2 then (if tokenTarget b < 1024 then some (tokenTarget b) else none)
  else if op = 3 then otpLockWord (tokenTarget b)
  else none

/-- OTP_RESULT.word of a command that acted on no word the spec names is free. -/
def wordOr (w : Option Nat) (b : Block) : BitVec 10 × Block :=
  match w with
  | some w => (BitVec.ofNat 10 w, b)
  | none => let d := draw b; (d.1.truncate 10, d.2)

/-- A command finishes (R489 step 7): the result, and the token window emptied when the command uses it. -/
def otpFinish (op : BitVec 3) (w : Option Nat) (st : Status) (cause : BitVec 4) (part : Bool) (b : Block) : Block :=
  let r := wordOr w b
  let b := r.2
  { b with otp := { b.otp with
      run := none, seq := b.otp.seq + 1, partialW := part, resOp := op, resWord := r.1, cause := cause, status := st
      token := if usesToken op then [] else b.otp.token
      claim := if usesToken op then none else b.otp.claim } }

/-! ### Starting a command (R489, R491 check 1) -/

/-- The path kinds of R49: the link, or the two-wire port. -/
def pathTwp : Path → Bool
  | .twp => true
  | .link _ => false

/-- Check 1 of R491, and the rule of R499 for SCRAPPED. -/
def otpStateOk (op : BitVec 3) (path : Path) (b : Block) : Bool :=
  b.start.done && !b.thm.safe
    && (!usesToken op || (!b.otp.done && (match b.otp.claim with | some p => pathTwp p == pathTwp path | none => true)))
    && (b.otp.lc != 6 || op == 1 || op == 5)

/-- The highest base-die zone temperature. -/
def baseTemp (b : Block) : BitVec 16 := BitVec.ofInt 16 (maxInt ((List.range 4).map fun q => (zoneAt b (zoneOf q 16)).temp.toInt))

/-- A go of OTP_CMD with its op, and the write's status. -/
def otpGo (op : BitVec 3) (path : Path) (b : Block) : Status × Block :=
  if b.otp.run.isSome then (.badArg, b)
  else
    let w := otpNamed b op
    if !otpStateOk op path b then (.ok, otpFinish op w .accessError (otpCode .state) false b)
    else if op = 0 ∨ op = 6 ∨ op = 7 then (.ok, otpFinish op w .badArg (otpCode .format) false b)
    else
      (.ok, { b with otp := { b.otp with
        run := some {
          op := op, path := path, phase := if usesToken op then .checks else .read, word := w.getD 0
          temp := if op = 5 then baseTemp b else 0 } } })

/-! ### READ and SCAN (R484, R485) -/

/-- The command that runs is `op`, in its reading. -/
def otpReading (b : Block) (op : BitVec 3) : Option OtpRun :=
  b.otp.run.bind fun r => if r.op = op ∧ r.phase = .read then some r else none

/-- OTP_READ_INFO of a word's three reads. -/
def readInfo (r : BitVec 72 × BitVec 72 × BitVec 72) : Word :=
  let d := secdedDecode r.1
  word [((r.1.toNat >>> 64) % 256, 16), (b2n (r.1 != 0), 3), (b2n (r.2.1 != r.1 || r.2.2 != r.1), 2), (b2n d.isNone, 1),
    (b2n (match d with | some x => x.2 | none => false), 0)]

/-- READ ends: the data of an uncorrectable word is free. -/
def otpReadDone (reads : OtpReads) (b : Block) : Block :=
  match otpReading b 1 with
  | none => b
  | some r =>
    let raw := rawReads b (readsOf [reads] r.word)
    let b := { b with otp := { b.otp with info := readInfo raw } }
    match secdedDecode raw.1 with
    | some d => otpFinish 1 (some r.word) .ok 0 false { b with otp := { b.otp with data := d.1 } }
    | none =>
      let x := draw b
      let y := draw x.2
      otpFinish 1 (some r.word) .poison (otpCode .fail) false { y.2 with otp := { y.2.otp with data := x.1 ++ y.1 } }

/-- Temperatures at least 30 °C apart. -/
def farApart (x y : BitVec 16) : Bool := decide (7680 ≤ x.toInt - y.toInt ∨ 7680 ≤ y.toInt - x.toInt)

/-- The word's raw read differs from a read of this start at a temperature at least 30 °C away. -/
def scanDiffers (b : Block) (t : BitVec 16) (w : Nat) (raw : BitVec 72) : Bool :=
  (powerUpWord w && farApart t (if romWord w then b.otp.romTemp else b.otp.capTemp) && otpCap b w != raw)
    || b.otp.scans.any fun s => farApart t s.1 && (mfind s.2 w).getD 0 != raw

/-- One word of a scan. -/
def scanWord (l : List OtpReads) (t : BitVec 16) (b : Block) (w : Nat) : Block :=
  let r := rawReads b (readsOf l w)
  if r.2.1 ≠ r.1 ∨ r.2.2 ≠ r.1 ∨ scanDiffers b t w r.1 then otpMarginal w b else b

/-- SCAN ends. -/
def otpScanDone (reads : List OtpReads) (b : Block) : Block :=
  match otpReading b 5 with
  | none => b
  | some r =>
    let t := r.temp
    let rec_ := ((List.range 1024).map fun w => (w, (rawReads b (readsOf reads w)).1)).filter fun e => e.2 != 0
    let b := (List.range 1024).foldl (scanWord reads t) b
    otpFinish 5 none .ok 0 false { b with otp := { b.otp with scans := b.otp.scans ++ [(t, rec_)] } }

/-! ### The checks of R491 -/

/-- Key slots accepted for a region in the life-cycle state in force (R488); every slot where the table has no row. -/
def regionSlot (b : Block) (r : Option Nat) (slot : Nat) : Bool :=
  let lc := b.otp.lc.toNat
  match r with
  | some 0 | some 3 => lc == 1 && slot == 2
  | some 4 => lc == 2 && slot == 0
  | some 2 => (lc == 3 || lc == 4) && slot == 1
  | some 5 =>
    if lc = 1 then slot == 2
    else if lc = 2 ∨ lc = 5 then slot == 0
    else if lc = 3 ∨ lc = 4 then slot == 1 || (slot == 0 && !ownerExclusive b)
    else false
  | _ => true

/-- The transitions of R500. -/
def transition (from_ to_ : Nat) : Bool :=
  (from_ == 0 && to_ == 1) || (from_ == 1 && (to_ == 2 || to_ == 6)) || (from_ == 2 && (to_ == 3 || to_ == 6))
    || (from_ == 3 && (to_ == 4 || to_ == 5 || to_ == 6)) || (from_ == 4 && (to_ == 5 || to_ == 6)) || (from_ == 5 && to_ == 6)

/-- Key slots accepted for a transition. -/
def transitionSlot (b : Block) (from_ to_ slot : Nat) : Bool :=
  if !transition from_ to_ then true
  else if from_ ≤ 1 then slot == 2
  else if from_ = 2 then (if to_ = 3 then slot == 0 else slot == 2)
  else slot == 1 || (slot == 0 && !ownerExclusive b)

/-- The slot is accepted for the command. -/
def slotAccepted (b : Block) (op : BitVec 3) (slot : Nat) : Bool :=
  if op = 2 then regionSlot b (if tokenTarget b < 1024 then otpRegion (tokenTarget b) else none) slot
  else if op = 3 then regionSlot b (if (otpLockWord (tokenTarget b)).isSome then some (tokenTarget b) else none) slot
  else transitionSlot b b.otp.lc.toNat (tokenTarget b) slot

/-- Check 2: the key. -/
def keyOk (b : Block) (op : BitVec 3) : Bool :=
  let t := b.otp.token
  let slot := natAt t 5 1
  slotAccepted b op slot && (match keyHash b slot with | some h => h == keyHashOf ((t.drop 0x20).take 96) | none => false)

/-- Check 3: the signature. -/
def tokenSigned (b : Block) : Bool := verifySig (b.otp.token.drop 0x20) (b.otp.token.take 0x20)

/-- Check 4: nonce and unique ID. -/
def tokenFresh (b : Block) : Bool :=
  wordAt b.otp.token 0xC == b.otp.nonce && BitVec.ofNat 64 (natAt b.otp.token 0x10 8) == otpUid b

/-- A row-repair entry is well formed and fits the entries in force (R494, R495). -/
def repairOk (b : Block) (w : Nat) (d : BitVec 64) : Bool :=
  let n := d.toNat
  let row := repairRow d
  let l := repairsInForce b
  let bankOf := fun (k : Nat) => k / 8
  let held := fun (k r : Nat) => l.any fun x => bankOf x.key == bankOf k && x.row == r
  w == repairNext b && field n 63 56 == 0xA5 && field n 55 48 == 0 && field n 46 40 == 0 && field n 10 0 == 0
    && decide (field n 34 31 < Config.height)
    && (if repairSup d then
          (l.any fun x => x.key == repairKey d)
            && (row == 0x7FFF || (l.any fun x => x.key == repairKey d && x.row == row)
                || (decide (row ≤ 24575) && !held (repairKey d) row))
        else decide (row ≤ 24575) && !(l.any fun x => x.key == repairKey d) && !held (repairKey d) row)

/-- The form of the token (check 5): length, magic, command, zero fields. -/
def tokenFormed (b : Block) (op : BitVec 3) : Bool :=
  let t := b.otp.token
  t.length == 224 && natAt t 0 4 == 0x4B545856 && natAt t 4 1 == op.toNat && natAt t 6 2 == 0 && natAt t 0xA 2 == 0
    && (op == 2 || natAt t 0x18 8 == 0)

/-- The target of PROGRAM or LOCK is allowed (check 5). -/
def targetOk (b : Block) (op : BitVec 3) : Bool :=
  let t := tokenTarget b
  if op = 2 then
    decide (t < 1024) && otpRegion t != some 1 && (otpRegion t).isSome && !otpReserved t
      && (otpRegion t != some 5 || repairOk b t (tokenData b))
  else if op = 3 then (otpLockWord t).isSome
  else true

/-- Markers as they read at the command (R500). -/
def markerNow (b : Block) (w : Nat) : Bool := otpIsSet (otpRaw b w)

/-- Blank LIFECYCLE words, ascending. -/
def blankLife (b : Block) : List Nat := ((List.range 12).map (0x40 + ·)).filter fun w => otpRaw b w == 0

/-- The LIFECYCLE words a transition programs (R500). -/
def lifeNeed (b : Block) : Nat := tokenTarget b - lcCount b

/-- Transition, prerequisite and blank words (check 5, PREREQ). -/
def lifeOk (b : Block) : Bool :=
  let f := b.otp.lc.toNat
  let t := tokenTarget b
  transition f t && decide (lifeNeed b ≤ (blankLife b).length)
    && (!(f == 1 && t == 2) || (markerNow b 0x3F && markerNow b 0x56)) && (!(f == 2 && t == 3) || markerNow b 0x5E)

/-- The region that a PROGRAM or LOCK acts on. -/
def targetRegion (b : Block) (op : BitVec 3) : Nat :=
  if op = 2 then (otpRegion (tokenTarget b)).getD 6 else tokenTarget b

/-- Checks 2 to 8, in order: the status and cause of the first that fails. -/
def otpChecks (b : Block) (op : BitVec 3) : Option (Status × BitVec 4) :=
  let r := targetRegion b op
  if !keyOk b op then some (.accessError, (otpCode .key))
  else if !tokenSigned b then some (.accessError, (otpCode .signature))
  else if !tokenFresh b then some (.accessError, (otpCode .nonceUid))
  else if !tokenFormed b op || !targetOk b op then some (.badArg, (otpCode .format))
  else if op = 4 then (if lifeOk b then none else some (.badArg, (otpCode .prereq)))
  else if op = 2 ∧ b.otp.slock.getLsbD r then some (.writeIgnored, (otpCode .sticky))
  else if otpSealed b r then some (.writeIgnored, (otpCode .permanent))
  else
    match otpNamed b op with
    | some w => if otpRaw b w = 0 then none else some (.writeIgnored, (otpCode .written))
    | none => none

/-! ### Pulses (R489, R490, R492) -/

/-- The raw target of a word that is programmed with all data bits at 1. -/
def allOnesWord : BitVec 72 := secded (BitVec.allOnes 64)

/-- The first pulse of a word. -/
def pulseWord (r : OtpRun) (w : Nat) (target : BitVec 72) : OtpRun :=
  { r with phase := .pulse, word := w, target := target, unv := target, pulses := 0 }

/-- The checks are over (OTP_CHECKS_DONE): the nonce changes, and the first pulse begins. -/
def otpChecksDone (b : Block) : Block :=
  match b.otp.run with
  | none => b
  | some r =>
    if r.phase ≠ .checks then b else
    match otpChecks b r.op with
    | some f => otpFinish r.op (otpNamed b r.op) f.1 f.2 false b
    | none =>
      let d := draw b
      let b := { d.2 with otp := { d.2.otp with nonce := d.1 } }
      let go := fun (x : OtpRun) => { b with otp := { b.otp with run := some x } }
      if r.op = 2 then go (pulseWord r (tokenTarget b) (secded (tokenData b)))
      else if r.op = 3 then go (pulseWord r ((otpLockWord (tokenTarget b)).getD 0) allOnesWord)
      else
        match (blankLife b).take (lifeNeed b) with
        | w :: t => go (pulseWord { r with more := t } w allOnesWord)
        | [] => otpFinish 4 none .ok 0 false { b with otp := { b.otp with done := true } }

/-! ### Responses (R193, R520) -/

/-- An access of the transaction that runs has a status: it counts for err_seen (R520). -/
def twpSeen (st : Status) (b : Block) : Block := { b with twp := { b.twp with err := b.twp.err || st != .ok } }

/-- TWP_RSP takes the status of a register access over the two-wire port (R520). -/
def twpResponse (write : Bool) (st : Status) (addr : Word) (b : Block) : Block :=
  let n := wfield b.twp.rsp 31 24
  { b with twp := { b.twp with
      rsp := word [((n + 1) % 256, 24), (wfield b.twp.rsp 9 9, 9), (b2n write, 8), (st.code, 0)], rspAddr := addr } }

/-- Put a response record in a port's transmit path; a record of a link that has ended is lost (R163, R165). -/
def sendReg (p : PortId) (r : BitVec 128) (gen : Nat) (b : Block) : Block :=
  if b.ports[p].gen = gen ∧ b.ports[p].st ≠ .disabled then modPort p (fun x => { x with txReg := x.txReg ++ [r] }) b
  else tagLost p (field r.toNat 21 12 + 1024 * gen) b

/-- The address of a unit's command register. -/
def deferAddr (otp : Bool) : Word := BitVec.ofNat 32 (if otp then otpBase else bstBase)

/-- The outcome of one response is known: the record of a REG slot takes its status; a two-wire word or a command of its own row
is answered. -/
def answer (otp : Bool) (st : Status) (b : Block) (d : Defer) : Block :=
  let keep := fun d => { b with defers := b.defers ++ [d] }
  if d.known || d.otp != otp then keep d else
  match d.req with
  | some r => keep { d with req := some (r.1 ||| BitVec.ofNat 128 (st.code <<< 4), r.2), known := true }
  | none =>
    if d.word then twpResponse true st (deferAddr d.otp) (if d.inTx then twpSeen st b else b) else { b with resp := st }

/-- A response on the link `gen` of port `p` is still to be sent. -/
def answering (p : PortId) (gen : Nat) (b : Block) : Bool :=
  b.defers.any fun d => d.path == .link p && d.req.any fun r => r.2 == gen

/-- Send a response whose outcome is known when none of its port waits ahead of it; otherwise it waits. -/
def sendKnown (b : Block) (d : Defer) : Block :=
  match d.path, d.req with
  | .link p, some r =>
    if d.known && !answering p r.2 b then sendReg p r.1 r.2 b else { b with defers := b.defers ++ [d] }
  | _, _ => { b with defers := b.defers ++ [d] }

/-- Send the responses that waited for a unit's outcome, those of a port in the order of their records (R209). -/
def answerAll (otp : Bool) (st : Status) (b : Block) : Block :=
  let b := b.defers.foldl (answer otp st) { b with defers := [] }
  b.defers.foldl sendKnown { b with defers := [] }

/-! ### The end of a pulse -/

/-- The charge after a pulse. A bit of `faint` is meant to be 0 and reads 1 at margin-low only. -/
def pulseCharge (r : OtpRun) (missed weak spurious faint : BitVec 72) (b : Block) : Block :=
  let raw := otpRaw b r.word ||| (r.unv &&& ~~~missed) ||| (spurious &&& ~~~r.target)
  let soft := r.unv &&& weak &&& ~~~missed
  { b with otp := { b.otp with
      words := mput b.otp.words r.word raw, weak := mset b.otp.weak r.word 0 soft
      faint := mset b.otp.faint r.word 0 (mget b.otp.faint r.word 0 ||| (faint &&& ~~~r.target)) } }

/-- A bit meant to be 0 reads 1 at margin-low: the verify cannot pass (R489 steps 5 and 6). -/
def pulseBad (r : OtpRun) (b : Block) : Bool := (otpRaw b r.word ||| mget b.otp.faint r.word 0) &&& ~~~r.target != 0

/-- The lowest bits of a word that is to become set, from bit `n` on and round. -/
def oneBit (target : BitVec 72) (n : Nat) : BitVec 72 :=
  match (List.range 72).find? fun i => target.getLsbD ((n + i) % 72) with
  | some i => bset 0 ((n + i) % 72)
  | none => 0

/-- A command that ends on a word whose verify has not passed leaves the word programmed (R490, R492): some bit of its target reads 1,
a free one where the pulses have set none. -/
def keepProgrammed (r : OtpRun) (b : Block) : Block :=
  if otpRaw b r.word ≠ 0 then b
  else
    let d := draw b
    { d.2 with otp := { d.2.otp with words := mput d.2.otp.words r.word (oneBit r.target (d.1.toNat % 72)) } }

/-- A lock word or life-cycle word ends with its command: a completed LIFECYCLE sets done (R501). -/
def programEnd (r : OtpRun) (st : Status) (cause : BitVec 4) (part : Bool) (b : Block) : Block :=
  let b := otpFinish r.op (some r.word) st cause part b
  let b := if r.op = 4 ∧ st = .ok ∧ cause ≠ (otpCode .aborted) then { b with otp := { b.otp with done := true } } else b
  answerAll true (if part then .ok else .tooLate) b

/-- A word has verified, or was exhausted with its data right (`marg`): the next word, or the end. -/
def wordDone (r : OtpRun) (b : Block) : Block :=
  match r.more with
  | [] => programEnd r .ok (if r.marg then (otpCode .marginalCause) else 0) false b
  | w :: t =>
    if r.abort then programEnd r .ok (otpCode .aborted) true b
    else { b with otp := { b.otp with run := some (pulseWord { r with more := t } w allOnesWord) } }

/-- The run after a pulse that nothing interrupted (R489 steps 5 to 7, R490, R492). -/
def pulseVerdict (r : OtpRun) (left : BitVec 72) (bad : Bool) (b : Block) : Block :=
  let n := r.pulses + 1
  let right : Bool := (match secdedDecode (otpRaw b r.word) with | some d => d.1 == (r.target.truncate 64 : BitVec 64) | none => false)
  if left = 0 ∧ !bad then wordDone r b
  else if r.abort then programEnd r .ok (otpCode .aborted) true (keepProgrammed r b)
  else if bad ∨ n ≥ 8 then
    (if n ≥ 8 ∧ right then wordDone { r with marg := true } (otpMarginal r.word (keepProgrammed r b))
     else programEnd r .poison (otpCode .fail) false (keepProgrammed r b))
  else { b with otp := { b.otp with run := some { r with unv := left, pulses := n } } }

/-- OTP_PULSE_DONE: after a reset the pulse only ends (R493), and a restart command that waited begins (R105), unless the stack
has entered a safe state, which only RESET_N, a power cycle or an acknowledge ends (R105, R470). -/
def otpPulseDone (missed weak spurious faint : BitVec 72) (b : Block) : Block :=
  match b.otp.run with
  | none => b
  | some r =>
    if r.phase ≠ .pulse then b else
    let left := r.unv &&& (missed ||| weak)
    let b := pulseCharge r missed weak spurious faint b
    if r.dead then { b with otp := { b.otp with run := none } }
    else
      match b.start.restartWait with
      | some u =>
        if b.sage.safe || b.thm.safe then
          pulseVerdict r left (pulseBad r b) { b with start := { b.start with restartWait := none } }
        else doRestart u { b with otp := { b.otp with run := none } }
      | none => pulseVerdict r left (pulseBad r b) b

/-! ### Abort, token window, sticky locks (R486, R492, R497) -/

/-- A write of 1 to OTP_CMD.abort: its status, or none when the response waits for the pulse. -/
def otpAbort (b : Block) : Option Status × Block :=
  match b.otp.run with
  | none => (some .ok, { b with otp := { b.otp with token := [], claim := none } })
  | some r =>
    if r.dead then (some .ok, { b with otp := { b.otp with token := [], claim := none } })
    else if r.phase = .pulse then (none, { b with otp := { b.otp with run := some { r with abort := true } } })
    else (some .ok, otpFinish r.op (otpNamed b r.op) .ok (otpCode .aborted) false b)

/-- A token-window write. -/
def tokenWrite (path : Path) (data : Word) (b : Block) : Status × Block :=
  let other := (match b.otp.claim with | some p => pathTwp p != pathTwp path | none => false)
  if other then (.accessError, b)
  else if b.otp.token.length ≥ 224 then (.badArg, b)
  else (.ok, { b with otp := { b.otp with
    token := b.otp.token ++ bytesOf 4 data, claim := if b.otp.claim.isNone then some path else b.otp.claim } })

/-- A write of a sticky lock register that is not set. -/
def slockWrite (n : Nat) (data : Word) (b : Block) : Block :=
  { b with otp := { b.otp with
      slockSet := bset b.otp.slockSet n, slock := if data.getLsbD 0 then bset b.otp.slock n else b.otp.slock } }

def execOtpChecksDone (s : State) : Res := .next (s.upd (otpChecksDone s.blk))
def execOtpPulseDone (missed weak spurious : BitVec 72) (s : State) (faint : BitVec 72 := 0) : Res :=
  .next (s.upd (otpPulseDone missed weak spurious faint s.blk))

end Sys2Proof.Machine
end

