-- ==== Sys2Proof/Machine/Bist.lean ====
section
/-! DEFINITION. Built-in self-test (chapter 20). -/

namespace Sys2Proof.Machine

open Sys2Proof

/-- Why a self-test ended without a pass (R513). -/
inductive BstCause where
  | state | life | test | target | busy | elemFail | sigBad | noSig | aborted | cut
deriving DecidableEq, Repr

/-- BST_RESULT.cause (R513). -/
def bstCode : BstCause → Nat
  | .state => 1
  | .life => 2
  | .test => 3
  | .target => 4
  | .busy => 5
  | .elemFail => 6
  | .sigBad => 7
  | .noSig => 8
  | .aborted => 9
  | .cut => 10

/-! ### Starting a run (R503 to R505) -/

def knownTest (t : Nat) : Bool := (1 ≤ t && t ≤ 4) || (0x10 ≤ t && t ≤ 0x13)
def classB (t : Nat) : Bool := 0x10 ≤ t
def chanTest (t : Nat) : Bool := t == 3 || t == 4 || t == 0x10 || t == 0x11

/-- Check 2: the class is admitted in the life-cycle state in force (R499). -/
def bstAdmitted (b : Block) (t : Nat) : Bool :=
  let lc := b.otp.lc.toNat
  if lc = 6 then false else if knownTest t && classB t then lc == 1 || lc == 2 || lc == 5 else true

/-- Check 4: the target is in range. -/
def bstTargetOk (t n : Nat) : Bool :=
  if t = 1 then n == 0xFF else if t = 2 ∨ t = 0x13 then decide (n < 16) else decide (n < 32)

/-- A channel is holdable (R505). -/
def holdable (b : Block) (c : Nat) : Bool :=
  !(b.srl.map.any fun e => segChan e.2.pseg == c)
    && !(b.hnd.flat && decide (b.hnd.flatSize > 0) && b.hnd.flatList.contains c)
    && !(b.srl.migs.any fun m => segChan m.src == c || segChan m.dst == c)

/-- Both spares of a port are unused. -/
def sparesFree (x : Port) : Bool := x.spareRx == 31 && x.farSpare == 31

/-- Check 5: the condition on the target. -/
def bstReady (b : Block) (t n : Nat) : Bool :=
  if t = 2 then
    let x := b.ports[pid n]
    x.st == .disabled || ((x.st == .active || x.st == .idle) && sparesFree x)
  else if t = 0x10 ∨ t = 0x11 then holdable b n
  else if t = 0x12 then b.engs[eid n].st == .held || b.engs[eid n].st == .halted
  else if t = 0x13 then b.ports[pid n].st == .disabled
  else true

/-- The elements of a run (R503). -/
def bstElems (b : Block) (t n : Nat) : List Nat :=
  List.range (
    if t = 1 then 13
    else if t = 2 then (if b.ports[pid n].st = .disabled then 42 else 2)
    else if t = 3 then 8 - b.chans[cid n].tsvSpares
    else if t = 4 then 1
    else if t = 0x10 then 4 * Config.height
    else if t = 0x11 then 296
    else if t = 0x12 then 2
    else 1)

/-- The checks of R504: status and cause of the first that fails. -/
def bstCheck (b : Block) (t n : Nat) : Option (Status × Nat) :=
  if !b.start.done || !(rw (clkBase + 0x20) b).getLsbD 12 then some (.accessError, (bstCode .state))
  else if !bstAdmitted b t then some (.accessError, (bstCode .life))
  else if b.bst.run.isSome || !knownTest t then some (.badArg, (bstCode .test))
  else if !bstTargetOk t n then some (.badArg, (bstCode .target))
  else if !bstReady b t n then some (.badArg, (bstCode .busy))
  else if chanTest t && b.chans[cid n].st == .offline then some (.channelOffline, 0)
  else none

/-- BST_RESULT. -/
def bstResult (t n cause : Nat) (st : Status) (b : Block) : Word :=
  word [((wfield b.bst.result 31 24 + 1) % 256, 24), (t % 256, 16), (n % 256, 8), (cause, 4), (st.code, 0)]

/-- A channel's hold (R505). -/
def holdChan (c : Nat) (v : Bool) (b : Block) : Block := modChan (cid c) (fun x => { x with held := v }) b

/-- A go of BST_CMD: a refused one finishes at once; an accepted one takes its hold. -/
def bstGo (path : Path) (b : Block) : Block :=
  let t := rwf (bstBase + 4) 15 8 b
  let n := rwf (bstBase + 4) 7 0 b
  match bstCheck b t n with
  | some f => { b with bst := { b.bst with result := bstResult t n f.2 f.1 b } }
  | none =>
    let l := bstElems b t n
    let b := if t = 0x10 ∨ t = 0x11 then holdChan n true b else b
    { b with bst := { b.bst with
        run := some { test := t, target := n, path := path, elems := l }, runId := b.bst.runId + 1, nElems := l.length
        elems := [] } }

/-- BST_RUN. -/
def bstRun (b : Block) : Word := word [(b2n b.bst.run.isSome, 31), (b.bst.nElems, 16), (b.bst.runId.toNat, 0)]

/-! ### Restoring the target (R507) -/

/-- DRAM initialization of a channel after DRAM_MARCH. -/
def restoreMarch (c : Nat) (b : Block) : Block :=
  modChan (cid c) (fun x => initBanks (bankInit b (cid c)) { x with
    held := false, init := true, banks := [], remap := List.replicate 16 none, hist := [], idleAt := b.now }) b

/-- Calibration of a channel after TSV_FULL, as at step 13 of R86: the margins it found, the spare TSVs it takes by now, if it took
any, and its failure, which sets the channel OFFLINE (R342, R445). -/
def restoreTsv (c : Nat) (calFail : Bool) (margins : List (Nat × Byte)) (spares : Option Nat) (b : Block) : Block :=
  let b := margins.foldl (fun b m => setMargin c m.1 m.2 b) (holdChan c false b)
  let b := match spares with | some n => takeSpares [(c, n)] b | none => b
  if calFail then chanOffline c b else b

/-- The reload of an engine after ENG_SRAM. -/
def restoreEng (e : Nat) (b : Block) : Block :=
  let b := rewindWork e (ctrAdd (supBase + 0x1C) 1 b)
  if b.engs[eid e].st = .held ∧ !heldNow b e then kickEngine e (modEng (eid e) (fun x => { x with st := .run }) b) else b

/-- The restoration of a class B run's target. -/
def bstRestore (r : BstRun) (calFail : Bool) (margins : List (Nat × Byte)) (spares : Option Nat) (b : Block) : Block :=
  if r.test = 0x10 then restoreMarch r.target b
  else if r.test = 0x11 then restoreTsv r.target calFail margins spares b
  else if r.test = 0x12 then restoreEng r.target b
  else if r.test = 0x13 then modPort (pid r.target) (fun x => { x with rb := [] }) b
  else b

/-! ### The end of a run (R508 to R512) -/

/-- The results of the run's elements that ran, ascending. -/
def bstTaken (r : BstRun) (results : List ElemResult) : List ElemResult :=
  r.elems.filterMap fun k => results.find? fun x => x.elem == k

/-- The block signature (R509). -/
def bstSignature (r : BstRun) (l : List ElemResult) : Word :=
  crc32c (r.elems.flatMap fun k => bytesOf 4 (match l.find? fun x => x.elem == k with | some x => x.resp | none => 0))

/-- The expected signature of the table in the constant block (R509). -/
def bstExpected (b : Block) (t : Nat) : Option Word :=
  if t = 2 ∨ t = 3 then none else
  let l := Config.engConstants (engSeq b)
  ((List.range (natAt l 0 4)).find? fun i => natAt l (4 + 8 * i) 1 == t && natAt l (5 + 8 * i) 1 == Config.height).map fun i =>
    wordAt l (8 + 8 * i)

/-- The cause of a run that ends with status OK (R510). -/
def bstCause (r : BstRun) (l : List ElemResult) (expect : Option Word) : Nat :=
  if r.abort || (r.ask && l.length != r.elems.length) then (bstCode .aborted)
  else if r.cut then (bstCode .cut)
  else if l.any fun x => !x.pass then (bstCode .elemFail)
  else match expect with
    | some w => if w = bstSignature r l then 0 else (bstCode .sigBad)
    | none => (bstCode .noSig)

/-- The run's results are loaded and reported. -/
def bstReport (r : BstRun) (l : List ElemResult) (us cause : Nat) (st : Status) (b : Block) : Block :=
  let expect := bstExpected b r.test
  let b := { b with bst := { b.bst with
    run := none, result := bstResult r.test r.target cause st b, sig := bstSignature r l, sigExp := expect.getD 0
    duration := BitVec.ofNat 32 us, elems := l } }
  let b := ctrAdd (bstBase + 0x2C) (l.filter fun x => !x.pass).length (rcSet (bstBase + 0x34) 0 b)
  let b := if cause = (bstCode .elemFail) ∨ cause = (bstCode .sigBad) then
      raise (fs .bstFail) 0x59 (b.bst.runId.zeroExtend 32) [] (rcSet (bstBase + 0x34) 1 b) else b
  let b := match r.path with
    | .link p => emit (BitVec.ofNat 16 (1 <<< p.val)) { code := 0x1001, lo := b.bst.result, hi := bstRun b } b
    | .twp => b
  answerAll false (if r.ask && l.length == r.elems.length then .tooLate else .ok) b

/-- The run's target is a channel that is OFFLINE (R512). -/
def bstOffline (r : BstRun) (b : Block) : Bool := chanTest r.test && b.chans[cid r.target].st == .offline

/-- BST_RUN_END: a class B run that a safe state cut waits for resumption, or is never restored (R512). A restoration that sets the
target OFFLINE ends the run as that does (R507, R510). -/
def bstRunEnd (results : List ElemResult) (us : Nat) (calFail : Bool) (margins : List (Nat × Byte)) (spares : Option Nat)
    (b : Block) : Block :=
  match b.bst.run with
  | none => b
  | some r =>
    let l := bstTaken r results
    let safe := b.sage.safe || b.thm.safe
    if bstOffline r b then bstReport r l us 0 .channelOffline b
    else if classB r.test && b.thm.safe && !b.sage.safe then b
    else
      let b := if safe then b else bstRestore r calFail margins spares b
      if bstOffline r b then bstReport r l us 0 .channelOffline b
      else bstReport r l us (bstCause r l (bstExpected b r.test)) .ok b

/-- A write of 1 to BST_CMD.abort. `lastDone`, where known, says that the last element has completed; the response waits for the
run's end otherwise. A run that an event of R512 has ended is too late to abort (R13, R510). -/
def bstAbort (lastDone : Option Bool) (b : Block) : Option Status × Block :=
  if b.bst.run.any (·.cut) then (some .tooLate, b) else
  match b.bst.run, lastDone with
  | none, _ => (some .ok, b)
  | some _, some true => (some .tooLate, b)
  | some r, some false => (some .ok, { b with bst := { b.bst with run := some { r with abort := true } } })
  | some r, none => (none, { b with bst := { b.bst with run := some { r with ask := true } } })

def execBstRunEnd (results : List ElemResult) (us : Nat) (calFail : Bool) (s : State) (margins : List (Nat × Byte) := [])
    (spares : Option Nat := none) : Res :=
  .next (s.upd (bstRunEnd results us calFail margins spares s.blk))

end Sys2Proof.Machine
end

