-- ==== Sys2Proof/Machine/Load.lean ====
section
/-! DEFINITION. Image loads (R127 to R135): opening, data, verification, abort. -/

namespace Sys2Proof.Machine

open Sys2Proof

/-- The target is allowed in the present state (R128). -/
def targetAllowed (b : Block) (t : Nat) : Bool :=
  if t = 0 then b.starting && b.start.step == 8 else if t = 1 then b.inChive else if t = 2 then b.ready else false

/-- A new load. -/
def openLoad (t : Nat) (b : Block) : Block :=
  let i := b.img
  { b with img := { i with
      state := .receiving, target := BitVec.ofNat 2 t, path := 0, data := [], count := 0, failCheck := 0, failSection := 0xFF
      errOff := 0, liveWait := [], liveSome := false
      staged := if t = 1 then none else i.staged, stagedOk := i.stagedOk && t != 1 } }

/-- IDN_IMG_CTRL.start (R128), with the write's status. -/
def imageStart (t : Nat) (b : Block) : Status × Block :=
  if loading b.img || !targetAllowed b t then (.badArg, b) else (.ok, openLoad t b)

/-- A load fails (R124): what failed is recorded, and a BOOT load ends the start, unless the start has ended already (R96). -/
def loadFail (f : ImgFail) (b : Block) : Block :=
  let boot := b.img.target == 0
  let b := { b with img := { b.img with
    state := .failed, failCheck := BitVec.ofNat 4 f.check, failSection := BitVec.ofNat 8 f.sec, errOff := BitVec.ofNat 32 f.off } }
  if boot && b.starting then startFail 2 b else b

/-- The bytes of a load have all arrived: the checks begin (R130). -/
def beginVerify (b : Block) : Block :=
  let b := { b with img := { b.img with state := .verifying } }
  if b.img.target = 0 && b.starting then toStep 9 4 b else b

/-- Four bytes arrive. A length that fails check 3 at the 64th byte ends the load with check 3 (R130), also where checks 1 or 2 would
fail (DESIGN CHOICE, log entry 104). -/
def takeBytes (data : Word) (b : Block) : Block :=
  let l := b.img.data ++ bytesOf 4 data
  let b := { b with img := { b.img with data := l, count := l.length } }
  if l.length = 64 ∧ !lengthOk l then loadFail { check := 3, off := 8 } b
  else if l.length ≥ 64 ∧ l.length ≥ hdrLength l then beginVerify b
  else b

/-- The path code of IDN_IMG_STAT. -/
def pathCode (path : Path) : BitVec 2 := if pathTwp path then 2 else 1

/-- A data-window write (R127, R129, R130), with its status. With no load open R127 to R130 name no status: BAD_ARG; and R130 is
silent on writes after a load has failed at its 64th byte: they set overrun as well (DESIGN CHOICE, log entries 90 and 104). -/
def imageData (path : Path) (data : Word) (b : Block) : Status × Block :=
  let i := b.img
  if loading i && i.path != 0 && i.path != pathCode path then (.accessError, b)
  else if i.state = .receiving then (.ok, takeBytes data { b with img := { i with path := pathCode path } })
  else if i.state = .idle ∨ i.state = .aborted then (.badArg, b)
  else (.badArg, { b with img := { i with overrun := true } })

/-- The sections of a live image, by id. -/
def liveSections (l : List Byte) : SMap (List Byte) :=
  (secsOf l).foldl (fun m s => mput m s.id (secBytes l s)) []

/-- A load passes every check (R128). -/
def loadPass (b : Block) : Block :=
  let i := b.img
  if i.target = 0 then authPassed b
  else if i.target = 1 then { b with img := { i with state := .done, staged := some i.data, stagedOk := true } }
  else { b with img := { i with
    state := .pendingCommit, liveWait := liveSections i.data, liveVer := hdrVersion i.data, liveBuild := hdrBuild i.data
    liveSome := false } }

/-- IMAGE_VERIFY_DONE (R124). -/
def verifyDone (b : Block) : Block :=
  if b.img.state ≠ .verifying then b else
  match imgCheck b (b.img.target == 2) b.img.data with
  | some f => loadFail f b
  | none => loadPass b

/-- The load is discarded (R131). -/
def dropLoad (b : Block) : Block :=
  let i := b.img
  let b := { b with img := { i with
    state := .aborted, data := [], liveWait := []
    staged := if i.target = 1 then none else i.staged, stagedOk := i.stagedOk && i.target != 1 } }
  if i.target = 0 && b.starting then openBoot (toStep 8 3 b) else b

/-- A group of the last load has committed: it was a LIVE load, which then commits whole (R133). -/
def liveBegun (i : Image) : Bool := i.target == 2 && i.liveSome && (i.state == .pendingCommit || i.state == .done)

/-- IDN_IMG_CTRL.abort (R13, R131, R133), with the write's status: a load that is DONE completed first, so TOO_LATE. With no load
open, or one that is FAILED, there is nothing to discard and no status is named: OK, and nothing changes (DESIGN CHOICE, log entry
104). -/
def imageAbort (b : Block) : Status × Block :=
  if liveBegun b.img || b.img.state == .done then (.tooLate, b)
  else if !loading b.img then (.ok, b)
  else (.ok, dropLoad b)

/-- A write of IDN_IMG_CTRL, with its status. -/
def imgCtrl (w : Word) (b : Block) : Status × Block :=
  let t := wfield w 3 2
  if t = 3 ∨ (w.getLsbD 0 ∧ w.getLsbD 1) then (.badArg, b)
  else
    let r := if w.getLsbD 0 then imageStart t b else if w.getLsbD 1 then imageAbort b else (.ok, b)
    if r.1 = .ok ∨ r.1 = .tooLate then (r.1, setLive 0x40 (w &&& 0xC) r.2) else (r.1, b)

def execImageVerifyDone (s : State) : Res := .next (s.upd (verifyDone s.blk))

end Sys2Proof.Machine
end

