-- ==== Sys2Proof/Machine/RegRead.lean ====
section
/-! DEFINITION. Register reads: what every register shows, the shadow view, and the bits that a read clears (R42 to R48, R60). -/

namespace Sys2Proof.Machine

open Sys2Proof

/-! ### Parts of a view -/

/-- A word of single bits. -/
def bits (n : Nat) (f : Nat → Bool) : Word := word ((List.range n).map fun i => (b2n (f i), i))

/-- The low or high word of a 64-bit value (R61). -/
def lo64 (v : BitVec 64) : Word := v.truncate 32
def hi64 (v : BitVec 64) : Word := BitVec.ofNat 32 (v.toNat / 2 ^ 32)

/-- Bit `i` is the sat flag of the counter at `a + 4 * i`. -/
def sats (n a : Nat) (b : Block) : Word := bits n fun i => ctrSat (a + 4 * i) b

/-! ### IDN (R64, R145) -/

/-- IDN_IMG_STAT.state. -/
def LoadState.code : LoadState → Nat
  | .idle => 0 | .receiving => 1 | .verifying => 2 | .pendingCommit => 3 | .done => 4 | .failed => 5 | .aborted => 6

def idnView (o : Nat) (b : Block) : Word :=
  let i := b.img
  if o = 0x00 then
    word [(0x5DA, 20), (Config.baseRev.toNat, 16), (Config.coreRev.toNat, 12), (Config.height, 7),
      (if Config.gradeB then 2 else 1, 4), (b2n b.inChive, 0)]
  else if o = 0x08 then lo64 b.time
  else if o = 0x0C then hi64 b.time
  else if o = 0x10 then word [(b2n (!b.regs.pend.isEmpty), 1), (b2n (!b.regs.forced.isEmpty), 0)]
  else if o = 0x14 then b.regs.owner.zeroExtend 32
  else if o = 0x18 then rcGet 0x18 b
  else if o = 0x1C then word [(b.start.attempts.toNat, 4), (b.start.reason.toNat, 0)]
  else if o = 0x20 then word [(b2n b.iosc, 0)] ||| rcGet 0x20 b
  else if o = 0x24 then b.regs.errAddr
  else if o = 0x44 then
    word [(i.failSection.toNat, 24), (i.failCheck.toNat, 20), (b2n i.clamped, 17), (b2n i.overrun, 16), (i.path.toNat, 4),
      (i.state.code, 0)]
  else if o = 0x48 then BitVec.ofNat 32 i.count
  else if o = 0x4C then i.ver
  else if o = 0x50 then i.build
  else if o = 0x54 then i.liveVersion
  else if o = 0x58 then i.errOff
  else if o = 0x5C then word [(i.key.toNat, 1), (b2n i.rom, 0)]
  else if 0x60 ≤ o then word [(b2n (i.state == .receiving || i.state == .verifying), 0)]
  else rw o b

/-! ### SAGE (R478) -/

/-- The checkable conditions of the detection guarantee (R476). SAGE_STAT.guarantee keeps its reset value of 0 until READY or CHIVE
(log entry 123). A channel that has never made a full pass has the week of READY only. -/
def guarantee (b : Block) : Bool :=
  let week := 60480000000000
  b.start.done && b.sage.enable && b.otp.lc != 1
    && (List.range 256).all (fun n => match sourceOf n with | some s => !s.g || decide (reactionOf b n ≥ 1) | none => true)
    && (List.range 32).all fun c =>
      let x := b.chans[cid c]
      x.st == .offline
        || (rwf (chnBase c + 0x100) 0 0 b == 1 && decide (rwf (chnBase c + 0x100) 15 8 b ≤ 168)
            && ((x.dillDone != 0 && decide (b.now - x.dillDone.toNat ≤ week)) || decide (b.now - b.start.doneAt < week)))

def sageView (o : Nat) (b : Block) : Word :=
  let g := b.sage
  if o = 0x00 then
    word [(b2n g.safe, 31), (b2n g.selfFault, 30), (b2n (guarantee b), 29), (b2n (nmeOut b), 28), (b2n g.overflow, 27),
      (b2n g.latched, 26), (b2n (alertN b), 25), (b2n (ctrSat (sageBase + 0x1C) b), 24), (ones g.pend, 0)]
  else if o = 0x04 then word [(b2n g.latched, 31), (g.reaction.toNat, 16), (g.unit.toNat, 8), (g.source.toNat, 0)]
  else if o = 0x08 then g.detail
  else if o = 0x0C then lo64 g.time
  else if o = 0x10 then hi64 g.time
  else if o = 0x18 then word [(b2n g.enable, 31), (g.stallUs.toNat, 24), (g.wdogMs.toNat, 20), (g.escUs.toNat, 0)]
  else if 0x40 ≤ o ∧ o ≤ 0x5C then bits 32 fun i => g.pend.getLsbD (8 * (o - 0x40) + i)
  else if 0x60 ≤ o ∧ o ≤ 0x7C then bits 32 fun i => g.ovf.getLsbD (8 * (o - 0x60) + i)
  else if 0x80 ≤ o ∧ o ≤ 0x9C then bits 32 fun i => g.esc.getLsbD (8 * (o - 0x80) + i)
  else if 0x100 ≤ o then
    word ((List.range 4).flatMap fun j =>
      [(reactionOf b (o - 0x100 + j), 8 * j), (b2n (flooredOf b (o - 0x100 + j)), 8 * j + 3)])
  else rw (sageBase + o) b

/-! ### CLK and PWR (R443, R444) -/

def clkView (o : Nat) (b : Block) : Word :=
  let c := b.clk
  if o = 0x04 then word [(b2n c.running.isSome, 31), (c.op.toNat, 8)] ||| rw (clkBase + 4) b
  else if o = 0x08 then word [(c.srcEff.toNat, 8)] ||| rw (clkBase + 8) b
  else if o = 0x0C then
    word [(c.tsvLock.toNat, 8), (c.linkLock.toNat, 4), (b2n c.mgmtLock, 2), (b2n c.proven, 1), (b2n (decide (b.start.step ≥ 3)), 0)]
  else if o = 0x10 then
    word [(b2n (ctrSat (clkBase + 0x30) b), 31), (b2n (inRange c.count.toNat), 16), (c.count.toNat, 0)]
  else if o = 0x14 then rcGet (clkBase + 0x14) b
  else if o = 0x2C then (unitsIn b b.pwr.state.toNat ||| c.gateWait).zeroExtend 32
  else rw (clkBase + o) b

/-- A time in ticks as µs in 28 bits; all ones when there is none. -/
def us28 (t : Option Nat) : Nat := match t with | some n => min (2 ^ 28 - 1) (n / 100) | none => 2 ^ 28 - 1

def pwrView (o : Nat) (b : Block) : Word :=
  if o = 0x04 then word [(b.pwr.limit.toNat, 4), (b.pwr.state.toNat, 0)]
  else if o = 0x08 then
    word [(((nextKnown b).map (·.1)).getD 0, 28), (us28 ((nextKnown b).map (·.2)), 0)]
  else if o = 0x0C then (if b.start.step < 5 then 0 else word [(us28 (quietTime b), 0)])
  else if o = 0x34 then sats 5 (pwrBase + 0x20) b
  else rw (pwrBase + o) b

/-! ### THM (R417) -/

/-- A zone of the part. -/
def zonePresent (z : Nat) : Bool := z % 17 == 16 || decide (z % 17 < Config.height)

def thmView (o : Nat) (b : Block) : Word :=
  let t := b.thm
  let on := decide (b.start.step ≥ 6)
  if o = 0x00 then
    word ([(b2n t.safe, 31), (b2n (sensorList.any fun n => (sensorAt b n).suspect), 30),
      (b2n (zoneList.any fun z => (zoneAt b z).guard), 29), (b2n (zoneList.any fun z => (zoneAt b z).warn), 28)]
      ++ (List.range 4).map fun q => (t.qLevel[qid q], 2 * q))
  else if o = 0x04 then
    word [(b2n t.resumeOk, 31), (b2n t.inStart, 30), (t.tripZone.toNat, 16), (t.tripTemp.toNat, 0)]
  else if o = 0x08 then 0
  else if o = 0x0C then rcGet (thmBase + 0xC) b
  else if 0x40 ≤ o ∧ o ≤ 0x4C then
    let q := qid ((o - 0x40) / 4)
    word [(t.qMax[q].toNat, 16), (t.qHot[q], 8), (t.qLevel[q], 0)]
  else if 0x60 ≤ o ∧ o ≤ 0x74 then bits 32 fun i => (sensorAt b (8 * (o - 0x60) + i)).suspect
  else if 0x80 ≤ o ∧ o ≤ 0x94 then bits 32 fun i => t.clr.getLsbD (8 * (o - 0x80) + i)
  else if 0x100 ≤ o ∧ o ≤ 0x20C then
    let n := (o - 0x100) / 4
    let z := zoneAt b n
    word [(z.temp.toNat, 16), (z.level, 14), (b2n z.warn, 13), (b2n z.guard, 12), (b2n z.trip, 11), (b2n (on && zonePresent n), 10)]
  else if 0x300 ≤ o then
    let n := (o - 0x300) / 4
    let x := sensorAt b n
    word [(x.value.toNat, 16), (b2n x.suspect, 15), (b2n (on && sensorPresent n), 14), (min 4 x.strikes, 11)]
  else rw (thmBase + o) b

/-! ### OTP (R502) -/

/-- The command that runs uses the token. -/
def tokenRun (b : Block) : Bool := match b.otp.run with | some r => !r.dead && usesToken r.op | none => false

/-- A command runs: OTP_CMD.go. -/
def otpBusy (b : Block) : Bool := match b.otp.run with | some r => !r.dead | none => false

/-- An abort waits for the end of a pulse: OTP_CMD.abort. -/
def otpEnding (b : Block) : Bool := match b.otp.run with | some r => !r.dead && r.abort | none => false

def otpView (o : Nat) (b : Block) : Word :=
  let t := b.otp
  if o = 0x00 then word [(b2n (otpEnding b), 4), (b2n (otpBusy b), 0)] ||| rw otpBase b
  else if o = 0x08 then
    word [(t.seq.toNat, 24), (b2n t.partialW, 23), (t.resOp.toNat, 20), (t.resWord.toNat, 10), (t.cause.toNat, 4),
      (t.status.code, 0)]
  else if o = 0x0C then lo64 t.data
  else if o = 0x10 then hi64 t.data
  else if o = 0x14 then t.info
  else if o = 0x18 then t.nonce
  else if o = 0x1C then lo64 (otpUid b)
  else if o = 0x20 then hi64 (otpUid b)
  else if o = 0x24 then
    word [(lcCount b, 8), (b2n t.done, 7), ((lcState (lcCount b)).toNat, 4), (t.lc.toNat, 0)]
  else if o = 0x28 then
    word ([(repairNext b, 22), (b2n t.ue, 21), (b2n (t.marginal != 0), 20), (t.sealedInc.toNat, 8)]
      ++ (List.range 6).map fun r => (b2n (otpSealed b r), r))
  else if o = 0x2C then BitVec.ofNat 32 (otpRev b)
  else if o = 0x30 then BitVec.ofNat 32 t.token.length
  else if 0x40 ≤ o ∧ o ≤ 0x54 then word [(b2n (t.slock.getLsbD ((o - 0x40) / 4)), 0)]
  else if 0x60 ≤ o ∧ o ≤ 0x7C then word [(b2n (tokenRun b), 0)]
  else if 0x80 ≤ o then bits 32 fun i => t.marginal.getLsbD (8 * (o - 0x80) + i)
  else rw (otpBase + o) b

/-! ### BST (R513) -/

/-- An abort is under way: BST_CMD.abort. -/
def bstEnding (b : Block) : Bool := match b.bst.run with | some r => r.abort || r.ask | none => false

/-- The result of the selected element; none beyond the run's elements, and none for an element that did not run. -/
def bstSelected (b : Block) : Option ElemResult :=
  let k := rwf (bstBase + 0x1C) 8 0 b
  if k < b.bst.nElems then b.bst.elems.find? fun e => e.elem == k else none

def bstView (o : Nat) (b : Block) : Word :=
  let t := b.bst
  if o = 0x00 then word [(b2n (bstEnding b), 1), (b2n t.run.isSome, 0)]
  else if o = 0x08 then t.result
  else if o = 0x0C then bstRun b
  else if o = 0x10 then t.sig
  else if o = 0x14 then t.sigExp
  else if o = 0x18 then t.duration
  else if o = 0x20 then
    match bstSelected b with
    | some e => word [(b2n (!e.pass), 31), (1, 30), (min 1000 e.coverage, 16), (e.duration % 65536, 0)]
    | none => 0
  else if o = 0x24 then (match bstSelected b with | some e => e.resp | none => 0)
  else if o = 0x28 then
    match (bstSelected b).bind (·.addr) with
    | some a => word [(1, 31), (a.2 % 32, 16), (a.1 % 65536, 0)]
    | none => 0
  else if o = 0x30 then bits 32 fun c => b.chans[cid c].held
  else if o = 0x34 then rcGet (bstBase + 0x34) b ||| word [(b2n (ctrSat (bstBase + 0x2C) b), 2)]
  else rw (bstBase + o) b

/-! ### TWP (R530) -/

/-- The target address (R514). -/
def twpAddress (b : Block) : Nat := 0x38 + b.start.straps.toNat

def twpView (o : Nat) (b : Block) : Word :=
  if o = 0x04 then rcGet (twpBase + 4) b ||| word [(b2n b.twp.busy, 31), (twpAddress b, 16)]
  else if o = 0x08 then b.twp.rsp
  else if o = 0x0C then b.twp.rspAddr
  else if o = 0x10 then b.twp.ptr
  else if o = 0x1C then sats 2 (twpBase + 0x14) b
  else rw (twpBase + o) b

/-! ### CAL (R451) -/

/-- The group of a channel with the least margin, the lowest on a tie, and its margin. -/
def worstGroup (b : Block) (c : Nat) : Nat × Nat :=
  let m := fun g => ((mfind b.cal.margin (64 * c + g)).getD 0).toNat
  let g := (bestBy (fun x y => decide (m x < m y)) (List.range 36)).getD 0
  (g, m g)

def calView (o : Nat) (b : Block) : Word :=
  let k := b.cal
  let sel := rwf (calBase + 0x1C) 7 0 b
  if o = 0x00 then word [(b2n k.busy, 0)] ||| rw calBase b
  else if o = 0x08 then word [(b2n k.busy, 31), (k.status.code, 0)]
  else if o = 0x0C then rcGet (calBase + 0xC) b
  else if o = 0x10 then k.bg.zeroExtend 32
  else if o = 0x14 then (if b.clk.proven then k.iosc.zeroExtend 32 else 0)
  else if o = 0x18 then word [(b2n (k.degSensors != 0), 2), (b2n (k.degTerm != 0), 1), (b2n (k.degReg != 0), 0)]
  else if o = 0x20 then word [((mget k.drift sel 0).toNat, 16), (b2n (k.degSensors.getLsbD sel), 0)]
  else if 0x30 ≤ o ∧ o ≤ 0x3C then (k.age[qid ((o - 0x30) / 4)]).zeroExtend 32
  else if 0x100 ≤ o then
    let c := (o - 0x100) / 4
    let w := worstGroup b c
    word [(k.recal[cid c], 16), (w.1, 8), (if b.chans[cid c].st = .offline then 0 else w.2, 0)]
  else rw (calBase + o) b

/-! ### LNK (R178, R213) -/

/-- LNK_STAT.state. -/
def PState.code : PState → Nat
  | .disabled => 0 | .detect => 1 | .train => 2 | .lock => 3 | .exchange => 4 | .active => 5 | .recover => 6 | .idle => 7
  | .pattern => 8

/-- The rate shown: that of the lanes, and the one that training would take before it. -/
def shownRate (p : PortId) (b : Block) : Nat :=
  let x := b.ports[p]
  if x.st = .disabled ∨ x.st = .detect then portRate p b else x.rate.toNat

/-- A port's registers as they read (R178). Whether n of LNK_LANE_Qn and LNK_LANE_ERRn is a physical or a logical lane the spec
does not say: quality and pattern errors are read by physical position, and ERR20 counts the logical spare (DESIGN CHOICE, log
entry 118). -/
def lnkView (p : PortId) (o : Nat) (b : Block) : Word :=
  let x := b.ports[p]
  let a := lnkBase p.val
  if o = 0x08 then
    word [(min 3 x.attempts, 22), (b2n (!linkOnRef b), 21), (x.widthTx.toNat, 18), (x.widthRx.toNat, 16), (shownRate p b, 8),
      (x.st.code, 0)]
  else if o = 0x0C then rcGet (a + 0xC) b
  else if o = 0x10 then word [(x.spareRx.toNat, 27), (x.failRx.toNat, 0)]
  else if o = 0x14 then word [(x.farSpare.toNat, 27), (x.farFailed.toNat, 0)]
  else if o = 0x18 then
    word [(x.capFeatures.toNat, 24), (x.capProtocol.toNat, 16), (x.capPort.toNat, 12), (x.capRate.toNat, 8)]
  else if o = 0x2C then
    sats 21 (a + 0x100) b
      ||| word [(b2n (ctrSat (a + 0x20) b), 21), (b2n (ctrSat (a + 0x24) b), 22), (b2n (ctrSat (a + 0x28) b), 23)]
  else if o = 0x30 then rcGet (a + 0x30) b ||| word [(x.firstCause.toNat, 8)]
  else if o = 0x34 then word ((List.range 4).map fun k => (min 255 x.far[Fin.ofNat 4 k], 8 * k))
  else if 0x180 ≤ o then
    let l := x.lanes[laneIx ((o - 0x180) / 4)]
    if x.failRx.getLsbD ((o - 0x180) / 4) then 0
    else word [(l.delay % 256, 24), (l.residual.toNat, 16), (l.height.toNat, 8), (l.width.toNat, 0)]
  else rw (a + o) b

/-! ### HND (R237), SRL (R267) and SAV (R289) -/

/-- Handles ACTIVE or DRAINING, handle 0 included. -/
def handleCount (b : Block) : Nat := (b.hnd.table.filter fun e => e.2.st != .creating).length + b2n b.hnd.flat

def hndView (o : Nat) (b : Block) : Word :=
  let h := b.hnd
  if o = 0x00 then word [(b2n h.run.isSome, 0)] ||| rw hndBase b
  else if o = 0x20 then hndResult b
  else if o = 0x24 then BitVec.ofNat 32 h.resSize
  else if o = 0x28 then h.resAttr
  else if o = 0x2C then h.resResv
  else if o = 0x30 then h.resState
  else if o = 0x34 then BitVec.ofNat 32 h.resWritten
  else if o = 0x40 then BitVec.ofNat 32 (spaceFree b)
  else if 0x44 ≤ o ∧ o ≤ 0x50 then BitVec.ofNat 32 (spaceQ b ((o - 0x44) / 4))
  else if o = 0x60 then BitVec.ofNat 32 (handleCount b)
  else rw (hndBase + o) b

def srlView (o : Nat) (b : Block) : Word :=
  let s := b.srl
  if o = 0x00 then word [(b2n s.busy, 4)] ||| rw srlBase b
  else if o = 0x10 then word [(s.seq.toNat, 24), (s.resOp.toNat, 20), (s.resStatus.code, 0)]
  else if o = 0x14 then s.resEntry
  else if o = 0x18 then s.resOwner
  else if o = 0x1C then s.resLseg
  else if o = 0x40 then
    word [(b2n ((List.range 32).any (urgentChan b)), 31), (s.migs.length, 16), (s.queue.length, 0)]
  else if o = 0x54 then sats 4 (srlBase + 0x44) b
  else if o = 0x58 then BitVec.ofNat 32 s.nRetired
  else if o = 0x5C then BitVec.ofNat 32 s.nQuar
  else if o = 0x60 then rcGet (srlBase + 0x60) b
  else rw (srlBase + o) b

/-- Grants of four classes of a quadrant as percentages. -/
def grantWord (x : SavQ) (k : Nat) : Word := word ((List.range 4).map fun i => (grantShare 100 x (k + i), 8 * i))

def savView (o : Nat) (b : Block) : Word :=
  let q := fun n => b.sav.q[qid n]
  if o = 0x28 then
    word ((List.range 8).map (fun k => (b2n (privileged b k), 8 + k)) ++ (List.range 4).map (fun n => (b2n (q n).overG, 4 + n))
      ++ [(b2n ((List.range 4).any fun n => (q n).overG), 0)])
  else if o = 0x2C then rcGet (savBase + 0x2C) b
  else if 0x40 ≤ o ∧ o ≤ 0x4C then BitVec.ofNat 32 ((q ((o - 0x40) / 4)).budget % 2 ^ 20)
  else if 0x50 ≤ o ∧ o ≤ 0x5C then BitVec.ofNat 32 ((q ((o - 0x50) / 4)).admission % 2 ^ 20)
  else if 0x60 ≤ o ∧ o ≤ 0x6C then BitVec.ofNat 32 (resvSum (q ((o - 0x60) / 4)) % 2 ^ 20)
  else if 0x80 ≤ o then grantWord (q ((o - 0x80) / 8)) ((o - 0x80) % 8)
  else rw (savBase + o) b

/-! ### CHN (R290, R320, R348) -/

/-- CHN_STAT.state. -/
def chanCode (x : Chan) : Nat :=
  if !x.init then 3 else match x.st with | .run => 0 | .powerdown => 1 | .selfRefresh => 2 | .offline => 3

/-- CHN_STAT.tick_period. -/
def tickPeriod (x : Chan) : Nat := if !x.init || x.st == .selfRefresh then 0 else tickNs x.mult

/-- One half of a CHN_RPR_ROWS register: used and row of a spare. -/
def spareHalf (x : Chan) (k : Nat) : Nat := match mget x.soft k none with | some r => 32768 + r % 32768 | none => 0

/-- The scheduling registers (R320). -/
def schedView (c o : Nat) (b : Block) : Word :=
  let x := b.chans[cid c]
  if o = 0x00 then
    word [(tickPeriod x, 16), (x.banks.foldl (fun m e => max m e.2.owed.length) 0, 8), (b2n x.draining, 7), (x.level, 4), (chanCode x, 0)]
  else if o = 0x1C then word [(wqUsed x, 16), (rqUsed x, 0)]
  else if o = 0x20 then rcGet (chnBase c + 0x20) b
  else if o = 0x40 then lo64 x.nHit
  else if o = 0x44 then hi64 x.nHit
  else if o = 0x48 then lo64 x.nMiss
  else if o = 0x4C then hi64 x.nMiss
  else if o = 0x50 then lo64 x.nWq
  else if o = 0x54 then hi64 x.nWq
  else if o = 0x6C then sats 3 (chnBase c + 0x60) b
  else rw (chnBase c + o) b

/-- The protection registers (R348). -/
def protView (c o : Nat) (b : Block) : Word :=
  let x := b.chans[cid c]
  let used := (x.remap.filter (·.isSome)).length
  if o = 0x104 then word [(b2n x.dillRun, 31), (x.dillSeg % 65536, 0)]
  else if o = 0x108 then x.dillIvl
  else if o = 0x10C then lo64 x.dillDone
  else if o = 0x110 then hi64 x.dillDone
  else if o = 0x118 then word [(x.soft.length, 23), (x.tsvSpares, 16), (b2n (used == 16), 5), (used, 0)]
  else if o = 0x11C then rcGet (chnBase c + 0x11C) b
  else if o = 0x13C then sats 7 (chnBase c + 0x120) b
  else if o = 0x140 then word [(x.lastOut.toNat, 29), (x.lastSrc.toNat, 27), (x.lastPla.toNat, 0)]
  else if o = 0x144 then word [(x.symB.toNat, 8), (x.symA.toNat, 0)]
  else if 0x180 ≤ o ∧ o ≤ 0x1BC then
    match x.remap.getD ((o - 0x180) / 4) none with
    | some r => word [(1, 31), (r.pla, 0)]
    | none => 0
  else if 0x200 ≤ o ∧ o ≤ 0x3FC then
    let k := (o - 0x200) / 2
    word [(spareHalf x (k + 1), 16), (spareHalf x k, 0)]
  else if 0x400 ≤ o then bits 32 fun i => x.offHnd.contains (8 * (o - 0x400) + i)
  else rw (chnBase c + o) b

def chnView (c o : Nat) (b : Block) : Word :=
  if o < 0x100 then schedView c o b
  else if o < 0x600 then protView c o b
  else if o < 0x680 then
    let n := (b.chans[cid c]).lines[Fin.ofNat 8 ((o - 0x600) / 16)]
    if o % 16 = 0 then lo64 n else hi64 n
  else if o = 0x680 then bits 16 fun i => ctrSat (chnBase c + 0x608 + 16 * (i % 8) + 4 * (i / 8)) b
  else rw (chnBase c + o) b

/-! ### ENG (R396) and SUP (R376, R397) -/

/-- ENG_STAT.state. -/
def EState.code : EState → Nat
  | .empty => 0 | .loading => 1 | .run => 2 | .held => 3 | .halted => 4

def engRegView (e o : Nat) (b : Block) : Word :=
  let x := b.engs[eid e]
  if o = 0x00 then word [(b2n (x.st == .loading), 1)] ||| rw (engBase e) b
  else if o = 0x04 then
    word [(x.queue.length, 16), ((bits 6 fun k => ctxWork b e k != .none).toNat, 8), (x.st.code, 0)]
  else if o = 0x08 then x.trap
  else if o = 0x0C then x.trapAddr
  else if o = 0x18 then word [(b2n (ctrSat (engBase e + 0x14) b), 0)]
  else if o = 0x20 then lo64 x.lines
  else if o = 0x24 then hi64 x.lines
  else rw (engBase e + o) b

def supView (o : Nat) (b : Block) : Word :=
  let p := b.ops
  if o = 0x00 then word [(b2n b.img.fw, 1), (b2n b.start.lockstepOk, 0)]
  else if o = 0x04 then b.img.fwVer
  else if o = 0x0C then bits 32 fun e => b.engs[eid e].st == .halted || b.engs[eid e].st == .held
  else if o = 0x10 then word [(b2n (p.coll.length == 256), 9), (p.coll.length, 0)]
  else if o = 0x14 then p.collSeq
  else if o = 0x20 then sats 2 (supBase + 0x18) b
  else if o = 0x608 then
    word [(p.seq.toNat, 24), (p.resOp.toNat, 20), (p.resHandle.toNat, 8), (p.resStatus.code, 0)]
  else if o = 0x60C then p.stat
  else if o = 0x610 then BitVec.ofNat 32 (4096 - poolUsed b)
  else if o = 0x614 then BitVec.ofNat 32 p.halts.length
  else if o = 0x700 then
    word [(b.start.lastFail.toNat, 8), (b2n b.img.stagedOk, 4), (b.start.stage.toNat, 0)]
  else if o = 0x704 then word [(b2n b.start.restartWait.isSome, 0)] ||| rw (supBase + 0x704) b
  else rw (supBase + o) b

/-! ### The live view -/

/-- What a live offset shows: 0 where no register lies (R44). -/
def liveView (a : Nat) (b : Block) : Word :=
  let base := baseOf a
  let o := a - base
  match regAt a with
  | none => 0
  | some .counter => ctr a b
  | some _ =>
    if o = 0x7FC then word [(b2n (pendingAt base b), 0)]
    else if base = 0 then idnView o b
    else if base = sageBase then sageView o b
    else if base = clkBase then clkView o b
    else if base = pwrBase then pwrView o b
    else if base = thmBase then thmView o b
    else if base = otpBase then otpView o b
    else if base = bstBase then bstView o b
    else if base = twpBase then twpView o b
    else if base = calBase then calView o b
    else if base < 0x20000 then lnkView (pid ((base - 0x10000) / 0x1000)) o b
    else if base = hndBase then hndView o b
    else if base = srlBase then srlView o b
    else if base = savBase then savView o b
    else if base < 0x60000 then chnView ((base - 0x40000) / 0x1000) o b
    else if base < 0x80000 then engRegView ((base - 0x60000) / 0x1000) o b
    else supView o b

/-! ### The shadow view (R47, R54) -/

/-- The RC bits of a register. -/
def rcMask (a : Nat) : Word :=
  let o := a % 0x1000
  let base := baseOf a
  if base = 0 then (if o = 0x18 then 0xFF else if o = 0x20 then 2 else if o = 0x44 then 0x30000 else 0)
  else if base = clkBase ∧ o = 0x14 then 0xF
  else if base = thmBase ∧ o = 0x0C then 0x3F
  else if base = bstBase ∧ o = 0x34 then 3
  else if base = twpBase ∧ o = 4 then 0x3F
  else if base = calBase ∧ o = 0x0C then 7
  else if 0x10000 ≤ base ∧ base < 0x20000 then (if o = 0x0C then 0xFF else if o = 0x30 then 0x1F else 0)
  else if base = srlBase ∧ o = 0x60 then 0x1F
  else if base = savBase ∧ o = 0x2C then 0x3F
  else if 0x40000 ≤ base ∧ base < 0x60000 then (if o = 0x20 then 7 else if o = 0x11C then 0xFF else 0)
  else if 0x60000 ≤ base ∧ base < 0x80000 ∧ o = 0x08 then 0xF0000000
  else 0

/-- What the shadow of the register at live address `a` shows: RW bits as after the next commit, the others live, and 0 for a
register with RC fields. -/
def shadowView (a : Nat) (b : Block) : Word :=
  if rcMask a ≠ 0 then 0
  else match regAt a with
    | some (.rw m _) => (liveView a b &&& ~~~m) ||| (shadow a b &&& m)
    | _ => liveView a b

/-! ### Reads -/

/-- An error bit of IDN_REG_ERR, and the first error's address (R65). -/
def regErr (i : Nat) (addr : Word) (b : Block) : Block :=
  let b := rcSet 0x18 i b
  if b.regs.errArmed then { b with regs := { b.regs with errAddr := addr, errArmed := false } } else b

/-- The unit of a path (R454): its port, or the two-wire port. -/
def pathUnit : Path → Nat
  | .link p => p.val
  | .twp => 0x5B

/-- A refused access (R44, R48, R59): its bit of IDN_REG_ERR and FS_REG_ACCESS. -/
def accessFault (i : Nat) (path : Path) (addr : Word) (b : Block) : Block :=
  raise (fs .regAccess) (pathUnit path) addr [] (regErr i addr b)

/-- The bits that a live read clears (R45, R46), and what reading certain registers does. -/
def readClears (a : Nat) (b : Block) : Block :=
  if a = 0x18 then (let b := rcClear 0x18 b; { b with regs := { b.regs with errArmed := true } })
  else if a = 0x44 then { b with img := { b.img with clamped := false, overrun := false } }
  else if rcMask a = 0 then b
  else
    let base := baseOf a
    if 0x10000 ≤ base ∧ base < 0x20000 ∧ a % 0x1000 = 0x30 then
      modPort (pid ((base - 0x10000) / 0x1000)) (fun x => { x with firstCause := 0 }) (rcClear a b)
    else if 0x60000 ≤ base ∧ base < 0x80000 then
      modEng (eid ((base - 0x60000) / 0x1000)) (fun x => { x with trap := 0, trapAddr := 0 }) b
    else rcClear a b

/-- The live address that an address is the shadow of; an address below 0x800 of its block is its own. -/
def liveOf (a : Nat) : Nat := if a % 0x1000 ≥ 0x800 then a - 0x800 else a

/-- A register lies at an address or is shadowed there (R42, R54). -/
def mapped (a : Nat) : Bool := (regAt (liveOf a)).isSome

/-- A read (R44, R48): status, data and effect. A read of a shadow offset whose live offset holds no register meets the answer
of R44, which speaks of live offsets only: ACCESS_ERROR, the data word 0, and IDN_REG_ERR.unmapped (DESIGN CHOICE, log entry
109). -/
def readReg (path : Path) (addr : Word) (b : Block) : Status × Word × Block :=
  let a := addr.toNat
  if a % 4 ≠ 0 then (.accessError, 0, accessFault 1 path addr b)
  else if !mapped a then (.accessError, 0, accessFault 4 path addr b)
  else if a % 0x1000 ≥ 0x800 then (.ok, shadowView (liveOf a) b, b)
  else (.ok, liveView a b, readClears a b)

end Sys2Proof.Machine
end

