-- ==== Sys2Proof/Machine/RegWrite.lean ====
section
/-! DEFINITION. Register writes: commit boundaries (R52 to R55), the checks of a write (R44, R48, R50, R59, R63, R470), and what
a write to each block does. -/

namespace Sys2Proof.Machine

open Sys2Proof

/-! ### Commit boundaries (R53) -/

/-- One LNK register commits: LNK_CTRL.disable as 1 disables the port (R163). -/
def commitLnkReg (p : PortId) (w : PendWr) (b : Block) : Block :=
  let b := setLive w.addr w.value b
  if w.addr = lnkBase p.val ∧ w.value.getLsbD 0 then portDisable p b else b

/-- Port `p`'s block commits. -/
def commitLnk (p : PortId) (b : Block) : Block :=
  let r := takePend (lnkBase p.val) b
  r.1.foldl (fun b w => commitLnkReg p w b) r.2

/-- An engine is held, or goes on, as its halt bit, its clock and the safe states say (R396). -/
def holdOrRun (e : Nat) (b : Block) : Block :=
  if heldNow b e then modEng (eid e) holdEngine b
  else if b.engs[eid e].st = .held then kickEngine e (modEng (eid e) (fun x => { x with st := .run }) b)
  else b

/-- Engine `e`'s block commits. -/
def commitEng (e : Nat) (b : Block) : Block :=
  if pendingAt (engBase e) b then holdOrRun e (commitPlain (engBase e) b) else b

/-- The number of the port, channel or engine whose block lies at a base address. -/
def portOf (base : Nat) : PortId := pid ((base - 0x10000) / 0x1000)
def chanOf (base : Nat) : Nat := (base - 0x40000) / 0x1000
def engOf (base : Nat) : Nat := (base - 0x60000) / 0x1000
def isLnk (base : Nat) : Bool := decide (0x10000 ≤ base ∧ base < 0x20000)
def isChn (base : Nat) : Bool := decide (0x40000 ≤ base ∧ base < 0x60000)
def isEng (base : Nat) : Bool := decide (0x60000 ≤ base ∧ base < 0x80000)

/-- The block at a base address commits all its pending writes as one step. -/
def commitAt (base : Nat) (b : Block) : Block :=
  if base = clkBase ∨ base = pwrBase then commitClkBlock base b
  else if base = srlBase then commitSrl b
  else if base = savBase then commitSav b
  else if isLnk base then commitLnk (portOf base) b
  else if isEng base then commitEng (engOf base) b
  else commitPlain base b

/-- The block takes writes at once in the present state. -/
def atOnceNow (base : Nat) (b : Block) : Bool :=
  if base = clkBase ∨ base = pwrBase then seqIdle b
  else if base = twpBase then !b.twp.bus
  else if isLnk base then b.ports[portOf base].st != .active
  else if isChn base then b.chans[cid (chanOf base)].st == .offline
  else if isEng base then
    b.engs[eid (engOf base)].st != .run || (List.range 6).all fun k => ctxWork b (engOf base) k == .none
  else false

/-- The block commits now when it takes writes at once. -/
def commitNow (base : Nat) (b : Block) : Block :=
  if !atOnceNow base b then b
  else if base = clkBase ∨ base = pwrBase then commitClkNow b
  else commitAt base b

/-- Accept a write into its block's commit buffer. -/
def buffer (a : Nat) (v : Word) (b : Block) : Block := commitNow (baseOf a) (bufferWrite a v b)

/-- Base addresses of the blocks with a pending write, ascending. -/
def pendBases (b : Block) : List Nat := (b.regs.pend.map fun w => baseOf w.addr).foldl (fun l n => sadd n l) []

/-- A channel is in the middle of a DRAM command: reads whose data has not returned, or a refresh that runs (R55). -/
def midCommand (x : Chan) : Bool := !x.inflight.isEmpty || (x.st == .run && x.banks.any fun y => decide (y.2.tBusy > x.cycle))

/-- One block of a forced commit: the writes accepted since the forced commit began stay (R55). -/
def commitForced (base : Nat) (b : Block) : Block :=
  let late := b.regs.pend.filter fun w => w.after && baseOf w.addr == base
  let b := commitAt base { b with regs := { b.regs with pend := b.regs.pend.filter fun w => !(w.after && baseOf w.addr == base) } }
  { b with regs := { b.regs with pend := b.regs.pend ++ late } }

/-- The blocks of a forced commit in turn, up to a channel in the middle of a command, which they wait for (R55). -/
def forcedRun : List Nat → Block → Block
  | [], b => { b with regs := { b.regs with forced := [], pend := b.regs.pend.map fun w => { w with after := false } } }
  | base :: t, b =>
    if isChn base && midCommand b.chans[cid (chanOf base)] then { b with regs := { b.regs with forced := base :: t } }
    else forcedRun t (commitForced base b)

/-- A forced commit in progress goes on where it waited. -/
def forcedGo (b : Block) : Block := if b.regs.forced = [] then b else forcedRun b.regs.forced b

/-- The forced commit (R55): every write pending at this instant, block by block, in ascending base address. -/
def forcedCommit (b : Block) : Block :=
  forcedRun (pendBases b) { b with regs := { b.regs with pend := b.regs.pend.map fun w => { w with after := false } } }

/-- Blocks that have come to take writes at once commit what waits. -/
def commitIdle (b : Block) : Block := (pendBases b).foldl (fun b base => commitNow base b) b

/-! ### Ranges -/

/-- Field [hi:lo] lies in a range. -/
def within (w : Word) (hi lo least most : Nat) : Bool := decide (least ≤ wfield w hi lo ∧ wfield w hi lo ≤ most)

/-- Ranges of the CLK block (R119, R431, R443). -/
def clkRange (o : Nat) (w : Word) (b : Block) : Bool :=
  if o = 0x00 then !(w.getLsbD 0 && (!ratioAllowed b || b.start.chive))
  else if o = 0x04 then !b.start.chive && opAllowed b (wfield w 1 0)
  else if o = 0x18 then within w 12 8 4 16 && opAllowed b (wfield w 1 0)
  else if o = 0x20 then
    wfield w 7 4 == 15
      && (List.range 4).all fun q => w.getLsbD q || (List.range 4).all fun i => b.ports[pid (4 * q + i)].st == .disabled
  else true

/-- Ranges of the PWR block (R444). -/
def pwrRange (o : Nat) (w : Word) : Bool :=
  if o = 0x00 then within w 2 0 0 4 else if o = 0x18 then within w 4 0 1 20 else true

/-- Ranges of the SRL block (R267). -/
def srlRange (o : Nat) (w : Word) (b : Block) : Bool :=
  if o = 0x20 then within w 15 8 1 100 && within w 7 0 1 (wfield w 15 8)
  else if o = 0x24 then within w 3 0 6 15
  else if o = 0x28 then within w 7 0 1 255
  else if o = 0x2C then within w 11 8 1 15 && decide (60 ≤ wfield w 7 0) && decide (256 * (wfield w 7 0 : Int) ≤ coreWarn b)
  else if o = 0x30 then decide (wfield w 15 0 < wfield w 31 16)
  else true

/-- Classes in mode GUARANTEE in the shadow view, with a write to class `k`. -/
def shadowPriv (k : Nat) (w : Word) (b : Block) : Nat :=
  ((List.range 8).filter fun j => if j = k then w.getLsbD 20 else (shadow (savBase + 4 * j) b).getLsbD 20).length

/-- Ranges of the SAV block (R271, R289). -/
def savRange (o : Nat) (w : Word) (b : Block) : Bool :=
  if o < 0x20 then
    decide (shadowPriv (o / 4) w b ≤ 2) && wfield w 15 0 != 0 && !(w.getLsbD 20 && decide (wfield w 15 0 < 10))
  else if o = 0x20 then within w 15 0 10 65535
  else true

/-- Ranges of a CHN block (R320, R348). -/
def chnRange (o : Nat) (w : Word) : Bool :=
  if o = 0x04 then within w 22 16 2 64 && decide (wfield w 6 0 < wfield w 22 16)
  else if o = 0x08 then within w 7 0 2 255
  else if o = 0x0C then within w 21 16 1 63 && within w 15 12 1 15 && within w 7 0 1 255
  else if o = 0x18 then within w 7 0 1 255
  else if o = 0x100 then within w 15 8 1 168
  else if o = 0x114 then within w 15 8 10 255 && within w 7 0 2 255
  else true

/-! ### The blocks

Each function takes a write that has passed the checks common to all writes: the offset of an existing register, and the data
with its RSV bits. -/

/-- Store a register that takes writes at once. -/
def storeNow (a : Nat) (data : Word) (b : Block) : Status × Block := (.ok, setLive a (data &&& rwMask a) b)

/-- Buffer a register whose value is in range. -/
def bufferOk (ok : Bool) (a : Nat) (data : Word) (b : Block) : Status × Block :=
  if !ok then (.badArg, b) else if rwMask a = 0 then (.ok, b) else (.ok, buffer a (data &&& rwMask a) b)

/-- IDN (R50, R55, R64, R145). -/
def idnWrite (path : Path) (o : Nat) (data : Word) (b : Block) : Status × Block :=
  if o = 0x10 then (.ok, if data.getLsbD 0 then forcedCommit b else b)
  else if o = 0x14 then
    (if wfield data 1 0 = 3 then (.badArg, b)
     else (.ok, { b with regs := { b.regs with
       owner := BitVec.ofNat 2 (wfield data 1 0), badPar := sdel 0x14 b.regs.badPar } }))
  else if o = 0x40 then imgCtrl data b
  else if 0x60 ≤ o ∧ o ≤ 0x7C then imageData path data b
  else (.ok, b)

/-- SAGE (R458, R459, R478). -/
def sageWrite (o : Nat) (data : Word) (b : Block) : Status × Block :=
  if o = 0x14 then
    let b := (storeNow (sageBase + 0x14) data b).2
    if data.getLsbD 9 then sageClear (data.getLsbD 8) (wfield data 7 0) b else (.ok, b)
  else if o = 0x20 then
    (if data.getLsbD 8 then
      let r := sageInject (wfield data 7 0) b
      if r.1 = .ok then (.ok, (storeNow (sageBase + 0x20) data r.2).2) else r
     else storeNow (sageBase + 0x20) data b)
  else (.ok, b)

/-- THM_SUSPECT_CLRk: the marks to clear at the next sample (R404). -/
def suspectClr (k : Nat) (data : Word) (b : Block) : Block :=
  { b with thm := { b.thm with clr := b.thm.clr ||| BitVec.ofNat 192 (data.toNat <<< (32 * k)) } }

/-- THM other than the acknowledge (R404, R406). -/
def thmWrite (o : Nat) (data : Word) (b : Block) : Status × Block :=
  if 0x80 ≤ o ∧ o ≤ 0x94 then (.ok, suspectClr ((o - 0x80) / 4) data b)
  else if 0x10 ≤ o ∧ o ≤ 0x24 then bufferOk (limitOk ((o - 0x10) / 4) data b) (thmBase + o) data b
  else (.ok, b)

/-- A command register's write with go: start the command, and store its op unless it is refused. -/
def goWrite (a : Nat) (data : Word) (r : Status × Block) : Status × Block :=
  if r.1 = .ok then storeNow a data r.2 else r

/-- OTP_CMD (R489, R492): go with abort is refused (DEDUCED, as R128 rules for IDN_IMG_CTRL). -/
def otpCmdWrite (path : Path) (data : Word) (b : Block) : Option Status × Block :=
  if data.getLsbD 0 then
    (if data.getLsbD 4 then (some .badArg, b)
     else
      let r := goWrite otpBase data (otpGo (BitVec.ofNat 3 (wfield data 3 1)) path b)
      (some r.1, r.2))
  else
    let b := (storeNow otpBase data b).2
    if data.getLsbD 4 then otpAbort b else (some .ok, b)

/-- OTP other than OTP_CMD (R486, R497, R59). -/
def otpWrite (path : Path) (o : Nat) (data : Word) (b : Block) : Status × Block :=
  if o = 0x04 then storeNow (otpBase + 4) data b
  else if 0x40 ≤ o ∧ o ≤ 0x54 then (.ok, slockWrite ((o - 0x40) / 4) data b)
  else if 0x60 ≤ o ∧ o ≤ 0x7C then tokenWrite path data b
  else (.ok, b)

/-- BST_CMD (R504, R511); the spec lets the moment of an abort within a run decide its outcome, which the run's end brings. -/
def bstCmdWrite (path : Path) (lastDone : Option Bool) (data : Word) (b : Block) : Option Status × Block :=
  if data.getLsbD 0 then (if data.getLsbD 1 then (some .badArg, b) else (some .ok, bstGo path b))
  else if data.getLsbD 1 then bstAbort lastDone b
  else (some .ok, b)

/-- BST other than BST_CMD. -/
def bstWrite (o : Nat) (data : Word) (b : Block) : Status × Block :=
  if o = 0x04 ∨ o = 0x1C then storeNow (bstBase + o) data b else (.ok, b)

/-- CAL (R451). -/
def calWrite (o : Nat) (data : Word) (b : Block) : Status × Block :=
  if o = 0x00 then
    (if data.getLsbD 0 then goWrite calBase data (calGo (wfield data 2 1) (wfield data 12 8) b) else storeNow calBase data b)
  else if o = 0x04 then (if calCfgOk data then storeNow (calBase + 4) data b else (.badArg, b))
  else if o = 0x1C then (if wfield data 7 0 ≤ 191 then storeNow (calBase + 0x1C) data b else (.badArg, b))
  else (.ok, b)

/-- LNK (R160, R166, R178). -/
def lnkWrite (p : PortId) (o : Nat) (data : Word) (b : Block) : Status × Block :=
  let a := lnkBase p.val + o
  let st := b.ports[p].st
  if o = 0x00 then
    (if data.getLsbD 1 && st != .active && st != .idle then (.badArg, b)
     else if data.getLsbD 2 && (st != .disabled || bstOnPort b p) then (.badArg, b)
     else
      let b := if data.getLsbD 1 then recoverPort p b else if data.getLsbD 2 then reenablePort p b else b
      bufferOk true a data b)
  else if o = 0x04 then bufferOk (wfield data 15 8 != 0) a data b
  else bufferOk true a data b

/-- HND (R226, R237): a go while a command runs is refused. -/
def hndWrite (path : Path) (o : Nat) (data : Word) (b : Block) : Status × Block :=
  if o = 0x00 then
    (if data.getLsbD 0 then
      (if b.hnd.run.isSome then (.badArg, b)
       else goWrite hndBase data (.ok, hndGo (wfield data 3 1) path b))
     else storeNow hndBase data b)
  else if o ≤ 0x10 then storeNow (hndBase + o) data b
  else (.ok, b)

/-- ENG (R389, R396). -/
def engRegWrite (e o : Nat) (data : Word) (b : Block) : Status × Block :=
  let a := engBase e + o
  if o = 0x00 then
    (if data.getLsbD 1 then
      let r := reloadEngine e b
      if r.1 = .ok then bufferOk true a data r.2 else r
     else bufferOk true a data b)
  else if o = 0x10 then bufferOk (within data 7 0 5 255) a data b
  else (.ok, b)

/-- An OTP program pulse is under way. -/
def otpPulsing (b : Block) : Bool := match b.otp.run with | some r => r.phase == .pulse | none => false

/-- SUP_RESTART (R45, R105): while a restart waits for an OTP pulse, a further write has no effect. -/
def restartWrite (data : Word) (b : Block) : Status × Block :=
  if b.start.restartWait.isSome then (.ok, b)
  else if !data.getLsbD 0 then storeNow (supBase + 0x704) data b
  else if b.thm.safe || (data.getLsbD 1 && !b.img.stagedOk) then (.badArg, b)
  else if otpPulsing b then
    storeNow (supBase + 0x704) data { b with start := { b.start with restartWait := some (data.getLsbD 1) } }
  else (.ok, doRestart (data.getLsbD 1) b)

/-- SUP (R376, R397). -/
def supWrite (o : Nat) (data : Word) (b : Block) : Status × Block :=
  if o = 0x08 then (if wfield data 3 0 = 0 then (.badArg, b) else storeNow (supBase + 8) data b)
  else if o = 0x600 then
    let b := (storeNow (supBase + 0x600) data b).2
    (.ok, if data.getLsbD 0 then opqCommand (wfield data 3 1) b else b)
  else if o = 0x604 then storeNow (supBase + 0x604) data b
  else if o = 0x704 then restartWrite data b
  else (.ok, b)

/-- CLK (R443): a CLKEN_RUN change that commits at once wakes the stack to P0 first (R428). -/
def clkWrite (o : Nat) (data : Word) (s : State) : Status × State :=
  let ok := clkRange o data s.blk
  let s := if ok && o == 0x20 && seqIdle s.blk then exitPower s else s
  let r := bufferOk ok (clkBase + o) data s.blk
  (r.1, s.upd r.2)

/-- PWR (R439, R444). -/
def pwrWrite (o : Nat) (data : Word) (s : State) : Status × State :=
  if !pwrRange o data then (.badArg, s)
  else
    let s := if o = 0x00 ∧ data.getLsbD 8 then exitPower s else s
    let r := bufferOk true (pwrBase + o) data s.blk
    (r.1, s.upd r.2)

/-! ### The checks of a write -/

/-- IDN_REG_OWNER refuses the path (R50). -/
def ownerRefuses (path : Path) (b : Block) : Bool :=
  if pathTwp path then b.regs.owner == 1 else b.regs.owner == 2

/-- In the safe state a write changes nothing but the SAGE block and IDN_REG_OWNER (R470). -/
def safeRefuses (a : Nat) (b : Block) : Bool := b.sage.safe && baseOf a != sageBase && a != 0x14

/-- The refusal that a write meets, as its bit of IDN_REG_ERR (R44, R48, R50, R54). -/
def writeFault (path : Path) (addr : Word) (be : BitVec 4) (b : Block) : Option Nat :=
  let a := addr.toNat
  if a % 4 ≠ 0 then some 1
  else if be ≠ 15 then some 0
  else if a % 0x1000 ≥ 0x800 ∧ (blockBase a).isSome then some 6
  else if !mapped a then some 4
  else if ownerRefuses path b then some 3
  else none

/-- A set write-once register (R59, R497). -/
def lockedReg (a : Nat) (b : Block) : Bool :=
  decide (otpBase + 0x40 ≤ a ∧ a ≤ otpBase + 0x54) && b.otp.slockSet.getLsbD ((a - otpBase - 0x40) / 4)

/-- A write to an existing live register. -/
def writeBlock (path : Path) (a : Nat) (data : Word) (b : Block) : Status × Block :=
  let base := baseOf a
  let o := a - base
  if base = 0 then idnWrite path o data b
  else if base = sageBase then sageWrite o data b
  else if base = thmBase then thmWrite o data b
  else if base = otpBase then otpWrite path o data b
  else if base = bstBase then bstWrite o data b
  else if base = twpBase then bufferOk true a data b
  else if base = calBase then calWrite o data b
  else if isLnk base then lnkWrite (portOf base) o data b
  else if base = hndBase then hndWrite path o data b
  else if base = srlBase then bufferOk (srlRange o data b) a data b
  else if base = savBase then bufferOk (savRange o data b) a data b
  else if isChn base then bufferOk (chnRange o data) a data b
  else if isEng base then engRegWrite (engOf base) o data b
  else supWrite o data b

/-- What answers a write: a status now, or the outcome of the unit whose response waits. -/
abbrev Written := Option Status × State

/-- A result of a block, over the state. -/
def onBlock (s : State) (r : Status × Block) : Written := (some r.1, s.upd r.2)

/-- Blocks whose commands use the registers that hold their operands (R57). -/
def usesArgs (base : Nat) : Bool :=
  base == otpBase || base == bstBase || base == calBase || base == hndBase || base == supBase

/-- A write that no common check refuses. In CHIVE the SRL and ENG blocks accept writes without effect (R102); a command's go
has its block check the registers it uses (R57). -/
def writeLive (path : Path) (lastDone : Option Bool) (a : Nat) (data : Word) (s : State) : Written :=
  let base := baseOf a
  let s := if usesArgs base && data.getLsbD 0 && regAt a != some .counter then checked base s else s
  let b := s.blk
  if b.inChive && (base == srlBase || isEng base) then (some .ok, s)
  else if regAt a = some .counter then
    (if data = 0 then (some .ok, s.upd (ctrClear a b)) else (some .badArg, s.upd (regErr 7 (BitVec.ofNat 32 a) b)))
  else if a = thmBase + 8 then (let r := tripAck data s; (some r.1, r.2))
  else if a = otpBase then (let r := otpCmdWrite path data b; (r.1, s.upd r.2))
  else if a = bstBase then (let r := bstCmdWrite path lastDone data b; (r.1, s.upd r.2))
  else if base = clkBase then (let r := clkWrite (a - base) data s; (some r.1, r.2))
  else if base = pwrBase then (let r := pwrWrite (a - base) data s; (some r.1, r.2))
  else onBlock s (writeBlock path a data b)

/-- A register write (R42 to R63): the checks, of which that of the owner uses IDN_REG_OWNER (R57), then its effect. -/
def writeReg (path : Path) (lastDone : Option Bool) (addr data : Word) (be : BitVec 4) (s : State) : Written :=
  let s := s.upd (useReg 0x14 s.blk)
  let b := s.blk
  if safeRefuses addr.toNat b then (some .accessError, s)
  else
    match writeFault path addr be b with
    | some i => (some .accessError, s.upd (accessFault i path addr b))
    | none =>
      if lockedReg addr.toNat b then (some .writeIgnored, s.upd (accessFault 2 path addr b))
      else writeLive path lastDone addr.toNat data s

/-! ### The paths (R49, R90, R439, R516, R520) -/

/-- A path serves registers: the two-wire port from step 5 on, a port while its link is up. -/
def pathOpen (b : Block) : Path → Bool
  | .twp => decide (b.start.step ≥ 5)
  | .link p => decide (b.start.step ≥ 5) && b.ports[p].linked

/-- A register access ends a power state. -/
def wakeBy (path : Path) (addr : Word) (s : State) : State :=
  if pathTwp path && wakeless addr.toNat then s else exitPower s

/-- An access to TWP_RSP or TWP_RSP_ADDR updates neither (R520). -/
def ownRsp (addr : Word) : Bool := addr.toNat == twpBase + 8 || addr.toNat == twpBase + 0xC

/-- The status of an access goes to its path's response register, and to the model's record of the last response; every access of
a two-wire transaction counts for err_seen (R520). -/
def respond (path : Path) (write : Bool) (st : Status) (addr : Word) (b : Block) : Block :=
  let b := { b with resp := st }
  if !pathTwp path then b
  else
    let b := twpSeen st b
    if ownRsp addr then b else twpResponse write st addr b

/-- A write whose response waits is remembered. -/
def deferWrite (path : Path) (addr : Word) (req : Option (BitVec 128 × Nat)) (b : Block) : Block :=
  { b with defers := b.defers ++ [{ otp := baseOf addr.toNat == otpBase, path := path, req := req, word := pathTwp path }] }

/-- A whole-word write on a path, with its response; a path that is closed carries none, and a write that restarts the stack
leaves no response behind. -/
def pathWriteAt (lastDone : Option Bool) (path : Path) (addr data : Word) (be : BitVec 4) (s : State) : State :=
  if !pathOpen s.blk path then s else
  let r := writeReg path lastDone addr data be (wakeBy path addr s)
  if r.2.blk.start.step < 5 then r.2 else
  match r.1 with
  | some st => r.2.upd (respond path true st addr r.2.blk)
  | none => r.2.upd (deferWrite path addr none r.2.blk)

/-- A whole-word write on a path. -/
def pathWrite (path : Path) (addr data : Word) (s : State) : State := pathWriteAt none path addr data 15 s

end Sys2Proof.Machine
end

