-- ==== Sys2Proof/Machine/Returns.lean ====
section
/-! DEFINITION. How the stack's own units come by the lines they read (R291 to R294): each read goes through its channel's queues
like a host's, and its unit takes the line when the write queue or the DRAM has served it. What an engine does in a scheduler cycle
of its channel. -/

namespace Sys2Proof.Machine

open Sys2Proof

/-- A unit takes a line that has been served for it. -/
def takeOne (c : Nat) (s : State) (r : Acc × Stored) : State :=
  match r.1.src with
  | .engRead id i try_ second line => readTook c r.1 id i try_ second line r.2 s
  | .engRmw id i line => rmwTook c r.1 id i line r.2 s
  | .dill => s.upd (dillTake c r.1.pla r.2 s.blk)
  | .verify p w => s.upd (verifyTake c r.1.pla p w r.2 s.blk)
  | .softRead i => s.upd (softTake c i r.2 s.blk)
  | .copyRead src l => s.upd (copyTook r.1 src l r.2 s.blk)
  | _ => s

/-- The lines that a channel has served are taken, in order. -/
def takeServed (c : Nat) (s : State) : State :=
  match s.blk.chans[cid c].served with
  | [] => s
  | l => l.foldl (takeOne c) (s.upd (modChan (cid c) (fun x => { x with served := [] }) s.blk))

/-- A context for operation pieces goes on with its piece. -/
def pieceWork (c : Nat) (s : State) (k : Fin 6) : State :=
  match (s.blk.engs[eid c]).ctx[k].work with
  | .piece id i => advancePiece id i [] s
  | _ => s

/-- The engine of a channel goes on with its work (R381): the soft row repair of context 0, the copy of context 1 and the pieces of
contexts 2 to 5. -/
def engineWork (c : Nat) (s : State) : State :=
  if s.blk.engs[eid c].st ≠ .run then s else
  let s := s.upd (softNext c [] s.blk)
  let s := match copyOf s.blk c with | some m => s.upd (copyNext m.src [] s.blk) | none => s
  [2, 3, 4, 5].foldl (pieceWork c) s

/-- SCHEDULER_CYCLE with what the channel's engine does in it. -/
def cycleRow (c : Nat) (raw : Bool) (s : State) : State :=
  takeServed c (schedule c raw (engineWork c (takeServed c s)))

/-- DRAM_READ_RETURN with what the unit that asked for the line does with it. -/
def returnRow (c : Nat) (err : Stored) (s : State) : State := takeServed c (readReturn c err s)

end Sys2Proof.Machine
end

