-- ==== Sys2Proof/Machine/Boundaries.lean ====
section
/-! DEFINITION. The commit boundaries that come with the units' own events (R53), and the parity sweep (R57). -/

namespace Sys2Proof.Machine

open Sys2Proof

/-- FLIT_TRANSMIT: at an alignment marker the port's block commits first (R53). -/
def flitTime (p : PortId) (b : Block) : Block :=
  let b := useRegs (lnkBase p.val) b
  let x := b.ports[p]
  let b := if x.transmits && x.txFlits % 4096 == 0 then commitLnk p b else b
  sendFlit p b

/-- REFRESH_TICK (R38, R308): refreshes fall due, the channel's block commits, and the new settings come into force. -/
def refreshTick (c : Nat) (s : State) : State :=
  if !ticking s.blk.chans[cid c] then s else
  let s := tickRefresh c (checked (chnBase c) s)
  adoptLevel c (s.upd (commitPlain (chnBase c) s.blk))

/-- A pending write of the block was accepted 10 µs ago or earlier (R53). -/
def waitedEng (e : Nat) (b : Block) : Bool :=
  b.regs.pend.any fun w => baseOf w.addr == engBase e && decide (b.now ≥ w.since + 1000)

/-- An action boundary of an engine: its block commits where a table instance starts, where a write has waited 10 µs, and where the
block takes writes at once (R53). -/
def engBoundary (e : Nat) (start : Bool) (b : Block) : Block :=
  if start || waitedEng e b || atOnceNow (engBase e) b then commitEng e b else b

/-- The stack makes these events itself (R383): the start of a piece's context, events 1 to 7 and the abort. -/
def stackMakes (k ev : Nat) : Bool := (ev == 0 && decide (k ≥ 2)) || (1 ≤ ev && ev ≤ 7) || ev == 30

/-- The engine takes the oldest event of its contexts (R382): event 0 starts a table instance; an action uses the engine's registers
(R57), with a boundary before it and one after it (R53). -/
def takeEvent (e : Nat) (b : Block) : Block :=
  match b.engs[eid e].evq with
  | [] => b
  | (k, ev, line) :: rest =>
    let b := engBoundary e (ev == 0) (useRegs (engBase e) (modEng (eid e) (fun x => { x with evq := rest }) b))
    if b.engs[eid e].st ≠ .run then b else engBoundary e false (engineEvent e k ev line b)

/-- ENGINE_EVENT: an event arrives and the engine takes the oldest one. Of the events that the stack makes itself the command takes
the one it names, when that is the oldest. -/
def engineEventRow (e k ev : Nat) (b : Block) : Block :=
  if b.engs[eid e].st ≠ .run ∨ ctxWork b e k = .none then b
  else if stackMakes k ev then
    (match b.engs[eid e].evq with
     | (k', ev', _) :: _ => if k' = k ∧ ev' = ev then takeEvent e b else b
     | [] => b)
  else takeEvent e (modEng (eid e) (fun x => { x with evq := x.evq ++ [(k, ev, [])] }) b)

/-! ### Commands that end a DRAM command: a forced commit that waits for the channel goes on (R55) -/

/-- The state after a command, with the forced commit gone on. -/
def goOn (s : State) : State := s.upd (forcedGo s.blk)

def execSchedulerCycle (c : ChanId) (raw : Bool) (s : State) : Res := .next (goOn (cycleRow c.val raw (checked (chnBase c.val) s)))
def execDramReadReturn (c : ChanId) (err : Stored) (s : State) : Res := .next (goOn (returnRow c.val err s))

/-! ### The parity sweep (R57) -/

/-- An upset flips a bit of a live register: only registers with RW bits have parity. -/
def upsetLive (a : Word) (b : Block) : Block :=
  if rwMask a.toNat = 0 then b
  else { b with regs := { b.regs with badPar := sadd a.toNat b.regs.badPar } }

/-- An upset flips a bit of a pending value. -/
def upsetPend (a : Word) (b : Block) : Block :=
  { b with regs := { b.regs with pend := b.regs.pend.map fun w => if w.addr = a.toNat then { w with good := false } else w } }

/-- PARITY_SWEEP: of the upsets since the last sweep, those of pending values wait for their commit (R58); every live value with
wrong parity raises FS_CFG_PARITY with its address. SAGE_SAFETY.enable stops the sweep but for Sage's own registers (R467, R471). -/
def paritySweep (live pend : List Word) (b : Block) : Block :=
  let b := pend.foldl (fun b a => upsetPend a b) (live.foldl (fun b a => upsetLive a b) b)
  if b.start.step < 5 then b
  else (b.regs.badPar.filter fun a => b.sage.enable || baseOf a == sageBase).foldl (fun b a => parityFault a b) b

def execFlitTransmit (p : PortId) (s : State) : Res := .next (s.upd (flitTime p s.blk))
def execRefreshTick (c : ChanId) (s : State) : Res := .next (refreshTick c.val s)
/-- ENG_HALT_COMMIT: an action boundary at which ENG_CTRL.halt commits. -/
def execEngHaltCommit (e : EngId) (s : State) : Res := .next (s.upd (engBoundary e.val false s.blk))
def execEngineEvent (e : EngId) (ctx : Fin 6) (ev : Fin 32) (s : State) : Res :=
  .next (s.upd (engineEventRow e.val ctx.val ev.val s.blk))
def execParitySweep (live pend : List Word) (s : State) : Res := .next (s.upd (paritySweep live pend s.blk))

end Sys2Proof.Machine
end

