-- ==== Sys2Proof/Machine/Commands.lean ====
section
/-! DEFINITION. The commands that are a write of one register: each row writes its register over its path, with the value that
the row gives it. -/

namespace Sys2Proof.Machine

open Sys2Proof

/-- Write the register at offset `o` of the block at `base`. -/
def put (path : Path) (base o : Nat) (data : Word) (s : State) : State := pathWrite path (BitVec.ofNat 32 (base + o)) data s

/-- A command register's go with an operation code in bits [3:1]. -/
def goWord (op : Nat) : Word := word [(1, 0), (op, 1)]

/-! ### IDN: image loads, owner, forced commit, counters, and writes with no row of their own -/

/-- The held IDN_IMG_CTRL.target, which a write of abort keeps. -/
def heldTarget (b : Block) : Word := rw 0x40 b &&& 0xC

/-- A counter clear (R63) is a write of a counter register. -/
def counterWrite (path : Path) (addr data : Word) (s : State) : State :=
  if regAt addr.toNat = some .counter then pathWrite path addr data s else s

def execRestartCommand (path : Path) (useStaged : Bool) (s : State) : Res :=
  .next (put path supBase 0x704 (word [(1, 0), (b2n useStaged, 1)]) s)
def execImageLoadStart (path : Path) (target : BitVec 2) (s : State) : Res :=
  .next (put path 0 0x40 (word [(1, 0), (target.toNat, 2)]) s)
def execImageLoadAbort (path : Path) (s : State) : Res := .next (put path 0 0x40 (2 ||| heldTarget s.blk) s)
def execImageDataWrite (path : Path) (k : Fin 8) (data : Word) (s : State) : Res :=
  .next (put path 0 (0x60 + 4 * k.val) data s)
def execRegisterWrite (path : Path) (addr data : Word) (be : BitVec 4) (s : State) : Res :=
  .next (pathWriteAt none path addr data be s)
def execCounterClearWrite (path : Path) (addr data : Word) (s : State) : Res := .next (counterWrite path addr data s)
def execIdnRegOwnerWrite (path : Path) (data : Word) (s : State) : Res := .next (put path 0 0x14 data s)
def execForcedCommit (path : Path) (s : State) : Res := .next (put path 0 0x10 1 s)

/-! ### LNK -/

/-- The disable bit that a write of retrain keeps. -/
def heldDisable (p : PortId) (b : Block) : Word := shadow (lnkBase p.val) b &&& 1

def execLnkRetrain (path : Path) (p : PortId) (s : State) : Res :=
  .next (put path (lnkBase p.val) 0 (2 ||| heldDisable p s.blk) s)
def execLnkReenable (path : Path) (p : PortId) (s : State) : Res := .next (put path (lnkBase p.val) 0 4 s)

/-! ### THM, PWR and SAGE -/

def execThmTripAck (path : Path) (data : Word) (s : State) : Res := .next (put path thmBase 0x08 data s)
def execThmSuspectClr (path : Path) (k : Fin 6) (data : Word) (s : State) : Res :=
  .next (put path thmBase (0x80 + 4 * k.val) data s)
def execThmLimitWrite (path : Path) (k : Fin 6) (data : Word) (s : State) : Res :=
  .next (put path thmBase (0x10 + 4 * k.val) data s)
def execPwrWake (path : Path) (s : State) : Res := .next (put path pwrBase 0 (0x100 ||| shadow pwrBase s.blk) s)
def execSageClear (path : Path) (all : Bool) (source : Byte) (s : State) : Res :=
  .next (put path sageBase 0x14 (word [(1, 9), (b2n all, 8), (source.toNat, 0)]) s)
def execSageInject (path : Path) (source : Byte) (s : State) : Res :=
  .next (put path sageBase 0x20 (word [(1, 8), (source.toNat, 0)]) s)

/-! ### Handle commands (R226) -/

def execCreate (path : Path) (s : State) : Res := .next (put path hndBase 0 (goWord 1) s)
def execGrow (path : Path) (s : State) : Res := .next (put path hndBase 0 (goWord 2) s)
def execShrink (path : Path) (s : State) : Res := .next (put path hndBase 0 (goWord 3) s)
def execDestroy (path : Path) (s : State) : Res := .next (put path hndBase 0 (goWord 4) s)
def execQuery (path : Path) (s : State) : Res := .next (put path hndBase 0 (goWord 5) s)

/-- A go with a code that names no command (R229). -/
def hndInvalid (path : Path) (op : BitVec 3) (s : State) : State :=
  if hndNoCommand op.toNat then put path hndBase 0 (goWord op.toNat) s else s

def execHndCmdInvalid (path : Path) (op : BitVec 3) (s : State) : Res := .next (hndInvalid path op s)

/-! ### Operation queue commands (R377) and engines (R389) -/

/-- SUP_OPQ_CMD with go. -/
def opqGo (path : Path) (op : Nat) (s : State) : State := put path supBase 0x600 (goWord op) s

def execResume (path : Path) (s : State) : Res := .next (opqGo path 1 s)
def execCancel (path : Path) (s : State) : Res := .next (opqGo path 2 s)
def execCancelAll (path : Path) (s : State) : Res := .next (opqGo path 3 s)
def execOpqQuery (path : Path) (s : State) : Res := .next (opqGo path 4 s)

/-- A go with a code that names no queue command. -/
def opqInvalid (path : Path) (op : BitVec 3) (s : State) : State :=
  if op = 0 ∨ op.toNat ≥ 5 then opqGo path op.toNat s else s

def execOpqCmdInvalid (path : Path) (op : BitVec 3) (s : State) : Res := .next (opqInvalid path op s)
def execEngReload (path : Path) (e : EngId) (s : State) : Res :=
  .next (put path (engBase e.val) 0 (2 ||| shadow (engBase e.val) s.blk) s)

/-! ### CAL commands (R451) -/

/-- CAL_CMD with go. -/
def calStart (path : Path) (op target : Nat) (s : State) : State :=
  put path calBase 0 (word [(1, 0), (op, 1), (target, 8)]) s

/-- A calibration command of its row: it starts unless a command of its code runs already, and what it measures ends it. -/
def calRow (path : Path) (op target : Nat) (f : Block → Block) (s : State) : State :=
  let s := if s.blk.cal.busy && s.blk.cal.op.toNat == op then s else calStart path op target s
  s.upd (f s.blk)

def execCalTsvRecal (path : Path) (target : BitVec 5) (tries : List (Fin 36 × List (Attempt Byte))) (s : State) : Res :=
  .next (calRow path 1 target.toNat (calTsv tries) s)
def execCalBandgapCheck (path : Path) (devs : List (Attempt (BitVec 16))) (ivrFail : List Nat) (s : State) : Res :=
  .next (calRow path 2 0 (calBandgap devs ivrFail) s)
def execCalSensorCheck (path : Path) (drifts : List (Nat × BitVec 16)) (s : State) (late : List Nat := []) : Res :=
  .next (calRow path 3 0 (calSensor drifts late) s)
def execCalCmdInvalid (path : Path) (target : BitVec 5) (s : State) : Res := .next (calStart path 0 target.toNat s)

/-! ### OTP commands (R484 to R501) -/

/-- OTP_CMD with go. -/
def otpStart (path : Path) (op : Nat) (s : State) : State := put path otpBase 0 (goWord op) s

/-- A reading command of its row: it starts unless a command of its code runs already, and the reads end it. -/
def otpReadRow (path : Path) (op : BitVec 3) (f : Block → Block) (s : State) : State :=
  let s := if (otpReading s.blk op).isSome then s else otpStart path op.toNat s
  s.upd (f s.blk)

/-- A go with a code that names no OTP command (R491). -/
def otpInvalid (path : Path) (op : BitVec 3) (s : State) : State :=
  if op = 0 ∨ op = 6 ∨ op = 7 then otpStart path op.toNat s else s

def execOtpRead (path : Path) (reads : OtpReads) (s : State) : Res := .next (otpReadRow path 1 (otpReadDone reads) s)
def execOtpProgram (path : Path) (s : State) : Res := .next (otpStart path 2 s)
def execOtpLock (path : Path) (s : State) : Res := .next (otpStart path 3 s)
def execOtpLifecycle (path : Path) (s : State) : Res := .next (otpStart path 4 s)
def execOtpScan (path : Path) (reads : List OtpReads) (s : State) : Res := .next (otpReadRow path 5 (otpScanDone reads) s)
def execOtpCmdInvalid (path : Path) (op : BitVec 3) (s : State) : Res := .next (otpInvalid path op s)
def execOtpAbort (path : Path) (s : State) : Res := .next (put path otpBase 0 0x10 s)
def execOtpTokenWrite (path : Path) (k : Fin 8) (data : Word) (s : State) : Res :=
  .next (put path otpBase (0x60 + 4 * k.val) data s)
def execOtpSlockWrite (path : Path) (n : Fin 6) (data : Word) (s : State) : Res :=
  .next (put path otpBase (0x40 + 4 * n.val) data s)

/-! ### BIST (R503 to R511) -/

/-- A go of BST_CMD is the row of the test that BST_ARG names. -/
def bstRow (path : Path) (ok : Nat → Bool) (s : State) : State :=
  if ok (rwf (bstBase + 4) 15 8 s.blk) then put path bstBase 0 1 s else s

def execRefCheck (path : Path) (s : State) : Res := .next (bstRow path (· == 1) s)
def execLinkLoopback (path : Path) (s : State) : Res := .next (bstRow path (· == 2) s)
def execTsvSpare (path : Path) (s : State) : Res := .next (bstRow path (· == 3) s)
def execEccPath (path : Path) (s : State) : Res := .next (bstRow path (· == 4) s)
def execDramMarch (path : Path) (s : State) : Res := .next (bstRow path (· == 0x10) s)
def execTsvFull (path : Path) (s : State) : Res := .next (bstRow path (· == 0x11) s)
def execEngSram (path : Path) (s : State) : Res := .next (bstRow path (· == 0x12) s)
def execReplaySram (path : Path) (s : State) : Res := .next (bstRow path (· == 0x13) s)
def execBstInvalidTest (path : Path) (s : State) : Res := .next (bstRow path (fun t => !knownTest t) s)
def execBstAbort (path : Path) (lastDone : Bool) (s : State) : Res :=
  .next (pathWriteAt (some lastDone) path (BitVec.ofNat 32 bstBase) 2 15 s)

end Sys2Proof.Machine
end

