-- ==== Sys2Proof/Machine/RegRecord.lean ====
section
/-! DEFINITION. What arrives on a link and ends a power state: register records of REG slots (R193, R194, R209), executed and
answered in arrival order, requests, and descriptors. -/

namespace Sys2Proof.Machine

open Sys2Proof

/-- Bits [hi:lo] of a register record. -/
def recField (r : BitVec 128) (hi lo : Nat) : Nat := field r.toNat hi lo

def recType (r : BitVec 128) : Nat := recField r 3 0
def recAddr (r : BitVec 128) : Word := BitVec.ofNat 32 (recField r 63 32)
def recEn (r : BitVec 128) : Nat := recField r 29 22
def recLo (r : BitVec 128) : Word := BitVec.ofNat 32 (recField r 95 64)
def recHi (r : BitVec 128) : Word := BitVec.ofNat 32 (recField r 127 96)

/-- A response record: tag, byte enables and address are those of the request (DEDUCED); the low status may be known later. -/
def recResponse (ty : Nat) (lo hi : Option Status) (r : BitVec 128) (d0 d1 : Word) : BitVec 128 :=
  BitVec.ofNat 128 (ty + (lo.map Status.code).getD 0 <<< 4 + (hi.map Status.code).getD 0 <<< 8 + recField r 21 12 <<< 12
    + recEn r <<< 22 + (recAddr r).toNat <<< 32 + d0.toNat <<< 64 + d1.toNat <<< 96)

/-- A response of port `p` is sent in its turn (R209). -/
def reply (p : PortId) (r : BitVec 128) (gen : Nat) (b : Block) : Block :=
  if answering p gen b then
    { b with defers := b.defers ++ [{ otp := false, path := .link p, req := some (r, gen), known := true }] }
  else sendReg p r gen b

/-- A response whose low status the unit of the command register will bring. -/
def replyLater (p : PortId) (r : BitVec 128) (gen : Nat) (b : Block) : Block :=
  let otp := baseOf (recAddr r).toNat == otpBase
  { b with defers := b.defers ++ [{ otp := otp, path := .link p, req := some (r, gen) }] }

/-- Answer a record, or keep its answer until its low status is known; a command that restarts the stack leaves no link to
answer on. -/
def finishRec (p : PortId) (ty : Nat) (lo hi : Option Status) (r : BitVec 128) (d0 d1 : Word) (gen : Nat) (s : State) :
    State :=
  if s.blk.start.step < 5 then s else
  let a := recResponse ty lo hi r d0 d1
  let b := { s.blk with resp := lo.getD .ok }
  s.upd (if lo.isNone then replyLater p a gen b else reply p a gen b)

/-- READ32. -/
def recRead32 (p : PortId) (r : BitVec 128) (gen : Nat) (s : State) : State :=
  let x := readReg (.link p) (recAddr r) s.blk
  finishRec p 9 (some x.1) none r x.2.1 0 gen (s.upd x.2.2)

/-- WRITE32: a record that does not enable all four bytes is a narrow write (R194). -/
def recWrite32 (p : PortId) (r : BitVec 128) (gen : Nat) (s : State) : State :=
  let x := writeReg (.link p) none (recAddr r) (recLo r) (BitVec.ofNat 4 (recEn r)) s
  finishRec p 10 x.1 none r (recLo r) (recHi r) gen x.2

/-- A 64-bit access at an address that is no multiple of 8 is refused as unaligned (R194). -/
def recUnaligned (p : PortId) (ty : Nat) (r : BitVec 128) (d0 d1 : Word) (gen : Nat) (s : State) : State :=
  let s := s.upd (accessFault 1 (.link p) (recAddr r) s.blk)
  finishRec p ty (some .accessError) (some .accessError) r d0 d1 gen s

/-- READ64: two reads, low word first (R48). -/
def recRead64 (p : PortId) (r : BitVec 128) (gen : Nat) (s : State) : State :=
  let a := recAddr r
  if a.toNat % 8 ≠ 0 then recUnaligned p 9 r 0 0 gen s else
  let x := readReg (.link p) a s.blk
  let y := readReg (.link p) (a + 4) x.2.2
  finishRec p 9 (some x.1) (some y.1) r x.2.1 y.2.1 gen (s.upd y.2.2)

/-- WRITE64: two writes, low word first, each with its status; all eight bytes must be enabled (R194). -/
def recWrite64 (p : PortId) (r : BitVec 128) (gen : Nat) (s : State) : State :=
  let a := recAddr r
  if a.toNat % 8 ≠ 0 then recUnaligned p 10 r (recLo r) (recHi r) gen s else
  let be : BitVec 4 := if recEn r = 255 then 15 else 0
  let x := writeReg (.link p) none a (recLo r) be s
  let y := writeReg (.link p) none (a + 4) (recHi r) be x.2
  finishRec p 10 x.1 y.1 r (recLo r) (recHi r) gen y.2

/-- A type that no request has: BAD_ARG (R193), which gives the response no type and no data. -/
def recBad (p : PortId) (r : BitVec 128) (gen : Nat) (s : State) : State :=
  let x := draw s.blk
  let y := draw x.2
  let z := draw y.2
  finishRec p (9 + x.1.toNat % 2) (some .badArg) (some .ok) r y.1 z.1 gen (s.upd z.2)

/-- Execute a record. -/
def runRec (p : PortId) (r : BitVec 128) (gen : Nat) (s : State) : State :=
  let t := recType r
  if t = 1 then recRead32 p r gen s
  else if t = 2 then recWrite32 p r gen s
  else if t = 3 then recRead64 p r gen s
  else if t = 4 then recWrite64 p r gen s
  else recBad p r gen s

def isReg (r : BitVec 128) : RxItem → Bool
  | .reg r' _ => r' == r
  | _ => false

/-- Any register record. -/
def RxItem.isReg : RxItem → Bool
  | .reg .. => true
  | _ => false

/-- REGISTER_RECORD: in arrival order, and behind the fences of its port (R209, R210). A record of type 0 is no record. The
access returns its credit and ends a power state (R439). -/
def regRecord (p : PortId) (r : BitVec 128) (s : State) : State :=
  if recType r = 0 ∨ s.blk.start.step < 5 then s else
  let b := arrive p (isReg r) (acceptReg r) s.blk
  match takeItem (isReg r) [] b.ports[p].rxq with
  | some (ahead, .reg _ gen, rest) =>
    if fenced b.ports[p] ahead (field r.toNat 21 12 + 1024 * gen) none || ahead.any RxItem.isReg then s.upd b
    else
      let b := returnCredit p 2 1 gen (modPort p (fun x => { x with rxq := ahead ++ rest }) b)
      runRec p r gen (wakeBy (.link p) (recAddr r) (s.upd b))
  | _ => s.upd b

/-! ### Requests and descriptors -/

/-- A request or descriptor that waits, or arrives now, ends a power state, and is served after it (R439). -/
def wakeRow (p : PortId) (f : RxItem → Bool) (accept : Port → Except Nat Port) (s : State) : State :=
  if s.blk.pwr.state = 0 then s else
  let b := arrive p f (accept) s.blk
  if (takeItem f [] b.ports[p].rxq).isSome then exitPower (s.upd b) else s.upd b

/-- The same for a request entry. -/
def wakeEntry (p : PortId) (e mask : BitVec 64) (ok : Hdr → Bool) (s : State) : State :=
  if !ok (hdrOf e) then s else wakeRow p (isEntry e mask) (acceptReq e mask s.blk.now) s

def execRead (p : PortId) (entry : BitVec 64) (s : State) : Res :=
  .next (readRow p entry (wakeEntry p entry 0 (fun h => h.op == 1) s))
def execWrite (p : PortId) (entry : BitVec 64) (s : State) : Res :=
  .next (writeRow p entry (wakeEntry p entry 0 (fun h => h.op == 2) s))
def execWriteMasked (p : PortId) (entry mask : BitVec 64) (s : State) : Res :=
  .next (maskedRow p entry mask (wakeEntry p entry mask (fun h => h.op == 3) s))
def execFence (p : PortId) (entry : BitVec 64) (s : State) : Res :=
  .next (fenceRow p entry (wakeEntry p entry 0 (fun h => h.op == 4) s))
def execUndefinedOpcodeRequest (p : PortId) (entry : BitVec 64) (s : State) : Res :=
  .next (undefinedRow p entry (wakeEntry p entry 0 (fun h => h.op ≥ 5) s))
def execOperationDescriptor (p : PortId) (desc : BitVec 512) (s : State) : Res :=
  let s := wakeRow p (isOpd desc) (acceptOpd desc) s
  .next (s.upd (descRow p desc s.blk))
def execRegisterRecord (p : PortId) (rec_ : BitVec 128) (s : State) : Res := .next (regRecord p rec_ s)

end Sys2Proof.Machine
end

