-- ==== Sys2Proof/Machine/TwoWire.lean ====
section
/-! DEFINITION. The two-wire management port (R514 to R529): transactions, words, the packet error code and the bus faults. -/

namespace Sys2Proof.Machine

open Sys2Proof

/-- The port answers from step 5 of a start on (R516). -/
def twpServes (b : Block) : Bool := decide (b.start.step ≥ 5)

/-- PEC mode is in force (R521). -/
def pecMode (b : Block) : Bool := (rw twpBase b).getLsbD 0

/-- The stack takes bytes of a write transaction. -/
def twpTakes (b : Block) : Bool := b.twp.addressed && !b.twp.reading && !b.twp.nacking

/-- Bits of TWP_STAT, and TWP_ERR_CNT. -/
def twpFlag (i : Nat) (b : Block) : Block := rcSet (twpBase + 4) i b
def twpError (b : Block) : Block := ctrAdd (twpBase + 0x18) 1 b

/-- A partial pointer or word is discarded (R518). -/
def twpPartial (part : Bool) (b : Block) : Block :=
  if !part || !twpTakes b then b else
  let b := twpFlag 0 b
  if b.twp.ptrSet then regErr 5 b.twp.ptr b else b

/-- A START addresses the stack: a transaction begins unless one runs. -/
def twpBegin (addrByte : Byte) (b : Block) : Block :=
  let b := if b.twp.busy then b else ctrAdd (twpBase + 0x14) 1 b
  { b with twp := { b.twp with
      busy := true, addressed := true, reading := addrByte.getLsbD 0, ptrSet := false, pec := [addrByte], nacking := false
      acked := true, assembly := [], due := addrByte.getLsbD 0 } }

/-- The byte after a START: it addresses the stack unless a stretch has spent the transaction (R524). -/
def twpAddressed (addrByte : Byte) (b : Block) : Block :=
  let b := { b with twp := { b.twp with bus := true } }
  if addrByte.toNat / 2 = twpAddress b ∧ !b.twp.stretched then twpBegin addrByte b
  else { b with twp := { b.twp with addressed := false, acked := false, assembly := [], due := false } }

/-- TWP_START: a START or repeated START; in the middle of a byte it ends the transaction (R528). -/
def twpStart (addrByte : Byte) (part mid : Bool) (b : Block) : Block :=
  if !twpServes b then b else
  let b := twpPartial part (useRegs twpBase b)
  twpAddressed addrByte (if mid then twpEnd b else b)

/-- TWP_STOP: the transaction ends and the block commits (R53, R520). -/
def twpStop (part : Bool) (b : Block) : Block :=
  if !twpServes b then b else
  let b := twpEnd (twpPartial part b)
  commitPlain twpBase { b with twp := { b.twp with bus := false } }

/-- A PEC byte that does not match (R522). -/
def pecError (b : Block) : Block :=
  let b := twpError (twpFlag 4 b)
  { b with twp := { b.twp with nacking := true, acked := false, assembly := [] } }

/-- The PEC byte fits the bytes it covers. -/
def pecFits (bytes : List Byte) (pec : Byte) (b : Block) : Bool := !pecMode b || crc8 (b.twp.pec ++ bytes) == pec

/-- TWP_POINTER_SET. -/
def twpPointer (ptr : Word) (pec : Byte) (b : Block) : Block :=
  if !twpServes b || !twpTakes b || b.twp.ptrSet then b
  else if !pecFits (bytesOf 4 ptr) pec b then pecError b
  else { b with twp := { b.twp with ptr := ptr, ptrSet := true, pec := [], acked := true, assembly := bytesOf 4 ptr } }

/-- The word of a stretched write completes: after the end of its transaction it leaves err_seen's record as it is (R520, R524).
-/
def lateWord (a data : Word) (s : State) : State :=
  let old := s.blk.twp
  let s := pathWrite .twp a data (s.upd { s.blk with twp := { old with late := none, lateTx := false } })
  let t := s.blk.twp
  s.upd { s.blk with twp := { t with
    err := if old.lateTx then t.err else old.err, ptr := if t.ptr = a then a + 4 else t.ptr } }

/-- A word is written at the pointer, which then advances (R517). Its bytes are in the assembly register, and its last byte is
acknowledged, before the arbiter takes it (R524). -/
def wordAtPtr (data : Word) (s : State) : State :=
  let a := s.blk.twp.ptr
  let s := pathWrite .twp a data (s.upd { s.blk with twp := { s.blk.twp with acked := true, assembly := bytesOf 4 data } })
  if !twpServes s.blk then s else s.upd { s.blk with twp := { s.blk.twp with ptr := a + 4, pec := [] } }

/-- TWP_WORD_WRITE. -/
def twpWrite (data : Word) (pec : Byte) (s : State) : State :=
  let b := s.blk
  if !twpServes b then s else
  match b.twp.late with
  | some a => lateWord a data s
  | none =>
    if !twpTakes b || !b.twp.ptrSet then s
    else if !pecFits (bytesOf 4 data) pec b then s.upd (pecError b)
    else wordAtPtr data s

/-- TWP_WORD_READ: a full-word read (R519), followed by its PEC byte in PEC mode (R523). -/
def twpRead (s : State) : State :=
  let a := s.blk.twp.ptr
  if !twpServes s.blk || !s.blk.twp.addressed || !s.blk.twp.reading || s.blk.twp.nacking then s else
  let s := wakeBy .twp a s
  let r := readReg .twp a s.blk
  let b := respond .twp false r.1 a r.2.2
  let pec := if pecMode b then crc8 (b.twp.pec ++ bytesOf 4 r.2.1) else b.twp.pecOut
  s.upd { b with twp := { b.twp with word := r.2.1, pecOut := pec, ptr := a + 4, pec := [], acked := false, due := false } }

/-- TWP_STRETCH_LIMIT (R524): a read sends ones; a write word stays with the arbiter. -/
def stretchLimit (b : Block) : Block :=
  if !twpServes b || !b.twp.addressed || b.twp.nacking || (!b.twp.reading && !b.twp.ptrSet) then b else
  let b := twpFlag 5 b
  let t := b.twp
  { b with twp := { t with
      nacking := true, stretched := true, acked := false
      word := if t.reading then 0xFFFFFFFF else t.word
      late := if t.reading then t.late else some t.ptr, lateTx := !t.reading, due := false } }

/-- TWP_BUS_TIMEOUT (R525): the target state machine is reset, and the bus counts as idle. -/
def busTimeout (sda part : Bool) (b : Block) : Block :=
  if !twpServes b then b else
  let b := twpEnd (twpPartial part (twpError (twpFlag (if sda then 2 else 1) b)))
  let b := commitPlain twpBase { b with twp := { b.twp with bus := false } }
  raise (fs .twpTimeout) 0x5B (if sda then 2 else 1) [] b

/-- TWP_PROTOCOL_ERROR (R526): the transaction is aborted and the repeated START served. -/
def protocolError (addrByte : Byte) (part : Bool) (b : Block) : Block :=
  if !twpServes b || !b.twp.addressed then b
  else twpAddressed addrByte (twpEnd (twpPartial part (twpError (twpFlag 3 b))))

def execTwpStart (addrByte : Byte) (part mid : Bool) (s : State) : Res := .next (s.upd (twpStart addrByte part mid s.blk))
def execTwpStop (part : Bool) (s : State) : Res := .next (s.upd (twpStop part s.blk))
def execTwpPointerSet (ptr : Word) (pec : Byte) (s : State) : Res := .next (s.upd (twpPointer ptr pec s.blk))
def execTwpWordWrite (data : Word) (pec : Byte) (s : State) : Res := .next (twpWrite data pec s)
def execTwpWordRead (s : State) : Res := .next (twpRead s)
def execTwpStretchLimit (s : State) : Res := .next (s.upd (stretchLimit s.blk))
def execTwpBusTimeout (sda part : Bool) (s : State) : Res := .next (s.upd (busTimeout sda part s.blk))
def execTwpProtocolError (addrByte : Byte) (part : Bool) (s : State) : Res := .next (s.upd (protocolError addrByte part s.blk))

end Sys2Proof.Machine
end

