-- ==== Sys2Proof/Machine/Dispatch.lean ====
section
/-! DEFINITION. One arm for each command: the meaning that the command's rule gives it. -/

namespace Sys2Proof.Machine

open Sys2Proof

def exec (i : Instr) (s : State) : Host.Outcome State Fault Refusal :=
  match i with
  | .pwrokRise => Sys2Proof.Machine.execPwrokRise s
  | .pwrokFall => Sys2Proof.Machine.execPwrokFall s
  | .resetNFall lowNs => Sys2Proof.Machine.execResetNFall lowNs s
  | .resetNRise straps => Sys2Proof.Machine.execResetNRise straps s
  | .brownOutReset rail ns => Sys2Proof.Machine.execBrownOutReset rail ns s
  | .refclkProven => Sys2Proof.Machine.execRefclkProven s
  | .startStepLimitExpiry => Sys2Proof.Machine.execStartStepLimitExpiry s
  | .readyLimitExpiry => Sys2Proof.Machine.execReadyLimitExpiry s
  | .internalRestart => Sys2Proof.Machine.execInternalRestart s
  | .restartCommand path useStaged => Sys2Proof.Machine.execRestartCommand path useStaged s
  | .imageLoadStart path target => Sys2Proof.Machine.execImageLoadStart path target s
  | .imageLoadAbort path => Sys2Proof.Machine.execImageLoadAbort path s
  | .imageDataWrite path k data => Sys2Proof.Machine.execImageDataWrite path k data s
  | .imageVerifyDone => Sys2Proof.Machine.execImageVerifyDone s
  | .registerWrite path addr data be => Sys2Proof.Machine.execRegisterWrite path addr data be s
  | .counterClearWrite path addr data => Sys2Proof.Machine.execCounterClearWrite path addr data s
  | .idnRegOwnerWrite path data => Sys2Proof.Machine.execIdnRegOwnerWrite path data s
  | .forcedCommit path => Sys2Proof.Machine.execForcedCommit path s
  | .paritySweep live pend => Sys2Proof.Machine.execParitySweep live pend s
  | .linkDetectSense p term calFail => Sys2Proof.Machine.execLinkDetectSense p term calFail s
  | .trainBlockReceived p blk => Sys2Proof.Machine.execTrainBlockReceived p blk s
  | .markerBlockReceived p blk arrival farLocked => Sys2Proof.Machine.execMarkerBlockReceived p blk arrival farLocked s
  | .exchBlockReceived p blk sent => Sys2Proof.Machine.execExchBlockReceived p blk sent s
  | .trainingLimitExpiry p => Sys2Proof.Machine.execTrainingLimitExpiry p s
  | .recoverEntry p trigger calFail => Sys2Proof.Machine.execRecoverEntry p trigger s calFail
  | .lnkRetrain path p => Sys2Proof.Machine.execLnkRetrain path p s
  | .lnkReenable path p => Sys2Proof.Machine.execLnkReenable path p s
  | .idleEntryReceived p blk => Sys2Proof.Machine.execIdleEntryReceived p blk s
  | .fastExitBurst p dir => Sys2Proof.Machine.execFastExitBurst p dir s
  | .fastExitFail p => Sys2Proof.Machine.execFastExitFail p s
  | .patternEntry p cause errors => Sys2Proof.Machine.execPatternEntry p cause errors s
  | .patternExit p => Sys2Proof.Machine.execPatternExit p s
  | .flitReceive p wire obs => Sys2Proof.Machine.execFlitReceive p wire obs s
  | .flitTransmit p => Sys2Proof.Machine.execFlitTransmit p s
  | .nakTimerExpiry p => Sys2Proof.Machine.execNakTimerExpiry p s
  | .replayTimerExpiry p => Sys2Proof.Machine.execReplayTimerExpiry p s
  | .read p entry => Sys2Proof.Machine.execRead p entry s
  | .write p entry => Sys2Proof.Machine.execWrite p entry s
  | .writeMasked p entry mask => Sys2Proof.Machine.execWriteMasked p entry mask s
  | .fence p entry => Sys2Proof.Machine.execFence p entry s
  | .undefinedOpcodeRequest p entry => Sys2Proof.Machine.execUndefinedOpcodeRequest p entry s
  | .writeDataLine p tag line poison data => Sys2Proof.Machine.execWriteDataLine p tag line poison data s
  | .registerRecord p rec => Sys2Proof.Machine.execRegisterRecord p rec s
  | .segmentFillDone c raws => Sys2Proof.Machine.execSegmentFillDone c s raws
  | .schedulerCycle c raw => Sys2Proof.Machine.execSchedulerCycle c raw s
  | .dramReadReturn c err => Sys2Proof.Machine.execDramReadReturn c err s
  | .bankTimerExpiry c bank => Sys2Proof.Machine.execBankTimerExpiry c bank s
  | .refreshTick c => Sys2Proof.Machine.execRefreshTick c s
  | .perBankRefreshDue c bank => Sys2Proof.Machine.execPerBankRefreshDue c bank s
  | .forcedRefresh c bank => Sys2Proof.Machine.execForcedRefresh c bank s
  | .powerDownEntry c raws => Sys2Proof.Machine.execPowerDownEntry c raws s
  | .powerDownExit c => Sys2Proof.Machine.execPowerDownExit c s
  | .thermalSample results => Sys2Proof.Machine.execThermalSample results s
  | .thmTripAck path data => Sys2Proof.Machine.execThmTripAck path data s
  | .thmSuspectClr path k data => Sys2Proof.Machine.execThmSuspectClr path k data s
  | .thmLimitWrite path k data => Sys2Proof.Machine.execThmLimitWrite path k data s
  | .classEpoch => Sys2Proof.Machine.execClassEpoch s
  | .heatDecayEpoch => Sys2Proof.Machine.execHeatDecayEpoch s
  | .create path => Sys2Proof.Machine.execCreate path s
  | .grow path => Sys2Proof.Machine.execGrow path s
  | .shrink path => Sys2Proof.Machine.execShrink path s
  | .destroy path => Sys2Proof.Machine.execDestroy path s
  | .query path => Sys2Proof.Machine.execQuery path s
  | .hndCmdInvalid path op => Sys2Proof.Machine.execHndCmdInvalid path op s
  | .hndCommandFinish => Sys2Proof.Machine.execHndCommandFinish s
  | .hndDrainEnd => Sys2Proof.Machine.execHndDrainEnd s
  | .segQuery => Sys2Proof.Machine.execSegQuery s
  | .physQuery => Sys2Proof.Machine.execPhysQuery s
  | .migrate => Sys2Proof.Machine.execMigrate s
  | .abort => Sys2Proof.Machine.execAbort s
  | .retire => Sys2Proof.Machine.execRetire s
  | .srlCmdInvalid op => Sys2Proof.Machine.execSrlCmdInvalid op s
  | .migrationStart => Sys2Proof.Machine.execMigrationStart s
  | .copyDone src errs => Sys2Proof.Machine.execCopyDone src errs s
  | .commit src => Sys2Proof.Machine.execCommit src s
  | .release src => Sys2Proof.Machine.execRelease src s
  | .dillRead c err => Sys2Proof.Machine.execDillRead c err s
  | .scrubVerify c err => Sys2Proof.Machine.execScrubVerify c err s
  | .softRowRepairDone c errs => Sys2Proof.Machine.execSoftRowRepairDone c s errs
  | .sramScrub word uncorrectable => Sys2Proof.Machine.execSramScrub word uncorrectable s
  | .bitmapRebuildDone w => Sys2Proof.Machine.execBitmapRebuildDone w s
  | .protBitmapRebuildDone w => Sys2Proof.Machine.execProtBitmapRebuildDone w s
  | .operationDescriptor p desc => Sys2Proof.Machine.execOperationDescriptor p desc s
  | .descriptorStart handle => Sys2Proof.Machine.execDescriptorStart handle s
  | .pieceEnd desc piece errs => Sys2Proof.Machine.execPieceEnd desc piece errs s
  | .leadFoldDone desc => Sys2Proof.Machine.execLeadFoldDone desc s
  | .resume path => Sys2Proof.Machine.execResume path s
  | .cancel path => Sys2Proof.Machine.execCancel path s
  | .cancelAll path => Sys2Proof.Machine.execCancelAll path s
  | .opqQuery path => Sys2Proof.Machine.execOpqQuery path s
  | .opqCmdInvalid path op => Sys2Proof.Machine.execOpqCmdInvalid path op s
  | .completionAccept desc => Sys2Proof.Machine.execCompletionAccept desc s
  | .completionSend => Sys2Proof.Machine.execCompletionSend s
  | .engineEvent e ctx ev => Sys2Proof.Machine.execEngineEvent e ctx ev s
  | .contextWatchdogExpiry e ctx => Sys2Proof.Machine.execContextWatchdogExpiry e ctx s
  | .engineReloadDone e => Sys2Proof.Machine.execEngineReloadDone e s
  | .engReload path e => Sys2Proof.Machine.execEngReload path e s
  | .engHaltCommit e => Sys2Proof.Machine.execEngHaltCommit e s
  | .refclkLoss count => Sys2Proof.Machine.execRefclkLoss count s
  | .pllLockLoss pll => Sys2Proof.Machine.execPllLockLoss pll s
  | .opStep => Sys2Proof.Machine.execOpStep s
  | .ratioModeChange => Sys2Proof.Machine.execRatioModeChange s
  | .clkSrcCommit => Sys2Proof.Machine.execClkSrcCommit s
  | .clkenRunCommit busy => Sys2Proof.Machine.execClkenRunCommit busy s
  | .powerStateEntry busy => Sys2Proof.Machine.execPowerStateEntry busy s
  | .powerStateExit cause ivrFail => Sys2Proof.Machine.execPowerStateExit cause s ivrFail
  | .pwrWake path => Sys2Proof.Machine.execPwrWake path s
  | .bandgapCheck devs => Sys2Proof.Machine.execBandgapCheck devs s
  | .sensorOffsetCheck drifts late => Sys2Proof.Machine.execSensorOffsetCheck drifts s late
  | .tsvCentringStep c group tries => Sys2Proof.Machine.execTsvCentringStep c group tries s
  | .agingMeasure s0 s1 s2 s3 => Sys2Proof.Machine.execAgingMeasure s0 s1 s2 s3 s
  | .calTsvRecal path target tries => Sys2Proof.Machine.execCalTsvRecal path target tries s
  | .calBandgapCheck path devs ivrFail => Sys2Proof.Machine.execCalBandgapCheck path devs ivrFail s
  | .calSensorCheck path drifts late => Sys2Proof.Machine.execCalSensorCheck path drifts s late
  | .calCmdInvalid path target => Sys2Proof.Machine.execCalCmdInvalid path target s
  | .faultRaise source unit detail => Sys2Proof.Machine.execFaultRaise source unit detail s
  | .escalationTimerExpiry source => Sys2Proof.Machine.execEscalationTimerExpiry source s
  | .sageClear path all source => Sys2Proof.Machine.execSageClear path all source s
  | .sageInject path source => Sys2Proof.Machine.execSageInject path source s
  | .sageSelfFault => Sys2Proof.Machine.execSageSelfFault s
  | .stallWatchdogExpiry sender receiver => Sys2Proof.Machine.execStallWatchdogExpiry sender receiver s
  | .supervisorWatchdogExpiry pc => Sys2Proof.Machine.execSupervisorWatchdogExpiry pc s
  | .lockstepMismatch memUe pc => Sys2Proof.Machine.execLockstepMismatch memUe pc s
  | .otpRead path reads => Sys2Proof.Machine.execOtpRead path reads s
  | .otpProgram path => Sys2Proof.Machine.execOtpProgram path s
  | .otpLock path => Sys2Proof.Machine.execOtpLock path s
  | .otpLifecycle path => Sys2Proof.Machine.execOtpLifecycle path s
  | .otpScan path reads => Sys2Proof.Machine.execOtpScan path reads s
  | .otpCmdInvalid path op => Sys2Proof.Machine.execOtpCmdInvalid path op s
  | .otpAbort path => Sys2Proof.Machine.execOtpAbort path s
  | .otpTokenWrite path k data => Sys2Proof.Machine.execOtpTokenWrite path k data s
  | .otpPulseDone missed weak spurious faint => Sys2Proof.Machine.execOtpPulseDone missed weak spurious s faint
  | .otpSlockWrite path n data => Sys2Proof.Machine.execOtpSlockWrite path n data s
  | .refCheck path => Sys2Proof.Machine.execRefCheck path s
  | .linkLoopback path => Sys2Proof.Machine.execLinkLoopback path s
  | .tsvSpare path => Sys2Proof.Machine.execTsvSpare path s
  | .eccPath path => Sys2Proof.Machine.execEccPath path s
  | .dramMarch path => Sys2Proof.Machine.execDramMarch path s
  | .tsvFull path => Sys2Proof.Machine.execTsvFull path s
  | .engSram path => Sys2Proof.Machine.execEngSram path s
  | .replaySram path => Sys2Proof.Machine.execReplaySram path s
  | .bstInvalidTest path => Sys2Proof.Machine.execBstInvalidTest path s
  | .bstAbort path lastDone => Sys2Proof.Machine.execBstAbort path lastDone s
  | .bstRunEnd results us calFail margins spares => Sys2Proof.Machine.execBstRunEnd results us calFail s margins spares
  | .twpStart addrByte part mid => Sys2Proof.Machine.execTwpStart addrByte part mid s
  | .twpStop part => Sys2Proof.Machine.execTwpStop part s
  | .twpPointerSet ptr pec => Sys2Proof.Machine.execTwpPointerSet ptr pec s
  | .twpWordWrite data pec => Sys2Proof.Machine.execTwpWordWrite data pec s
  | .twpWordRead => Sys2Proof.Machine.execTwpWordRead s
  | .twpStretchLimit => Sys2Proof.Machine.execTwpStretchLimit s
  | .twpBusTimeout sda part => Sys2Proof.Machine.execTwpBusTimeout sda part s
  | .twpProtocolError addrByte part => Sys2Proof.Machine.execTwpProtocolError addrByte part s
  | .startStepDone obs => Sys2Proof.Machine.execStartStepDone obs s
  | .rxLaneEqualized p q => Sys2Proof.Machine.execRxLaneEqualized p q s
  | .eqLaneTimeout p lane => Sys2Proof.Machine.execEqLaneTimeout p lane s
  | .laneCheckEnd p errors => Sys2Proof.Machine.execLaneCheckEnd p errors s
  | .pllLockAcquired pll => Sys2Proof.Machine.execPllLockAcquired pll s
  | .sequencerStepEnd ivrFail => Sys2Proof.Machine.execSequencerStepEnd s ivrFail
  | .refclkMonitorWindow count ioscDev => Sys2Proof.Machine.execRefclkMonitorWindow count ioscDev s
  | .otpChecksDone => Sys2Proof.Machine.execOtpChecksDone s

end Sys2Proof.Machine
end

