-- ==== Sys2Proof/Machine/Tick.lean ====
section
/-! DEFINITION. The passing of time: one 10 ns tick of STACK_TIME. -/

namespace Sys2Proof.Machine

open Sys2Proof

/-- One tick of STACK_TIME (R9, R25): it counts while the stack is out of reset, and a tick counted from IOSC sets
IDN_TIME_STAT.iosc_seen (R64). -/
def tick (b : Block) : Block :=
  if b.start.step = 0 then b else
  let b := { b with time := b.time + 1 }
  if b.iosc then rcSet 0x20 1 b else b

/-- An empty queue: time passes, lookups whose hold has ended go on, fences whose wait has ended complete (R210), a forced commit
goes on (R55), the PLLs change in their turns (R426), and blocks that have come to take writes at once commit what waits (R53). -/
def idleTick (s : State) : State :=
  let s := hopsNow (settle (s.upd (tick s.blk)))
  s.upd (commitIdle (forcedGo (recheckFences s.blk)))

end Sys2Proof.Machine
end

