-- ==== Sys2Proof/Machine/Blocks.lean ====
section
/-! DEFINITION. What the stack's transmit lanes carry (chapter 6): the blocks it forms, the pattern generators, the fast-exit burst
and the flit, by the state of the port. -/

namespace Sys2Proof.Machine

open Sys2Proof

/-! ### Blocks (R151, R152, R154) -/

/-- A block from its type, lane, port, rate code and body: sync, format version 1, and the check word over bytes 0 to 15 (R151).
-/
def mkBlock (ty lane : Nat) (p : PortId) (rate : BitVec 4) (body : List Nat) : BitVec 144 :=
  let bytes := (([0x5A, 0xC3, ty, lane, p.val + 16, rate.toNat] ++ body ++ List.replicate 10 0).take 16).map (BitVec.ofNat 8)
  BitVec.ofNat 144 (natOfBytes bytes + (crc16 bytes).toNat <<< 128)

/-- The body of a TRAIN block that answers for a receive lane: its requests, eq_done and lane_fail, which a failed lane keeps
(R152, R160). -/
def trainBody (failed : Bool) (l : Lane) : List Nat :=
  [l.askPreset, l.askPre + 4 * l.askPost, b2n l.eqDone + 2 * b2n (l.laneFail || failed)]

/-- The body of a MARKER block: its count. -/
def markerBody (count : Nat) : List Nat := [count % 256, count / 256 % 256]

/-- The body of an EXCH block: features 0x0F, the lane use of the receive direction, ack, and protocol version 1 (R154, R161). -/
def exchSent (x : Port) : List Nat :=
  let f := x.failRx.toNat
  [0x0F, x.spareRx.toNat + x.widthRx.toNat <<< 5 + b2n x.exAck <<< 7, f % 256, f / 256 % 256, f / 65536, 1]

/-! ### Patterns (R174) -/

/-- Degree and second tap of the polynomial of LNK_PRBS.pattern: x^n + x^m + 1. -/
def prbsPoly (code : BitVec 2) : Nat × Nat :=
  match code.toNat with
  | 0 => (7, 6)
  | 1 => (15, 14)
  | 2 => (23, 18)
  | _ => (31, 28)

/-- One bit of a pattern from the bits sent before it, the latest first, as the polynomial of R174 gives it. The spec names O.150 and
does not say whether a pattern is sent inverted: none is (DESIGN CHOICE, log entry 118). -/
def prbsNext (code : BitVec 2) (sent : List Bool) : Bool :=
  let q := prbsPoly code
  xor (sent.getD (q.1 - 1) false) (sent.getD (q.2 - 1) false)

/-- The bits before a generator's first: its seed, from the lane number. -/
def prbsStart (code : BitVec 2) (lane : Nat) : List Bool :=
  (List.range (prbsPoly code).1).map fun i => (Config.prbsSeed code.toNat lane).getLsbD i

/-- `n` bits of a pattern after those in `sent`, the latest first. -/
def prbsRun (code : BitVec 2) : Nat → List Bool → List Bool
  | 0, sent => sent
  | n + 1, sent => prbsRun code n (prbsNext code sent :: sent)

/-- The bits that a lane sends in its block time `n` of a pattern, in the order sent: the generator runs through every block time
(DESIGN CHOICE, log entry 110). -/
def prbsBits (code : BitVec 2) (lane n : Nat) : List Bool :=
  ((prbsRun code (144 * (n + 1)) (prbsStart code lane)).take 144).reverse

/-- A pattern receiver (R174): the bits of its register, the latest first, and how many bits in a row were right. At 32 it runs on
its own bits and counts every wrong one. -/
structure PrbsRx where
  hist : List Bool := []
  run : Nat := 0
  errors : Nat := 0
deriving DecidableEq, Repr

/-- One received bit. -/
def prbsTake (code : BitVec 2) (r : PrbsRx) (bit : Bool) : PrbsRx :=
  let want := prbsNext code r.hist
  if r.run ≥ 32 then { r with hist := (want :: r.hist).take 31, errors := r.errors + b2n (bit != want) }
  else { r with hist := (bit :: r.hist).take 31
                run := if r.hist.length ≥ (prbsPoly code).1 && bit == want then r.run + 1 else 0 }

/-- The errors that a receiver counts in a run of bits, in the order received. -/
def prbsErrors (code : BitVec 2) (bits : List Bool) : Nat := (bits.foldl (prbsTake code) {}).errors

/-! ### The lanes -/

/-- What a transmit lane carries in one block time, or in the flit or burst that is on it. -/
inductive LaneTx where
  | idle
  | block (k : BitVec 144)
  | bits (l : List Bool)
  | flit (bytes : List Byte)
deriving DecidableEq, Repr

/-- The fast-exit burst (R172): 896 UI of alternating ones and zeros, then 0xF00F 8 times, least significant bit first. -/
def exitBurst : List Bool :=
  (List.range 896).map (fun i => i % 2 == 0) ++ (List.range 128).map fun i => (0xF00F).testBit (i % 16)

/-- The bytes of the flit on the wire that a logical lane carries, in order (R149). -/
def laneBytes (x : Port) (l : Nat) : List Byte :=
  ((List.range 360).filter fun j => j % lanesOf x.widthTx == l).map fun j => BitVec.ofNat 8 (byteOf x.wireTx j)

/-- The logical lane that a physical transmit lane carries on the map in force; `none` for a lane not in use. -/
def carries (b : Block) (p : PortId) (i : Nat) : Option Nat := (List.range 20).find? fun l => txLane b p l == some i

/-- The logical number of a physical transmit lane before the map of R161: 20 for the spare. -/
def ownLane (b : Block) (p : PortId) (i : Nat) : Nat := ((List.range 21).find? fun l => laneMap b p true l == i).getD i

/-- A TRAIN block and 31 blocks of PRBS31, repeated (R155). The block on a transmit lane speaks for the receive lane of the same
logical number, which the image's map may place elsewhere (R115). -/
def trainOut (b : Block) (p : PortId) (i : Fin 21) (n : Nat) : LaneTx :=
  let l := ownLane b p i.val
  let r := laneIx (laneMap b p false l)
  if n % 32 = 0 then .block (mkBlock 1 l p b.ports[p].rate (trainBody (b.ports[p].failRx.getLsbD r.val) b.ports[p].lanes[r]))
  else .bits (prbsBits 3 l n)

/-- A MARKER block every 16th block and PRBS31 between (R155). -/
def lockOut (b : Block) (p : PortId) (i : Nat) (n : Nat) : LaneTx :=
  let l := ownLane b p i
  if n % 16 = 0 then .block (mkBlock 2 l p b.ports[p].rate (markerBody (n / 16)))
  else .bits (prbsBits 3 l n)

/-- A block of type `ty` on a lane in use. -/
def usedOut (b : Block) (p : PortId) (i ty : Nat) (body : List Nat) : LaneTx :=
  match carries b p i with
  | some l => .block (mkBlock ty l p b.ports[p].rate body)
  | none => .idle

/-- The transmit map of EXCHANGE is the far end's to state: every unfailed lane sends. -/
def exchOut (b : Block) (p : PortId) (i : Nat) : LaneTx :=
  if b.ports[p].failTx.getLsbD i then .idle
  else .block (mkBlock 3 (ownLane b p i) p b.ports[p].rate (exchSent b.ports[p]))

/-- IDLE_ENTRY on the lanes that were in use when the port entered DISABLED or DETECT (R170). -/
def byeOut (b : Block) (p : PortId) (i : Nat) : LaneTx :=
  let x := b.ports[p]
  match (List.range 20).find? fun l => laneAt b p true x.farFailed x.outWidth x.outSpare l == some i with
  | some l => .block (mkBlock 4 l p x.rate [])
  | none => .idle

/-- What RECOVER sends in each of its steps (R155, R166, R167); failed lanes are left out. -/
def recoverOut (b : Block) (p : PortId) (i : Fin 21) (n : Nat) : LaneTx :=
  match b.ports[p].rstep with
  | .blocks => usedOut b p i.val 5 []
  | .train => if b.ports[p].failTx.getLsbD i.val then .idle else trainOut b p i n
  | .laneCheck => if b.ports[p].failTx.getLsbD i.val then .idle else .bits (prbsBits 3 (ownLane b p i.val) n)
  | .lock => if b.ports[p].failTx.getLsbD i.val then .idle else lockOut b p i.val n
  | .exchange => exchOut b p i.val

/-- A lane of a port that sends flits: the burst of a fast exit first, PRBS31 on an unused spare (R176), the lane's bytes of the
flit. -/
def flitOut (b : Block) (p : PortId) (i : Nat) (n : Nat) : LaneTx :=
  match carries b p i with
  | some l => if b.ports[p].burst then .bits exitBurst else .flit (laneBytes b.ports[p] l)
  | none =>
    if ownLane b p i = 20 ∧ rwf (lnkBase p.val + 4) 3 3 b = 1 then .bits (prbsBits 3 20 n) else .idle

/-- What physical transmit lane `i` of a port carries `n` block times after the port entered its state, or its step of RECOVER
(R155): in PATTERN 64 PATTERN blocks come first, unless the far end's have led there (R175), in electrical idle one IDLE_ENTRY
block on the lanes that were in use (R170). -/
def laneSends (b : Block) (p : PortId) (i : Fin 21) (n : Nat) : LaneTx :=
  let x := b.ports[p]
  match x.st with
  | .disabled | .detect => if n = 0 then byeOut b p i.val else .idle
  | .train => if x.failTx.getLsbD i.val then .idle else trainOut b p i n
  | .lock => if x.failTx.getLsbD i.val then .idle else lockOut b p i.val n
  | .exchange => exchOut b p i.val
  | .active => flitOut b p i.val n
  | .recover => recoverOut b p i n
  | .idle => if x.idleTx then (if n = 0 then usedOut b p i.val 4 [] else .idle) else flitOut b p i.val n
  | .pattern =>
    let first := if x.patFar then 0 else 64
    if n < first then .block (mkBlock 6 (ownLane b p i.val) p x.rate [x.pattern.toNat])
    else .bits (prbsBits x.pattern (ownLane b p i.val) (n - first))

end Sys2Proof.Machine
end

