-- ==== Sys2Proof/Machine/Pins.lean ====
section
/-! DEFINITION. The sideband outputs (R72, R73): what the stack drives on them in a state, between two commands. The three-state
and open-drain outputs are released while PWROK is low. -/

namespace Sys2Proof.Machine

open Sys2Proof

/-- TDO is driven only in Shift-DR and Shift-IR (R72). -/
def tdoDriven (b : Block) : Bool := b.start.pwrok && (b.tap == .shiftDr || b.tap == .shiftIr)

/-- SCL is driven low: the port stretches while it fetches the word that is due and while a write word of the transaction waits
with the arbiter, up to the limit of 2 ms (R524). -/
def sclLow (b : Block) : Bool :=
  b.start.pwrok && twpServes b && b.twp.addressed && !b.twp.stretched && (b.twp.due || b.defers.any fun d => d.word && d.inTx)

/-- SDA is driven low: the acknowledge bit of the byte that ended last (R515). -/
def sdaLow (b : Block) : Bool := b.start.pwrok && twpServes b && b.twp.addressed && b.twp.acked

/-- ALERT_N is driven low (R458). -/
def alertLow (b : Block) : Bool := b.start.pwrok && alertN b

/-- THERMTRIP_N is driven low (R410). -/
def thermtripLow (b : Block) : Bool := b.start.pwrok && b.thm.tripPin

end Sys2Proof.Machine
end

