-- ==== Sys2Proof/Safety.lean ====
section
/-! DEFINITION. The terms that statements about the stack use: when a path's write reaches the registers, when the stack serves
data, and the invariant that every step keeps. -/

namespace Sys2Proof.Machine

open Sys2Proof

/-- A whole-word write over `path` reaches the register file now: the path serves registers (R90, R516), no power state is to be
left first (R439), the safe state does not refuse it (R470), and neither does IDN_REG_OWNER (R50); every live register has right
parity, so that no use of one raises FS_CFG_PARITY (R57). -/
def takesWrites (path : Path) (s : State) : Prop :=
  pathOpen s.blk path = true ∧ s.blk.pwr.state = 0 ∧ s.blk.sage.safe = false ∧ ownerRefuses path s.blk = false
    ∧ s.blk.regs.badPar = []

/-- READY, outside both safe states (R94, R412, R470). -/
def inService (b : Block) : Prop :=
  b.start.done = true ∧ b.start.chive = false ∧ b.thm.safe = false ∧ b.sage.safe = false

/-- `s` with the status `st` answered over `path` for a write of the register at `addr` (R193, R520). -/
def answered (path : Path) (addr : Nat) (st : Status) (s : State) : State :=
  s.upd (respond path true st (BitVec.ofNat 32 addr) s.blk)

/-- The start of `s` has failed with a reason (R97): it is recorded with the stage, and the attempt counts up to 3. -/
def startFailed (reason : BitVec 4) (s t : State) : Prop :=
  t.blk.start.failed = true ∧ t.blk.start.reason = reason ∧ t.blk.start.lastFail = s.blk.start.stage
    ∧ t.blk.start.attempts.toNat = min 3 (s.blk.start.attempts.toNat + 1) ∧ t.mem = s.mem ∧ t.pending = s.pending

/-- The step changed port `p` alone: every other unit, register and port, DRAM and the queue are as before. -/
def onlyPort (p : PortId) (s t : State) : Prop :=
  t.blk = { s.blk with ports := t.blk.ports } ∧ (∀ q, q ≠ p → t.blk.ports[q] = s.blk.ports[q])
    ∧ t.mem = s.mem ∧ t.pending = s.pending

/-- The step changed channel `c` alone. -/
def onlyChan (c : ChanId) (s t : State) : Prop :=
  t.blk = { s.blk with chans := t.blk.chans } ∧ (∀ d, d ≠ c → t.blk.chans[d] = s.blk.chans[d])
    ∧ t.mem = s.mem ∧ t.pending = s.pending

/-- Port `p` carries on as before but for the event records and the numbers that they take. -/
def samePort (x y : Port) : Prop := y = { x with txEv := y.txEv, evtSeq := y.evtSeq }

/-- One accepted item waits in the receive buffers of port `p`, which holds no fence and no pending write, and no power state is to
be left first (R439). -/
def waitsAlone (p : PortId) (i : RxItem) (s : State) : Prop :=
  s.blk.pwr.state = 0 ∧ s.blk.ports[p].rxq = [i] ∧ s.blk.ports[p].fences = [] ∧ s.blk.ports[p].writes = [] ∧ s.blk.ports[p].st ≠ .disabled

/-- Bank `k`'s machine takes event `ev` now: the entry of its state is valid, unguarded and no fault, runs action `act`, and
nothing it held is to be examined after it (R137 to R139). -/
def bankTakes (c : ChanId) (k ev act : Nat) (s : State) : Prop :=
  (s.blk.chans[c].bank k).stopped = false ∧ (s.blk.chans[c].bank k).heldEv = [] ∧ s.blk.chans[c].st ≠ .offline
    ∧ entValid (bankEntry s.blk c.val k ev) = true ∧ entGuard (bankEntry s.blk c.val k ev) = 0
    ∧ entFault (bankEntry s.blk c.val k ev) = false ∧ entAction (bankEntry s.blk c.val k ev) = act

/-- A raise of `src` now is a new one: the source is not pending, and nothing was raised in this tick (R456, R457). -/
def freshSource (src : Nat) (b : Block) : Prop := b.sage.pend.getLsbD src = false ∧ b.sage.tick ≠ b.now

/-- Sage holds a raise of `src` that `s` did not: it is pending with its unit and detail word, and SAGE_FAULT_CNT has counted it
(R456). -/
def recorded (src unit : Nat) (detail : Word) (s t : State) : Prop :=
  t.blk.sage.pend = bset s.blk.sage.pend src
    ∧ mget t.blk.sage.info src none = some { unit := BitVec.ofNat 8 unit, detail := detail }
    ∧ (ctr (sageBase + 0x1C) t.blk).toNat = min ctrMax ((ctr (sageBase + 0x1C) s.blk).toNat + 1)
    ∧ t.mem = s.mem ∧ t.pending = s.pending

/-- The safe state (R469, R470): entered, with the supervisor held, ports 1 to 15 DISABLED and port 0 in DETECT. -/
def safeEntered (t : State) : Prop :=
  t.blk.sage.safe = true ∧ t.blk.start.supHeld = true ∧ t.blk.sage.timers = []
    ∧ ∀ p : PortId, t.blk.ports[p].st = if p.val = 0 then .detect else .disabled

/-- Nothing waits for a lookup that is held: no pending write on any port, and no descriptor. -/
def noWaiters (s : State) : Prop := s.blk.ops.descs = [] ∧ ∀ p : PortId, s.blk.ports[p].writes = []

/-- The engine of channel `c` has nothing to do in a cycle of its channel: no line has been served for a unit of the stack, no row
is under soft repair, no migration is copied from the channel and no context runs a piece. -/
def unitsRest (c : ChanId) (s : State) : Prop :=
  s.blk.chans[c].served = [] ∧ s.blk.chans[c].softRun = none ∧ copyOf s.blk c.val = none
    ∧ ∀ (k : Fin 6) (d i : Nat), s.blk.engs[c].ctx[k].work ≠ .piece d i

/-- Nothing is held back anywhere: no lookup, no fence, no register write and no forced commit waits, and no PLL has still to change
its rate. -/
def quietStack (s : State) : Prop :=
  noWaiters s ∧ s.blk.clk.hops = [] ∧ (∀ p : PortId, s.blk.ports[p].fences = []) ∧ s.blk.regs.pend = [] ∧ s.blk.regs.forced = []

/-- DRAM is held in its canonical form: addresses rise, and no listed byte is the value of an unlisted one. -/
def Inv (s : State) : Prop := Memory.wf s.mem = true

end Sys2Proof.Machine
end

