-- ==== Sys2Proof/Certificates/Slice0/Obligations.lean ====
section
/-! DEFINITION. The statements for the provers. -/

open Sys2Proof Sys2Proof.Machine

/-! ### The queue, time and DRAM -/

/-- A step runs the command at the front of the queue on the queue's rest. -/
def Obligations.StepRunsFrontCommand : Prop :=
  ∀ (c : Instr) (rest : List Instr) (s : State), s.pending = c :: rest → step s = exec c { s with pending := rest }

/-- On an empty queue, with nothing held back anywhere, a step is one tick of STACK_TIME (the model's choice, log entry 2):
outside reset the time grows by one and a tick counted from IOSC sets IDN_TIME_STAT.iosc_seen; in reset nothing changes. -/
def Obligations.IdleTickCountsTime : Prop :=
  ∀ s : State, s.pending = [] → quietStack s →
    (s.blk.start.step = 0 → step s = .next s) ∧
    (s.blk.start.step ≠ 0 → s.blk.iosc = false → step s = .next (s.upd { s.blk with time := s.blk.time + 1 })) ∧
    (s.blk.start.step ≠ 0 → s.blk.iosc = true →
      ∃ t, step s = .next t ∧ t = s.upd { s.blk with time := s.blk.time + 1, regs := t.blk.regs }
        ∧ t.blk.regs = { s.blk.regs with rc := t.blk.regs.rc } ∧ (rcGet 0x20 t.blk).getLsbD 1 = true)

/-- Every step keeps DRAM in its canonical form. -/
def Obligations.MemoryCanonicalKept : Prop :=
  ∀ s t : State, Inv s → step s = .next t → Inv t

/-- The state after power-on reset holds DRAM in its canonical form, with nothing listed and no command waiting. PWROK low
clears the stack, its always-on record included (R78, R83): the RW fields read the reset values of their register tables,
counters and STACK_TIME are 0, no write waits, and nothing is left of ports, handles, map, queues and faults. The test logic is
held in Test-Logic-Reset (R74), and no three-state or open-drain output is driven (R73). PWROK high releases the power-on reset
and changes nothing else (R77). -/
def Obligations.PowerOnReset : Prop :=
  (Inv State.reset ∧ State.reset.mem = [] ∧ State.reset.pending = []) ∧
  ((∀ s : State, ∃ t, exec .pwrokFall s = .next t ∧ t.blk.start.pwrok = false ∧ t.blk.start.step = 0
    ∧ t.blk.time = 0 ∧ t.blk.ports = Vector.replicate 16 {} ∧ t.blk.hnd = {} ∧ t.blk.srl = {} ∧ t.blk.ops = {}
    ∧ t.blk.sage = {} ∧ t.blk.start.attempts = 0 ∧ t.blk.start.reason = 0 ∧ t.blk.regs.pend = []
    ∧ (∀ a, ctr a t.blk = 0)
    ∧ t.blk.tap = .testLogicReset ∧ tdoDriven t.blk = false ∧ sclLow t.blk = false ∧ sdaLow t.blk = false
    ∧ alertLow t.blk = false ∧ thermtripLow t.blk = false
    ∧ ∀ r ∈ [(0x2004, 1), (0x2008, 7), (0x2018, 0x403), (0x2020, 0x3FFF), (0x2024, 0xFF), (0x3000, 4), (0x3018, 0x14),
        (0x4010, 0x58000300), (0x4024, 0x78000A00), (0x8004, 0x01903302), (0x10004, 0x084E), (0x1001C, 0xC),
        (0x30020, 0x641E), (0x3002C, 0x00100355), (0x38000, 0x000107D0), (0x3801C, 0x001F0028), (0x40004, 0x00300010),
        (0x40100, 0x11801), (0x60010, 0x32), (0x80008, 4)],
      rw r.1 t.blk = BitVec.ofNat 32 r.2) ∧
  (∀ s : State, s.blk.start.pwrok = false →
    exec .pwrokRise s = .next (s.upd { s.blk with start := { s.blk.start with pwrok := true, brown := false } })))

/-- Whatever a command does, the commands that wait behind it stay as they are. -/
def Obligations.CommandsKeepQueue : Prop :=
  ∀ (c : Instr) (s t : State), exec c s = .next t → t.pending = s.pending

/-- A stored line of DRAM reads back as it was stored, and every byte outside its 72 bytes reads as before. -/
def Obligations.StoredLineReadsBack : Prop :=
  ∀ (m : List Host.Cell) (c a : Nat) (v : Stored), Memory.wf m = true →
    dramGet (dramSet m c a v) c a = v
      ∧ ∀ k : Nat, ¬ (lineAddr c a ≤ k ∧ k < lineAddr c a + 72) → memGet (dramSet m c a v) k = memGet m k

/-! ### Resets and the start -/

/-- A RESET_N low pulse of 100 ns or more resets the stack and keeps the always-on record; a shorter one changes nothing (R85).
A brown-out longer than 1 µs clears that record too, leaves Sorrel's map empty, and of VPP, VDDC or VIN holds the stack until
PWROK falls and rises (R76). The rising edge of RESET_N samples the straps and begins the start with STACK_TIME at 0 (R86). -/
def Obligations.ResetAndBrownOut : Prop :=
  (∀ (n : Nat) (s : State), n < 100 → exec (.resetNFall n) s = .next s) ∧
  (∀ (n : Nat) (s : State), 100 ≤ n → ∃ t, exec (.resetNFall n) s = .next t ∧ t.mem = s.mem ∧ t.blk.start.step = 0
    ∧ t.blk.start.resetN = false ∧ t.blk.start.pwrok = s.blk.start.pwrok ∧ t.blk.regs = {} ∧ t.blk.hnd = {}
    ∧ t.blk.time = 0 ∧ t.blk.start.attempts = s.blk.start.attempts ∧ t.blk.start.reason = s.blk.start.reason
    ∧ t.blk.start.lastFail = s.blk.start.lastFail) ∧
  (∀ (r : Rail) (n : Nat) (s : State), 1000 < n → ∃ t, exec (.brownOutReset r n) s = .next t ∧ t.blk.srl = {}
    ∧ t.blk.start.step = 0 ∧ t.blk.regs = {} ∧ t.blk.start.attempts = 0 ∧ t.blk.start.reason = 0
    ∧ (t.blk.start.brown = true ↔ s.blk.start.brown = true ∨ r ≠ .vio)) ∧
  (∀ (v : BitVec 3) (s : State), s.blk.start.pwrok = true → s.blk.start.brown = false → s.blk.start.resetN = false →
    ∃ t, exec (.resetNRise v) s = .next t ∧ t.mem = s.mem ∧ t.blk.start.resetN = true ∧ t.blk.start.straps = v
      ∧ t.blk.start.step = 2 ∧ t.blk.time = 0 ∧ t.blk.regs = {} ∧ t.blk.start.attempts = s.blk.start.attempts)

/-- Timed start steps go on in order (R86): step 11 sets the operating point, with its VDDL and TSV rate (R23), and locks the
quadrant PLLs, step 12 powers the core dies, step 13 calibrates the TSVs and records the channels that failed; the stages are
those of SUP_START. A trap of the supervisor in any of them fails the start with reason 5 (R96). -/
def Obligations.StartStepsAdvance : Prop :=
  (∀ (obs : StepObs) (s : State), s.blk.starting = true → obs.trap = true → 6 ≤ s.blk.start.step →
    ∃ t, exec (.startStepDone obs) s = .next t ∧ startFailed 5 s t) ∧
  ∀ (obs : StepObs) (s : State), s.blk.starting = true → obs.trap = false →
    (s.blk.start.step = 11 → ∃ t, exec (.startStepDone obs) s = .next t ∧ t.blk.start = { s.blk.start with step := 12, stage := 6 }
      ∧ t.blk.clk.op.toNat = startOp s.blk % 4 ∧ (∀ q : QuadId, t.blk.clk.tsvOps[q] = t.blk.clk.op) ∧ t.blk.clk.vddl = opVddl s.blk t.blk.clk.op
      ∧ t.blk.clk.linkLock = 0xF ∧ t.blk.clk.tsvLock = 0xF ∧ t.mem = s.mem) ∧
    (s.blk.start.step = 12 → exec (.startStepDone obs) s
      = .next (s.upd { s.blk with start := { s.blk.start with step := 13, stage := 7 } })) ∧
    (s.blk.start.step = 13 → ∃ t, exec (.startStepDone obs) s = .next t ∧ t.mem = s.mem
      ∧ t.blk.start = { s.blk.start with step := 14, stage := 8, calFail := obs.failedChannels })

/-- A start that fails records its reason and stage, counts the attempt up to 3, and waits for its internal restart (R96, R97),
which begins a new start and keeps the count; the reasons are those of R96: 3 for step 7, 1 for an image that never came, 6 for
steps 9 to 11, 4 for steps 12 to 14, and 6 for the READY limit and for the supervisor watchdog, whose reset discards every
pending write (R56). SUP_RESTART.go clears the attempts counter and begins a new start (R105); with use_staged it keeps the
staged image. -/
def Obligations.StartFailuresAndRestarts : Prop :=
  ((∀ s : State, s.blk.starting = true →
    (s.blk.start.step = 7 → ∃ t, exec .startStepLimitExpiry s = .next t ∧ startFailed 3 s t) ∧
    (s.blk.start.step = 8 → s.blk.img.count < 64 → ∃ t, exec .startStepLimitExpiry s = .next t ∧ startFailed 1 s t) ∧
    (s.blk.start.step = 9 ∨ s.blk.start.step = 10 ∨ s.blk.start.step = 11 →
      ∃ t, exec .startStepLimitExpiry s = .next t ∧ startFailed 6 s t) ∧
    (s.blk.start.step = 12 ∨ s.blk.start.step = 13 ∨ s.blk.start.step = 14 →
      ∃ t, exec .startStepLimitExpiry s = .next t ∧ startFailed 4 s t) ∧
    (∃ t, exec .readyLimitExpiry s = .next t ∧ startFailed 6 s t) ∧
    (∀ pc, 5 ≤ s.blk.start.step → ∃ t, exec (.supervisorWatchdogExpiry pc) s = .next t ∧ startFailed 6 s t ∧ t.blk.regs.pend = [])) ∧
  (∀ s : State, s.blk.start.failed = true → s.blk.sage.safe = false → s.blk.thm.safe = false → ∃ t, exec .internalRestart s = .next t ∧ t.mem = s.mem
    ∧ t.blk.start.step = 2 ∧ t.blk.start.failed = false ∧ t.blk.start.attempts = s.blk.start.attempts
    ∧ t.blk.start.reason = s.blk.start.reason ∧ t.blk.time = 0 ∧ t.blk.regs = {})) ∧
  (∀ (path : Path) (u : Bool) (s : State), takesWrites path s → s.blk.thm.safe = false →
    (u = true → s.blk.img.stagedOk = true) → s.blk.start.restartWait = none → otpPulsing s.blk = false →
    ∃ t, exec (.restartCommand path u) s = .next t ∧ t.mem = s.mem ∧ t.pending = s.pending ∧ t.blk.start.step = 2
      ∧ t.blk.start.attempts = 0 ∧ t.blk.start.useStaged = u ∧ t.blk.time = 0 ∧ t.blk.regs = {}
      ∧ (u = true → t.blk.img.staged = s.blk.img.staged ∧ t.blk.img.stagedOk = true)
      ∧ (u = false → t.blk.img.staged = none))

/-! ### Image loads -/

/-- IDN_IMG_CTRL.start opens a load for a target that the state allows, with nothing received (R128); each data-window write
appends its four bytes in order and claims its path (R127), and the last byte of header.length begins the checks (R130); abort
discards a load none of whose live groups has committed (R131), and is TOO_LATE once one has, or the load is done (R13, R133).
The end of the checks of a received image (R124): a STAGE or LIVE load that fails records the first failed check and its section
and leaves the image in force; a STAGE load that passes is held for a restart; a LIVE load that passes waits for its boundaries.
-/
def Obligations.ImageLoads : Prop :=
  ((∀ (path : Path) (g : BitVec 2) (s : State), takesWrites path s → g ≠ 3 → loading s.blk.img = false →
    targetAllowed s.blk g.toNat = true →
    ∃ t, exec (.imageLoadStart path g) s = .next t ∧ t.blk.resp = .ok ∧ t.blk.img.state = .receiving ∧ t.blk.img.target = g
      ∧ t.blk.img.data = [] ∧ t.blk.img.count = 0 ∧ t.blk.img.failCheck = 0 ∧ t.blk.img.failSection = 0xFF
      ∧ t.blk.img.applied = s.blk.img.applied ∧ t.blk.start = s.blk.start ∧ t.blk.ports = s.blk.ports ∧ t.mem = s.mem) ∧
  (∀ (path : Path) (k : Fin 8) (w : Word) (s : State), takesWrites path s → s.blk.img.state = .receiving →
    (s.blk.img.path = 0 ∨ s.blk.img.path = pathCode path) → 64 ≤ s.blk.img.data.length →
    ∃ t, exec (.imageDataWrite path k w) s = .next t ∧ t.blk.resp = .ok ∧ t.blk.img.path = pathCode path
      ∧ t.blk.img.data = s.blk.img.data ++ bytesOf 4 w ∧ t.blk.img.count = s.blk.img.data.length + 4
      ∧ t.blk.img.state = (if hdrLength (s.blk.img.data ++ bytesOf 4 w) ≤ s.blk.img.data.length + 4 then .verifying else .receiving)
      ∧ t.blk.regs = s.blk.regs ∧ t.blk.ports = s.blk.ports ∧ t.mem = s.mem) ∧
  (∀ (path : Path) (s : State), takesWrites path s → loading s.blk.img = true →
    ¬ (s.blk.img.state = .pendingCommit ∧ s.blk.img.liveSome = true) → s.blk.img.target ≠ 0 → wfield (rw 0x40 s.blk) 3 2 ≠ 3 →
    ∃ t, exec (.imageLoadAbort path) s = .next t ∧ t.blk.resp = .ok ∧ t.blk.img.state = .aborted ∧ t.blk.img.data = []
      ∧ t.blk.img.liveWait = [] ∧ t.blk.img.live = s.blk.img.live ∧ t.blk.img.applied = s.blk.img.applied
      ∧ t.blk.start = s.blk.start ∧ t.mem = s.mem) ∧
  (∀ (path : Path) (s : State), takesWrites path s → s.blk.img.state = .done ∨
    (s.blk.img.target = 2 ∧ s.blk.img.liveSome = true ∧ s.blk.img.state = .pendingCommit) → wfield (rw 0x40 s.blk) 3 2 ≠ 3 →
    ∃ t, exec (.imageLoadAbort path) s = .next t ∧ t.blk.resp = .tooLate ∧ t.blk.img = s.blk.img ∧ t.mem = s.mem)) ∧
  (∀ s : State, s.blk.img.state = .verifying → s.blk.img.target ≠ 0 →
    (∀ f, imgCheck s.blk (s.blk.img.target == 2) s.blk.img.data = some f →
      exec .imageVerifyDone s = .next (s.upd { s.blk with img := { s.blk.img with
        state := .failed, failCheck := BitVec.ofNat 4 f.check, failSection := BitVec.ofNat 8 f.sec
        errOff := BitVec.ofNat 32 f.off } })) ∧
    (imgCheck s.blk (s.blk.img.target == 2) s.blk.img.data = none → s.blk.img.target = 1 →
      exec .imageVerifyDone s = .next (s.upd { s.blk with img := { s.blk.img with
        state := .done, staged := some s.blk.img.data, stagedOk := true } })) ∧
    (imgCheck s.blk (s.blk.img.target == 2) s.blk.img.data = none → s.blk.img.target = 2 →
      ∃ t, exec .imageVerifyDone s = .next t ∧ t.mem = s.mem ∧ t.blk.img.state = .pendingCommit
        ∧ t.blk.img.liveWait = liveSections s.blk.img.data ∧ t.blk.img.liveSome = false ∧ t.blk.img.live = s.blk.img.live
        ∧ t.blk.regs = s.blk.regs))

/-! ### Registers -/

/-- A write of LNK_CFG is accepted with OK into the port's commit buffer, replacing a value that waits, and the live value stays
(R52, R54); while the port is not ACTIVE it is live at once (R53). -/
def Obligations.BufferedWrites : Prop :=
  ∀ (path : Path) (p : PortId) (data : Word) (s : State), takesWrites path s → wfield data 15 8 ≠ 0 →
    let a := lnkBase p.val + 4
    (s.blk.ports[p].st = .active →
      ∃ t, exec (.registerWrite path (BitVec.ofNat 32 a) data 15) s = .next t ∧ t.blk.resp = .ok
        ∧ rw a t.blk = rw a s.blk ∧ shadow a t.blk = data &&& 0xFFFE
        ∧ (t.blk.regs.pend.filter fun w => w.addr == a).length = 1
        ∧ t.blk.regs.live = s.blk.regs.live ∧ t.blk.ports = s.blk.ports ∧ t.mem = s.mem) ∧
    (s.blk.ports[p].st ≠ .active → pendingAt (lnkBase p.val) s.blk = false →
      ∃ t, exec (.registerWrite path (BitVec.ofNat 32 a) data 15) s = .next t ∧ t.blk.resp = .ok
        ∧ rw a t.blk = data &&& 0xFFFE ∧ t.blk.regs.pend = s.blk.regs.pend ∧ t.blk.ports = s.blk.ports ∧ t.mem = s.mem)

/-- A write that is not a whole aligned word of a live register, or that its path may not make, is refused with ACCESS_ERROR,
sets its bit of IDN_REG_ERR and changes no register (R44: no register there; R48: narrow and unaligned; R54: shadow offsets;
R50: the reserved path), while the reaction in force for FS_REG_ACCESS is LOG. A write of zero to an error, event or
latency-miss counter clears it and with it its sat flag; any other value is refused with BAD_ARG and leaves it (R63). -/
def Obligations.RefusalsAndCounterClears : Prop :=
  (∀ (path : Path) (addr data : Word) (be : BitVec 4) (s : State), pathOpen s.blk path = true → s.blk.pwr.state = 0 →
    s.blk.sage.safe = false → s.blk.regs.badPar = [] → reactionOf s.blk (fs .regAccess) = 0 →
    let refused := fun (bit : Nat) => ∃ t, exec (.registerWrite path addr data be) s = .next t ∧ t.blk.resp = .accessError
      ∧ (rcGet 0x18 t.blk).getLsbD bit = true ∧ t.blk.regs.live = s.blk.regs.live ∧ t.blk.regs.pend = s.blk.regs.pend
      ∧ t.blk.regs.owner = s.blk.regs.owner ∧ (∀ q : PortId, samePort s.blk.ports[q] t.blk.ports[q]) ∧ t.blk.img = s.blk.img ∧ t.blk.hnd = s.blk.hnd
      ∧ t.mem = s.mem
    (addr.toNat % 4 ≠ 0 → refused 1) ∧
    (addr.toNat % 4 = 0 → be ≠ 15 → refused 0) ∧
    (addr.toNat % 4 = 0 → be = 15 → (blockBase addr.toNat).isSome = true → 0x800 ≤ addr.toNat % 0x1000 → refused 6) ∧
    (addr.toNat % 4 = 0 → be = 15 → mapped addr.toNat = false → addr.toNat % 0x1000 < 0x800 → refused 4) ∧
    (addr.toNat % 4 = 0 → be = 15 → mapped addr.toNat = true → addr.toNat % 0x1000 < 0x800 → ownerRefuses path s.blk = true →
      refused 3)) ∧
  (∀ (path : Path) (a : Nat) (data : Word) (s : State), takesWrites path s → regAt a = some .counter → a < 2 ^ 32 →
    a % 0x1000 < 0x800 → s.blk.start.chive = false →
    (data = 0 → ∃ t, exec (.counterClearWrite path (BitVec.ofNat 32 a) data) s = .next t ∧ t.blk.resp = .ok
      ∧ ctr a t.blk = 0 ∧ ctrSat a t.blk = false ∧ t.blk.regs.live = s.blk.regs.live ∧ t.blk.ports = s.blk.ports
      ∧ t.mem = s.mem) ∧
    (data ≠ 0 → ∃ t, exec (.counterClearWrite path (BitVec.ofNat 32 a) data) s = .next t ∧ t.blk.resp = .badArg
      ∧ t.blk.regs.ctr = s.blk.regs.ctr ∧ t.blk.regs.live = s.blk.regs.live ∧ t.mem = s.mem))

/-- IDN_REG_OWNER takes effect at once (R50): a write of 0, 1 or 2 stores the owner and 3 is refused; a parity sweep raises
FS_CFG_PARITY with the address of a register whose live value an upset has flipped (R57), and FS_SAGE_SELF for one of Sage's own
(R471). A forced commit leaves no write pending of the blocks that commit plainly: here of a stack whose pending writes are all
of CHN registers; the block of a channel in the middle of a DRAM command is waited for, with the writes still pending (R55). -/
def Obligations.OwnerSweepAndForcedCommit : Prop :=
  (∀ (path : Path) (data : Word) (s : State), takesWrites path s →
    (wfield data 1 0 ≠ 3 → ∃ t, exec (.idnRegOwnerWrite path data) s = .next t ∧ t.blk.resp = .ok
      ∧ t.blk.regs = { s.blk.regs with owner := BitVec.ofNat 2 (wfield data 1 0) } ∧ t.blk.ports = s.blk.ports ∧ t.mem = s.mem) ∧
    (wfield data 1 0 = 3 → ∃ t, exec (.idnRegOwnerWrite path data) s = .next t ∧ t.blk.resp = .badArg
      ∧ t.blk.regs = s.blk.regs ∧ t.mem = s.mem)) ∧
  (∀ (a : Word) (s : State), 5 ≤ s.blk.start.step → s.blk.sage.enable = true → s.blk.sage.safe = false → rwMask a.toNat ≠ 0 →
    s.blk.regs.badPar = [] → s.blk.sage.tick ≠ s.blk.now →
    (baseOf a.toNat ≠ sageBase → s.blk.sage.pend.getLsbD (fs .cfgParity) = false →
      ∃ t, exec (.paritySweep [a] []) s = .next t ∧ t.blk.sage.pend.getLsbD (fs .cfgParity) = true
        ∧ (mget t.blk.sage.info (fs .cfgParity) none).map PendInfo.detail = some a ∧ t.mem = s.mem) ∧
    (baseOf a.toNat = sageBase → s.blk.sage.pend.getLsbD (fs .sageSelf) = false →
      ∃ t, exec (.paritySweep [a] []) s = .next t ∧ t.blk.sage.pend.getLsbD (fs .sageSelf) = true ∧ t.blk.sage.selfFault = true
        ∧ t.mem = s.mem)) ∧
  (∀ (path : Path) (s : State), takesWrites path s →
    (∀ w ∈ s.blk.regs.pend, isChn (baseOf w.addr) = true ∧ w.good = true) →
    (∀ c : ChanId, midCommand s.blk.chans[c] = false) →
    ∃ t, exec (.forcedCommit path) s = .next t ∧ t.blk.resp = .ok ∧ t.blk.regs.pend = []
      ∧ (∀ w ∈ s.blk.regs.pend, (∀ v ∈ s.blk.regs.pend, v.addr = w.addr → v = w) → rw w.addr t.blk = w.value)
      ∧ t.blk.ports = s.blk.ports ∧ t.mem = s.mem) ∧
  (∀ (path : Path) (c : ChanId) (w : PendWr) (s : State), takesWrites path s → s.blk.regs.pend = [w] →
    baseOf w.addr = chnBase c.val → midCommand s.blk.chans[c] = true →
    ∃ t, exec (.forcedCommit path) s = .next t ∧ t.blk.resp = .ok ∧ t.blk.regs.pend = [{ w with after := false }]
      ∧ t.blk.regs.forced = [chnBase c.val] ∧ t.blk.regs.live = s.blk.regs.live ∧ t.blk.ports = s.blk.ports ∧ t.mem = s.mem)

/-! ### Training (chapter 6) -/

/-- DETECT, and the fewest lanes that train: with fewer than 10 terminations, or while its quadrant's link PLL is not READY
(R418), a port stays in DETECT; otherwise it enters TRAIN at the rate of R147, and the lanes without termination are failed
(R156). -/
def Obligations.DetectSensesLanes : Prop :=
  ∀ (p : PortId) (term : BitVec 21) (calFail : Bool) (s : State), s.blk.ports[p].st = .detect →
    (calFail = true → reactionOf s.blk (fs .calDegrade) ≤ 2) →
    let rest := fun t : State => t.mem = s.mem ∧ t.pending = s.pending ∧ t.blk.chans = s.blk.chans
      ∧ (∀ q, q ≠ p → samePort s.blk.ports[q] t.blk.ports[q]) ∧ (calFail = false → onlyPort p s t)
      ∧ (calFail = true → t.blk.cal.degTerm.getLsbD p.val = true)
    (ones term < 10 ∨ linkReady p s.blk = false → ∃ t, exec (.linkDetectSense p term calFail) s = .next t ∧ rest t ∧ t.blk.ports[p].st = .detect
      ∧ samePort s.blk.ports[p] t.blk.ports[p]) ∧
    (10 ≤ ones term → linkReady p s.blk = true → ∃ t, exec (.linkDetectSense p term calFail) s = .next t ∧ rest t
      ∧ t.blk.ports[p].st = .train ∧ t.blk.ports[p].rate = BitVec.ofNat 4 (portRate p s.blk)
      ∧ (∀ i, i < 21 → t.blk.ports[p].failTx.getLsbD i = (s.blk.ports[p].failTx.getLsbD i || !term.getLsbD i))
      ∧ t.blk.ports[p].failRx = s.blk.ports[p].failRx ∧ t.blk.ports[p].attempts = s.blk.ports[p].attempts
      ∧ ∀ i : Fin 21, t.blk.ports[p].lanes[i].eqDone = false ∧ t.blk.ports[p].lanes[i].farEq = false)

/-- TRAIN (R153, R157): a TRAIN block sets its lane's taps from a new preset or leaves them on HOLD, and reports the far
receiver; a receive lane is equalized at an eye width of 0.30 UI (77/256) and an eye height of 24 mV (12 steps of 2 mV), and
then asks to hold; one that is not in time is failed. The port leaves TRAIN for LOCK when every unfailed lane is equalized in
both directions, with the settings of every lane stored for the rate. LOCK (R158): a MARKER block that follows the last by 16
blocks with the next count adds one to the run of its lane, up to 8, and any other block starts a run of one; here while some
unfailed receive lane has not been locked yet. -/
def Obligations.TrainAndLock : Prop :=
  (∀ (p : PortId) (s : State), s.blk.ports[p].st = .train → 10 ≤ goodLanes s.blk.ports[p].failRx →
    10 ≤ goodLanes s.blk.ports[p].failTx →
    let x := s.blk.ports[p]
    let trained := fun t : State => onlyPort p s t ∧ (t.blk.ports[p].st = .train ∨ t.blk.ports[p].st = .lock)
      ∧ (t.blk.ports[p].st = .lock ↔ ∀ j : Fin 21,
          (t.blk.ports[p].failRx.getLsbD j.val = true ∨ t.blk.ports[p].lanes[j].eqDone = true)
          ∧ (t.blk.ports[p].failTx.getLsbD j.val = true ∨ t.blk.ports[p].lanes[j].farEq = true))
      ∧ t.blk.ports[p].failTx = x.failTx
      ∧ (t.blk.ports[p].st = .lock → x.rate.toNat ∈ t.blk.ports[p].stored ∧ ∀ j : Fin 21, t.blk.ports[p].lanes[j].saved.head?
          = some (x.rate.toNat, t.blk.ports[p].lanes[j].preset, t.blk.ports[p].lanes[j].pre, t.blk.ports[p].lanes[j].post))
    (∀ k : BitVec 144, blockIs 1 k = true → blockLane k ≤ 20 → byteOf k 8 / 2 % 2 = 0 → byteOf k 7 % 16 = 0 →
      let i := laneIx (laneMap s.blk p true (blockLane k))
      ∃ t, exec (.trainBlockReceived p k) s = .next t ∧ trained t ∧ t.blk.ports[p].failRx = x.failRx
        ∧ t.blk.ports[p].lanes[i].preset = byteOf k 6 % 16
        ∧ t.blk.ports[p].lanes[i].farEq = (byteOf k 8 % 2 == 1)
        ∧ (t.blk.ports[p].lanes[i].pre, t.blk.ports[p].lanes[i].post)
          = if byteOf k 6 % 16 ≠ x.lanes[i].preset ∧ byteOf k 6 % 16 ≤ 9
            then [(0, 0), (0, 4), (0, 8), (0, 12), (0, 16), (3, 0), (3, 4), (3, 8), (5, 4), (5, 8)].getD (byteOf k 6 % 16) (0, 8)
            else (x.lanes[i].pre, x.lanes[i].post)) ∧
    (∀ q : LaneQ, ∃ t, exec (.rxLaneEqualized p q) s = .next t ∧ trained t ∧ t.blk.ports[p].failRx = x.failRx
      ∧ t.blk.ports[p].lanes[q.lane].eqDone = (x.lanes[q.lane].eqDone || decide (77 ≤ q.width.toNat ∧ 12 ≤ q.height.toNat))
      ∧ t.blk.ports[p].lanes[q.lane].height = q.height ∧ t.blk.ports[p].lanes[q.lane].width = q.width
      ∧ t.blk.ports[p].lanes[q.lane].residual = q.residual
      ∧ (t.blk.ports[p].lanes[q.lane].eqDone = true → t.blk.ports[p].lanes[q.lane].askPre = 0
          ∧ t.blk.ports[p].lanes[q.lane].askPost = 0)) ∧
    (∀ i : Fin 21, x.lanes[i].eqDone = false → 10 ≤ goodLanes (bset x.failRx i.val) →
      ∃ t, exec (.eqLaneTimeout p i) s = .next t ∧ trained t ∧ t.blk.ports[p].failRx = bset x.failRx i.val
        ∧ t.blk.ports[p].lanes[i].laneFail = true) ∧
    (∀ i : Fin 21, x.lanes[i].eqDone = false → goodLanes (bset x.failRx i.val) < 10 →
      ∃ t, exec (.eqLaneTimeout p i) s = .next t ∧ onlyPort p s t ∧ t.blk.ports[p].st = .detect
        ∧ t.blk.ports[p].failRx = bset x.failRx i.val)) ∧
  (∀ (p : PortId) (k : BitVec 144) (at_ : Nat) (far : Bool) (j : Fin 21) (s : State),
    s.blk.ports[p].st = .lock → blockIs 2 k = true → blockLane k ≤ 20 →
    let i := laneIx (laneMap s.blk p false (blockLane k))
    let x := s.blk.ports[p]
    let count := byteOf k 6 + 256 * byteOf k 7
    j ≠ i → x.failRx.getLsbD j.val = false → x.lanes[j].arrival = none →
    ∃ t, exec (.markerBlockReceived p k at_ far) s = .next t ∧ onlyPort p s t ∧ t.blk.ports[p].st = .lock
      ∧ t.blk.ports[p].failRx = x.failRx
      ∧ (∀ i', i' ≠ i → t.blk.ports[p].lanes[i'] = x.lanes[i'])
      ∧ t.blk.ports[p].lanes[i].run
        = (if 0 < x.lanes[i].run ∧ count = x.lanes[i].next ∧ at_ = x.lanes[i].lastAt + 16 * 144 then min 8 (x.lanes[i].run + 1) else 1)
      ∧ t.blk.ports[p].lanes[i].next = (count + 1) % 65536
      ∧ (t.blk.ports[p].lanes[i].arrival.isSome = true ↔ t.blk.ports[p].lanes[i].run = 8))

/-- EXCHANGE (R159, R161): the fourth identical EXCH block in a row whose values the stack can honour sets its ack, and the
register images follow the last block; with four blocks received with ack, 16 sent and its link PLL READY, a full-width port
that takes no new spare is ACTIVE, with its attempts cleared (R160) and its flit counts and scramblers afresh (R150). -/
def Obligations.ExchangeReachesActive : Prop :=
  ∀ (p : PortId) (k : BitVec 144) (sent : Nat) (s : State), s.blk.ports[p].st = .exchange → blockIs 3 k = true →
    let x := s.blk.ports[p]
    let same := if exchBody k = x.exLast then x.exSame + 1 else 1
    let acked := x.exAcked + byteOf k 7 / 128
    let caps := fun y : Port => y.capFeatures = BitVec.ofNat 8 (byteOf k 6) ∧ y.capProtocol = BitVec.ofNat 8 (byteOf k 11)
      ∧ y.capPort = BitVec.ofNat 4 (byteOf k 4) ∧ y.capRate = BitVec.ofNat 4 (byteOf k 5)
      ∧ y.farSpare = BitVec.ofNat 5 (byteOf k 7) ∧ y.exSame = same ∧ y.exAcked = acked
    (sent < 16 ∨ acked < 4 ∨ exchOk k = false ∨ linkReady p s.blk = false →
      ∃ t, exec (.exchBlockReceived p k sent) s = .next t ∧ onlyPort p s t ∧ t.blk.ports[p].st = .exchange ∧ caps t.blk.ports[p]
        ∧ t.blk.ports[p].exAck = (x.exAck || (decide (4 ≤ same) && exchOk k))) ∧
    (16 ≤ sent → 4 ≤ acked → 4 ≤ same → exchOk k = true → linkReady p s.blk = true → byteOf k 7 / 32 % 4 = 2 → byteOf k 7 % 32 = 31 →
      s.blk.starting = false → s.blk.thm.owe.getLsbD p.val = false →
      ∃ t, exec (.exchBlockReceived p k sent) s = .next t ∧ onlyPort p s t ∧ t.blk.ports[p].st = .active ∧ caps t.blk.ports[p]
        ∧ t.blk.ports[p].widthTx = 2 ∧ t.blk.ports[p].spareTx = 31 ∧ t.blk.ports[p].attempts = 0 ∧ t.blk.ports[p].txFlits = 0 ∧ t.blk.ports[p].rxFlits = 0
        ∧ t.blk.ports[p].features = BitVec.ofNat 8 (byteOf k 6) &&& 0x0F
        ∧ t.blk.ports[p].nextSeq = x.nextSeq ∧ t.blk.ports[p].rb = x.rb ∧ t.blk.ports[p].txScr = scrSeeds)

/-- The end of a training limit (R160): a port that has no link yet returns to DETECT with its attempts counted and its failed
lanes kept, and lanes that did not lock are failed; on the third attempt it is DISABLED (R163), with LNK_EVT.disabled. RECOVER
(R166, R167): a trigger that holds puts an ACTIVE or idle port into RECOVER, sets LNK_EVT.recover_entered and counts it; at an
unchanged rate nothing else happens. The link layer carries on. Whatever the trigger, four RECOVER blocks of the far end among
them, the port sends RECOVER blocks of its own, until four of the far end's have come in a row, and then trains. After 2^20 UI
of PRBS31 the lanes with more errors than LNK_CFG.lane_check_limit are failed and LOCK follows. -/
def Obligations.TrainingLimitsAndRecover : Prop :=
  (∀ (p : PortId) (s : State), reactionOf s.blk (fs .lnkDegrade) ≤ 2 →
    (s.blk.ports[p].st = .train ∨ s.blk.ports[p].st = .lock ∨ s.blk.ports[p].st = .exchange) →
    ∃ t, exec (.trainingLimitExpiry p) s = .next t ∧ t.mem = s.mem ∧ t.pending = s.pending
      ∧ t.blk.ports[p].attempts = min 3 (s.blk.ports[p].attempts + 1)
      ∧ (s.blk.ports[p].attempts < 2 → t.blk.ports[p].st = .detect ∧ t.blk.sage = s.blk.sage)
      ∧ (2 ≤ s.blk.ports[p].attempts → t.blk.ports[p].st = .disabled ∧ (rcGet (lnkBase p.val + 0x0C) t.blk).getLsbD 6 = true)
      ∧ t.blk.ports[p].failTx = s.blk.ports[p].failTx
      ∧ (∀ i : Fin 21, t.blk.ports[p].failRx.getLsbD i.val = true ↔ (s.blk.ports[p].failRx.getLsbD i.val = true
          ∨ (s.blk.ports[p].st = .lock ∧ s.blk.ports[p].lanes[i].run < 8)))
      ∧ (∀ q, q ≠ p → samePort s.blk.ports[q] t.blk.ports[q])) ∧
  (∀ (p : PortId) (s : State),
    (∀ lane : Fin 21, (s.blk.ports[p].st = .active ∨ s.blk.ports[p].st = .idle) →
      s.blk.ports[p].rate = BitVec.ofNat 4 (portRate p s.blk) →
      ∃ t, exec (.recoverEntry p (.bitLockLoss lane) false) s = .next t ∧ t.mem = s.mem ∧ t.pending = s.pending
        ∧ t.blk.ports[p].st = .recover ∧ t.blk.ports[p].rstep = .blocks ∧ t.blk.ports[p].rate = s.blk.ports[p].rate
        ∧ t.blk.ports[p].nextSeq = s.blk.ports[p].nextSeq ∧ t.blk.ports[p].rb = s.blk.ports[p].rb
        ∧ t.blk.ports[p].expected = s.blk.ports[p].expected ∧ t.blk.ports[p].far = s.blk.ports[p].far
        ∧ t.blk.ports[p].failRx = s.blk.ports[p].failRx ∧ t.blk.ports[p].tags = s.blk.ports[p].tags
        ∧ (rcGet (lnkBase p.val + 0x0C) t.blk).getLsbD 2 = true
        ∧ (ctr (lnkBase p.val + 0x24) t.blk).toNat = min ctrMax ((ctr (lnkBase p.val + 0x24) s.blk).toNat + 1)
        ∧ t.blk.sage = s.blk.sage ∧ ∀ q, q ≠ p → t.blk.ports[q] = s.blk.ports[q]) ∧
    (∀ blks : List (BitVec 144), (s.blk.ports[p].st = .active ∨ s.blk.ports[p].st = .idle) →
      s.blk.ports[p].rate = BitVec.ofNat 4 (portRate p s.blk) → lastFour 5 blks = true →
      ∃ t, exec (.recoverEntry p (.farRecover blks) false) s = .next t ∧ t.mem = s.mem ∧ t.pending = s.pending
        ∧ t.blk.ports[p].st = .recover ∧ t.blk.ports[p].rstep = .blocks ∧ (rcGet (lnkBase p.val + 0x0C) t.blk).getLsbD 0 = true
        ∧ (rcGet (lnkBase p.val + 0x0C) t.blk).getLsbD 2 = true ∧ ∀ q, q ≠ p → t.blk.ports[q] = s.blk.ports[q]) ∧
    (∀ blks : List (BitVec 144), s.blk.ports[p].st = .recover → s.blk.ports[p].rstep = .blocks → lastFour 5 blks = true →
      exec (.recoverEntry p (.farRecover blks) false) s
        = .next (s.upd (modPort p (fun x => { x with rstep := .train }) s.blk))) ∧
    (∀ errors : List (Fin 21 × Nat), s.blk.ports[p].st = .recover → s.blk.ports[p].rstep = .laneCheck →
      ∃ t, exec (.laneCheckEnd p errors) s = .next t ∧ onlyPort p s t ∧ t.blk.ports[p].st = .recover
        ∧ t.blk.ports[p].rstep = .lock ∧ t.blk.ports[p].failTx = s.blk.ports[p].failTx
        ∧ ∀ i : Fin 21, t.blk.ports[p].failRx.getLsbD i.val = true ↔ (s.blk.ports[p].failRx.getLsbD i.val = true
          ∨ ∃ e ∈ errors, e.1 = i ∧ rwf (lnkBase p.val + 4) 7 4 s.blk < e.2)))

/-- LNK_CTRL commands: retrain puts an ACTIVE or idle port into RECOVER (R166), reenable brings a DISABLED port to DETECT with
marks and attempts cleared (R160); both are answered OK. A retrain of any other port, and a reenable of a port that is not
DISABLED, is refused with BAD_ARG. -/
def Obligations.LinkCommands : Prop :=
  ∀ (path : Path) (p : PortId) (s : State), takesWrites path s →
    (s.blk.ports[p].st = .active → s.blk.ports[p].rate = BitVec.ofNat 4 (portRate p s.blk) →
      pendingAt (lnkBase p.val) s.blk = false → (rw (lnkBase p.val) s.blk).getLsbD 0 = false →
      ∃ t, exec (.lnkRetrain path p) s = .next t ∧ t.blk.resp = .ok ∧ t.blk.ports[p].st = .recover
        ∧ (ctr (lnkBase p.val + 0x24) t.blk).toNat = min ctrMax ((ctr (lnkBase p.val + 0x24) s.blk).toNat + 1)
        ∧ t.mem = s.mem) ∧
    (s.blk.ports[p].st ≠ .active → s.blk.ports[p].st ≠ .idle →
      ∃ t, exec (.lnkRetrain path p) s = .next t ∧ t.blk.resp = .badArg ∧ t.blk.ports = s.blk.ports ∧ t.blk.regs = s.blk.regs
        ∧ t.mem = s.mem) ∧
    (s.blk.ports[p].st = .disabled → bstOnPort s.blk p = false →
      (p.val = 0 ∨ (s.blk.start.chive = false ∧ s.blk.thm.safe = false)) → pendingAt (lnkBase p.val) s.blk = false →
      ∃ t, exec (.lnkReenable path p) s = .next t ∧ t.blk.resp = .ok ∧ t.blk.ports[p].st = .detect
        ∧ t.blk.ports[p].failRx = 0 ∧ t.blk.ports[p].failTx = 0 ∧ t.blk.ports[p].attempts = 0
        ∧ (∀ q, q ≠ p → t.blk.ports[q] = s.blk.ports[q]) ∧ t.mem = s.mem) ∧
    (s.blk.ports[p].st ≠ .disabled →
      ∃ t, exec (.lnkReenable path p) s = .next t ∧ t.blk.resp = .badArg ∧ t.blk.ports = s.blk.ports ∧ t.blk.regs = s.blk.regs
        ∧ t.mem = s.mem)

/-- Electrical idle and fast exit (R171, R172, R173): IDLE_ENTRY puts the receive direction of a port into IDLE; a fast-exit
burst brings it back, its flit count and scramblers afresh, while the port waits for a marker flit; when none follows in 64 flit
times LNK_EVT.idle_exit_fail is set and the port enters RECOVER. PATTERN (R175): once LNK_PRBS.enable is live as 1, an ACTIVE
port enters PATTERN with the selected pattern, and with the far end's pattern once four PATTERN blocks have come; its receive
lanes count wrong bits in LNK_LANE_ERRn; once enable is live as 0 the port leaves through RECOVER. -/
def Obligations.IdleAndPattern : Prop :=
  (∀ (p : PortId) (s : State),
    (∀ k : BitVec 144, s.blk.ports[p].st = .active → blockIs 4 k = true →
      exec (.idleEntryReceived p k) s = .next (s.upd (modPort p (fun x => { x with st := .idle, idleRx := true }) s.blk))) ∧
    (s.blk.ports[p].st = .idle → s.blk.ports[p].idleRx = true →
      ∃ t, exec (.fastExitBurst p .rx) s = .next t ∧ onlyPort p s t ∧ t.blk.ports[p].idleRx = false
        ∧ t.blk.ports[p].waitMarker = true ∧ t.blk.ports[p].rxFlits = 0 ∧ t.blk.ports[p].rxScr = scrSeeds
        ∧ t.blk.ports[p].st = (if s.blk.ports[p].idleTx then .idle else .active)
        ∧ t.blk.ports[p].txFlits = s.blk.ports[p].txFlits ∧ t.blk.ports[p].expected = s.blk.ports[p].expected) ∧
    (s.blk.ports[p].waitMarker = true → s.blk.ports[p].st = .active →
      s.blk.ports[p].rate = BitVec.ofNat 4 (portRate p s.blk) →
      ∃ t, exec (.fastExitFail p) s = .next t ∧ t.blk.ports[p].st = .recover
        ∧ (rcGet (lnkBase p.val + 0x0C) t.blk).getLsbD 1 = true ∧ (rcGet (lnkBase p.val + 0x0C) t.blk).getLsbD 2 = true
        ∧ t.blk.sage = s.blk.sage ∧ t.mem = s.mem ∧ ∀ q, q ≠ p → t.blk.ports[q] = s.blk.ports[q])) ∧
  (∀ (p : PortId) (s : State),
    (∀ errors : List (Fin 21 × Nat), s.blk.ports[p].st = .active → rwf (lnkBase p.val + 0x1C) 0 0 s.blk = 1 →
      ∃ t, exec (.patternEntry p .commit errors) s = .next t
        ∧ t.blk.ports[p] = { s.blk.ports[p] with st := .pattern, pattern := BitVec.ofNat 2 (rwf (lnkBase p.val + 0x1C) 3 2 s.blk), patFar := false }
        ∧ (∀ q, q ≠ p → t.blk.ports[q] = s.blk.ports[q])
        ∧ (∀ e, errors = [e] → (ctr (lnkBase p.val + 0x100 + 4 * e.1.val) t.blk).toNat
            = min ctrMax ((ctr (lnkBase p.val + 0x100 + 4 * e.1.val) s.blk).toNat + e.2))
        ∧ t.blk.sage = s.blk.sage ∧ t.mem = s.mem) ∧
    (∀ (blks : List (BitVec 144)) (k : BitVec 144), s.blk.ports[p].st = .active → lastFour 6 blks = true →
      blks.getLast? = some k → exec (.patternEntry p (.far blks) []) s
        = .next (s.upd (modPort p (fun x => { x with st := .pattern, pattern := BitVec.ofNat 2 (byteOf k 6), patFar := true }) s.blk))) ∧
    (s.blk.ports[p].st = .pattern → rwf (lnkBase p.val + 0x1C) 0 0 s.blk = 0 →
      s.blk.ports[p].rate = BitVec.ofNat 4 (portRate p s.blk) →
      ∃ t, exec (.patternExit p) s = .next t ∧ t.blk.ports[p].st = .recover ∧ t.blk.ports[p].nextSeq = s.blk.ports[p].nextSeq
        ∧ (ctr (lnkBase p.val + 0x24) t.blk).toNat = min ctrMax ((ctr (lnkBase p.val + 0x24) s.blk).toNat + 1)
        ∧ t.mem = s.mem ∧ ∀ q, q ≠ p → t.blk.ports[q] = s.blk.ports[q]))

/-! ### Flits (chapter 7) -/

/-- One flit time of the transmitter (R205), here with no fence and no write of the port's block waiting: a flit that waits for
replay goes out again; with 64 flits unacknowledged, or nothing to send, a null flit goes out and takes no sequence number; a
completion that waits goes out in a new sequenced flit, spends a credit of pool 0 (R198), is kept for replay, and its tag ends
with the host's acknowledgement of that flit (R197). The nak timer sends the nak again, up to four in all, and then puts the
port into RECOVER; the replay timer starts a replay from the oldest flit, and a second expiry with no acknowledgement puts the
port into RECOVER (R206). -/
def Obligations.FlitTimesAndTimers : Prop :=
  (∀ (p : PortId) (s : State), s.blk.ports[p].st = .active → s.blk.ports[p].idleTx = false → s.blk.ports[p].fences = [] →
    pendingAt (lnkBase p.val) s.blk = false → s.blk.regs.badPar = [] →
    let x := s.blk.ports[p]
    let sent := fun t : State => exec (.flitTransmit p) s = .next t ∧ onlyPort p s t ∧ t.blk.ports[p].txFlits = x.txFlits + 1
      ∧ t.blk.ports[p].txMarkers = x.txMarkers + (if x.txFlits % 4096 = 0 then 1 else 0)
      ∧ t.blk.ports[p].nakOut = false ∧ t.blk.ports[p].oldest = x.oldest ∧ t.blk.ports[p].expected = x.expected
    (x.replayPtr ≠ x.nextSeq → ∃ t, sent t ∧ t.blk.ports[p].replayPtr = x.replayPtr + 1 ∧ t.blk.ports[p].nextSeq = x.nextSeq
      ∧ t.blk.ports[p].rb = x.rb ∧ t.blk.ports[p].txCmpl = x.txCmpl ∧ t.blk.ports[p].far = x.far) ∧
    (x.replayPtr = x.nextSeq → (x.nextSeq - x.oldest).toNat = 64 → ∃ t, sent t ∧ t.blk.ports[p].nextSeq = x.nextSeq
      ∧ t.blk.ports[p].replayPtr = x.replayPtr ∧ t.blk.ports[p].rb = x.rb ∧ t.blk.ports[p].txCmpl = x.txCmpl) ∧
    (x.replayPtr = x.nextSeq → (x.nextSeq - x.oldest).toNat ≠ 64 → x.txCmpl = [] → x.txReg = [] → x.txEv = [] → x.txData = [] →
      x.ret = Vector.replicate 4 0 → ∃ t, sent t ∧ t.blk.ports[p].nextSeq = x.nextSeq ∧ t.blk.ports[p].rb = x.rb) ∧
    (∀ r : BitVec 64, x.replayPtr = x.nextSeq → (x.nextSeq - x.oldest).toNat ≠ 64 → x.txCmpl = [r] → x.txReg = [] → x.txEv = [] →
      x.txData = [] → 0 < x.far[0] → ∃ t, sent t ∧ t.blk.ports[p].nextSeq = x.nextSeq + 1
        ∧ t.blk.ports[p].replayPtr = x.nextSeq + 1 ∧ t.blk.ports[p].txCmpl = [] ∧ t.blk.ports[p].far = x.far.set 0 (x.far[0] - 1)
        ∧ (∀ u ∈ t.blk.ports[p].tags, u.1 = x.itag (r.toNat % 1024) → u.2.done = some x.nextSeq)
        ∧ (mget t.blk.ports[p].rb (x.nextSeq.toNat % 64) {}).types = 3
        ∧ (mget t.blk.ports[p].rb (x.nextSeq.toNat % 64) {}).slots = BitVec.ofNat 2560 r.toNat)) ∧
  (∀ (p : PortId) (s : State), s.blk.ports[p].st = .active → s.blk.ports[p].idleRx = false → s.blk.ports[p].idleTx = false →
    s.blk.ports[p].discard = false →
    (s.blk.ports[p].nakState = true → s.blk.ports[p].naks < 4 →
      exec (.nakTimerExpiry p) s
        = .next (s.upd (modPort p (fun x => { x with naks := x.naks + 1, nakOut := true }) s.blk))) ∧
    (s.blk.ports[p].nakState = true → 4 ≤ s.blk.ports[p].naks → s.blk.ports[p].rate = BitVec.ofNat 4 (portRate p s.blk) →
      ∃ t, exec (.nakTimerExpiry p) s = .next t ∧ t.blk.ports[p].st = .recover ∧ t.mem = s.mem) ∧
    (s.blk.ports[p].oldest ≠ s.blk.ports[p].nextSeq → s.blk.ports[p].timeouts = 0 →
      exec (.replayTimerExpiry p) s
        = .next (s.upd (modPort p (fun x => { x with timeouts := 1, replayPtr := x.oldest }) s.blk))) ∧
    (s.blk.ports[p].oldest ≠ s.blk.ports[p].nextSeq → 1 ≤ s.blk.ports[p].timeouts →
      s.blk.ports[p].rate = BitVec.ofNat 4 (portRate p s.blk) →
      ∃ t, exec (.replayTimerExpiry p) s = .next t ∧ t.blk.ports[p].st = .recover ∧ t.mem = s.mem))

/-- The receiver (R203, R205), here between markers and with nothing observed of the lanes: a flit whose CRC-64 is wrong is
counted, and asks for replay unless a nak is out already; a good flit ahead of the expected one asks for replay too; a flit in
sequence advances the expected number, becomes the last good one, its credit returns are added, and the tags whose final record
went out in a flit that it acknowledges are free again (R197). -/
def Obligations.FlitsArrive : Prop :=
  ∀ (p : PortId) (wire : BitVec 2880) (s : State), s.blk.ports[p].st = .active → s.blk.ports[p].idleRx = false →
    s.blk.ports[p].discard = false → s.blk.ports[p].rxFlits % 4096 ≠ 0 → s.blk.regs.badPar = [] →
    let x := s.blk.ports[p]
    let f : BitVec 2880 := BitVec.ofNat 2880 (natOfBytes (scrFlit (lanesOf x.widthRx) x.rxScr (bytesOf 360 wire)).2)
    (flitCrc f ≠ fCrc f → ∃ t, exec (.flitReceive p wire {}) s = .next t ∧ t.mem = s.mem
      ∧ (ctr (lnkBase p.val + 0x20) t.blk).toNat = min ctrMax ((ctr (lnkBase p.val + 0x20) s.blk).toNat + 1)
      ∧ t.blk.ports[p].crcInPeriod = x.crcInPeriod + 1 ∧ t.blk.ports[p].nakState = true
      ∧ t.blk.ports[p].nakOut = (!x.nakState || x.nakOut) ∧ t.blk.ports[p].expected = x.expected
      ∧ t.blk.ports[p].lastGood = x.lastGood ∧ t.blk.ports[p].rxq = x.rxq ∧ t.blk.ports[p].rxFlits = x.rxFlits + 1
      ∧ ∀ q, q ≠ p → t.blk.ports[q] = s.blk.ports[q]) ∧
    (flitCrc f = fCrc f → isNull f = false → fSeq f ≠ x.expected → (fSeq f - x.expected).toNat < 32768 →
      ∃ t, exec (.flitReceive p wire {}) s = .next t ∧ onlyPort p s t ∧ t.blk.ports[p].nakState = true
        ∧ t.blk.ports[p].nakOut = (!x.nakState || x.nakOut) ∧ t.blk.ports[p].expected = x.expected
        ∧ t.blk.ports[p].rxq = x.rxq ∧ t.blk.ports[p].far = x.far) ∧
    (flitCrc f = fCrc f → isNull f = false → fSeq f = x.expected → (∀ k, k < 5 → fType f k = 0) →
      ∃ t, exec (.flitReceive p wire {}) s = .next t ∧ onlyPort p s t ∧ t.blk.ports[p].expected = x.expected + 1
        ∧ t.blk.ports[p].lastGood = x.expected ∧ t.blk.ports[p].nakState = false ∧ t.blk.ports[p].rxq = x.rxq
        ∧ t.blk.ports[p].rxSeqd = x.rxSeqd + 1
        ∧ ((fAck f + 1 - x.oldest).toNat ≤ (x.nextSeq - x.oldest).toNat → ∀ u ∈ t.blk.ports[p].tags, ∀ q, u.2.done = some q →
            (fAck f + 1 - x.oldest).toNat ≤ (q - x.oldest).toNat)
        ∧ ∀ k : Fin 4, t.blk.ports[p].far[k] = x.far[k] + fCredit f k.val)

/-! ### Data requests -/

/-- The refusals of a READ, in the order of R12: ACCESS_ERROR while the stack serves no data (R90, R412, R470), NO_HANDLE,
ACCESS_ERROR for a port the handle's mask excludes (R220) or lines beyond the handle, BAD_ARG for a start that is no multiple of
the length (R187). A refused READ sends no DATA slot, one CMPL record of kind READ, and gives its REQ credit back; nothing else
changes. -/
def Obligations.ReadRefusals : Prop :=
  ∀ (p : PortId) (e mask : BitVec 64) (arr : Nat) (s : State), waitsAlone p (.req e mask s.blk.ports[p].gen arr) s →
    (hdrOf e).op = 1 →
    let h := hdrOf e
    let x := s.blk.ports[p]
    let answered := fun st : Status => ∃ t, exec (.read p e) s = .next t ∧ onlyPort p s t ∧ t.blk.ports[p].rxq = []
      ∧ t.blk.ports[p].txCmpl = x.txCmpl ++ [cmplRecord (h.tag + 1024 * x.gen) st 2 h.handle s.blk.time]
      ∧ t.blk.ports[p].txData = x.txData ∧ t.blk.ports[p].ret = x.ret.set 0 (x.ret[0] + 1)
    (refusing s.blk = true → answered .accessError) ∧
    (refusing s.blk = false → handleSize s.blk h.handle = none → answered .noHandle) ∧
    (refusing s.blk = false → ∀ n, handleSize s.blk h.handle = some n →
      ((portsOf s.blk h.handle).getLsbD p.val = false → answered .accessError) ∧
      ((portsOf s.blk h.handle).getLsbD p.val = true →
        (1024 * n < h.line + 2 ^ h.len → answered .accessError) ∧
        (h.line + 2 ^ h.len ≤ 1024 * n → h.line % 2 ^ h.len ≠ 0 → answered .badArg)))

/-- A READ that passes its checks (R28 to R31): from a segment of an OFFLINE channel it completes with CHANNEL_OFFLINE (R188);
from a segment never written it answers every line with zeros, touching no DRAM (R30); otherwise its lines enter the read queue
of their channel in order, where no write waits and they fit (R291). -/
def Obligations.ReadsAreServed : Prop :=
  ∀ (p : PortId) (e mask : BitVec 64) (arr g l : Nat) (s : State), waitsAlone p (.req e mask s.blk.ports[p].gen arr) s →
    (hdrOf e).op = 1 → requestCheck s.blk p (hdrOf e) = .ok → lookupHeld s.blk (hdrOf e).handle (hdrOf e).line = false →
    placeOf s.blk (hdrOf e).handle (hdrOf e).line = some (g, l) →
    let h := hdrOf e
    let x := s.blk.ports[p]
    let tag := h.tag + 1024 * x.gen
    let c := cid (segChan g)
    (s.blk.chans[c].st = .offline → ∃ t, exec (.read p e) s = .next t ∧ onlyPort p s t
      ∧ t.blk.ports[p].txCmpl = x.txCmpl ++ [cmplRecord tag .channelOffline 2 h.handle s.blk.time]
      ∧ t.blk.ports[p].txData = x.txData) ∧
    (s.blk.chans[c].st ≠ .offline → isWritten s.blk g = false → ∃ t, exec (.read p e) s = .next t ∧ onlyPort p s t
      ∧ t.blk.ports[p].txData = x.txData ++ ((List.range (2 ^ h.len)).map fun i => ({ tag := tag, line := i, poison := false, d := 0 } : TxData))
      ∧ t.blk.ports[p].txCmpl = x.txCmpl) ∧
    (s.blk.chans[c].st ≠ .offline → isWritten s.blk g = true → s.blk.chans[c].xbar = [] → s.blk.chans[c].wq = [] →
      s.blk.chans[c].rq.length + 2 ^ h.len ≤ 128 → wqUsed s.blk.chans[c] ≤ 64 →
      ∃ t, exec (.read p e) s = .next t ∧ t.mem = s.mem ∧ t.pending = s.pending
        ∧ t.blk.chans[c].rq.map Acc.pla = s.blk.chans[c].rq.map Acc.pla ++ ((List.range (2 ^ h.len)).map fun i => plaOf g (l + i))
        ∧ (∀ d, d ≠ c → t.blk.chans[d] = s.blk.chans[d]) ∧ (∀ q, q ≠ p → t.blk.ports[q] = s.blk.ports[q])
        ∧ t.blk.ports[p].txData = x.txData ∧ t.blk.ports[p].txCmpl = x.txCmpl ∧ t.blk.ports[p].rxq = [])

/-- The headers of WRITE and WRITE_MASKED (R189, R190): an accepted one waits for its lines; a refused one keeps its status
until they have come, gives its REQ units back, two for a masked write (R198), and executes nothing. -/
def Obligations.WriteHeadersWait : Prop :=
  ∀ (p : PortId) (e mask : BitVec 64) (arr : Nat) (s : State), waitsAlone p (.req e mask s.blk.ports[p].gen arr) s →
    let h := hdrOf e
    let x := s.blk.ports[p]
    let st := requestCheck s.blk p h
    let waits := fun (t : State) (m : Option (BitVec 64)) (n : Nat) => onlyPort p s t ∧ t.blk.ports[p].rxq = []
      ∧ t.blk.ports[p].writes = [{ tag := h.tag + 1024 * x.gen, handle := h.handle, line := h.line, count := n, mask := m, cls := h.cls
                                   hint := h.hint, refused := if st = .ok then none else some st, arr := arr }]
      ∧ t.blk.ports[p].txCmpl = x.txCmpl
    (h.op = 2 → ∃ t, exec (.write p e) s = .next t ∧ waits t none (2 ^ h.len)
      ∧ t.blk.ports[p].ret = (if st = .ok then x.ret else x.ret.set 0 (x.ret[0] + 1))) ∧
    (h.op = 3 → ∃ t, exec (.writeMasked p e mask) s = .next t ∧ waits t (some mask) 1
      ∧ t.blk.ports[p].ret = (if st = .ok then x.ret else x.ret.set 0 (x.ret[0] + 2)))

/-- The last line of a write (R33, R189, R190): a refused write discards it, gives its DATA unit back and completes with the
status of its lookup; a full-line write of one line to a segment written before, on an idle channel and in time, enters the
write queue of its channel, and completes with OK there. -/
def Obligations.WriteLinesComplete : Prop :=
  ∀ (p : PortId) (tag : BitVec 10) (poison : Bool) (d : Line) (w : WPend) (s : State),
    s.blk.ports[p].rxq = [.data (tag.toNat + 1024 * s.blk.ports[p].gen) 0 poison d s.blk.ports[p].gen] →
    s.blk.ports[p].writes = [w] → w.tag = tag.toNat + 1024 * s.blk.ports[p].gen → w.count = 1 → w.got = [] →
    s.blk.ports[p].st ≠ .disabled →
    let x := s.blk.ports[p]
    (∀ st, w.refused = some st → ∃ t, exec (.writeDataLine p tag 0 poison d) s = .next t ∧ onlyPort p s t
      ∧ t.blk.ports[p].writes = [] ∧ t.blk.ports[p].rxq = []
      ∧ t.blk.ports[p].txCmpl = x.txCmpl ++ [cmplRecord w.tag st 1 w.handle s.blk.time]
      ∧ t.blk.ports[p].ret = x.ret.set 1 (x.ret[1] + 1)) ∧
    (∀ g l, w.refused = none → w.mask = none → lookupHeld s.blk w.handle w.line = false →
      placeOf s.blk w.handle w.line = some (g, l) → isWritten s.blk g = true →
      let c := cid (segChan g)
      s.blk.chans[c].st ≠ .offline → s.blk.chans[c].xbar = [] → s.blk.chans[c].wq = [] → s.blk.chans[c].fills = [] →
      s.blk.chans[c].await = [] → rqUsed s.blk.chans[c] ≤ 128 → wqUsed s.blk.chans[c] < 64 → s.blk.now - w.arr ≤ target s.blk w.cls →
      ∃ t, exec (.writeDataLine p tag 0 poison d) s = .next t ∧ t.mem = s.mem ∧ t.pending = s.pending
        ∧ (t.blk.chans[c].wq.map fun a => (a.pla, a.data)) = [(plaOf g l, encodeP poison d)]
        ∧ t.blk.ports[p].writes = [] ∧ t.blk.ports[p].rxq = []
        ∧ t.blk.ports[p].txCmpl = x.txCmpl ++ [cmplRecord w.tag .ok 1 w.handle s.blk.time]
        ∧ (∀ q, q ≠ p → t.blk.ports[q] = s.blk.ports[q]) ∧ (∀ k, k ≠ c → t.blk.chans[k] = s.blk.chans[k]))

/-- A FENCE with nothing of its scope before it completes with OK at once, one with an earlier tag outstanding waits for it
(R210); a request with an undefined opcode completes with what its handle and its port are refused for (R12, R220), and else
with BAD_ARG (R186). Both give their REQ unit back and complete with kind OTHER. -/
def Obligations.FencesAndUndefined : Prop :=
  ∀ (p : PortId) (e mask : BitVec 64) (arr : Nat) (u : TagUse) (s : State),
    waitsAlone p (.req e mask s.blk.ports[p].gen arr) s →
    let h := hdrOf e
    let x := s.blk.ports[p]
    let tag := h.tag + 1024 * x.gen
    (5 ≤ h.op → ∃ t, exec (.undefinedOpcodeRequest p e) s = .next t ∧ onlyPort p s t ∧ t.blk.ports[p].rxq = []
      ∧ t.blk.ports[p].txCmpl = x.txCmpl ++ [cmplRecord tag
          (if handleCheck s.blk p h.handle = .ok then .badArg else handleCheck s.blk p h.handle) 3 h.handle s.blk.time]
      ∧ t.blk.ports[p].ret = x.ret.set 0 (x.ret[0] + 1)) ∧
    (h.op = 4 → h.len ≤ 1 → handleCheck s.blk p h.handle = .ok → x.tags = [(tag, u)] →
      ∃ t, exec (.fence p e) s = .next t ∧ onlyPort p s t ∧ t.blk.ports[p].rxq = [] ∧ t.blk.ports[p].fences = []
        ∧ t.blk.ports[p].txCmpl = x.txCmpl ++ [cmplRecord tag .ok 3 h.handle s.blk.time]
        ∧ t.blk.ports[p].ret = x.ret.set 0 (x.ret[0] + 1)) ∧
    (∀ (n : Nat) (v : TagUse), h.op = 4 → h.len = 1 → handleCheck s.blk p h.handle = .ok → x.tags = [(n, v), (tag, u)] → n ≠ tag →
      v.ord < u.ord → v.done = none → s.blk.ops.descs = [] →
      ∃ t, exec (.fence p e) s = .next t ∧ onlyPort p s t ∧ t.blk.ports[p].rxq = [] ∧ t.blk.ports[p].txCmpl = x.txCmpl
        ∧ t.blk.ports[p].fences = [{ tag := tag, handle := h.handle, all := true, ord := u.ord, waits := [n] }])

/-- A register record is executed and answered on its own port, and gives its unit of pool 2 back (R193, R194): a READ32 of a
channel's queue settings is answered with type 9, OK and the live value; a WRITE32 that does not enable all four bytes, and an
access of 64 bits at an address that is no multiple of 8, with ACCESS_ERROR, changing nothing. -/
def Obligations.RegisterRecords : Prop :=
  ∀ (p : PortId) (r : BitVec 128) (s : State), waitsAlone p (.reg r s.blk.ports[p].gen) s → 5 ≤ s.blk.start.step →
    s.blk.pwr.state = 0 → s.blk.defers = [] →
    let x := s.blk.ports[p]
    let answered := fun (t : State) (a : BitVec 128) => exec (.registerRecord p r) s = .next t ∧ t.mem = s.mem
      ∧ t.blk.ports[p].txReg = x.txReg ++ [a] ∧ t.blk.ports[p].rxq = [] ∧ t.blk.ports[p].ret = x.ret.set 2 (x.ret[2] + 1)
      ∧ t.blk.regs.live = s.blk.regs.live ∧ t.blk.regs.pend = s.blk.regs.pend ∧ t.blk.hnd = s.blk.hnd
    (∀ c : ChanId, recType r = 1 → recAddr r = BitVec.ofNat 32 (chnBase c.val + 4) → ∃ t, onlyPort p s { t with blk := { t.blk with resp := s.blk.resp } } ∧
      answered t (recResponse 9 (some .ok) none r (rw (chnBase c.val + 4) s.blk) 0)) ∧
    (recType r = 2 → recEn r % 16 ≠ 15 → (recAddr r).toNat % 4 = 0 → s.blk.sage.safe = false → s.blk.regs.badPar.contains 0x14 = false →
      reactionOf s.blk (fs .regAccess) = 0 →
      ∃ t, answered t (recResponse 10 (some .accessError) none r (recLo r) (recHi r)) ∧ (rcGet 0x18 t.blk).getLsbD 0 = true) ∧
    (recType r = 4 → (recAddr r).toNat % 8 ≠ 0 → s.blk.sage.safe = false → reactionOf s.blk (fs .regAccess) = 0 →
      ∃ t, answered t (recResponse 10 (some .accessError) (some .accessError) r (recLo r) (recHi r))
        ∧ (rcGet 0x18 t.blk).getLsbD 1 = true)

/-! ### Channels (chapters 11 and 12) -/

/-- The end of a segment fill (R30, R35, R295): the channel serves again; the writes behind the fill complete in order, here the
one that has entered its queue; a read behind it, whose line a queued write holds, is answered from the write queue. The burst
leaves the banks of its slice with closed rows, and each has activated the segment's last row (R316). -/
def Obligations.FillsEnd : Prop :=
  ∀ (c : ChanId) (g : Nat) (rest : List Nat) (raws : List Bool) (s : State), s.blk.chans[c].fills = g :: rest → g ∉ rest →
    s.blk.chans[c].st = .run → s.blk.chans[c].xbar = [] → s.blk.chans[c].banks = [] → rwf (chnBase c.val + 0x14) 15 0 s.blk = 0 →
    let ended := fun t : State => exec (.segmentFillDone c raws) s = .next t ∧ t.mem = s.mem ∧ t.pending = s.pending
      ∧ t.blk.chans[c].fills = rest ∧ t.blk.chans[c].wq = s.blk.chans[c].wq ∧ (∀ d, d ≠ c → t.blk.chans[d] = s.blk.chans[d])
      ∧ (∀ i, i < 4 → (t.blk.chans[c].bank (4 * segSlice g + i)).actRow = some (8 * segIn g + 7)
          ∧ (t.blk.chans[c].bank (4 * segSlice g + i)).row = none)
    (∀ (w : WDone) (st : Status), s.blk.chans[c].rq = [] → s.blk.chans[c].await = [w] → w.pseg = g → w.st = some st →
      s.blk.ports[w.port].sends w.tag = true →
      ∃ t, ended t ∧ t.blk.chans[c].await = [] ∧ t.blk.srl = s.blk.srl
        ∧ t.blk.ports[w.port].txCmpl = s.blk.ports[w.port].txCmpl ++ [cmplRecord w.tag st 1 w.handle s.blk.time]
        ∧ ∀ q, q ≠ w.port → t.blk.ports[q] = s.blk.ports[q]) ∧
    (∀ (q : Acc) (v : Stored) (p : PortId) (tag off h line : Nat), s.blk.chans[c].rq = [q] → s.blk.chans[c].await = [] → q.pseg = g →
      q.held = some v → q.src = .read p tag off h line → (∀ w ∈ s.blk.chans[c].wq, w.ord ≠ q.ord) → s.blk.ports[p].sends tag = true →
      ∃ t, ended t ∧ t.blk.chans[c].rq = []
        ∧ t.blk.ports[p].txData = s.blk.ports[p].txData
          ++ [{ tag := tag, line := off, poison := (decodeLine false v).1 == .poisoned, d := lineOf v }])

/-- The state machine of a bank (R137 to R139, R303, R304): the end of its timer is event 31, whose entry names the next state
and whether a timer runs on; an entry that is not valid stops the bank until its fault is cleared, with CHN_SCH_EVT.table. -/
def Obligations.BankMachines : Prop :=
  ∀ (c : ChanId) (k : Fin 64) (s : State), (s.blk.chans[c].bank k.val).timed = true →
    (bankTakes c k.val 31 0 s → entTimer (bankEntry s.blk c.val k.val 31) = 0 →
      ∃ t, exec (.bankTimerExpiry c k) s = .next t ∧ onlyChan c s t
        ∧ (t.blk.chans[c].bank k.val).state = entNext (bankEntry s.blk c.val k.val 31)
        ∧ (t.blk.chans[c].bank k.val).timed = false
        ∧ (t.blk.chans[c].bank k.val).row = (s.blk.chans[c].bank k.val).row
        ∧ t.blk.chans[c].rq = s.blk.chans[c].rq ∧ t.blk.chans[c].wq = s.blk.chans[c].wq) ∧
    ((s.blk.chans[c].bank k.val).stopped = false → s.blk.chans[c].st ≠ .offline →
      entValid (bankEntry s.blk c.val k.val 31) = false → reactionOf s.blk (fs .chnTable) ≤ 2 →
      ∃ t, exec (.bankTimerExpiry c k) s = .next t ∧ t.mem = s.mem ∧ (t.blk.chans[c].bank k.val).stopped = true
        ∧ (rcGet (chnBase c.val + 0x20) t.blk).getLsbD 2 = true ∧ ∀ d, d ≠ c → t.blk.chans[d] = s.blk.chans[d])

/-- A cycle of the scheduler (R296, R297), beside an engine that has nothing to do: a channel that is held, stalled or in the
wait after an exit issues no command and only counts the cycle; the one read that waits, to a line in a remap entry (R336), goes
out at once, counted as a row hit, and touches no bank. What the scheduler picks (R296, R297) waits in a queue of the channel,
may issue now, and in its queue nothing that may issue now has a higher effective priority. -/
def Obligations.SchedulerCyclesAndPicks : Prop :=
  (∀ (c : ChanId) (raw : Bool) (s : State), s.blk.chans[c].srWant = false → s.blk.chans[c].abort = false →
    s.blk.regs.badPar = [] → s.blk.regs.forced = [] → unitsRest c s →
    (s.blk.chans[c].held = true ∨ s.blk.chans[c].stall = true
        ∨ (s.blk.chans[c].st ≠ .powerdown ∧ s.blk.chans[c].cycle + 1 < s.blk.chans[c].blockTil) →
      exec (.schedulerCycle c raw) s
        = .next (s.upd (modChan c (fun x => { x with cycle := x.cycle + 1 }) s.blk))) ∧
    (∀ (e : Acc) (r : Remap), s.blk.chans[c].st = .run → s.blk.chans[c].held = false → s.blk.chans[c].stall = false →
      s.blk.chans[c].blockTil ≤ s.blk.chans[c].cycle + 1 → s.blk.chans[c].banks = [] → s.blk.chans[c].fills = [] →
      s.blk.chans[c].maintWait = [] → s.blk.chans[c].xbar = [] → s.blk.chans[c].wq = [] → s.blk.chans[c].inflight = [] →
      s.blk.chans[c].rq = [e] → e.isRead = true → e.held = none → remapOf s.blk.chans[c] e.pla = some r →
      s.blk.srl.rebuild = [] → aged s.blk e = false → s.blk.chans[c].divNext = none →
      ∃ t, exec (.schedulerCycle c raw) s = .next t ∧ t.mem = s.mem ∧ t.pending = s.pending ∧ t.blk.chans[c].rq = []
        ∧ t.blk.chans[c].inflight = [e] ∧ t.blk.chans[c].banks = [] ∧ t.blk.chans[c].cycle = s.blk.chans[c].cycle + 1
        ∧ t.blk.chans[c].nHit = s.blk.chans[c].nHit + (if e.miss then 0 else 1) ∧ t.blk.ports = s.blk.ports
        ∧ ∀ d, d ≠ c → t.blk.chans[d] = s.blk.chans[d])) ∧
  (∀ (b : Block) (c : Nat) (e : Acc), pickAcc b c = some e →
    issuable b c e = true ∧
    ((e ∈ b.chans[cid c].rq ∧ ∀ q ∈ b.chans[cid c].rq, issuable b c q = true → effPrio b q ≤ effPrio b e) ∨
     (e ∈ b.chans[cid c].wq ∧ ((∃ u ∈ b.chans[cid c].wq, u.urgent = true) ∨
        ∀ q ∈ b.chans[cid c].wq, issuable b c q = true → effPrio b q ≤ effPrio b e))))

/-- Periodic refresh (R308 to R312): the turns come in order; a refresh due by its turn is issued, cycling the next 3 rows of
the bank once the waits of its row and of the channel are over; one that was issued early is satisfied; one postponed for queued
requests of high priority is owed with 8 ticks to go and counted, here of a bank that owes none at its deadline; one at its
deadline is forced and counted, with CHN_SCH_EVT.refresh_forced. A channel that does not tick leaves everything. A refresh tick
(R38, R308): the next bank group falls due, its first bank takes its turn with the tick, and the channel adopts the refresh
multiplier and the throttle level of the last thermal sample; here of a channel with closed rows, nothing owed and no write
waiting, whose clock divisor stays. -/
def Obligations.RefreshRulesAndTicks : Prop :=
  (∀ (c : ChanId) (k : Fin 64) (s : State), s.blk.chans[c].st = .run → s.blk.chans[c].stall = false →
    let y := s.blk.chans[c].bank k.val
    (s.blk.chans[c].dueLeft.head? = some k.val → y.early = true →
      ∃ t, exec (.perBankRefreshDue c k) s = .next t ∧ onlyChan c s t ∧ k.val ∉ t.blk.chans[c].dueLeft
        ∧ t.blk.chans[c].bank k.val = { y with early := false }) ∧
    (s.blk.chans[c].dueLeft.head? = some k.val → y.early = false → y.owed.head? ≠ some 0 → postponed s.blk c.val k.val = true →
      ∃ t, exec (.perBankRefreshDue c k) s = .next t ∧ t.mem = s.mem ∧ k.val ∉ t.blk.chans[c].dueLeft
        ∧ t.blk.chans[c].bank k.val = { y with owed := y.owed ++ [8] }
        ∧ (ctr (chnBase c.val + 0x60) t.blk).toNat = min ctrMax ((ctr (chnBase c.val + 0x60) s.blk).toNat + 1)
        ∧ ∀ d, d ≠ c → t.blk.chans[d] = s.blk.chans[d]) ∧
    (s.blk.chans[c].dueLeft.head? ≠ some k.val → exec (.perBankRefreshDue c k) s = .next s) ∧
    (s.blk.chans[c].dueLeft.head? = some k.val → y.early = false → postponed s.blk c.val k.val = false → y.owed = [] →
      y.row = none → bankTakes c k.val 4 5 s →
      ∃ t, exec (.perBankRefreshDue c k) s = .next t ∧ onlyChan c s t ∧ k.val ∉ t.blk.chans[c].dueLeft
        ∧ (t.blk.chans[c].bank k.val).rowCtr = (y.rowCtr + 3) % 24576
        ∧ (t.blk.chans[c].bank k.val).tBusy = restAt s.blk c.val k.val s.blk.chans[c] + tpar s.blk c.val 0x0D) ∧
    (y.owed.head? = some 0 → y.row = none → bankTakes c k.val 4 5 s →
      ∃ t, exec (.forcedRefresh c k) s = .next t ∧ t.mem = s.mem
        ∧ (t.blk.chans[c].bank k.val).rowCtr = (y.rowCtr + 3) % 24576 ∧ (t.blk.chans[c].bank k.val).owed = y.owed.drop 1
        ∧ (ctr (chnBase c.val + 0x64) t.blk).toNat = min ctrMax ((ctr (chnBase c.val + 0x64) s.blk).toNat + 1)
        ∧ (rcGet (chnBase c.val + 0x20) t.blk).getLsbD 1 = true ∧ ∀ d, d ≠ c → t.blk.chans[d] = s.blk.chans[d])) ∧
  (∀ (c : ChanId) (s : State), s.blk.chans[c].st = .run → s.blk.chans[c].stall = false → s.blk.chans[c].banks = [] →
    s.blk.chans[c].dueLeft = [] → pendingAt (chnBase c.val) s.blk = false → s.blk.regs.badPar = [] →
    let k := (groupBanks s.blk.chans[c].group).headD 0
    postponed s.blk c.val k = false → bankTakes c k 4 5 s →
    ((throttleCurve s.blk 3).eval s.blk.chans[c].levelNext).toNat = s.blk.chans[c].div →
    ∃ t, exec (.refreshTick c) s = .next t ∧ onlyChan c s t ∧ t.blk.chans[c].ticks = s.blk.chans[c].ticks + 1
      ∧ t.blk.chans[c].group = 1 - s.blk.chans[c].group ∧ t.blk.chans[c].dueLeft = sdel k (groupBanks s.blk.chans[c].group)
      ∧ (t.blk.chans[c].bank k).rowCtr = 3
      ∧ t.blk.chans[c].mult = s.blk.chans[c].multNext ∧ t.blk.chans[c].level = s.blk.chans[c].levelNext
      ∧ t.blk.chans[c].mask = BitVec.ofNat 4 ((throttleCurve s.blk 2).eval s.blk.chans[c].levelNext).toNat
      ∧ t.blk.chans[c].rq = s.blk.chans[c].rq ∧ t.blk.chans[c].wq = s.blk.chans[c].wq ∧ t.blk.chans[c].st = .run)

/-- Power-down (R303, R318, R319): an idle channel whose banks take event 5 with action 6 enters power-down; a channel that has
work leaves it by event 6 with action 7, and issues no command before tXP. -/
def Obligations.PowerDown : Prop :=
  ∀ (c : ChanId) (s : State), s.blk.chans[c].banks = [] →
    (∀ raws : List Bool, mayPowerDown s.blk c.val = true → (∀ k, k < 64 → bankTakes c k 5 6 s) →
      ∃ t, exec (.powerDownEntry c raws) s = .next t ∧ onlyChan c s t ∧ t.blk.chans[c].st = .powerdown
        ∧ t.blk.chans[c].rq = s.blk.chans[c].rq ∧ t.blk.chans[c].wq = s.blk.chans[c].wq ∧ t.blk.chans[c].lfsr = s.blk.chans[c].lfsr) ∧
    (s.blk.chans[c].st = .powerdown → wakes s.blk.chans[c] = true → (∀ k, k < 64 → bankTakes c k 6 7 s) →
      ∃ t, exec (.powerDownExit c) s = .next t ∧ onlyChan c s t ∧ t.blk.chans[c].st = .run
        ∧ t.blk.chans[c].blockTil = s.blk.chans[c].cycle + tpar s.blk c.val 0x0E ∧ t.blk.chans[c].idleAt = s.blk.now
        ∧ t.blk.chans[c].rq = s.blk.chans[c].rq ∧ t.blk.chans[c].wq = s.blk.chans[c].wq) ∧
    (wakes s.blk.chans[c] = false → exec (.powerDownExit c) s = .next s)

/-- The return of a host read (R185, R328): a clean line goes to its DATA slot as it is; a poisoned one is marked and counted in
CHN_POISON_CNT; in both the oldest read in flight is over, and DRAM stays. -/
def Obligations.ReadReturns : Prop :=
  ∀ (c : ChanId) (err : Stored) (e : Acc) (p : PortId) (tag off h line : Nat) (rest : List Acc) (s : State),
    s.blk.chans[c].inflight = e :: rest → e.src = .read p tag off h line → s.blk.chans[c].xbar = [] → s.blk.chans[c].served = [] →
    s.blk.regs.forced = [] → s.blk.ports[p].sends tag = true → s.blk.now - e.arr ≤ target s.blk e.cls →
    let v := storedAt s.blk s.mem c.val e.pla ^^^ e.err ^^^ err
    let returned := fun (t : State) (poison : Bool) => exec (.dramReadReturn c err) s = .next t ∧ t.mem = s.mem
      ∧ t.pending = s.pending ∧ t.blk.chans[c].inflight = rest ∧ t.blk.chans[c].rq = s.blk.chans[c].rq
      ∧ t.blk.ports[p].txData = s.blk.ports[p].txData ++ [{ tag := tag, line := off, poison := poison, d := lineOf v }]
      ∧ t.blk.ports[p].txCmpl = s.blk.ports[p].txCmpl ∧ (∀ q, q ≠ p → t.blk.ports[q] = s.blk.ports[q])
      ∧ (∀ d, d ≠ c → t.blk.chans[d] = s.blk.chans[d]) ∧ t.blk.sage = s.blk.sage
    ((decodeLine e.double v).1 = .clean → ∃ t, returned t false ∧ t.blk.regs = s.blk.regs) ∧
    ((decodeLine e.double v).1 = .poisoned → ∃ t, returned t true ∧ t.blk.chans[c].lastOut = 3
      ∧ t.blk.chans[c].lastPla = BitVec.ofNat 26 e.pla
      ∧ (ctr (chnBase c.val + 0x12C) t.blk).toNat = min ctrMax ((ctr (chnBase c.val + 0x12C) s.blk).toNat + 1))

/-- Dill and the repairs (R328, R331, R332, R338): the reads of the Dill walk, of a verify and of a soft row repair go through
the channel's queues, behind the pacer (R250, R274), each with the bits that its command says DRAM returns flipped. Dill puts
the next line of its walk there, one at a time; a line of the walk that DRAM returns clean changes nothing but the walk, which
goes on to the next line, and a line verified clean ends its scrub. The handshake of a soft row repair waits until the spare row
has the row's 32 lines and no write of the row waits; then the row's address switches: each line of the row is held by the spare
row from then on, and the repair is counted. -/
def Obligations.DillAndRepair : Prop :=
  ∀ (c : ChanId) (err : Stored) (s : State),
    let g := segOf c.val 0 0 + s.blk.chans[c].dillSeg
    let a := plaOf g s.blk.chans[c].dillLine
    (s.blk.regs.badPar = [] → dillMay s.blk c.val = true → s.blk.srl.rebuild = [] →
      (maintPending s.blk.chans[c] (· == .dill) = true → exec (.dillRead c err) s = .next s) ∧
      (maintPending s.blk.chans[c] (· == .dill) = false → dillSkips s.blk g = false →
        ∃ e : Acc, exec (.dillRead c err) s
            = .next (s.upd (modChan c (fun x => { x with maintWait := x.maintWait ++ [e] }) s.blk))
          ∧ e.src = .dill ∧ e.pla = a ∧ e.err = err ∧ e.maint = true)) ∧
    (∀ l p v rest, s.blk.chans[c].verify = (l, p, v) :: rest →
      ∃ e : Acc, exec (.scrubVerify c err) s
          = .next (s.upd (modChan c (fun x => { x with verify := rest, maintWait := x.maintWait ++ [e] }) s.blk))
        ∧ e.src = .verify p v ∧ e.pla = l ∧ e.err = err ∧ e.maint = true) ∧
    (∀ e : Acc, s.blk.chans[c].inflight = [e] → s.blk.chans[c].xbar = [] → s.blk.chans[c].served = [] → s.blk.regs.forced = [] →
      (decodeLine (isDouble s.blk (plaSeg c.val e.pla)) (storedAt s.blk s.mem c.val e.pla ^^^ e.err ^^^ err)).1 = .clean →
      let returned := fun t : State => exec (.dramReadReturn c err) s = .next t ∧ t.mem = s.mem ∧ t.blk.ports = s.blk.ports
        ∧ t.blk.regs = s.blk.regs ∧ t.blk.chans[c].inflight = [] ∧ t.blk.chans[c].served = []
        ∧ t.blk.chans[c].maintWait = s.blk.chans[c].maintWait ∧ ∀ d, d ≠ c → t.blk.chans[d] = s.blk.chans[d]
      (e.src = .dill → e.pla = a → s.blk.chans[c].dillLine < 1023 →
        ∃ t, returned t ∧ t.blk.chans[c].dillLine = s.blk.chans[c].dillLine + 1 ∧ t.blk.chans[c].dillSeg = s.blk.chans[c].dillSeg) ∧
      (∀ w, e.src = .verify false w → ∃ t, returned t ∧ t.blk.chans[c].remap = s.blk.chans[c].remap
        ∧ t.blk.chans[c].hist = s.blk.chans[c].hist)) ∧
    (∀ r : Soft, s.blk.chans[c].softRun = some r → s.blk.engs[c].st = .run →
      (rowWaits s.blk.chans[c] r = true ∨ (r.copied < 32 ∧ isWritten s.blk (plaSeg c.val (rowBase r.bank r.row)) = true) →
        ∀ errs, ∃ t, exec (.softRowRepairDone c errs) s = .next t ∧ t.mem = s.mem ∧ t.blk.chans[c].softRun = some r
          ∧ t.blk.chans[c].soft = s.blk.chans[c].soft) ∧
      (r.copied = 32 → rowWaits s.blk.chans[c] r = false → s.blk.chans[c].softWait = [] → r.bank < 64 → r.row < 24576 → r.spare < 4 →
        s.blk.chans[c].remap = List.replicate 16 none → s.blk.chans[c].soft = [] →
        ∃ t, exec (.softRowRepairDone c []) s = .next t ∧ t.mem = s.mem ∧ t.blk.chans[c].softRun = none
          ∧ t.blk.chans[c].soft = [(4 * r.bank + r.spare, some r.row)]
          ∧ (ctr (chnBase c.val + 0x134) t.blk).toNat = min ctrMax ((ctr (chnBase c.val + 0x134) s.blk).toNat + 1)
          ∧ (rcGet (chnBase c.val + 0x11C) t.blk).getLsbD 4 = true
          ∧ ∀ i, i < 32 → storedAt t.blk t.mem c.val (rowBase r.bank r.row + i)
            = dramGet s.mem c.val (rowBase r.bank (24576 + r.spare) + i)))

/-- Base-die SRAM (R343 to R346): a corrected word is counted and has no further effect; a lost written-bitmap word holds back
its 64 segments until its rebuild ends, which keeps the bits of owned segments and clears those of free ones; eight heat
counters of a lost word are 0 again; the rebuild of a protection-bitmap word gives each of its 64 segments the mode of its
owner, guarded where nothing owns it. -/
def Obligations.SramWords : Prop :=
  ∀ (w : Nat) (s : State), 5 ≤ s.blk.start.step →
    (∀ x : SramWord, exec (.sramScrub x false) s = .next (s.upd { s.blk with sramCe := s.blk.sramCe + 1 })) ∧
    (∃ t, exec (.sramScrub (.written w) true) s = .next t ∧ t.mem = s.mem ∧ 64 * w ∈ t.blk.srl.rebuild
      ∧ t.blk.srl.written = s.blk.srl.written ∧ t.blk.ports = s.blk.ports ∧ t.blk.chans = s.blk.chans) ∧
    (reactionOf s.blk (fs .sramHeat) ≤ 2 → ∃ t, exec (.sramScrub (.heat w) true) s = .next t ∧ t.mem = s.mem
      ∧ (∀ e, e ∈ t.blk.srl.heat ↔ e ∈ s.blk.srl.heat ∧ e.1 / 8 ≠ w) ∧ t.blk.srl.map = s.blk.srl.map ∧ t.blk.chans = s.blk.chans) ∧
    (64 * w ∈ s.blk.srl.rebuild → s.blk.hnd.flat = false → s.blk.ops.descs = [] → (∀ p : PortId, s.blk.ports[p].writes = []) →
      reactionOf s.blk (fs .bitmapUe) ≤ 2 →
      ∃ t, exec (.bitmapRebuildDone w) s = .next t ∧ t.mem = s.mem ∧ 64 * w ∉ t.blk.srl.rebuild ∧ t.blk.srl.map = s.blk.srl.map
        ∧ ∀ i, i < 64 → (isWritten t.blk (64 * w + i) = true ↔ (isWritten s.blk (64 * w + i) = true
          ∧ (ownerOf s.blk (64 * w + i) ≠ .free ∨ (migFrom s.blk (64 * w + i)).isSome = true)))) ∧
    (64 * w ∈ s.blk.srl.protRebuild → ∃ t, exec (.protBitmapRebuildDone w) s = .next t ∧ t.mem = s.mem
      ∧ 64 * w ∉ t.blk.srl.protRebuild ∧ t.blk.srl.written = s.blk.srl.written ∧ t.blk.ports = s.blk.ports
      ∧ ∀ i, i < 64 → (isDouble t.blk (64 * w + i) = true ↔ match ownerOf s.blk (64 * w + i) with
          | .owned h _ => attrProt (attrOf s.blk h) = 1 | .dest h _ => attrProt (attrOf s.blk h) = 1 | .free => False))

/-! ### Thermal (chapter 15) and the epochs of Savory and Sorrel -/

/-- A thermal sample (R399, R410): every sensor of the part takes the value of the sample, one without a result is suspect; when
a zone has reached its shutdown threshold the stack enters the thermal safe state: THERMTRIP_N, ports 1 to 15 DISABLED and port
0 in DETECT, and every channel that is not OFFLINE on its way to self-refresh, here while the reaction to the port changes
(R164) isolates nothing; a start under way shows stage SAFE (R95), and steps 6 to 10 are not run in that sample (R37). Samples
come at the multiples of 1 ms of STACK_TIME (R25). Zone levels (R408): at or above its threshold a zone's throttle level follows
the curve upwards at once, and it falls only as far as the curve says of the temperature plus the hysteresis: the level never
leaves the band between the two. -/
def Obligations.ThermalSamplesAndLevels : Prop :=
  (∀ (results : List (Nat × BitVec 16)) (s : State),
    (s.blk.start.step < 6 ∨ strobe 100000 s.blk = false → exec (.thermalSample results) s = .next s) ∧
    (6 ≤ s.blk.start.step → strobe 100000 s.blk = true → ∃ t, exec (.thermalSample results) s = .next t ∧ t.pending = s.pending
      ∧ ∀ n, n < 192 → sensorPresent n = true →
        (∀ v, results.find? (fun r => r.1 == n) = some (n, v) → (sensorAt t.blk n).value = v) ∧
        (results.find? (fun r => r.1 == n) = none → (sensorAt t.blk n).suspect = true)) ∧
    (6 ≤ s.blk.start.step → strobe 100000 s.blk = true → s.blk.regs.badPar = [] → s.blk.sage.safe = false →
      s.blk.thm.safe = false → s.blk.pwr.state = 0 →
      let z := sampleZones results (commitLive thmSection (commitPlain thmBase s.blk))
      z.2.sage.safe = false → z.2.pwr.state = 0 → reactionOf z.2 (fs .lnkDegrade) ≤ 2 → (tripZone (compareZones z.1 z.2) z.1).isSome = true →
      ∃ t, exec (.thermalSample results) s = .next t ∧ t.mem = s.mem ∧ t.blk.thm.safe = true ∧ t.blk.thm.tripPin = true
        ∧ t.blk.ports[(0 : PortId)].st = .detect ∧ (∀ p : PortId, p ≠ 0 → t.blk.ports[p].st = .disabled)
        ∧ t.blk.thm.qLevel = z.2.thm.qLevel ∧ t.blk.thm.qMax = z.2.thm.qMax ∧ (s.blk.starting = true → t.blk.start.stage = 12)
        ∧ ∀ c : ChanId, t.blk.chans[c].st ≠ .offline → t.blk.chans[c].srWant = true)) ∧
  (∀ (c : Curve) (t thr hyst : Int) (lvl : Nat),
    let up := if thr ≤ t then (c.eval (t - thr)).toNat else 0
    let down := if thr ≤ t + hyst then (c.eval (t + hyst - thr)).toNat else 0
    (lvl < up → zoneLevel c t thr hyst lvl = up) ∧ (up ≤ lvl → lvl ≤ down → zoneLevel c t thr hyst lvl = lvl)
      ∧ (up ≤ lvl → down < lvl → zoneLevel c t thr hyst lvl = down))

/-- The THM registers (R404, R406, R413): a threshold within the image's limits waits for the next sample, one beyond them is
refused with BAD_ARG; THM_SUSPECT_CLRk collects the marks that the next sample clears; THM_TRIP_ACK.go is refused unless
resume_ok stands in the thermal safe state, and then ends it: THERMTRIP_N is high, and ports 1 to 15 are in DETECT. -/
def Obligations.ThermalRegisters : Prop :=
  ∀ (path : Path) (k : Fin 6) (data : Word) (s : State), takesWrites path s →
    (limitOk k.val data s.blk = true → ∃ t, exec (.thmLimitWrite path k data) s = .next t ∧ t.blk.resp = .ok
      ∧ shadow (thmBase + 0x10 + 4 * k.val) t.blk = data ∧ rw (thmBase + 0x10 + 4 * k.val) t.blk = rw (thmBase + 0x10 + 4 * k.val) s.blk
      ∧ t.blk.regs.live = s.blk.regs.live ∧ t.blk.thm = s.blk.thm ∧ t.mem = s.mem) ∧
    (limitOk k.val data s.blk = false → ∃ t, exec (.thmLimitWrite path k data) s = .next t ∧ t.blk.resp = .badArg
      ∧ t.blk.regs = s.blk.regs ∧ t.blk.thm = s.blk.thm ∧ t.mem = s.mem) ∧
    (∃ t, exec (.thmSuspectClr path k data) s = .next t ∧ t.blk.resp = .ok ∧ t.blk.regs = s.blk.regs ∧ t.mem = s.mem
      ∧ t.blk.thm = { s.blk.thm with clr := t.blk.thm.clr }
      ∧ ∀ i, i < 192 → t.blk.thm.clr.getLsbD i
        = (s.blk.thm.clr.getLsbD i || (decide (32 * k.val ≤ i ∧ i < 32 * k.val + 32) && data.getLsbD (i - 32 * k.val)))) ∧
    (data.getLsbD 0 = true → ¬ (s.blk.thm.safe = true ∧ s.blk.thm.resumeOk = true ∧ s.blk.thm.inStart = false) →
      ∃ t, exec (.thmTripAck path data) s = .next t ∧ t.blk.resp = .badArg ∧ t.blk.thm = s.blk.thm ∧ t.blk.ports = s.blk.ports
        ∧ t.mem = s.mem) ∧
    (data.getLsbD 0 = true → s.blk.thm.safe = true → s.blk.thm.resumeOk = true → s.blk.thm.inStart = false → path = .twp →
      s.blk.ports[(0 : PortId)].st = .detect → (∀ c : ChanId, s.blk.chans[c].st = .offline) →
      (∀ e : EngId, s.blk.engs[e].st = .run ∨ s.blk.engs[e].st = .halted) →
      ∃ t, exec (.thmTripAck path data) s = .next t ∧ t.blk.resp = .ok ∧ t.blk.thm.safe = false ∧ t.blk.thm.tripPin = false
        ∧ t.blk.thm.resumeOk = false ∧ t.blk.thm.owe = 0xFFFF
        ∧ (∀ p : PortId, t.blk.ports[p].st = .detect) ∧ t.mem = s.mem)

/-- The class epoch (R282, R283, R284): released reservations have left, in every quadrant each class is granted no more than it
has reserved and receives its grant as lines of allowance, the quadrant is overcommitted exactly when its reservations exceed
its budget, and the counts of in-grant misses start afresh. Before step 5, and in the safe state, Savory stands still. The
heat-decay epoch (R243, R244): every heat counter is halved, and a channel's heat is the sum of those of its segments that
belong to a handle, the flat region's among them; here of a stack that is not READY, whose Sorrel orders nothing. The epochs
come at the multiples of 10 µs and 10 ms of STACK_TIME (R25). -/
def Obligations.ClassAndHeatEpochs : Prop :=
  (∀ s : State,
    (s.blk.start.step < 5 ∨ s.blk.sage.safe = true ∨ strobe 1000 s.blk = false → exec .classEpoch s = .next s) ∧
    (5 ≤ s.blk.start.step → strobe 1000 s.blk = true → s.blk.regs.badPar = [] → s.blk.sage.safe = false → s.blk.img.liveWait = [] → s.blk.regs.pend = [] →
      ∃ t, exec .classEpoch s = .next t ∧ t.mem = s.mem ∧ t.pending = s.pending ∧ t.blk.sav.released = []
        ∧ (∀ q : QuadId, let x := t.blk.sav.q[q]
            (∀ k : Fin 8, x.grant[k] ≤ x.resv[k] ∧ x.allow[k] = x.grant[k] * 1000 / 64)
            ∧ (x.overG = true ↔ x.budget < resvSum x))
        ∧ t.blk.sav.miss = Vector.replicate 8 (0, 0) ∧ t.blk.srl = s.blk.srl ∧ t.blk.chans = s.blk.chans)) ∧
  (∀ s : State,
    (5 ≤ s.blk.start.step → strobe 1000000 s.blk = true → s.blk.regs.badPar = [] → s.blk.sage.safe = false →
      s.blk.thm.safe = false → s.blk.ready = false →
      ∃ t, exec .heatDecayEpoch s = .next t ∧ t.mem = s.mem ∧ t.pending = s.pending
        ∧ t.blk = { s.blk with srl := { s.blk.srl with heat := t.blk.srl.heat, chHeat := t.blk.srl.chHeat } }
        ∧ (∀ k v, (k, v) ∈ t.blk.srl.heat ↔ ∃ w, (k, w) ∈ s.blk.srl.heat ∧ v = w / 2 ∧ v ≠ 0)
        ∧ ∀ c : ChanId, t.blk.srl.chHeat[c] = ((t.blk.srl.heat.filter fun e => segChan e.1 == c.val
            && ((s.blk.srl.map.any fun m => !m.2.quarantined && m.2.pseg == e.1) || inFlat s.blk e.1)).map fun e => e.2).sum) ∧
    (s.blk.sage.safe = true ∨ strobe 1000000 s.blk = false → exec .heatDecayEpoch s = .next s))

/-! ### Handles (chapter 8) -/

/-- A go of HND_CMD while no command runs is answered with OK, and its checks decide what runs (R226, R229, R231): a refused
command runs to its end with its status and changes nothing; CREATE takes the lowest FREE number, with the latched arguments,
and the number is still FREE to all others; GROW leaves the size until it ends; SHRINK cuts the size at once and DESTROY makes
the handle DRAINING, and both drain; QUERY takes its values. A go while a command runs is refused with BAD_ARG. -/
def Obligations.HandleCommandsStart : Prop :=
  ∀ (path : Path) (s : State), takesWrites path s → s.blk.start.chive = false → refusing s.blk = false → s.blk.hnd.run = none →
    s.blk.srl.migs = [] → s.blk.ops.halts = [] →
    let a := fun op => hndArgs op s.blk
    let started := fun (c : Instr) (op : Nat) (k : State → HndRun → Prop) => ∃ t r, exec c s = .next t ∧ t.blk.resp = .ok
      ∧ t.mem = s.mem ∧ t.blk.ports = s.blk.ports ∧ t.blk.hnd.seq = s.blk.hnd.seq ∧ t.blk.hnd.run = some r
      ∧ r.op.toNat = op ∧ r.path = path ∧ k t r
    (createCheck s.blk (a 1) = .ok → started (.create path) 1 fun t r => r.status = .ok ∧ freeHandle s.blk = some r.handle
      ∧ handleOf t.blk r.handle = some { st := .creating, size := (a 1).size, attr := (a 1).attr, resv := (a 1).resv }
      ∧ handleSize t.blk r.handle = none ∧ r.size = BitVec.ofNat 32 (a 1).size) ∧
    (createCheck s.blk (a 1) ≠ .ok → started (.create path) 1 fun t r => r.status = createCheck s.blk (a 1)
      ∧ t.blk.hnd.table = s.blk.hnd.table ∧ t.blk.srl = s.blk.srl ∧ t.blk.sav = s.blk.sav) ∧
    (changeCheck s.blk (a 2) = .ok → started (.grow path) 2 fun t r => r.status = .ok ∧ r.handle = (a 2).h
      ∧ t.blk.hnd.table = s.blk.hnd.table ∧ r.size = BitVec.ofNat 32 (a 2).size ∧ r.draining = false) ∧
    (changeCheck s.blk (a 3) = .ok → started (.shrink path) 3 fun t r => r.status = .ok ∧ r.handle = (a 3).h
      ∧ handleSize t.blk (a 3).h = some (a 3).size ∧ r.draining = true ∧ r.first = (a 3).size ∧ t.blk.srl.map = s.blk.srl.map) ∧
    (changeCheck s.blk (a 4) = .ok → started (.destroy path) 4 fun t r => r.status = .ok ∧ r.handle = (a 4).h
      ∧ handleSize t.blk (a 4).h = none ∧ (handleOf t.blk (a 4).h).map Handle.st = some .draining ∧ r.draining = true ∧ r.first = 0
      ∧ t.blk.srl.map = s.blk.srl.map) ∧
    (queryCheck s.blk (a 5).h = .ok → started (.query path) 5 fun t r => r.status = .ok ∧ r.handle = (a 5).h
      ∧ r.info = some (queryInfo s.blk (a 5).h) ∧ t.blk.hnd.table = s.blk.hnd.table ∧ t.blk.srl = s.blk.srl) ∧
    (∀ op : BitVec 3, hndNoCommand op.toNat = true → started (.hndCmdInvalid path op) op.toNat fun t r => r.status = .badArg
      ∧ t.blk.hnd.table = s.blk.hnd.table ∧ t.blk.srl = s.blk.srl) ∧
    (∀ r : HndRun, ∀ c ∈ [Instr.create path, .grow path, .shrink path, .destroy path, .query path],
      ∃ t, exec c (s.upd { s.blk with hnd := { s.blk.hnd with run := some r } }) = .next t ∧ t.blk.resp = .badArg
        ∧ t.blk.hnd = { s.blk.hnd with run := some r } ∧ t.blk.srl = s.blk.srl ∧ t.mem = s.mem)

/-- The end of a handle command (R230, R231, R236): HND_RESULT takes its op, handle and status, and its count goes up by one; a
CREATE makes its handle ACTIVE, a GROW sets the new size, a DESTROY deletes the handle and leaves its reservation to the next
class epoch, a QUERY loads its values; SHRINK and DESTROY wait for their drain. -/
def Obligations.HandleCommandsFinish : Prop :=
  ∀ (r : HndRun) (s : State), s.blk.hnd.run = some r → s.blk.sage.safe = false →
    (r.draining = true → exec .hndCommandFinish s = .next s) ∧
    (r.draining = false → ∃ t, exec .hndCommandFinish s = .next t ∧ t.mem = s.mem ∧ t.pending = s.pending ∧ t.blk.hnd.run = none
      ∧ t.blk.hnd.seq = s.blk.hnd.seq + 1 ∧ t.blk.hnd.resOp = r.op ∧ t.blk.hnd.resHandle = BitVec.ofNat 12 r.handle
      ∧ t.blk.hnd.resStatus = r.status ∧ t.blk.srl = s.blk.srl ∧ (r.path = .twp → t.blk.ports = s.blk.ports)
      ∧ (∀ q : PortId, samePort s.blk.ports[q] t.blk.ports[q])
      ∧ (r.status ≠ .ok → t.blk.hnd.table = s.blk.hnd.table ∧ t.blk.sav = s.blk.sav)
      ∧ (∀ x, r.status = .ok → handleOf s.blk r.handle = some x →
          (r.op = 1 → handleOf t.blk r.handle = some { x with st := .active })
          ∧ (r.op = 2 → handleOf t.blk r.handle = some { x with size := r.size.toNat })
          ∧ (r.op = 4 → handleOf t.blk r.handle = none
              ∧ t.blk.sav.released = s.blk.sav.released ++ [(x.resv, BitVec.ofNat 4 (attrQmask x.attr))]))
      ∧ (∀ i, r.info = some i → t.blk.hnd.resSize = i.size ∧ t.blk.hnd.resAttr = i.attr ∧ t.blk.hnd.resResv = i.resv
          ∧ t.blk.hnd.resState = i.state ∧ t.blk.hnd.resWritten = i.written))

/-- The end of a drain (R232, R235): once nothing more can touch the affected segments, their map entries are gone; while
something can, the command waits. -/
def Obligations.DrainsRelease : Prop :=
  ∀ (r : HndRun) (s : State), s.blk.hnd.run = some r → r.draining = true → s.blk.sage.safe = false →
    (drainWaits s.blk r = true → exec .hndDrainEnd s = .next s) ∧
    (drainWaits s.blk r = false → r.handle < 4096 → ∃ t, exec .hndDrainEnd s = .next t ∧ t.mem = s.mem ∧ t.pending = s.pending
      ∧ t.blk.hnd.run = some { r with draining := false } ∧ t.blk.hnd.table = s.blk.hnd.table
      ∧ (∀ l, r.first ≤ l → l < 2 ^ 21 → mapEntry t.blk r.handle l = none)
      ∧ (∀ h l, l < 2 ^ 21 → (h ≠ r.handle ∨ l < r.first) → mapEntry t.blk h l = mapEntry s.blk h l))

/-! ### Sorrel (chapter 9) -/

/-- The Sorrel commands that run (R262 to R265): each ends with its status in SRL_RESULT, whose count goes up by one, and with
SRL_CMD.busy clear. SEG_QUERY shows the map entry; PHYS_QUERY refuses a number that names no memory, and shows a retired segment
as kind 5; outside both safe states, MIGRATE queues an order when its checks pass; RETIRE of a free segment retires it at once
(R259); a go without a command is refused with BAD_ARG. -/
def Obligations.SorrelCommands : Prop :=
  ∀ s : State,
    let h := s.blk.srl.runHandle
    let l := s.blk.srl.runSeg
    let ended := fun (c : Instr) (st : Status) (k : State → Prop) => ∃ t, exec c s = .next t ∧ t.mem = s.mem ∧ t.pending = s.pending
      ∧ t.blk.srl.busy = false ∧ t.blk.srl.seq = s.blk.srl.seq + 1 ∧ t.blk.srl.resOp = s.blk.srl.runOp ∧ t.blk.srl.resStatus = st
      ∧ t.blk.hnd = s.blk.hnd ∧ k t
    s.blk.srl.busy = true → s.blk.sage.safe = false → s.blk.thm.safe = false →
    (s.blk.srl.runOp = 1 →
      (∀ e, srlHandle s.blk h l false = .ok → mapEntry s.blk h l = some e → e.quarantined = false →
        ended .segQuery .ok fun t => t.blk.srl.resEntry = entryWord s.blk e ∧ t.blk.srl.map = s.blk.srl.map) ∧
      (srlHandle s.blk h l false ≠ .ok → ended .segQuery (srlHandle s.blk h l false) fun t =>
        t.blk.srl.resEntry = s.blk.srl.resEntry)) ∧
    (s.blk.srl.runOp = 2 →
      (segExists l = false → ended .physQuery .badArg fun t => t.blk.srl.resOwner = s.blk.srl.resOwner) ∧
      (segExists l = true → inFlat s.blk l = false → s.blk.srl.retired.contains l = true →
        ended .physQuery .ok fun t => t.blk.srl.resOwner = 0x00050000 ∧ t.blk.srl.resLseg = 0)) ∧
    (s.blk.srl.runOp = 3 →
      (migrateCheck s.blk h l s.blk.srl.runDest = .ok → ended .migrate .ok fun t => t.blk.srl.queue = s.blk.srl.queue
        ++ [{ reason := .host, handle := h, lseg := l, dest := if s.blk.srl.runDest = 0x3F then none else some s.blk.srl.runDest }]) ∧
      (migrateCheck s.blk h l s.blk.srl.runDest ≠ .ok → ended .migrate (migrateCheck s.blk h l s.blk.srl.runDest) fun t =>
        t.blk.srl.queue = s.blk.srl.queue)) ∧
    (s.blk.srl.runOp = 4 → noWaiters s → s.blk.srl.evacWait = [] →
      (∀ o, srlHandle s.blk h l false = .ok → orderOf s.blk h l = some o →
        ended .abort .ok fun t => t.blk.srl.queue = s.blk.srl.queue.filter (· != o) ∧ t.blk.srl.migs = s.blk.srl.migs) ∧
      (srlHandle s.blk h l false = .ok → hasMove s.blk h l = false → ended .abort .badArg fun t => t.blk.srl.map = s.blk.srl.map)) ∧
    (s.blk.srl.runOp = 5 →
      (segExists l = false → ended .retire .badArg fun t => t.blk.srl.retired = s.blk.srl.retired) ∧
      (segExists l = true → inFlat s.blk l = false → s.blk.srl.retired.contains l = false → ownerOf s.blk l = .free →
        migFrom s.blk l = none → ended .retire .ok fun t => l ∈ t.blk.srl.retired ∧ t.blk.srl.nRetired = s.blk.srl.nRetired + 1
          ∧ isWritten t.blk l = false)) ∧
    (∀ op : BitVec 3, op = 0 ∨ op = 6 ∨ op = 7 → s.blk.ready = true → s.blk.sage.safe = false → s.blk.thm.safe = false →
      5 ≤ s.blk.start.step →
      ∃ t, exec (.srlCmdInvalid op) s = .next t ∧ t.blk.srl = { s.blk.srl with seq := s.blk.srl.seq + 1, resOp := op, resStatus := .badArg }
        ∧ t.mem = s.mem)

/-- The steps of a migration (R249 to R256), outside both safe states: the order that starts takes a destination, and its entry
is migrating; a source that is unwritten as COPY begins has nothing to copy (R255), and the COMMIT hold begins; the copy of
another asks for its next line, one at a time, behind the source's pacer (R250), and a line that DRAM returns clean goes to the
destination, with fresh check bytes, behind the destination's pacer; a write applied at the source since COPY began is forwarded
to the destination's channel (R254); at COMMIT the entry names the destination, the segment's heat moves with it, and
SRL_MIG_DONE counts; at RELEASE the source segment is free again, its written bit clear. -/
def Obligations.MigrationSteps : Prop :=
  ∀ (o : Order) (m : Mig) (e : MapEntry) (src dst : Nat) (s : State), s.blk.sage.safe = false → s.blk.thm.safe = false →
    let c := cid (segChan src)
    let d := cid (segChan m.dst)
    (s.blk.srl.queue = [o] → s.blk.srl.evacWait = [] → canStart s.blk o = true → mapEntry s.blk o.handle o.lseg = some e →
      destOf s.blk o e.pseg = some dst →
      ∃ t, exec .migrationStart s = .next t ∧ t.mem = s.mem ∧ t.pending = s.pending ∧ t.blk.srl.queue = []
        ∧ t.blk.srl.migs = s.blk.srl.migs ++ [{ order := o, src := e.pseg, dst := dst, blank := !isWritten s.blk e.pseg }]
        ∧ mapEntry t.blk o.handle o.lseg = some { e with migrating := true } ∧ t.blk.ports = s.blk.ports ∧ t.blk.hnd = s.blk.hnd
        ∧ ∀ k : ChanId, t.blk.chans[k] = { s.blk.chans[k] with pacer := t.blk.chans[k].pacer, pacerAt := t.blk.chans[k].pacerAt }) ∧
    (migFrom s.blk src = some m → copyMay s.blk m = true →
      (m.blank = true → s.blk.ops.descs = [] → ∃ t, exec (.copyDone src []) s = .next t ∧ t.mem = s.mem
        ∧ migFrom t.blk src = some { m with stage := .hold } ∧ t.blk = { s.blk with srl := t.blk.srl }
        ∧ t.blk.srl.map = s.blk.srl.map) ∧
      (m.blank = false → m.copied < 1024 → ∀ errs,
        (maintPending s.blk.chans[c] (AccSrc.copyReadOf src) = true → exec (.copyDone src errs) s = .next s) ∧
        (maintPending s.blk.chans[c] (AccSrc.copyReadOf src) = false →
          (s.blk.chans[d].maintWait.any fun w => AccSrc.copyWriteOf src w.src) = false →
          ∃ r : Acc, exec (.copyDone src errs) s
              = .next (s.upd (modChan c (fun x => { x with maintWait := x.maintWait ++ [r] }) s.blk))
            ∧ r.src = .copyRead src m.copied ∧ r.pla = plaOf src m.copied ∧ r.err = errAt errs src m.copied ∧ r.maint = true))) ∧
    (∀ (r : Acc) (err : Stored), migFrom s.blk src = some m → m.stage = .copy → r.src = .copyRead src m.copied →
      s.blk.chans[c].inflight = [r] → s.blk.chans[c].xbar = [] → s.blk.chans[c].served = [] → s.blk.regs.forced = [] →
      let v := storedAt s.blk s.mem (segChan src) r.pla ^^^ r.err ^^^ err
      (decodeLine (isDouble s.blk src) v).1 = .clean →
      ∃ (t : State) (w : Acc), exec (.dramReadReturn c err) s = .next t ∧ t.mem = s.mem
        ∧ migFrom t.blk src = some { m with copied := m.copied + 1 }
        ∧ t.blk.chans[d].maintWait = s.blk.chans[d].maintWait ++ [w] ∧ w.src = .copy src m.copied
        ∧ w.pla = plaOf m.dst m.copied ∧ w.data = encode (lineOf v) ∧ w.maint = true ∧ t.blk.ports = s.blk.ports) ∧
    (∀ w : Acc, forwardTo s.blk (plaSeg c.val w.pla) = some m → ∃ f : Acc, f.src = .forward m.src ∧ f.data = w.data ∧ f.pseg = m.dst
      ∧ f.pla = plaOf m.dst (plaLine w.pla)
      ∧ (storeLine c.val w s).blk.chans[d].xbar = s.blk.chans[d].xbar ++ [{ lines := [f] }]) ∧
    (migFrom s.blk src = some m → m.stage = .hold → noWaiters s → writesWait s.blk.chans[c] src = false →
      destWaits s.blk.chans[d] m.dst = false → mapEntry s.blk m.order.handle m.order.lseg = some e →
      ∃ t, exec (.commit src) s = .next t ∧ t.mem = s.mem ∧ migFrom t.blk src = some { m with stage := .release }
        ∧ mapEntry t.blk m.order.handle m.order.lseg = some { e with pseg := m.dst, migrating := false, retired := false }
        ∧ isWritten t.blk m.dst = isWritten s.blk src
        ∧ heatOf t.blk m.dst = heatOf s.blk m.src ∧ t.blk.ports = s.blk.ports ∧ t.blk.hnd = s.blk.hnd
        ∧ (ctr (srlBase + 0x44) t.blk).toNat = min ctrMax ((ctr (srlBase + 0x44) s.blk).toNat + 1)) ∧
    (migFrom s.blk src = some m → m.stage = .release → s.blk.ops.descs = [] → segBusy s.blk.chans[c] src = false →
      m.order.reason ≠ .evac → s.blk.srl.retireAt.contains src = false →
      ∃ t, exec (.release src) s = .next t ∧ t.mem = s.mem ∧ migFrom t.blk src = none ∧ isWritten t.blk src = false
        ∧ isDouble t.blk src = false ∧ t.blk.srl.map = s.blk.srl.map ∧ t.blk.srl.retired = s.blk.srl.retired
        ∧ ∀ q : PortId, samePort s.blk.ports[q] t.blk.ports[q])

/-! ### Near-memory operations (chapter 13) -/

/-- The checks of a descriptor (R352) and its place in the queue of its handle (R365): a refused one is complete at once with
the status of the first check that fails, gives its credit back, and executes nothing; an accepted one takes a queue entry where
one is free. The start of a descriptor (R362, R365, R366): the first queued descriptor of its handle starts unless its queue is
halted or a fence keeps it, and is split by segments; here one of one segment, whose engine, that of the segment's channel, runs
it in a free context. -/
def Obligations.DescriptorsAcceptedAndStarted : Prop :=
  (∀ (p : PortId) (w : BitVec 512) (s : State), waitsAlone p (.opd w s.blk.ports[p].gen) s →
    (∀ d ∈ s.blk.ops.descs, d.id < s.blk.ops.nextId ∧ d.st ≠ .waiting) →
    let x := s.blk.ports[p]
    let st := descCheck s.blk p w
    let h := descHandle w
    let admitted := fun (t : State) (life : DState) (q : Bool) => exec (.operationDescriptor p w) s = .next t ∧ t.mem = s.mem
      ∧ t.blk.ops.nextId = s.blk.ops.nextId + 1 ∧ t.blk.ports[p].rxq = []
      ∧ (∃ d : Desc, t.blk.ops.descs = s.blk.ops.descs ++ [d] ∧ d.id = s.blk.ops.nextId ∧ d.words = w ∧ d.status = st ∧ d.port = p
        ∧ d.st = life ∧ d.inq = q ∧ d.pieces = [] ∧ d.tag = descTag w + 1024 * x.gen)
      ∧ (∀ q, q ≠ p → t.blk.ports[q] = s.blk.ports[q]) ∧ t.blk.chans = s.blk.chans ∧ t.blk.engs = s.blk.engs ∧ t.blk.srl = s.blk.srl
    (st ≠ .ok → ∃ t, admitted t .done false ∧ t.blk.ports[p].ret = x.ret.set 3 (x.ret[3] + 1)) ∧
    (st = .ok → opqUsed s.blk h < opqDepth (attrOpq (attrOf s.blk h)) → poolUsed s.blk < 4096 →
      ∃ t, admitted t .queued true ∧ t.blk.ports[p].ret = x.ret.set 3 (x.ret[3] + 1)) ∧
    (st = .ok → opqDepth (attrOpq (attrOf s.blk h)) ≤ opqUsed s.blk h ∨ 4096 ≤ poolUsed s.blk →
      ∃ t, admitted t .waiting false ∧ t.blk.ports[p].ret = x.ret)) ∧
  (∀ (h : Nat) (s : State),
    (mayStart s.blk h = none → exec (.descriptorStart h) s = .next s) ∧
    (∀ (d : Desc) (l : Nat) (m : MapEntry), mayStart s.blk h = some d → (∀ e ∈ s.blk.ops.descs, e.id = d.id → e = d) →
      splitDesc s.blk d.words = [{ lseg := l }] → lookupHeld s.blk (pieceHandle d.words) (1024 * l) = false → ¬ listOp (dOp d.words) →
      mapEntry s.blk (pieceHandle d.words) l = some m → m.quarantined = false →
      let e := eid (segChan m.pseg)
      s.blk.chans[cid (segChan m.pseg)].st ≠ .offline → s.blk.engs[e].st = .run → s.blk.engs[e].queue = [] →
      s.blk.engs[e].ctx[2].work = .none →
      (∀ f ∈ s.blk.ops.descs, ∀ y ∈ f.pieces, y.st ≠ .waiting) →
      ∃ t, exec (.descriptorStart h) s = .next t ∧ t.mem = s.mem ∧ t.pending = s.pending
        ∧ (∃ f, descOf t.blk d.id = some f ∧ f.words = d.words ∧ f.st = .running ∧ f.inq = d.inq ∧ f.lead = segChan m.pseg
          ∧ f.pieces = [({ lseg := l, st := .running, eng := segChan m.pseg, pseg := m.pseg,
                           pos := pieceFirst s.blk d.words { lseg := l }, ord := s.blk.ops.dispatched } : Piece)])
        ∧ t.blk.engs[e].ctx[2].work = .piece d.id 0 ∧ (∀ f, f ≠ e → t.blk.engs[f] = s.blk.engs[f])
        ∧ t.blk.ports = s.blk.ports ∧ t.blk.chans = s.blk.chans ∧ t.blk.srl = s.blk.srl))

/-- The end of a piece (R362 to R364, R371): PIECE_END takes the piece on as far as it can; one whose last line is done, with
its writes in their write queues and no fill of its own running, ends with the status that its lines gave and leaves its
context, and one that is not done so far stays; a piece of a channel that is OFFLINE ends with CHANNEL_OFFLINE. What the
operation does with the data (R353, R354): FILL leaves each line of its range, in its write queue, as eight copies of operand A;
CRC32C takes each line that its read returns clean. A piece whose read returns uncorrectable data stops, and with it its
descriptor. -/
def Obligations.PiecesEnd : Prop :=
  ∀ (id i : Nat) (d : Desc) (x : Piece) (s : State), descOf s.blk id = some d → d.pieces[i]? = some x →
    (∀ e ∈ s.blk.ops.descs, e.id = id → e = d) → d.st = .running →
    let e := eid x.eng
    let ends := fun (errs : List LineErr) (y : Piece) (t : State) => exec (.pieceEnd id i errs) s = .next t
      ∧ (∃ f, descOf t.blk id = some { d with scat := f, pieces := d.pieces.set i y }) ∧ y.st = .ended
      ∧ (∀ k : Fin 6, t.blk.engs[e].ctx[k].work ≠ .piece id i) ∧ t.blk.ports = s.blk.ports
    (x.st ≠ .running ∨ s.blk.engs[e].st ≠ .run → ∀ errs, exec (.pieceEnd id i errs) s = .next s) ∧
    (x.st = .running → s.blk.engs[e].st = .run → s.blk.engs[e].queue = [] → waitingPiece s.blk x.eng = none →
      (s.blk.chans[cid (segChan x.pseg)].st = .offline → ∀ errs, ∃ t y, ends errs y t ∧ y.status = .channelOffline
        ∧ t.mem = s.mem ∧ t.blk.chans = s.blk.chans ∧ t.blk.srl = s.blk.srl) ∧
      (s.blk.chans[cid (segChan x.pseg)].st ≠ .offline → x.fin = true →
        (pieceOver s.blk id i x = true → ∀ errs, ∃ t y, ends errs y t ∧ y.status = x.status ∧ y.value = x.value ∧ y.lanes = x.lanes
          ∧ t.mem = s.mem ∧ t.blk.chans = s.blk.chans ∧ t.blk.srl = s.blk.srl) ∧
        (pieceOver s.blk id i x = false → ∀ errs, exec (.pieceEnd id i errs) s = .next s)) ∧
      (∀ m : MapEntry, s.blk.chans[cid (segChan x.pseg)].st ≠ .offline → x.fin = false → x.at_ = none → x.fills = [] → x.pos = 0 →
        x.status = .ok → s.blk.srl.migs = [] → lookupHeld s.blk (descHandle d.words) (dLine d.words) = false → dOp d.words = 2 →
        dCount d.words = 1 → x.lseg = dLine d.words / 1024 → mapEntry s.blk (descHandle d.words) x.lseg = some m →
        m.quarantined = false → isWritten s.blk m.pseg = true →
        let c := cid (segChan m.pseg)
        s.blk.chans[c].st ≠ .offline → s.blk.chans[c].rq = [] → s.blk.chans[c].wq = [] → s.blk.chans[c].inflight = [] →
        s.blk.chans[c].xbar = [] → m.pseg ∉ s.blk.chans[c].fills →
        ∀ errs, ∃ t y, ends errs y t ∧ y.status = .ok ∧ t.mem = s.mem
          ∧ lineNow t.blk t.mem (segChan m.pseg) (plaOf m.pseg (dLine d.words % 1024))
            = encodeP false (BitVec.ofNat 512 (((List.range 8).map fun k => (dOpa d.words).toNat <<< (64 * k)).sum))
          ∧ ∀ f, f ≠ c → t.blk.chans[f] = s.blk.chans[f])) ∧
    (∀ (c : ChanId) (a : Acc) (rest : List Acc) (err : Stored) (second : Bool) (line : Nat), x.st = .running → x.asked = true →
      s.blk.chans[c].inflight = a :: rest → a.src = .engRead id i x.try_ second line → s.blk.chans[c].xbar = [] →
      s.blk.chans[c].served = [] → s.blk.regs.forced = [] →
      let v := storedAt s.blk s.mem c.val a.pla ^^^ a.err ^^^ err
      ((decodeLine a.double v).1 = .uncorrectable → reactionOf s.blk (fs .dataUeDemand) ≤ 2 →
        (∀ y, handleOf s.blk (descHandle d.words) = some y → y.st ≠ .draining) →
        ∃ t f y, exec (.dramReadReturn c err) s = .next t ∧ t.mem = s.mem ∧ descOf t.blk id = some f ∧ f.st = .stopped ∧ f.words = d.words
          ∧ f.pieces[i]? = some y ∧ y.st = .stopped ∧ y.pos = x.pos ∧ (mfind t.blk.ops.halts (descHandle d.words)).isSome = true) ∧
      ((decodeLine a.double v).1 = .clean → s.blk.engs[e].st = .run → s.blk.chans[cid (segChan x.pseg)].st ≠ .offline → x.fin = false →
        x.at_ = none → x.log = [] → x.pos = 0 → x.value = 0 →
        s.blk.now - a.arr ≤ target s.blk a.cls → dOp d.words = 9 → dCount d.words = 1 → x.lseg = dLine d.words / 1024 →
        ∃ t f y, exec (.dramReadReturn c err) s = .next t ∧ t.mem = s.mem ∧ descOf t.blk id = some f ∧ f.st = .running
          ∧ f.words = d.words ∧ f.pieces[i]? = some y ∧ y.fin = true ∧ y.status = x.status
          ∧ y.value = (crc32cJoin 0 (crc32c (bytesOf 64 (lineOf v))) 64).zeroExtend 64 ∧ t.blk.ports = s.blk.ports))

/-- The fold at the lead engine (R353, R357, R363, R396): it waits until every piece has ended and the lead engine runs; then
the descriptor is done with the first status of its pieces in the order of R12; COMPARE answers the lowest differing offset or
0xFFFFFFFF, CRC32C the CRC of the whole range; CAS64 and FADD64 send the old word in a DATA slot; of a descriptor that ended as
POISON the result is the lowest poisoned offset. The completion collector (R391, R393): it accepts a completion that is done
while it holds fewer than 256, with the next sequence number, and the descriptor's queue entry frees; a record goes to its
port's event records once pool 3 credits are there for it. -/
def Obligations.LeadFoldsAndCompletions : Prop :=
  (∀ (id : Nat) (d : Desc) (s : State), descOf s.blk id = some d →
    (d.st ≠ .running ∨ (∃ x ∈ d.pieces, x.st ≠ .ended) ∨ (d.led = true ∧ s.blk.engs[eid d.lead].st ≠ .run) →
      exec (.leadFoldDone id) s = .next s)) ∧
  (∀ (id : Nat) (d : Desc) (s : State), descOf s.blk id = some d → d.st = .running →
    (∀ x ∈ d.pieces, x.st = .ended) → (d.led = true → s.blk.engs[eid d.lead].st = .run) →
    let ends := fun (res : Word → Prop) (data : List TxData) => ∃ t r, exec (.leadFoldDone id) s = .next t ∧ t.mem = s.mem
      ∧ descOf t.blk id = some { d with st := .done, status := foldStatus d, result := r } ∧ res r
      ∧ t.blk.ports[d.port].txData = s.blk.ports[d.port].txData ++ data
      ∧ (∀ q, q ≠ d.port → t.blk.ports[q] = s.blk.ports[q]) ∧ t.blk.engs = s.blk.engs ∧ t.blk.srl = s.blk.srl
    (foldStatus d = .ok →
      (dOp d.words = 1 ∨ dOp d.words = 2 ∨ dOp d.words = 3 ∨ dOp d.words = 7 ∨ dOp d.words = 8 → ends (· = 0xFFFFFFFF) []) ∧
      (dOp d.words = 10 → ends (· = foldDiff d) []) ∧
      (dOp d.words = 9 → ends (· = foldCrc s.blk d) []) ∧
      (dOp d.words = 4 → s.blk.ports[d.port].sends d.tag = true → ∀ x, d.pieces = [x] →
        ends (· = BitVec.ofNat 32 (b2n x.wrote))
          [{ tag := d.tag, line := 0, poison := false, d := x.value.zeroExtend 512, read := false }]) ∧
      (dOp d.words = 5 → s.blk.ports[d.port].sends d.tag = true → ∀ x, d.pieces = [x] →
        ends (· = x.value.truncate 32)
          [{ tag := d.tag, line := 0, poison := false, d := x.value.zeroExtend 512, read := false }])) ∧
    (foldStatus d = .ok → dOp d.words = 6 → s.blk.ports[d.port].sends d.tag = true →
      ends (· = 0xFFFFFFFF) [{ tag := d.tag, line := 0, poison := false, d := reduceLine d, read := false }]) ∧
    (foldStatus d = .poison → dOp d.words = 1 → ∀ x n, d.pieces = [x] → x.off = some n → ends (· = BitVec.ofNat 32 n) [])) ∧
  ((∀ (id : Nat) (d : Desc) (s : State), descOf s.blk id = some d → d.st = .done → (∀ e ∈ s.blk.ops.descs, e.id = id → e = d) →
    (∀ e ∈ s.blk.ops.descs, e.st ≠ .waiting) →
    s.blk.ops.coll.length < 256 → s.blk.ports[d.port].sends d.tag = true → d.pieces.any (fun x => x.st == .running) = false →
    ∃ t, exec (.completionAccept id) s = .next t ∧ t.mem = s.mem ∧ t.blk.ops.collSeq = s.blk.ops.collSeq + 1
      ∧ t.blk.ops.coll = s.blk.ops.coll ++ [(d.port, opRecord d s.blk.ops.collSeq s.blk.time)] ∧ descOf t.blk id = none
      ∧ (∀ e ∈ t.blk.ops.descs, e ∈ s.blk.ops.descs)
      ∧ t.blk.ports = s.blk.ports ∧ ∀ e : EngId, { t.blk.engs[e] with evq := s.blk.engs[e].evq } = s.blk.engs[e]) ∧
  (∀ (p : PortId) (r : BitVec 128) (rest : List (PortId × BitVec 128)) (s : State), s.blk.ops.coll = (p, r) :: rest →
    collReady s.blk [] (p, r) = true →
    ∃ t, exec .completionSend s = .next t ∧ onlyPort p { s with blk := { s.blk with ops := t.blk.ops } } t
      ∧ t.blk.ops = { s.blk.ops with coll := rest }
      ∧ t.blk.ports[p] = { s.blk.ports[p] with txEv := s.blk.ports[p].txEv ++ [r] }) ∧
  (∀ s : State, s.blk.ops.coll = [] → exec .completionSend s = .next s))

/-- The operation queue commands (R371 to R373, R377): a command on a handle that does not exist, on handle 0 or on a queue that
is not halted (a query may look at any) is refused; RESUME and the cancels end the halt, CANCEL ends the stopped descriptors
with HALTED_UE and CANCEL_ALL the queued ones too; each loads SUP_OPQ_RESULT, whose count goes up by one. A code that names no
command ends as BAD_ARG. -/
def Obligations.QueueCommands : Prop :=
  ∀ (path : Path) (s : State), takesWrites path s →
    let h := rwf (supBase + 0x604) 11 0 s.blk
    let ended := fun (c : Instr) (op : Nat) (st : Status) (k : State → Prop) => ∃ t, exec c s = .next t ∧ t.mem = s.mem
      ∧ t.blk.resp = .ok ∧ t.blk.ops.seq = s.blk.ops.seq + 1 ∧ t.blk.ops.resOp = BitVec.ofNat 3 op ∧ t.blk.ops.resStatus = st
      ∧ t.blk.ports = s.blk.ports ∧ t.blk.chans = s.blk.chans ∧ k t
    let kept := fun t : State => t.blk.ops.descs = s.blk.ops.descs ∧ t.blk.ops.halts = s.blk.ops.halts
      ∧ t.blk.ops.resHandle = BitVec.ofNat 12 h ∧ t.blk.engs = s.blk.engs
    let commands : List (Instr × Nat) := [(.resume path, 1), (.cancel path, 2), (.cancelAll path, 3), (.opqQuery path, 4)]
    (∀ c ∈ commands,
      (handleSize s.blk h = none → ended c.1 c.2 .noHandle kept) ∧
      ((handleSize s.blk h).isSome = true → h = 0 → ended c.1 c.2 .accessError kept)) ∧
    (h ≠ 0 → (handleSize s.blk h).isSome = true →
      ended (.opqQuery path) 4 .ok (fun t => kept t ∧ t.blk.ops.stat = opqStat s.blk h) ∧
      (mfind s.blk.ops.halts h = none → ended (.resume path) 1 .badArg kept ∧ ended (.cancel path) 2 .badArg kept
        ∧ ended (.cancelAll path) 3 .badArg kept) ∧
      ((mfind s.blk.ops.halts h).isSome = true → s.blk.srl.migs = [] →
        (∀ d ∈ s.blk.ops.descs, d.st ≠ .waiting ∧ d.st ≠ .running ∧ ∀ x ∈ d.pieces, x.st ≠ .running ∧ x.st ≠ .waiting ∧ x.st ≠ .queued) →
        (∀ e : EngId, s.blk.engs[e].queue = []) →
        ((∀ d ∈ s.blk.ops.descs, d.st ≠ .stopped) → ended (.resume path) 1 .ok fun t =>
          mfind t.blk.ops.halts h = none ∧ t.blk.ops.descs = s.blk.ops.descs) ∧
        (∀ (c : Instr) (op : Nat), (c, op) = (.cancel path, 2) ∨ (c, op) = (.cancelAll path, 3) → ended c op .ok fun t =>
          mfind t.blk.ops.halts h = none ∧ (∀ d ∈ s.blk.ops.descs, d.inq = true → descHandle d.words = h →
            (d.st = .stopped ∨ d.st = .done ∨ (op = 3 ∧ d.st = .queued)) → ∃ e ∈ t.blk.ops.descs, e.id = d.id ∧ e.words = d.words
              ∧ e.st = .done ∧ e.status = .haltedUe ∧ e.result = 0xFFFFFFFF)))) ∧
    (∀ op : BitVec 3, op = 0 ∨ 5 ≤ op.toNat → ended (.opqCmdInvalid path op) op.toNat .badArg fun t =>
      t.blk.ops.descs = s.blk.ops.descs ∧ t.blk.ops.halts = s.blk.ops.halts)

/-! ### Channel engines (chapter 14) -/

/-- Traps and reloads (R385 to R389): a context whose task does not run its timer and does not react is a trap with cause 3,
which records ENG_TRAP once, counts it and loads the engine again; the reload brings the engine back to RUN, with
SUP_ENG_RELOADS counted, unless something holds it; ENG_CTRL.reload loads a HALTED engine again with a new window of traps, its
contexts, its copy and its Dill walk at their beginnings, and is refused with BAD_ARG in any other state and (log entry 125)
while ENG_SRAM tests the engine. The watchdog is suspended while an access of the context is held back (R385). -/
def Obligations.EnginesTrapAndReload : Prop :=
  ∀ (e : EngId) (s : State),
    (∀ (k : Fin 6), s.blk.engs[e].st = .run → ctxWork s.blk e.val k.val ≠ .none → (ctxNow s.blk e.val k.val).timed = false →
      heldBack s.blk e.val k.val = false → reactionOf s.blk (fs .engTrap) ≤ 2 → s.blk.engs[e].traps = [] → 2 ≤ rwf (supBase + 8) 3 0 s.blk →
      ∃ t, exec (.contextWatchdogExpiry e k) s = .next t ∧ t.mem = s.mem ∧ t.blk.engs[e].st = .loading
        ∧ t.blk.engs[e].traps = [s.blk.now]
        ∧ (wfield s.blk.engs[e].trap 31 28 = 0 →
            ∃ ev act, t.blk.engs[e].trap = trapWord 3 k.val (ctxNow s.blk e.val k.val).state ev act)
        ∧ (wfield s.blk.engs[e].trap 31 28 ≠ 0 → t.blk.engs[e].trap = s.blk.engs[e].trap)
        ∧ (∀ f, f ≠ e → { t.blk.engs[f] with evq := s.blk.engs[f].evq } = s.blk.engs[f])) ∧
    (∀ (k : Fin 6), s.blk.engs[e].st ≠ .run ∨ (ctxNow s.blk e.val k.val).timed = true ∨ heldBack s.blk e.val k.val = true →
      exec (.contextWatchdogExpiry e k) s = .next s) ∧
    (s.blk.engs[e].st = .loading → heldNow s.blk e.val = true → waitingPiece s.blk e.val = none →
      ∃ t, exec (.engineReloadDone e) s = .next t ∧ t.mem = s.mem ∧ t.blk.engs[e] = { s.blk.engs[e] with st := .held, consts := Config.engConstants (engSeq s.blk) }
        ∧ (ctr (supBase + 0x1C) t.blk).toNat = min ctrMax ((ctr (supBase + 0x1C) s.blk).toNat + 1)
        ∧ (∀ f, f ≠ e → t.blk.engs[f] = s.blk.engs[f]) ∧ t.blk.ports = s.blk.ports) ∧
    (s.blk.engs[e].st = .loading → heldNow s.blk e.val = false → s.blk.engs[e].queue = [] → waitingPiece s.blk e.val = none →
      ∃ t, exec (.engineReloadDone e) s = .next t ∧ t.mem = s.mem ∧ t.blk.engs[e] = { s.blk.engs[e] with st := .run, consts := Config.engConstants (engSeq s.blk) }
        ∧ (ctr (supBase + 0x1C) t.blk).toNat = min ctrMax ((ctr (supBase + 0x1C) s.blk).toNat + 1)
        ∧ (∀ f, f ≠ e → t.blk.engs[f] = s.blk.engs[f]) ∧ t.blk.ports = s.blk.ports) ∧
    (∀ path : Path, takesWrites path s → s.blk.start.chive = false → pendingAt (engBase e.val) s.blk = false →
      (s.blk.engs[e].st = .halted → engTested s.blk e.val = false →
        ∃ t, exec (.engReload path e) s = .next t ∧ t.blk.resp = .ok ∧ t.mem = s.mem
        ∧ t.blk.engs[e] = { s.blk.engs[e] with st := .loading, traps := [], evq := [], ctx := t.blk.engs[e].ctx }
        ∧ (∀ k : Fin 6, t.blk.engs[e].ctx[k].work = s.blk.engs[e].ctx[k].work ∧ t.blk.engs[e].ctx[k].heldEv = [])
        ∧ t.blk.chans[e].dillLine = 0 ∧ (∀ m ∈ t.blk.srl.migs, segChan m.src = e.val → m.stage = .copy → m.copied = 0)
        ∧ (∀ f, f ≠ e → t.blk.engs[f] = s.blk.engs[f] ∧ t.blk.chans[f] = s.blk.chans[f])) ∧
      (s.blk.engs[e].st ≠ .halted ∨ engTested s.blk e.val = true → ∃ t, exec (.engReload path e) s = .next t ∧ t.blk.resp = .badArg ∧ t.mem = s.mem
        ∧ t.blk.engs = s.blk.engs ∧ t.blk.regs = s.blk.regs))

/-- The state tables of contexts (R139, R382 to R384), here with nothing held and no write of the engine's block waiting: the
engine takes the one event that waits, or the one that the command brings where the stack does not make it itself; a line that
it returns stands at the start of the context's window (log entry 112); an entry that is valid, unguarded and no fault runs its
action, and the table takes the entry's next state. A write of ENG_CTRL.halt that has waited 10 µs commits at the next action
boundary (R53): a 1 holds an engine that runs (R396), and a 0 lets it go on; before that it waits. -/
def Obligations.EngineContextsRun : Prop :=
  ∀ (e : EngId) (s : State), s.blk.engs[e].st = .run → s.blk.regs.badPar = [] →
    (∀ (k : Fin 6) (ev : Fin 32) (line : List Byte) (n : Nat) (ws : List Word), ctxWork s.blk e.val k.val ≠ .none →
      pendingAt (engBase e.val) s.blk = false →
      (if stackMakes k.val ev.val then s.blk.engs[e].evq = [(k.val, ev.val, line)] else s.blk.engs[e].evq = [] ∧ line = []) →
      s.blk.engs[e].ctx[k].table = some n → workTable s.blk (ctxWork s.blk e.val k.val) = some n →
      Config.engTable (engSeq s.blk) n = some ws → s.blk.engs[e].ctx[k].heldEv = [] → ev.val ≠ 31 →
      let c := s.blk.engs[e].ctx[k]
      let y := tableEntry ws c.state ev.val
      let win := if line = [] then c.window else windowOf4K (line ++ c.window.drop line.length)
      entValid y = true → entGuard y = 0 → entFault y = false →
      actionOk (entAction y) k.val (ownerWork s.blk (ctxWork s.blk e.val k.val)) = true → Config.engAccess (entAction y) win = none →
      ∃ t, exec (.engineEvent e k ev) s = .next t ∧ t.mem = s.mem ∧ t.blk = { s.blk with engs := t.blk.engs }
        ∧ (∀ f, f ≠ e → t.blk.engs[f] = s.blk.engs[f]) ∧ t.blk.engs[e].ctx[k].state = entNext y
        ∧ t.blk.engs[e].ctx[k].timed = (if entStop y then false else if entTimer y ≠ 0 then true else c.timed)
        ∧ (entAction y = 0 → t.blk.engs[e].ctx[k].window = win) ∧ t.blk.engs[e].evq = []
        ∧ (∀ j, j ≠ k → t.blk.engs[e].ctx[j] = s.blk.engs[e].ctx[j]) ∧ t.blk.engs[e].st = .run) ∧
    (∀ w : PendWr, s.blk.regs.pend = [w] → w.addr = engBase e.val → w.good = true →
      (s.blk.now < w.since + 1000 → atOnceNow (engBase e.val) s.blk = false → exec (.engHaltCommit e) s = .next s) ∧
      (w.since + 1000 ≤ s.blk.now → w.value.getLsbD 0 = true →
        ∃ t, exec (.engHaltCommit e) s = .next t ∧ t.mem = s.mem ∧ t.blk.engs[e] = { s.blk.engs[e] with st := .held }
        ∧ rwf (engBase e.val) 0 0 t.blk = 1 ∧ t.blk.regs.pend = [] ∧ (∀ f, f ≠ e → t.blk.engs[f] = s.blk.engs[f])) ∧
      (w.since + 1000 ≤ s.blk.now → w.value.getLsbD 0 = false → s.blk.sage.safe = false → s.blk.thm.safe = false →
        engGated s.blk e.val = false → engTested s.blk e.val = false →
        ∃ t, exec (.engHaltCommit e) s = .next t ∧ t.mem = s.mem ∧ t.blk.engs = s.blk.engs ∧ rwf (engBase e.val) 0 0 t.blk = 0
          ∧ t.blk.regs.pend = []))

/-! ### Clocks (chapter 16) -/

/-- REFCLK and the PLLs (R89, R418 to R423). A window of 980 to 1020 counts is in range and counted up to ten; one out of range
begins anew, and when REFCLK was proven it is lost: the sources fall back to IOSC, CLK_EVT.ref_lost and the loss counter record
it, and every port in ACTIVE, IDLE or PATTERN is in RECOVER, while one in DISABLED or DETECT stays. After ten windows REFCLK is
proven and the sources follow CLK_SRC. A PLL that loses lock sets CLK_EVT.pll_lost: the ports of its quadrant go into RECOVER,
or its channels stall until it locks again, which it may while its unit's clock runs. -/
def Obligations.RefclkAndPlls : Prop :=
  ∀ s : State,
    let c := s.blk.clk
    (∀ count dev : BitVec 16, 3 ≤ s.blk.start.step → 980 ≤ count.toNat → count.toNat ≤ 1020 →
      exec (.refclkMonitorWindow count dev) s = .next (s.upd { s.blk with
        clk := { c with count := count, windows := min 10 (c.windows + 1) }
        cal := { s.blk.cal with iosc := if c.proven then dev else 0 } })) ∧
    (∀ count dev : BitVec 16, 3 ≤ s.blk.start.step → c.proven = false → count.toNat < 980 ∨ 1020 < count.toNat →
      exec (.refclkMonitorWindow count dev) s = .next (s.upd { s.blk with
        clk := { c with count := count, windows := 0 }, cal := { s.blk.cal with iosc := 0 } })) ∧
    (∀ count : BitVec 16, 3 ≤ s.blk.start.step → c.proven = true → count.toNat < 980 ∨ 1020 < count.toNat →
      reactionOf s.blk (fs .clkRef) ≤ 2 → reactionOf s.blk (fs .lnkDegrade) ≤ 2 →
      ∃ t, exec (.refclkLoss count) s = .next t ∧ t.mem = s.mem ∧ t.pending = s.pending
        ∧ t.blk.clk = { c with proven := false, windows := 0, count := count, lostOnce := true, srcEff := 0 } ∧ t.blk.iosc = true
        ∧ (rcGet (clkBase + 0x14) t.blk).getLsbD 2 = true
        ∧ (ctr (clkBase + 0x30) t.blk).toNat = min ctrMax ((ctr (clkBase + 0x30) s.blk).toNat + 1)
        ∧ ∀ p : PortId, (s.blk.ports[p].mayRecover = true → t.blk.ports[p].st = .recover)
            ∧ (s.blk.ports[p].st = .disabled ∨ s.blk.ports[p].st = .detect → samePort s.blk.ports[p] t.blk.ports[p])) ∧
    (3 ≤ s.blk.start.step → s.blk.start.step ≠ 15 → c.proven = false → 10 ≤ c.windows → s.blk.start.waitRef = false →
      let sel := BitVec.ofNat 3 (rwf (clkBase + 8) 2 0 s.blk)
      (c.lostOnce = false → exec .refclkProven s = .next (s.upd { s.blk with
        clk := { c with proven := true, srcEff := sel }, iosc := !sel.getLsbD 0 })) ∧
      (c.lostOnce = true → reactionOf s.blk (fs .lnkDegrade) ≤ 2 → ∃ t, exec .refclkProven s = .next t ∧ t.mem = s.mem
        ∧ t.blk.clk = { c with proven := true, srcEff := sel } ∧ t.blk.iosc = !sel.getLsbD 0
        ∧ ∀ p : PortId, s.blk.ports[p].mayRecover = true → t.blk.ports[p].st = .recover)) ∧
    (s.blk.start.step < 3 ∨ c.windows < 10 → exec .refclkProven s = .next s) ∧
    (reactionOf s.blk (fs .clkPll) ≤ 2 → reactionOf s.blk (fs .lnkDegrade) ≤ 2 →
      (∀ q : QuadId, c.linkLock.getLsbD q.val = true → ∃ t, exec (.pllLockLoss (.link q)) s = .next t ∧ t.mem = s.mem
        ∧ t.blk.clk = { c with linkLock := bclr c.linkLock q.val } ∧ (rcGet (clkBase + 0x14) t.blk).getLsbD 3 = true
        ∧ ∀ p : PortId, (p.val / 4 = q.val → s.blk.ports[p].mayRecover = true → t.blk.ports[p].st = .recover)
            ∧ (p.val / 4 ≠ q.val ∨ s.blk.ports[p].st = .disabled ∨ s.blk.ports[p].st = .detect → samePort s.blk.ports[p] t.blk.ports[p])) ∧
      (∀ q : QuadId, c.tsvLock.getLsbD q.val = true → ∃ t, exec (.pllLockLoss (.tsv q)) s = .next t ∧ t.mem = s.mem
        ∧ t.blk.clk = { c with tsvLock := bclr c.tsvLock q.val } ∧ (rcGet (clkBase + 0x14) t.blk).getLsbD 3 = true
        ∧ ∀ k : ChanId, t.blk.chans[k] = if k.val / 8 = q.val then { s.blk.chans[k] with stall := true } else s.blk.chans[k]) ∧
      (c.mgmtLock = true → ∃ t, exec (.pllLockLoss .mgmt) s = .next t ∧ t.mem = s.mem ∧ t.blk.clk = { c with mgmtLock := false }
        ∧ (rcGet (clkBase + 0x14) t.blk).getLsbD 3 = true ∧ t.blk.chans = s.blk.chans)) ∧
    (3 ≤ s.blk.start.step → s.blk.pwr.state ≠ 4 →
      (∀ q : QuadId, c.tsvLock.getLsbD q.val = false → unitRuns s.blk (4 + q.val) = true → (∀ k : ChanId, s.blk.chans[k].st ≠ .selfRefresh) →
        ∃ t, exec (.pllLockAcquired (.tsv q)) s = .next t ∧ t.mem = s.mem ∧ t.blk.clk = { c with tsvLock := bset c.tsvLock q.val }
          ∧ t.blk.ports = s.blk.ports
          ∧ ∀ k : ChanId, t.blk.chans[k] = if k.val / 8 = q.val then { s.blk.chans[k] with stall := false } else s.blk.chans[k]) ∧
      (∀ q : QuadId, c.linkLock.getLsbD q.val = false → unitRuns s.blk q.val = true →
        (∀ p : PortId, s.blk.ports[p].idleTx = false) →
        exec (.pllLockAcquired (.link q)) s = .next (s.upd { s.blk with clk := { c with linkLock := bset c.linkLock q.val } })) ∧
      (c.mgmtLock = false → exec (.pllLockAcquired .mgmt) s = .next (s.upd { s.blk with clk := { c with mgmtLock := true } })))

/-- The clock sequencer (R420, R424 to R433). The step at the head of the queue runs when none runs and no safe state holds it:
it raises VDDL first; a step that lowers a lane rate lowers those of quadrant 0 at once, and one that lowers neither but takes
the TSV clock down hops quadrant 0 at once, with its rows closed and its groups to be centred anew; the other quadrants follow
in turn. A ratio mode outside 4:1 to 16:1 is undefined (R430), and stops. At the end of a step that has made its changes its
operating point and its VDDL are in force, the regulators that fail the trim of an operating-point step degrade (R445), and the
lane rates may rise, quadrant 0 first. A source select commits with the sequencer idle unless it asks for a REFCLK that is not
READY, which drops it with CLK_EVT; the ports that are up then run at the rate that it gives. A clock enable that is cleared, at
once or as a step of the queue, stays set for a unit that is busy or at an open transfer, or a BIST controller in a run (R433,
R512), and engines without their clock are held. -/
def Obligations.SequencerSteps : Prop :=
  ∀ s : State, s.blk.pwr.state = 0 → s.blk.regs.badPar = [] → s.blk.clk.hops = [] →
    let c := s.blk.clk
    let free := c.running = none ∧ s.blk.sage.safe = false ∧ s.blk.thm.safe = false ∧ s.blk.start.done = true ∧ s.blk.bst.run = none
    let shut := ∀ (k : ChanId), ∀ m ∈ banksOf, (s.blk.chans[k].bank m).row = none
    let later := fun (l : List Hop) => l.filter fun h => decide (s.blk.now < h.at_)
    (∀ (x : SeqStep) (rest : List SeqStep), c.queue = x :: rest → free → shut → reactionOf s.blk (fs .lnkDegrade) ≤ 2 →
      let op := stepOp s.blk x
      let hops := rateFalls s.blk x = false ∧ stepDown s.blk x = true
      let runs := fun t : State => t.mem = s.mem ∧ t.pending = s.pending
        ∧ t.blk.clk = { c with
            running := some x, queue := rest, startedAt := s.blk.now, vddl := max c.vddl (stepVddl s.blk x)
            hops := later (stepHops s.blk x)
            rateOps := if rateFalls s.blk x then c.rateOps.set 0 op else c.rateOps
            tsvOps := if hops then c.tsvOps.set 0 op else c.tsvOps }
        ∧ (∀ k : ChanId, (k.val < 8 ∧ hops → t.blk.chans[k].centre = List.range 36 ∧ ∀ m ∈ banksOf, (t.blk.chans[k].bank m).row = none)
            ∧ (8 ≤ k.val ∨ ¬hops → t.blk.chans[k] = s.blk.chans[k]))
        ∧ (rateFalls s.blk x = false → t.blk.ports = s.blk.ports)
      (∀ v, x = .op v → (∃ t, exec .opStep s = .next t ∧ runs t) ∧ exec .ratioModeChange s = .next s) ∧
      (∀ m tsv div, x = .ratio m tsv div → exec .opStep s = .next s
        ∧ (m = false ∨ ratioOk tsv.toNat div.toNat = true → ∃ t, exec .ratioModeChange s = .next t ∧ runs t)
        ∧ (m = true → ratioOk tsv.toNat div.toNat = false → exec .ratioModeChange s = .fault .ratioUndefined)) ∧
      (∀ w, x = .clken w → exec .opStep s = .next s ∧ exec .ratioModeChange s = .next s)) ∧
    (∀ l : List Nat, c.running = none → exec (.sequencerStepEnd l) s = .next s) ∧
    (∀ (x : SeqStep) (l : List Nat), c.running = some x →
      (∀ w ∈ s.blk.regs.pend, baseOf w.addr ≠ clkBase ∧ baseOf w.addr ≠ pwrBase) → s.blk.sage.safe = false → s.blk.thm.safe = false →
      reactionOf s.blk (fs .lnkDegrade) ≤ 2 → reactionOf s.blk (fs .calDegrade) ≤ 2 →
      let op := stepOp s.blk x
      ∃ t, exec (.sequencerStepEnd l) s = .next t ∧ t.mem = s.mem ∧ t.blk.clk.running = none ∧ t.blk.clk.queue = c.queue
        ∧ t.blk.clk.op = op ∧ t.blk.clk.vddl = stepVddl s.blk x ∧ t.blk.clk.tsvOps = c.tsvOps
        ∧ t.blk.clk.rateOps = c.rateOps.set 0 op ∧ t.blk.clk.hops = later (quadHops true op s.blk.now) ∧ t.blk.chans = s.blk.chans
        ∧ (∀ m tsv div, x = .ratio m tsv div → t.blk.clk.ratio = m ∧ t.blk.clk.tsvDiv = tsv ∧ t.blk.clk.mgmtDiv = div
          ∧ t.blk.cal = s.blk.cal)
        ∧ (∀ v, x = .op v → t.blk.clk.ratio = c.ratio ∧ ∀ n : Nat, n < 8 →
          t.blk.cal.degReg.getLsbD n = (s.blk.cal.degReg.getLsbD n || decide (n ∈ l)))) ∧
    (∀ w : PendWr, c.running = none → c.queue = [] → s.blk.regs.pend = [w] → w.addr = clkBase + 8 → w.good = true →
      reactionOf s.blk (fs .lnkDegrade) ≤ 2 →
      let old := rw (clkBase + 8) s.blk
      (c.proven = true → ∃ t, exec .clkSrcCommit s = .next t ∧ t.mem = s.mem ∧ t.blk.regs.pend = []
        ∧ rw (clkBase + 8) t.blk = w.value ∧ t.blk.clk = { c with srcEff := BitVec.ofNat 3 (wfield w.value 2 0) }
        ∧ ∀ p : PortId, (s.blk.ports[p].st = .disabled ∨ s.blk.ports[p].st = .detect → samePort s.blk.ports[p] t.blk.ports[p])
          ∧ (s.blk.ports[p].mayRecover = true → t.blk.ports[p].rate.toNat = portRate p t.blk)) ∧
      (c.proven = false → w.value &&& ~~~old ≠ 0 → ∃ t, exec .clkSrcCommit s = .next t ∧ t.mem = s.mem ∧ t.blk.regs.pend = []
        ∧ rw (clkBase + 8) t.blk = old ∧ t.blk.clk = c ∧ (rcGet (clkBase + 0x14) t.blk).getLsbD 0 = true)) ∧
    (∀ (busy : BitVec 15) (w : Word), c.running = none → reactionOf s.blk (fs .gateBusy) ≤ 2 →
      let off := (c.gateWait ||| BitVec.ofNat 15 (rw (clkBase + 0x20) s.blk).toNat) &&& ~~~(BitVec.ofNat 15 w.toNat)
      let bist : BitVec 15 := if s.blk.bst.run.isSome then 0x1000 else 0
      let keep := (off &&& (busy ||| fabricBusy s.blk ||| bist)).zeroExtend 32
      let gated := ∃ t, exec (.clkenRunCommit busy) s = .next t ∧ t.mem = s.mem ∧ t.blk.regs.pend = []
        ∧ rw (clkBase + 0x20) t.blk = w ||| keep ∧ t.blk.clk.queue = []
        ∧ t.blk.clk.gateWait = 0 ∧ (keep ≠ 0 → (rcGet (clkBase + 0x14) t.blk).getLsbD 1 = true)
        ∧ ∀ e : EngId, s.blk.engs[e].st = .run → (w ||| keep).getLsbD (8 + e.val / 8) = false → t.blk.engs[e].st = .held
      (∀ v : PendWr, c.queue = [] → s.blk.regs.pend = [v] → v.addr = clkBase + 0x20 → v.value = w → v.good = true → gated) ∧
      (c.queue = [.clken w] → s.blk.regs.pend = [] → s.blk.sage.safe = false → s.blk.thm.safe = false → gated))

/-! ### Power states (chapter 16) -/

/-- Power states (R434 to R440): an idle stack takes the deepest state that chooseState finds, if it is deeper than the one it
is in, with its entry counted, and keeps its state otherwise; a stack that is not idle shows limit 4, and a unit that is busy or
at an open transfer keeps its clock and the state (limit 5). P4 takes the quadrant PLLs off and lowers VDDL and VDDS, and P3 and
P4 start the wake timer. What ends a state brings the stack to P0, with its voltages, and after P4 with its regulators trimmed:
a write of PWR_CTRL.wake, or a known cause. -/
def Obligations.PowerStates : Prop :=
  (∀ (busy : BitVec 15) (s : State), refusing s.blk = false → s.blk.regs.badPar = [] →
    (isIdle s.blk = false ∨ s.blk.clk.running.isSome = true ∨ s.blk.clk.queue ≠ [] →
      exec (.powerStateEntry busy) s = .next (s.upd { s.blk with pwr := { s.blk.pwr with limit := 4 } })) ∧
    (isIdle s.blk = true → s.blk.clk.running = none → s.blk.clk.queue = [] →
      let n := chooseState s.blk
      let gate := unitsIn s.blk s.blk.pwr.state.toNat &&& ~~~(unitsIn s.blk n) &&& (busy ||| fabricBusy s.blk)
      (n ≤ s.blk.pwr.state.toNat → exec (.powerStateEntry busy) s
        = .next (s.upd { s.blk with pwr := { s.blk.pwr with limit := limitOf s.blk s.blk.pwr.state.toNat } })) ∧
      (s.blk.pwr.state.toNat < n → gate ≠ 0 → reactionOf s.blk (fs .gateBusy) ≤ 2 →
        ∃ t, exec (.powerStateEntry busy) s = .next t ∧ t.mem = s.mem ∧ t.blk.pwr = { s.blk.pwr with limit := 5 }
          ∧ (rcGet (clkBase + 0x14) t.blk).getLsbD 1 = true ∧ t.blk.chans = s.blk.chans) ∧
      (s.blk.pwr.state.toNat < n → gate = 0 → ∃ t, exec (.powerStateEntry busy) s = .next t ∧ t.blk.pwr.state.toNat = n
        ∧ (n = 4 → t.blk.clk.linkLock = 0 ∧ t.blk.clk.tsvLock = 0 ∧ t.blk.clk.vddl = 600 ∧ t.blk.clk.vdds = 700)
        ∧ t.blk.pwr.wakeAt = if n ≥ 3 then (nextKnown t.blk).map fun e => t.blk.now + e.2 else none) ∧
      (s.blk.pwr.state.toNat < n → gate = 0 → (∀ k : ChanId, s.blk.chans[k].st ≠ .run ∧ s.blk.chans[k].st ≠ .powerdown) → s.blk.regs.pend = [] →
        ∃ t, exec (.powerStateEntry busy) s = .next t ∧ t.mem = s.mem
          ∧ (∀ k : ChanId, { t.blk.chans[k] with stall := s.blk.chans[k].stall } = s.blk.chans[k])
          ∧ (∀ e : EngId, heldNow t.blk e.val = true → t.blk.engs[e].st ≠ .run)
          ∧ (ctr (pwrBase + 0x1C + 4 * n) t.blk).toNat = min ctrMax ((ctr (pwrBase + 0x1C + 4 * n) s.blk).toNat + 1)))) ∧
  (∀ s : State, s.blk.pwr.state = 4 → s.blk.clk.queue ≠ [] → s.blk.ops.descs = [] → (∀ e : EngId, s.blk.engs[e].queue = []) →
    ∃ t, exec (.powerStateExit .sequencer []) s = .next t ∧ t.mem = s.mem
      ∧ t.blk = { s.blk with
          pwr := { s.blk.pwr with state := 0, limit := 0, wakeAt := none }
          clk := { s.blk.clk with vddl := clkVddl s.blk, vdds := 750 }
          engs := t.blk.engs }
      ∧ ∀ e : EngId, t.blk.engs[e] = if heldNow t.blk e.val then holdEngine s.blk.engs[e]
          else if s.blk.engs[e].st = .held then { s.blk.engs[e] with st := .run } else s.blk.engs[e]) ∧
  (∀ (w : WakeCause) (l : List Nat) (s : State), s.blk.pwr.state ≠ 0 → wakeHolds s.blk w = true →
    (∀ k : ChanId, s.blk.chans[k].st ≠ .selfRefresh) → s.blk.regs.pend = [] →
    reactionOf s.blk (fs .lnkDegrade) ≤ 2 → reactionOf s.blk (fs .calDegrade) ≤ 2 →
    ∃ t, exec (.powerStateExit w l) s = .next t ∧ t.mem = s.mem ∧ t.blk.pwr.state = 0 ∧ t.blk.pwr.limit = 0
      ∧ t.blk.pwr.wakeAt = none ∧ t.blk.chans = s.blk.chans
      ∧ (∀ e : EngId, (heldNow t.blk e.val = true → t.blk.engs[e].st ≠ .run) ∧ (heldNow t.blk e.val = false → t.blk.engs[e].st ≠ .held))
      ∧ (s.blk.pwr.state = 4 → t.blk.clk.vddl = clkVddl s.blk ∧ t.blk.clk.vdds = 750
        ∧ (s.blk.sage.safe = false → s.blk.thm.safe = false →
          ∀ n : Nat, n < 8 → t.blk.cal.degReg.getLsbD n = (s.blk.cal.degReg.getLsbD n || decide (n ∈ l))))
      ∧ (s.blk.pwr.state ≠ 4 → t.blk.cal = s.blk.cal ∧ t.blk.clk = s.blk.clk)) ∧
  (∀ (w : WakeCause) (l : List Nat) (s : State), wakeHolds s.blk w = false → exec (.powerStateExit w l) s = .next s) ∧
  (∀ (path : Path) (s : State), pathOpen s.blk path = true → s.blk.sage.safe = false → ownerRefuses path s.blk = false →
    s.blk.regs.badPar = [] → s.blk.pwr.state = 4 →
    (∀ w ∈ s.blk.regs.pend, w.good = true ∧ baseOf w.addr ≠ clkBase ∧ baseOf w.addr ≠ pwrBase) → wfield (rw pwrBase s.blk) 2 0 ≤ 4 →
    reactionOf s.blk (fs .calDegrade) ≤ 2 →
    ∃ t, exec (.pwrWake path) s = .next t ∧ t.mem = s.mem ∧ t.blk.resp = .ok
      ∧ t.blk.pwr = { s.blk.pwr with state := 0, limit := 0, wakeAt := none }
      ∧ (∀ p : PortId, samePort s.blk.ports[p] t.blk.ports[p]) ∧ t.blk.chans = s.blk.chans)

/-! ### Calibration (chapter 17) -/

/-- In-service calibration (R445 to R450), in P0 and P1 with its clock on. The cross-check of the band gaps passes with the
first try within 1 %, and raises FS_CAL_BANDGAP after the last; a sensor whose offset passes 1.0 °C is suspect and degraded; a
TSV group keeps the margin of the first try that succeeds, is centred again where that is below CAL_CFG.tsv_min, and takes a
spare TSV when no try does; the aging of every quadrant is recorded. -/
def Obligations.CalibrationInService : Prop :=
  ∀ s : State, calRuns s.blk = true →
    (∀ devs : List (Attempt (BitVec 16)), s.blk.sage.enable = true →
      (∀ v, firstGood bandgapOk (attemptsOf s.blk devs) = some v →
        exec (.bandgapCheck devs) s = .next (s.upd { s.blk with cal := { s.blk.cal with bg := v } })) ∧
      (firstGood bandgapOk (attemptsOf s.blk devs) = none → freshSource (fs .calBandgap) s.blk → reactionOf s.blk (fs .calBandgap) ≤ 2 →
        ∃ t, exec (.bandgapCheck devs) s = .next t
          ∧ recorded (fs .calBandgap) 0x58 (((lastSeen bandgapOk (attemptsOf s.blk devs)).getD s.blk.cal.bg).zeroExtend 32) s t
          ∧ t.blk.chans = s.blk.chans)) ∧
    (∀ (n : Nat) (v : BitVec 16), sensorPresent n = true →
      (-256 ≤ v.toInt → v.toInt ≤ 256 → exec (.sensorOffsetCheck [(n, v)]) s
        = .next (s.upd { s.blk with cal := { s.blk.cal with drift := mset s.blk.cal.drift n 0 v } })) ∧
      (v.toInt < -256 ∨ 256 < v.toInt → reactionOf s.blk (fs .calDegrade) ≤ 2 → ∃ t, exec (.sensorOffsetCheck [(n, v)]) s = .next t
        ∧ t.mem = s.mem ∧ mget t.blk.cal.drift n 0 = v ∧ (sensorAt t.blk n).suspect = true ∧ t.blk.cal.degSensors.getLsbD n = true
        ∧ (s.blk.cal.degSensors.getLsbD n = false → reports (fs .calDegrade) s.blk = true → (rcGet (calBase + 0xC) t.blk).getLsbD 0 = true) ∧ t.blk.chans = s.blk.chans)) ∧
    (∀ (c : ChanId) (g : Fin 36) (tries : List (Attempt Byte)), s.blk.chans[c].st ≠ .offline → s.blk.engs[c].st = .run →
      let x := s.blk.chans[c]
      let done := { x with recal := x.recal.filter (· != g.val), centre := x.centre.filter (· != g.val) }
      let keeps := fun (m : Byte) (t : State) => mget t.blk.cal.margin (64 * c.val + g.val) 0 = m ∧ t.blk.chans[c] = done
        ∧ ∀ k, k ≠ 64 * c.val + g.val → mget t.blk.cal.margin k 0 = mget s.blk.cal.margin k 0
      (∀ m, firstGood (fun _ => true) (attemptsOf s.blk tries) = some m → tsvMin s.blk ≤ m.toNat →
        ∃ t, exec (.tsvCentringStep c g tries) s = .next t ∧ t.mem = s.mem ∧ t.blk.cal = { s.blk.cal with margin := t.blk.cal.margin }
          ∧ keeps m t ∧ t.blk.ports = s.blk.ports) ∧
      (∀ m n, firstGood (fun _ => true) (attemptsOf s.blk tries) = some m → m.toNat < tsvMin s.blk →
        firstGood (fun _ => true) (attemptsOf s.blk (afterGood tries)) = some n →
        ∃ t, exec (.tsvCentringStep c g tries) s = .next t ∧ t.mem = s.mem ∧ keeps n t
          ∧ t.blk.cal.recal = s.blk.cal.recal.set c (min 15 (s.blk.cal.recal[c] + 1)) ∧ (rcGet (calBase + 0xC) t.blk).getLsbD 2 = true
          ∧ ∀ p : PortId, samePort s.blk.ports[p] t.blk.ports[p]) ∧
      (firstGood (fun _ => true) (attemptsOf s.blk tries) = none → sparesTested s.blk c.val = false → x.tsvSpares < 8 →
        ∃ t, exec (.tsvCentringStep c g tries) s = .next t ∧ t.mem = s.mem ∧ t.blk.cal = s.blk.cal ∧ t.blk.ports = s.blk.ports
          ∧ t.blk.chans[c] = { done with tsvSpares := x.tsvSpares + 1 })) ∧
    (∀ v : Fin 4 → Nat, (∀ q, v q < 65536) → ∃ t, exec (.agingMeasure (v 0) (v 1) (v 2) (v 3)) s = .next t ∧ t.mem = s.mem
      ∧ (∀ q : QuadId, t.blk.cal.age[q].toNat = v q ∧ (t.blk.cal.ageWarn.getLsbD q.val = true ↔
          s.blk.cal.ageWarn.getLsbD q.val = true ∨ ageWarnAt s.blk ≤ v q))
      ∧ t.blk.chans = s.blk.chans ∧ ∀ p : PortId, samePort s.blk.ports[p] t.blk.ports[p])

/-- The CAL commands (R451): a go is answered OK and its command ends with CAL_STAT.status, busy clear; the recalibration of a
channel ends as CHANNEL_OFFLINE when it took the channel OFFLINE. A go while a command runs, or a recalibration of an OFFLINE
channel, is refused with BAD_ARG and starts nothing; a code that names no command ends at once as BAD_ARG. -/
def Obligations.CalibrationCommands : Prop :=
  ∀ (path : Path) (s : State), takesWrites path s → s.blk.start.chive = false →
    (s.blk.cal.busy = false → calRuns s.blk = true →
      (∀ (target : BitVec 5) tries, s.blk.chans[cid target.toNat].st ≠ .offline →
        s.blk.engs[eid target.toNat].st = .run → reactionOf s.blk (fs .chnOffline) ≤ 2 →
        ∃ t, exec (.calTsvRecal path target tries) s = .next t ∧ t.mem = s.mem ∧ t.blk.resp = .ok ∧ t.blk.cal.busy = false
          ∧ t.blk.cal.status = if t.blk.chans[cid target.toNat].st = .offline then .channelOffline else .ok) ∧
      (∀ (devs : List (Attempt (BitVec 16))) (v : BitVec 16), firstGood bandgapOk (attemptsOf s.blk devs) = some v →
        ∃ t, exec (.calBandgapCheck path devs []) s = .next t ∧ t.mem = s.mem ∧ t.blk.resp = .ok ∧ t.blk.cal.busy = false
          ∧ t.blk.cal.status = .ok ∧ t.blk.cal.bg = v ∧ t.blk.sage = s.blk.sage ∧ t.blk.ports = s.blk.ports) ∧
      (∀ (n : Nat) (v : BitVec 16), sensorPresent n = true → -256 ≤ v.toInt → v.toInt ≤ 256 →
        ∃ t, exec (.calSensorCheck path [(n, v)]) s = .next t ∧ t.mem = s.mem ∧ t.blk.resp = .ok ∧ t.blk.cal.busy = false
          ∧ t.blk.cal.status = .ok ∧ mget t.blk.cal.drift n 0 = v ∧ t.blk.thm = s.blk.thm ∧ t.blk.ports = s.blk.ports)) ∧
    (∀ target : BitVec 5, s.blk.cal.busy = false → ∃ t, exec (.calCmdInvalid path target) s = .next t ∧ t.mem = s.mem ∧ t.blk.resp = .ok
      ∧ t.blk.cal = { s.blk.cal with status := .badArg } ∧ t.blk.ports = s.blk.ports) ∧
    (∀ target : BitVec 5, s.blk.cal.busy = true → s.blk.cal.op = 2 → ∃ t, exec (.calTsvRecal path target []) s = .next t
      ∧ t.mem = s.mem ∧ t.blk.resp = .badArg ∧ t.blk.cal = s.blk.cal ∧ t.blk.chans = s.blk.chans) ∧
    (∀ target : BitVec 5, s.blk.cal.busy = false → s.blk.chans[cid target.toNat].st = .offline →
      ∃ t, exec (.calTsvRecal path target []) s = .next t ∧ t.mem = s.mem ∧ t.blk.resp = .badArg ∧ t.blk.cal = s.blk.cal
        ∧ t.blk.chans = s.blk.chans)

/-! ### Sage (chapter 18) -/

/-- Raises (R456, R457, R460, R469). A raise whose reaction is at most ALERT is recorded: the pending bit with unit and detail,
the counter, the first-fault latch where it is empty; ALERT starts the escalation timer; a raise while the source is pending
sets the overflow bit. A source whose reaction is 4 and that reports through the safe state enters it: FS_SAGE_SELF, a lockstep
mismatch or an uncorrectable word of the supervisor, its watchdog. A stall raises FS_FAB_STALL for the receiver. -/
def Obligations.SageRecordsRaises : Prop :=
  ∀ s : State, 5 ≤ s.blk.start.step → s.blk.sage.safe = false →
    let same := fun t : State => t.blk.chans = s.blk.chans ∧ t.blk.engs = s.blk.engs ∧ t.blk.srl = s.blk.srl
      ∧ ∀ q : PortId, samePort s.blk.ports[q] t.blk.ports[q]
    (∀ (src u : Byte) (detail : Word),
      (sourceOf src.toNat = none → exec (.faultRaise src u detail) s = .next s) ∧
      (src ≠ 0 → (sourceOf src.toNat).isSome = true → s.blk.sage.tick ≠ s.blk.now →
        (s.blk.sage.pend.getLsbD src.toNat = false → reactionOf s.blk src.toNat ≤ 2 →
          ∃ t, exec (.faultRaise src u detail) s = .next t ∧ recorded src.toNat u.toNat detail s t ∧ same t
            ∧ (s.blk.sage.latched = false → t.blk.sage.latched = true ∧ t.blk.sage.source = src ∧ t.blk.sage.unit = u
                ∧ t.blk.sage.detail = detail ∧ t.blk.sage.time = s.blk.time ∧ t.blk.sage.reaction.toNat = reactionOf s.blk src.toNat)
            ∧ (s.blk.sage.latched = true → t.blk.sage.overflow = true)
            ∧ t.blk.sage.timers = (if reactionOf s.blk src.toNat = 2 ∧ s.blk.sage.enable = true
                then (s.blk.sage.timers.filter fun x => x.1 != src.toNat) ++ [(src.toNat, false)] else s.blk.sage.timers)
            ∧ (reactionOf s.blk src.toNat = 0 → s.blk.sage.latchTick ≠ s.blk.now → t.blk.ports = s.blk.ports)) ∧
        (s.blk.sage.pend.getLsbD src.toNat = true →
          ∃ t, exec (.faultRaise src u detail) s = .next t ∧ t.mem = s.mem ∧ t.blk.sage.pend = s.blk.sage.pend
            ∧ t.blk.sage.ovf = bset s.blk.sage.ovf src.toNat ∧ (∀ q : PortId, samePort s.blk.ports[q] t.blk.ports[q]) ∧ t.blk.sage.info = s.blk.sage.info
            ∧ (ctr (sageBase + 0x1C) t.blk).toNat = min ctrMax ((ctr (sageBase + 0x1C) s.blk).toNat + 1)))) ∧
    (freshSource (fs .sageSelf) s.blk → reactionOf s.blk (fs .sageSelf) = 4 →
      ∃ t, exec .sageSelfFault s = .next t ∧ safeEntered t ∧ t.blk.sage.selfFault = true ∧ t.mem = s.mem) ∧
    (∀ (u : Bool) (pc : Word), freshSource (if u then (fs .supMemUe) else (fs .supLockstep)) s.blk →
      reactionOf s.blk (if u then (fs .supMemUe) else (fs .supLockstep)) = 4 →
      ∃ t, exec (.lockstepMismatch u pc) s = .next t ∧ safeEntered t ∧ t.mem = s.mem
        ∧ t.blk.start.lockstepOk = (u && s.blk.start.lockstepOk)) ∧
    (∀ pc : Word, freshSource (fs .supWdog) s.blk → reactionOf s.blk (fs .supWdog) = 4 → s.blk.start.done = true → s.blk.starting = false →
      s.blk.start.supHeld = false → ∃ t, exec (.supervisorWatchdogExpiry pc) s = .next t ∧ safeEntered t ∧ t.mem = s.mem) ∧
    (∀ a r : Byte, quiesced s.blk a.toNat = false → quiesced s.blk r.toNat = false → freshSource (fs .fabStall) s.blk →
      reactionOf s.blk (fs .fabStall) ≤ 2 → ∃ t, exec (.stallWatchdogExpiry a r) s = .next t
        ∧ recorded (fs .fabStall) r.toNat (word [(r.toNat, 0), (a.toNat, 8)]) s t ∧ same t)

/-- Escalation, clear and injection (R458, R459, R464, R478). The first expiry of a source's timer escalates it and starts the
timer again, the second enters the safe state; without a timer nothing happens. SAGE_CLEAR ends the pending, overflow and
escalation bits of a source and the latch that holds it, and is answered TOO_LATE when it had escalated; FS_SAGE_SELF stays.
SAGE_INJECT records a raise with unit 0xFF, and refuses a source that does not exist, and FS_SAGE_SELF, with BAD_ARG. -/
def Obligations.SageEscalatesClearsInjects : Prop :=
  (∀ (src : Byte) (s : State), s.blk.sage.safe = false →
    let x := s.blk.sage.timers.find? fun t => t.1 == src.toNat
    (x = none → exec (.escalationTimerExpiry src) s = .next s) ∧
    (s.blk.sage.pend.getLsbD src.toNat = true →
      (x = some (src.toNat, true) → ∃ t, exec (.escalationTimerExpiry src) s = .next t ∧ safeEntered t ∧ t.mem = s.mem) ∧
      (∀ f, x = some (src.toNat, false) → sourceOf src.toNat = some f → f.isolates = false →
        ∃ t, exec (.escalationTimerExpiry src) s = .next t ∧ t.mem = s.mem ∧ t.blk.sage.esc = bset s.blk.sage.esc src.toNat
          ∧ t.blk.sage.timers = (s.blk.sage.timers.filter fun x => x.1 != src.toNat) ++ [(src.toNat, true)]
          ∧ t.blk.sage.pend = s.blk.sage.pend ∧ t.blk.chans = s.blk.chans))) ∧
  (∀ (path : Path) (src : Byte) (s : State), takesWrites path s →
    (src ≠ 0 → s.blk.sage.pend.getLsbD src.toNat = true → src.toNat ≠ (fs .chnTable) →
      ∃ t, exec (.sageClear path false src) s = .next t ∧ t.mem = s.mem ∧ t.blk.ports = s.blk.ports ∧ t.blk.chans = s.blk.chans
        ∧ t.blk.resp = (if s.blk.sage.esc.getLsbD src.toNat then .tooLate else .ok)
        ∧ t.blk.sage.pend = bclr s.blk.sage.pend src.toNat ∧ t.blk.sage.ovf = bclr s.blk.sage.ovf src.toNat
        ∧ t.blk.sage.esc = bclr s.blk.sage.esc src.toNat ∧ (∀ x ∈ t.blk.sage.timers, x.1 ≠ src.toNat)
        ∧ (s.blk.sage.latched = true → s.blk.sage.source = src → t.blk.sage.latched = false ∧ t.blk.sage.overflow = false)
        ∧ (s.blk.sage.source ≠ src → t.blk.sage.latched = s.blk.sage.latched ∧ t.blk.sage.source = s.blk.sage.source
            ∧ t.blk.sage.detail = s.blk.sage.detail)) ∧
    (src = 0 ∨ (s.blk.sage.pend.getLsbD src.toNat = false ∧ s.blk.sage.esc.getLsbD src.toNat = false) →
      ∃ t, exec (.sageClear path false src) s = .next t ∧ t.mem = s.mem ∧ t.blk.resp = .ok ∧ t.blk.sage = s.blk.sage
        ∧ t.blk.ports = s.blk.ports ∧ t.blk.chans = s.blk.chans) ∧
    (s.blk.sage.pend.getLsbD (fs .clkRef) = true → ∃ t, exec (.sageClear path false 24) s = .next t ∧ t.blk.sage.nmeRef = false) ∧
    (∃ t, exec (.sageClear path true src) s = .next t ∧ t.mem = s.mem ∧ t.blk.ports = s.blk.ports
      ∧ t.blk.resp = (if ((List.range 256).any fun n => n != 0 && s.blk.sage.esc.getLsbD n) then .tooLate else .ok)
      ∧ ∀ n, n < 256 → t.blk.sage.pend.getLsbD n = (n == 0 && s.blk.sage.pend.getLsbD n)
        ∧ (n ≠ 0 → s.blk.sage.pend.getLsbD n = true → t.blk.sage.ovf.getLsbD n = false ∧ t.blk.sage.esc.getLsbD n = false
            ∧ (∀ x ∈ t.blk.sage.timers, x.1 ≠ n)
            ∧ (s.blk.sage.latched = true → s.blk.sage.source.toNat = n → t.blk.sage.latched = false ∧ t.blk.sage.overflow = false))) ∧
    (src ≠ 0 → (sourceOf src.toNat).isSome = true → freshSource src.toNat s.blk → reactionOf s.blk src.toNat ≤ 2 →
      ∃ t, exec (.sageInject path src) s = .next t ∧ t.blk.resp = .ok ∧ recorded src.toNat 0xFF 0xFFFFFFFF s t
        ∧ t.blk.chans = s.blk.chans ∧ t.blk.engs = s.blk.engs) ∧
    (src = 0 ∨ sourceOf src.toNat = none → ∃ t, exec (.sageInject path src) s = .next t ∧ t.blk.resp = .badArg ∧ t.mem = s.mem
      ∧ t.blk.sage = s.blk.sage ∧ t.blk.regs = s.blk.regs))

/-! ### OTP (chapter 19) -/

/-- The reading commands (R484, R485, R502). READ gives the corrected data of its word with the flags of its three reads, or
POISON with cause 11; SCAN reads every word and keeps what it read; a code that names no command ends as BAD_ARG with cause 8.
While a command runs a go is refused with BAD_ARG; an abort with no command empties the token window, and before the first pulse
it ends the command with cause 12. -/
def Obligations.OtpReadsAndAborts : Prop :=
  ∀ (path : Path) (s : State), takesWrites path s →
    let o := s.blk.otp
    (s.blk.start.done = true → s.blk.thm.safe = false → o.run = none →
      (∀ r : OtpReads, r.word = rwf (otpBase + 4) 9 0 s.blk →
        (∀ d, secdedDecode (rawReads s.blk r).1 = some d → ∃ t, exec (.otpRead path r) s = .next t ∧ t.mem = s.mem ∧ t.blk.resp = .ok
          ∧ t.blk.otp = { o with seq := o.seq + 1, partialW := false, resOp := 1, resWord := BitVec.ofNat 10 r.word, cause := 0,
                                 status := .ok, data := d.1, info := readInfo (rawReads s.blk r) }) ∧
        (secdedDecode (rawReads s.blk r).1 = none → ∃ t, exec (.otpRead path r) s = .next t ∧ t.mem = s.mem ∧ t.blk.resp = .ok
          ∧ t.blk.otp = { o with seq := o.seq + 1, partialW := false, resOp := 1, resWord := BitVec.ofNat 10 r.word, cause := 11,
                                 status := .poison, data := t.blk.otp.data, info := readInfo (rawReads s.blk r) })) ∧
      (∀ reads : List OtpReads, reactionOf s.blk (fs .otpMarginal) ≤ 2 → ∃ t, exec (.otpScan path reads) s = .next t ∧ t.mem = s.mem
        ∧ t.blk.resp = .ok ∧ t.blk.otp.run = none ∧ t.blk.otp.seq = o.seq + 1 ∧ t.blk.otp.resOp = 5 ∧ t.blk.otp.status = .ok
        ∧ t.blk.otp.cause = 0 ∧ t.blk.otp.words = o.words ∧ t.blk.otp.scans.length = o.scans.length + 1) ∧
      (∀ op : BitVec 3, op = 0 ∨ op = 6 ∨ op = 7 → o.lc ≠ 6 → ∃ t, exec (.otpCmdInvalid path op) s = .next t ∧ t.mem = s.mem
        ∧ t.blk.resp = .ok ∧ t.blk.otp = { o with seq := o.seq + 1, partialW := false, resOp := op, resWord := t.blk.otp.resWord, cause := 8,
                                                   status := .badArg })) ∧
    (∀ r, o.run = some r → ∀ c ∈ [Instr.otpProgram path, .otpLock path, .otpLifecycle path],
      ∃ t, exec c s = .next t ∧ t.mem = s.mem ∧ t.blk.resp = .badArg ∧ t.blk.otp = o) ∧
    (o.run = none → ∃ t, exec (.otpAbort path) s = .next t ∧ t.mem = s.mem ∧ t.blk.resp = .ok
      ∧ t.blk.otp = { o with token := [], claim := none }) ∧
    (∀ r, o.run = some r → r.dead = false → r.phase = .checks → ∃ t, exec (.otpAbort path) s = .next t ∧ t.mem = s.mem
      ∧ t.blk.resp = .ok ∧ t.blk.otp.run = none ∧ t.blk.otp.status = .ok ∧ t.blk.otp.cause = 12 ∧ t.blk.otp.words = o.words
      ∧ t.blk.otp.seq = o.seq + 1) ∧
    (∀ r, o.run = some r → r.dead = false → r.phase = .pulse → ∃ t, exec (.otpAbort path) s = .next t ∧ t.mem = s.mem
      ∧ t.blk.otp = { o with run := some { r with abort := true } } ∧ t.blk.defers.length = s.blk.defers.length + 1)

/-- The programming commands (R486 to R493, R497). The token window takes words of one path, up to 224 bytes; PROGRAM, LOCK and
LIFECYCLE start with their checks; the first check that fails ends the command, and otherwise the nonce takes a new value, the
spec gives none, and the first pulse of the command's word runs. A pulse adds the bits it programmed to the stored charge and
never takes one away; the command goes on with the bits that did not verify, up to eight pulses, and ends OK when all have, as
POISON after eight that leave the data unreadable, and early after an abort, with its word programmed. A sticky lock takes one
write; the region without a lock has no such register (R54). -/
def Obligations.OtpPrograms : Prop :=
  (∀ (path : Path) (s : State), takesWrites path s →
    let o := s.blk.otp
    let mine := ∀ p, o.claim = some p → pathTwp p = pathTwp path
    (∀ (k : Fin 8) (w : Word),
      (mine → o.token.length < 224 → ∃ t, exec (.otpTokenWrite path k w) s = .next t ∧ t.mem = s.mem ∧ t.blk.resp = .ok
        ∧ t.blk.otp = { o with token := o.token ++ bytesOf 4 w, claim := some (o.claim.getD path) }) ∧
      (mine → 224 ≤ o.token.length → ∃ t, exec (.otpTokenWrite path k w) s = .next t ∧ t.mem = s.mem ∧ t.blk.resp = .badArg
        ∧ t.blk.otp = o) ∧
      (¬ mine → ∃ t, exec (.otpTokenWrite path k w) s = .next t ∧ t.mem = s.mem ∧ t.blk.resp = .accessError ∧ t.blk.otp = o)) ∧
    (∀ c ∈ [(Instr.otpProgram path, (2 : BitVec 3)), (.otpLock path, 3), (.otpLifecycle path, 4)],
      o.run = none → s.blk.start.done = true → s.blk.thm.safe = false →
      (mine → o.done = false → o.lc ≠ 6 → ∃ t, exec c.1 s = .next t ∧ t.mem = s.mem ∧ t.blk.resp = .ok
        ∧ t.blk.otp = { o with run := some { op := c.2, path := path, phase := .checks, word := (otpNamed s.blk c.2).getD 0 } }) ∧
      (¬ mine ∨ o.done = true ∨ o.lc = 6 → ∃ t, exec c.1 s = .next t ∧ t.mem = s.mem ∧ t.blk.resp = .ok ∧ t.blk.otp.run = none
        ∧ t.blk.otp.status = .accessError ∧ t.blk.otp.cause = 7 ∧ t.blk.otp.token = [] ∧ t.blk.otp.words = o.words)) ∧
    (∀ (n : Fin 6) (w : Word),
      (n.val = 1 → reactionOf s.blk (fs .regAccess) ≤ 2 → ∃ t, exec (.otpSlockWrite path n w) s = .next t ∧ t.mem = s.mem
        ∧ t.blk.resp = .accessError ∧ t.blk.otp = o) ∧
      (n.val ≠ 1 → o.slockSet.getLsbD n.val = false → ∃ t, exec (.otpSlockWrite path n w) s = .next t ∧ t.mem = s.mem ∧ t.blk.resp = .ok
        ∧ t.blk.otp = { o with slockSet := bset o.slockSet n.val, slock := if w.getLsbD 0 then bset o.slock n.val else o.slock }) ∧
      (n.val ≠ 1 → o.slockSet.getLsbD n.val = true → reactionOf s.blk (fs .regAccess) ≤ 2 → ∃ t, exec (.otpSlockWrite path n w) s = .next t
        ∧ t.mem = s.mem ∧ t.blk.resp = .writeIgnored ∧ t.blk.otp = o))) ∧
  (∀ (r : OtpRun) (s : State), s.blk.otp.run = some r →
    let o := s.blk.otp
    let begins := fun (x : OtpRun) (w : Nat) (target : BitVec 72) => exec .otpChecksDone s = .next (s.upd { s.blk with
      fresh := s.blk.fresh + 1, otp := { o with nonce := Config.freeWord s.blk.fresh, run := some (pulseWord x w target) } })
    (r.phase = .checks →
      (∀ f, otpChecks s.blk r.op = some f → ∃ t, exec .otpChecksDone s = .next t ∧ t.mem = s.mem ∧ t.blk.otp.run = none
        ∧ t.blk.otp.status = f.1 ∧ t.blk.otp.cause = f.2 ∧ t.blk.otp.seq = o.seq + 1 ∧ t.blk.otp.words = o.words
        ∧ t.blk.otp.nonce = o.nonce) ∧
      (otpChecks s.blk r.op = none →
        (r.op = 2 → begins r (tokenTarget s.blk) (secded (tokenData s.blk))) ∧
        (∀ w, r.op = 3 → otpLockWord (tokenTarget s.blk) = some w → begins r w allOnesWord) ∧
        (∀ w rest, r.op = 4 → (blankLife s.blk).take (lifeNeed s.blk) = w :: rest → begins { r with more := rest } w allOnesWord))) ∧
    (∀ missed weak spurious faint : BitVec 72, r.phase = .pulse →
      let raw := otpRaw s.blk r.word ||| (r.unv &&& ~~~missed) ||| (spurious &&& ~~~r.target)
      let left := r.unv &&& (missed ||| weak)
      let bad := (raw ||| mget o.faint r.word 0 ||| faint) &&& ~~~r.target ≠ 0
      let pulse := Instr.otpPulseDone missed weak spurious faint
      let others := fun t : State => t.mem = s.mem ∧ ∀ w, w ≠ r.word → otpRaw t.blk w = otpRaw s.blk w
      (r.dead = true → ∃ t, exec pulse s = .next t ∧ others t ∧ t.blk.otp.run = none ∧ otpRaw t.blk r.word = raw ∧ t.blk.otp.seq = o.seq) ∧
      (r.dead = false → s.blk.start.restartWait = none →
        (left ≠ 0 ∨ bad → r.abort = true → s.blk.defers = [] → ∃ t, exec pulse s = .next t ∧ others t ∧ t.blk.otp.run = none
          ∧ t.blk.otp.status = .ok ∧ t.blk.otp.cause = 12 ∧ t.blk.otp.partialW = true ∧ t.blk.otp.seq = o.seq + 1
          ∧ (r.target ≠ 0 → otpRaw t.blk r.word ≠ 0)) ∧
        (left ≠ 0 ∨ bad → r.abort = false → r.pulses = 7 → secdedDecode raw = none → s.blk.defers = [] →
          ∃ t, exec pulse s = .next t ∧ others t ∧ t.blk.otp.run = none ∧ otpRaw t.blk r.word = raw
          ∧ t.blk.otp.status = .poison ∧ t.blk.otp.cause = 11 ∧ t.blk.otp.seq = o.seq + 1) ∧
        (¬ bad → left ≠ 0 → r.abort = false → r.pulses + 1 < 8 → ∃ t, exec pulse s = .next t ∧ others t
          ∧ t.blk.otp.run = some { r with unv := left, pulses := r.pulses + 1 } ∧ otpRaw t.blk r.word = raw) ∧
        (¬ bad → left = 0 → r.more = [] → s.blk.defers = [] → ∃ t, exec pulse s = .next t ∧ others t
          ∧ t.blk.otp.run = none ∧ otpRaw t.blk r.word = raw
          ∧ t.blk.otp.status = .ok ∧ t.blk.otp.cause = (if r.marg then 10 else 0) ∧ t.blk.otp.seq = o.seq + 1
          ∧ t.blk.otp.resWord = BitVec.ofNat 10 r.word ∧ (r.op = 4 → t.blk.otp.done = true)))))

/-! ### Self-test (chapter 20) -/

/-- BIST (R503 to R512). The go of a test whose checks pass starts a run with the next number and the elements of the test, a
channel test of class B holding its channel; the first check that fails ends it at once in BST_RESULT; both are answered OK. An
abort after the last element, or after an event of R512 has ended the run, is TOO_LATE. The end of a run loads the result with
the cause of R510, the block signature and the elements, and clears the hold; a run whose channel is OFFLINE ends with
CHANNEL_OFFLINE. -/
def Obligations.SelfTestRuns : Prop :=
  (∀ (path : Path) (s : State), takesWrites path s →
    let x := s.blk.bst
    let test := rwf (bstBase + 4) 15 8 s.blk
    let n := rwf (bstBase + 4) 7 0 s.blk
    (∀ c ∈ [(Instr.refCheck path, 1), (.linkLoopback path, 2), (.tsvSpare path, 3), (.eccPath path, 4), (.dramMarch path, 0x10),
        (.tsvFull path, 0x11), (.engSram path, 0x12), (.replaySram path, 0x13)],
      (test ≠ c.2 → exec c.1 s = .next s) ∧
      (test = c.2 → bstCheck s.blk test n = none → ∃ t, exec c.1 s = .next t ∧ t.mem = s.mem ∧ t.blk.resp = .ok
        ∧ t.blk.bst = { x with run := some { test := test, target := n, path := path, elems := bstElems s.blk test n },
                               runId := x.runId + 1, nElems := (bstElems s.blk test n).length, elems := [] }
        ∧ (t.blk.chans[cid n].held = (decide (test = 0x10 ∨ test = 0x11) || s.blk.chans[cid n].held)) ∧ t.blk.ports = s.blk.ports) ∧
      (∀ f, test = c.2 → bstCheck s.blk test n = some f → ∃ t, exec c.1 s = .next t ∧ t.mem = s.mem ∧ t.blk.resp = .ok
        ∧ t.blk.bst = { x with result := bstResult test n f.2 f.1 s.blk } ∧ t.blk.chans = s.blk.chans ∧ t.blk.ports = s.blk.ports)) ∧
    (knownTest test = false → s.blk.start.done = true → (rw (clkBase + 0x20) s.blk).getLsbD 12 = true → s.blk.otp.lc ≠ 6 →
      ∃ t, exec (.bstInvalidTest path) s = .next t ∧ t.mem = s.mem ∧ t.blk.resp = .ok
        ∧ t.blk.bst = { x with result := bstResult test n 3 .badArg s.blk }) ∧
    (x.run = none → ∀ last, ∃ t, exec (.bstAbort path last) s = .next t ∧ t.mem = s.mem ∧ t.blk.resp = .ok ∧ t.blk.bst = x) ∧
    (∀ r, x.run = some r →
      (∀ last, last = true ∨ r.cut = true →
        ∃ t, exec (.bstAbort path last) s = .next t ∧ t.mem = s.mem ∧ t.blk.resp = .tooLate ∧ t.blk.bst = x) ∧
      (r.cut = false → ∃ t, exec (.bstAbort path false) s = .next t ∧ t.mem = s.mem ∧ t.blk.resp = .ok
        ∧ t.blk.bst = { x with run := some { r with abort := true } }))) ∧
  (∀ (results : List ElemResult) (us : Nat) (r : BstRun) (s : State), s.blk.bst.run = some r → s.blk.sage.safe = false →
    s.blk.thm.safe = false → s.blk.defers = [] → reactionOf s.blk (fs .bstFail) ≤ 2 →
    let l := bstTaken r results
    let cause := bstCause r l (bstExpected s.blk r.test)
    let lost := chanTest r.test = true ∧ s.blk.chans[cid r.target].st = .offline
    (lost → ∃ t, exec (.bstRunEnd results us false) s = .next t ∧ t.mem = s.mem ∧ t.blk.bst.run = none
      ∧ t.blk.bst.result = bstResult r.test r.target 0 .channelOffline s.blk ∧ t.blk.chans = s.blk.chans ∧ t.blk.engs = s.blk.engs) ∧
    (¬ lost → ∃ t, exec (.bstRunEnd results us false) s = .next t ∧ t.mem = s.mem ∧ t.blk.bst.run = none
      ∧ t.blk.bst.result = bstResult r.test r.target cause .ok s.blk ∧ t.blk.bst.sig = bstSignature r l ∧ t.blk.bst.elems = l
      ∧ t.blk.bst.duration = BitVec.ofNat 32 us ∧ (rcGet (bstBase + 0x34) t.blk).getLsbD 0 = true
      ∧ (r.test = 0x10 ∨ r.test = 0x11 → t.blk.chans[cid r.target].held = false)
      ∧ (r.test < 0x10 → t.blk.chans = s.blk.chans ∧ t.blk.engs = s.blk.engs)))

/-! ### The two-wire port (chapter 21) -/

/-- Transactions of the two-wire port (R514 to R526), from step 5 of a start on. A START with the stack's address begins one,
another START deselects the stack; the pointer is set, unless its PEC byte is wrong; a word is written as a register write over
the port's path, and the pointer advances by four; a read gives the register's word and advances it too; a STOP ends the
transaction, loads err_seen and commits the port's block. A stretch of 2 ms sends ones or leaves the word to its arbiter; a bus
timeout raises FS_TWP_TIMEOUT with detail 1 or 2; a protocol error ends the transaction and serves the START. -/
def Obligations.TwoWireTransactions : Prop :=
  ∀ s : State, 5 ≤ s.blk.start.step →
    let x := s.blk.twp
    let taking := x.addressed = true ∧ x.reading = false ∧ x.nacking = false
    let mode := pecMode s.blk
    (∀ (sa2 sa1 sa0 : Bool) (s0 u : State), s0.blk.start.pwrok = true → s0.blk.start.brown = false → s0.blk.start.resetN = false →
      exec (.resetNRise (BitVec.ofNat 3 (4 * b2n sa2 + 2 * b2n sa1 + b2n sa0))) s0 = .next u → s.blk.start.straps = u.blk.start.straps →
      x.stretched = false → s.blk.regs.badPar = [] → ∀ read : Bool,
      ∃ t, exec (.twpStart (BitVec.ofNat 8 (2 * (0x38 + 4 * b2n sa2 + 2 * b2n sa1 + b2n sa0) + b2n read)) false false) s = .next t
        ∧ t.blk.twp.addressed = true ∧ t.blk.twp.reading = read) ∧
    (∀ a : Byte, a.toNat / 2 = 0x38 + s.blk.start.straps.toNat → x.stretched = false → s.blk.regs.badPar = [] →
      ∃ t, exec (.twpStart a false false) s = .next t ∧ t.mem = s.mem ∧ t.blk = { s.blk with twp := t.blk.twp, regs := t.blk.regs }
        ∧ t.blk.twp = { x with bus := true, busy := true, addressed := true, reading := a.getLsbD 0, ptrSet := false, pec := [a],
                               nacking := false, acked := true, assembly := [], due := a.getLsbD 0 }
        ∧ (x.busy = true → t.blk.regs = s.blk.regs)
        ∧ (x.busy = false → (ctr (twpBase + 0x14) t.blk).toNat = min ctrMax ((ctr (twpBase + 0x14) s.blk).toNat + 1))) ∧
    (∀ a : Byte, a.toNat / 2 ≠ 0x38 + s.blk.start.straps.toNat → s.blk.regs.badPar = [] → exec (.twpStart a false false) s
      = .next (s.upd { s.blk with twp := { x with bus := true, addressed := false, acked := false, assembly := [], due := false } })) ∧
    (∀ (p : Word) (pec : Byte), taking → x.ptrSet = false →
      (mode = false ∨ crc8 (x.pec ++ bytesOf 4 p) = pec → exec (.twpPointerSet p pec) s
        = .next (s.upd { s.blk with twp := { x with ptr := p, ptrSet := true, pec := [], acked := true, assembly := bytesOf 4 p } })) ∧
      (mode = true → crc8 (x.pec ++ bytesOf 4 p) ≠ pec → ∃ t, exec (.twpPointerSet p pec) s = .next t ∧ t.mem = s.mem
        ∧ t.blk.twp = { x with nacking := true, acked := false, assembly := [] } ∧ (rcGet (twpBase + 4) t.blk).getLsbD 4 = true
        ∧ (ctr (twpBase + 0x18) t.blk).toNat = min ctrMax ((ctr (twpBase + 0x18) s.blk).toNat + 1))) ∧
    (∀ (data : Word) (pec : Byte), taking → x.ptrSet = true → x.late = none →
      let held := s.upd { s.blk with twp := { x with acked := true, assembly := bytesOf 4 data } }
      let after := fun t : State => t.mem = s.mem ∧ t.blk.twp = { x with
        ptr := x.ptr + 4, pec := [], acked := true, assembly := bytesOf 4 data, rsp := t.blk.twp.rsp, rspAddr := x.ptr, err := t.blk.twp.err }
      (mode = false ∨ crc8 (x.pec ++ bytesOf 4 data) = pec →
        (∃ u, exec (.registerWrite .twp x.ptr data 15) held = .next u ∧ (5 ≤ u.blk.start.step → exec (.twpWordWrite data pec) s
          = .next (u.upd { u.blk with twp := { u.blk.twp with ptr := x.ptr + 4, pec := [] } }))) ∧
        (takesWrites .twp s → x.ptr.toNat = bstBase + 4 → ∃ t, exec (.twpWordWrite data pec) s = .next t ∧ after t
          ∧ wfield t.blk.twp.rsp 8 0 = 0x100 ∧ t.blk.twp.err = x.err ∧ rw (bstBase + 4) t.blk = data &&& 0xFFFF) ∧
        (takesWrites .twp s → x.ptr.toNat = twpBase → x.bus = true → ∃ t, exec (.twpWordWrite data pec) s = .next t ∧ after t
          ∧ wfield t.blk.twp.rsp 8 0 = 0x100 ∧ t.blk.twp.err = x.err ∧ shadow twpBase t.blk = data &&& 1
          ∧ rw twpBase t.blk = rw twpBase s.blk) ∧
        (takesWrites .twp s → x.ptr.toNat % 4 = 0 → x.ptr.toNat % 0x1000 < 0x800 → mapped x.ptr.toNat = false →
          reactionOf s.blk (fs .regAccess) ≤ 2 → ∃ t, exec (.twpWordWrite data pec) s = .next t ∧ after t
          ∧ wfield t.blk.twp.rsp 8 0 = 0x10B ∧ t.blk.twp.err = true ∧ t.blk.regs.live = s.blk.regs.live)) ∧
      (mode = true → crc8 (x.pec ++ bytesOf 4 data) ≠ pec → ∃ t, exec (.twpWordWrite data pec) s = .next t ∧ t.mem = s.mem
        ∧ t.blk.twp = { x with nacking := true, acked := false, assembly := [] } ∧ (rcGet (twpBase + 4) t.blk).getLsbD 4 = true
        ∧ t.blk.regs.live = s.blk.regs.live)) ∧
    (x.addressed = true → x.reading = true → x.nacking = false → s.blk.pwr.state = 0 →
      let r := readReg .twp x.ptr s.blk
      ∃ t, exec .twpWordRead s = .next t ∧ t.mem = s.mem ∧ t.blk.twp.word = r.2.1 ∧ t.blk.twp.ptr = x.ptr + 4 ∧ t.blk.twp.pec = []
        ∧ (mode = true → pecMode r.2.2 = true → t.blk.twp.pecOut = crc8 (r.2.2.twp.pec ++ bytesOf 4 r.2.1))) ∧
    (x.busy = true → s.blk.regs.pend = [] → ∃ t, exec (.twpStop false) s = .next t ∧ t.mem = s.mem
      ∧ t.blk = { s.blk with twp := t.blk.twp, defers := t.blk.defers } ∧ t.blk.twp.busy = false ∧ t.blk.twp.stretched = false ∧ t.blk.twp.bus = false ∧ t.blk.twp.addressed = false
      ∧ t.blk.twp.rsp.getLsbD 9 = x.err ∧ wfield t.blk.twp.rsp 8 0 = wfield x.rsp 8 0 ∧ t.blk.twp.ptr = x.ptr) ∧
    (∀ w : PendWr, x.busy = false → s.blk.regs.pend = [w] → w.addr = twpBase → w.good = true → ∃ t, exec (.twpStop false) s = .next t
      ∧ t.mem = s.mem ∧ rw twpBase t.blk = w.value ∧ t.blk.regs.pend = [] ∧ t.blk.twp.bus = false) ∧
    (x.addressed = true → x.nacking = false → (x.reading = true ∨ x.ptrSet = true) →
      ∃ t, exec .twpStretchLimit s = .next t ∧ t.mem = s.mem ∧ (rcGet (twpBase + 4) t.blk).getLsbD 5 = true
        ∧ t.blk.twp = { x with nacking := true, stretched := true, acked := false, word := (if x.reading then 0xFFFFFFFF else x.word),
                               late := (if x.reading then x.late else some x.ptr), lateTx := !x.reading, due := false }) ∧
    (∀ sda : Bool, s.blk.regs.pend = [] → freshSource (fs .twpTimeout) s.blk → reactionOf s.blk (fs .twpTimeout) ≤ 2 →
      ∃ t, exec (.twpBusTimeout sda false) s = .next t ∧ recorded (fs .twpTimeout) 0x5B (if sda then 2 else 1) s t
        ∧ t.blk.twp.busy = false ∧ t.blk.twp.bus = false ∧ t.blk.twp.addressed = false
        ∧ (rcGet (twpBase + 4) t.blk).getLsbD (if sda then 2 else 1) = true) ∧
    (∀ a : Byte, x.busy = true → x.addressed = true → a.toNat / 2 = 0x38 + s.blk.start.straps.toNat →
      ∃ t, exec (.twpProtocolError a false) s = .next t ∧ t.mem = s.mem ∧ (rcGet (twpBase + 4) t.blk).getLsbD 3 = true
        ∧ (ctr (twpBase + 0x18) t.blk).toNat = min ctrMax ((ctr (twpBase + 0x18) s.blk).toNat + 1)
        ∧ t.blk.twp.busy = true ∧ t.blk.twp.addressed = true ∧ t.blk.twp.reading = a.getLsbD 0 ∧ t.blk.twp.ptrSet = false
        ∧ t.blk.twp.pec = [a])
end

