-- ==== Sys2Proof/Laws/Memory.lean ====
section
/-! SUPPORT. Sparse stores and DRAM: what a read after a write gives, and that every write keeps the canonical form. The read laws
hold for every list, canonical or not. -/

namespace Sys2Proof.Machine

open Sys2Proof

section Store
variable {α : Type}

@[simp] theorem mget_mput_same (m : SMap α) (k : Nat) (d v : α) : mget (mput m k v) k d = v := by
  induction m with
  | nil => simp [mput, mget]
  | cons e t ih => simp only [mput]; split <;> [skip; split] <;> simp_all [mget]

theorem mget_mput_other (m : SMap α) {k j : Nat} (d v : α) (h : j ≠ k) : mget (mput m k v) j d = mget m j d := by
  induction m with
  | nil => simp [mput, mget, h.symm]
  | cons e t ih => simp only [mput]; split <;> [skip; split] <;> simp_all [mget, h.symm]

theorem mget_filter_same (m : SMap α) (k : Nat) (d : α) : mget (m.filter fun e => e.1 != k) k d = d := by
  induction m with
  | nil => rfl
  | cons e t ih => rw [List.filter_cons]; split <;> simp_all [mget]

theorem mget_filter_other (m : SMap α) {k j : Nat} (d : α) (h : j ≠ k) : mget (m.filter fun e => e.1 != k) j d = mget m j d := by
  induction m with
  | nil => rfl
  | cons e t ih =>
    obtain ⟨i, v⟩ := e
    rw [List.filter_cons]
    by_cases hi : i = k
    · subst hi; simp [mget, h.symm, ih]
    · simp [mget, hi, ih]

variable [DecidableEq α]

@[simp] theorem mget_mset_same (m : SMap α) (k : Nat) (d v : α) : mget (mset m k d v) k d = v := by
  unfold mset; split
  · next h => rw [mget_filter_same, h]
  · exact mget_mput_same m k d v

theorem mget_mset_other (m : SMap α) {k j : Nat} (d v : α) (h : j ≠ k) : mget (mset m k d v) j d = mget m j d := by
  unfold mset; split
  · exact mget_filter_other m d h
  · exact mget_mput_other m d v h

/-- The canonical form as a statement about all entries: keys rise, and no value is the default. -/
theorem mwf_iff (d : α) (m : SMap α) :
    mwf d m = true ↔ m.Pairwise (fun x y => x.1 < y.1) ∧ ∀ e ∈ m, e.2 ≠ d := by
  induction m with
  | nil => simp [mwf]
  | cons e t ih =>
    cases t with
    | nil => simp [mwf]
    | cons f u =>
      rw [mwf, Bool.and_eq_true, Bool.and_eq_true, ih]
      simp only [decide_eq_true_eq, List.pairwise_cons, List.mem_cons, forall_eq_or_imp]
      constructor
      · rintro ⟨⟨h, n⟩, ⟨p, q⟩, r, v⟩
        exact ⟨⟨⟨h, fun a ha => Nat.lt_trans h (p a ha)⟩, p, q⟩, n, r, v⟩
      · rintro ⟨⟨⟨h, _⟩, p, q⟩, n, r, v⟩
        exact ⟨⟨h, n⟩, ⟨p, q⟩, r, v⟩

omit [DecidableEq α] in
theorem mem_mput {m : SMap α} {k : Nat} {v : α} {e : Nat × α} (h : e ∈ mput m k v) : e = (k, v) ∨ e ∈ m := by
  induction m with
  | nil => simp [mput] at h; exact .inl h
  | cons f t ih =>
    simp only [mput] at h
    split at h
    · rcases List.mem_cons.mp h with h | h
      · exact .inl h
      · exact .inr (List.mem_cons_of_mem _ h)
    · split at h
      · rcases List.mem_cons.mp h with h | h
        · exact .inl h
        · exact .inr h
      · rcases List.mem_cons.mp h with h | h
        · exact .inr (h ▸ List.mem_cons_self)
        · rcases ih h with h | h
          · exact .inl h
          · exact .inr (List.mem_cons_of_mem _ h)

omit [DecidableEq α] in
theorem pairwise_mput {m : SMap α} (k : Nat) (v : α) (h : m.Pairwise fun x y => x.1 < y.1) :
    (mput m k v).Pairwise fun x y => x.1 < y.1 := by
  induction m with
  | nil => simp [mput]
  | cons f t ih =>
    obtain ⟨p, q⟩ := List.pairwise_cons.mp h
    simp only [mput]
    split
    · next e => exact List.pairwise_cons.mpr ⟨fun a ha => by have := p a ha; omega, q⟩
    · split
      · next g => exact List.pairwise_cons.mpr ⟨fun a ha => by
          rcases List.mem_cons.mp ha with rfl | ha
          · exact g
          · exact Nat.lt_trans g (p a ha), h⟩
      · next n g =>
        refine List.pairwise_cons.mpr ⟨fun a ha => ?_, ih q⟩
        rcases mem_mput ha with rfl | ha
        · simp only; omega
        · exact p a ha

/-- A store keeps the canonical form. -/
theorem mwf_mset {m : SMap α} (k : Nat) (d v : α) (h : mwf d m = true) : mwf d (mset m k d v) = true := by
  rw [mwf_iff] at *
  unfold mset; split
  · exact ⟨h.1.filter _, fun e he => h.2 e (List.mem_of_mem_filter he)⟩
  · next hv =>
    refine ⟨pairwise_mput k v h.1, fun e he => ?_⟩
    rcases mem_mput he with rfl | he
    · exact hv
    · exact h.2 e he

end Store

/-! ### DRAM -/

@[simp] theorem memGet_memSet_same (m : List Host.Cell) (a : Nat) (v : Byte) : memGet (memSet m a v) a = v :=
  mget_mset_same m a _ v

theorem memGet_memSet_other (m : List Host.Cell) {a b : Nat} (v : Byte) (h : b ≠ a) : memGet (memSet m a v) b = memGet m b :=
  mget_mset_other m _ v h

theorem memSet_wf {m : List Host.Cell} (a : Nat) (v : Byte) (h : Memory.wf m = true) : Memory.wf (memSet m a v) = true :=
  mwf_mset a _ v h

theorem memSetBytes_wf {m : List Host.Cell} (a : Nat) (l : List Byte) (h : Memory.wf m = true) :
    Memory.wf (memSetBytes m a l) = true := by
  induction l generalizing m a with
  | nil => exact h
  | cons v t ih => exact ih _ (memSet_wf a v h)

/-- A run of bytes leaves every address outside it. -/
theorem memGet_memSetBytes_other (m : List Host.Cell) (a : Nat) (l : List Byte) {k : Nat} (h : ¬ (a ≤ k ∧ k < a + l.length)) :
    memGet (memSetBytes m a l) k = memGet m k := by
  induction l generalizing m a with
  | nil => rfl
  | cons v t ih =>
    rw [List.length_cons] at h
    rw [memSetBytes, ih _ _ (by omega), memGet_memSet_other m v (by omega)]

/-- A run of bytes reads back. -/
theorem memGet_memSetBytes_same (m : List Host.Cell) (a : Nat) (l : List Byte) {i : Nat} (h : i < l.length) :
    memGet (memSetBytes m a l) (a + i) = l[i] := by
  induction l generalizing m a i with
  | nil => simp at h
  | cons v t ih =>
    cases i with
    | zero => rw [memSetBytes, memGet_memSetBytes_other _ _ _ (by omega)]; simp
    | succ i =>
      rw [memSetBytes, show a + (i + 1) = a + 1 + i by omega, ih _ _ (by simpa using h)]; rfl

/-- A stored line keeps the canonical form. -/
theorem dramSet_wf {m : List Host.Cell} (c a : Nat) (v : Stored) (h : Memory.wf m = true) : Memory.wf (dramSet m c a v) = true :=
  memSetBytes_wf _ _ h

end Sys2Proof.Machine
end

