-- ==== Sys2Proof/Laws/State.lean ====
section
/-! SUPPORT. What each update leaves alone: one lemma per field and update, so that no proof unfolds a record update. -/

namespace Sys2Proof.Machine

open Sys2Proof

variable (b : Block) (s : State)

@[simp] theorem State.upd_blk (x : Block) : (s.upd x).blk = x := rfl
@[simp] theorem State.upd_mem (x : Block) : (s.upd x).mem = s.mem := rfl
@[simp] theorem State.upd_pending (x : Block) : (s.upd x).pending = s.pending := rfl
@[simp] theorem State.upd_upd (x y : Block) : (s.upd x).upd y = s.upd y := rfl
@[simp] theorem State.upd_self : s.upd s.blk = s := rfl

@[simp] theorem modPort_same (p : PortId) (f : Port → Port) : (modPort p f b).ports[p] = f b.ports[p] := by
  simp [modPort]
@[simp] theorem modChan_same (c : ChanId) (f : Chan → Chan) : (modChan c f b).chans[c] = f b.chans[c] := by
  simp [modChan]
@[simp] theorem modEng_same (e : EngId) (f : Eng → Eng) : (modEng e f b).engs[e] = f b.engs[e] := by
  simp [modEng]

theorem modPort_other {p q : PortId} (f : Port → Port) (h : q ≠ p) : (modPort p f b).ports[q] = b.ports[q] := by
  simp only [modPort, Fin.getElem_fin]
  exact Vector.getElem_set_ne _ _ fun e => h (Fin.ext e.symm)
theorem modChan_other {c d : ChanId} (f : Chan → Chan) (h : d ≠ c) : (modChan c f b).chans[d] = b.chans[d] := by
  simp only [modChan, Fin.getElem_fin]
  exact Vector.getElem_set_ne _ _ fun e => h (Fin.ext e.symm)
theorem modEng_other {c d : EngId} (f : Eng → Eng) (h : d ≠ c) : (modEng c f b).engs[d] = b.engs[d] := by
  simp only [modEng, Fin.getElem_fin]
  exact Vector.getElem_set_ne _ _ fun e => h (Fin.ext e.symm)

/-- What every turn of `forAll` keeps, `forAll` keeps. -/
theorem forAll_keep {α : Type} {n : Nat} (g : Block → α) (f : Fin n → Block → Block) (h : ∀ i b, g (f i b) = g b) :
    g (forAll n f b) = g b := by
  unfold forAll
  generalize List.finRange n = l
  induction l generalizing b with
  | nil => rfl
  | cons i t ih => simp [List.foldl, ih, h]

/-- What every turn of a fold keeps, the fold keeps. -/
theorem foldl_keep {α β σ : Type} (g : σ → α) (f : σ → β → σ) (h : ∀ x y, g (f x y) = g x) (l : List β) (x : σ) :
    g (l.foldl f x) = g x := by
  induction l generalizing x with
  | nil => rfl
  | cons y t ih => simp [List.foldl, ih, h]

/-! ### modPort -/

@[simp] theorem modPort_start (p : PortId) (f : Port → Port) : (modPort p f b).start = b.start := rfl
@[simp] theorem modPort_time (p : PortId) (f : Port → Port) : (modPort p f b).time = b.time := rfl
@[simp] theorem modPort_iosc (p : PortId) (f : Port → Port) : (modPort p f b).iosc = b.iosc := rfl
@[simp] theorem modPort_regs (p : PortId) (f : Port → Port) : (modPort p f b).regs = b.regs := rfl
@[simp] theorem modPort_img (p : PortId) (f : Port → Port) : (modPort p f b).img = b.img := rfl
@[simp] theorem modPort_hnd (p : PortId) (f : Port → Port) : (modPort p f b).hnd = b.hnd := rfl
@[simp] theorem modPort_srl (p : PortId) (f : Port → Port) : (modPort p f b).srl = b.srl := rfl
@[simp] theorem modPort_sav (p : PortId) (f : Port → Port) : (modPort p f b).sav = b.sav := rfl
@[simp] theorem modPort_chans (p : PortId) (f : Port → Port) : (modPort p f b).chans = b.chans := rfl
@[simp] theorem modPort_ops (p : PortId) (f : Port → Port) : (modPort p f b).ops = b.ops := rfl
@[simp] theorem modPort_engs (p : PortId) (f : Port → Port) : (modPort p f b).engs = b.engs := rfl
@[simp] theorem modPort_thm (p : PortId) (f : Port → Port) : (modPort p f b).thm = b.thm := rfl
@[simp] theorem modPort_clk (p : PortId) (f : Port → Port) : (modPort p f b).clk = b.clk := rfl
@[simp] theorem modPort_pwr (p : PortId) (f : Port → Port) : (modPort p f b).pwr = b.pwr := rfl
@[simp] theorem modPort_cal (p : PortId) (f : Port → Port) : (modPort p f b).cal = b.cal := rfl
@[simp] theorem modPort_sage (p : PortId) (f : Port → Port) : (modPort p f b).sage = b.sage := rfl
@[simp] theorem modPort_otp (p : PortId) (f : Port → Port) : (modPort p f b).otp = b.otp := rfl
@[simp] theorem modPort_bst (p : PortId) (f : Port → Port) : (modPort p f b).bst = b.bst := rfl
@[simp] theorem modPort_twp (p : PortId) (f : Port → Port) : (modPort p f b).twp = b.twp := rfl
@[simp] theorem modPort_resp (p : PortId) (f : Port → Port) : (modPort p f b).resp = b.resp := rfl
@[simp] theorem modPort_tap (p : PortId) (f : Port → Port) : (modPort p f b).tap = b.tap := rfl
@[simp] theorem modPort_fabric (p : PortId) (f : Port → Port) : (modPort p f b).fabric = b.fabric := rfl
@[simp] theorem modPort_sramCe (p : PortId) (f : Port → Port) : (modPort p f b).sramCe = b.sramCe := rfl
@[simp] theorem modPort_defers (p : PortId) (f : Port → Port) : (modPort p f b).defers = b.defers := rfl
@[simp] theorem modPort_fresh (p : PortId) (f : Port → Port) : (modPort p f b).fresh = b.fresh := rfl

/-! ### modChan -/

@[simp] theorem modChan_start (c : ChanId) (f : Chan → Chan) : (modChan c f b).start = b.start := rfl
@[simp] theorem modChan_time (c : ChanId) (f : Chan → Chan) : (modChan c f b).time = b.time := rfl
@[simp] theorem modChan_iosc (c : ChanId) (f : Chan → Chan) : (modChan c f b).iosc = b.iosc := rfl
@[simp] theorem modChan_regs (c : ChanId) (f : Chan → Chan) : (modChan c f b).regs = b.regs := rfl
@[simp] theorem modChan_img (c : ChanId) (f : Chan → Chan) : (modChan c f b).img = b.img := rfl
@[simp] theorem modChan_ports (c : ChanId) (f : Chan → Chan) : (modChan c f b).ports = b.ports := rfl
@[simp] theorem modChan_hnd (c : ChanId) (f : Chan → Chan) : (modChan c f b).hnd = b.hnd := rfl
@[simp] theorem modChan_srl (c : ChanId) (f : Chan → Chan) : (modChan c f b).srl = b.srl := rfl
@[simp] theorem modChan_sav (c : ChanId) (f : Chan → Chan) : (modChan c f b).sav = b.sav := rfl
@[simp] theorem modChan_ops (c : ChanId) (f : Chan → Chan) : (modChan c f b).ops = b.ops := rfl
@[simp] theorem modChan_engs (c : ChanId) (f : Chan → Chan) : (modChan c f b).engs = b.engs := rfl
@[simp] theorem modChan_thm (c : ChanId) (f : Chan → Chan) : (modChan c f b).thm = b.thm := rfl
@[simp] theorem modChan_clk (c : ChanId) (f : Chan → Chan) : (modChan c f b).clk = b.clk := rfl
@[simp] theorem modChan_pwr (c : ChanId) (f : Chan → Chan) : (modChan c f b).pwr = b.pwr := rfl
@[simp] theorem modChan_cal (c : ChanId) (f : Chan → Chan) : (modChan c f b).cal = b.cal := rfl
@[simp] theorem modChan_sage (c : ChanId) (f : Chan → Chan) : (modChan c f b).sage = b.sage := rfl
@[simp] theorem modChan_otp (c : ChanId) (f : Chan → Chan) : (modChan c f b).otp = b.otp := rfl
@[simp] theorem modChan_bst (c : ChanId) (f : Chan → Chan) : (modChan c f b).bst = b.bst := rfl
@[simp] theorem modChan_twp (c : ChanId) (f : Chan → Chan) : (modChan c f b).twp = b.twp := rfl
@[simp] theorem modChan_resp (c : ChanId) (f : Chan → Chan) : (modChan c f b).resp = b.resp := rfl
@[simp] theorem modChan_tap (c : ChanId) (f : Chan → Chan) : (modChan c f b).tap = b.tap := rfl
@[simp] theorem modChan_fabric (c : ChanId) (f : Chan → Chan) : (modChan c f b).fabric = b.fabric := rfl
@[simp] theorem modChan_sramCe (c : ChanId) (f : Chan → Chan) : (modChan c f b).sramCe = b.sramCe := rfl
@[simp] theorem modChan_defers (c : ChanId) (f : Chan → Chan) : (modChan c f b).defers = b.defers := rfl
@[simp] theorem modChan_fresh (c : ChanId) (f : Chan → Chan) : (modChan c f b).fresh = b.fresh := rfl

/-! ### modEng -/

@[simp] theorem modEng_start (e : EngId) (f : Eng → Eng) : (modEng e f b).start = b.start := rfl
@[simp] theorem modEng_time (e : EngId) (f : Eng → Eng) : (modEng e f b).time = b.time := rfl
@[simp] theorem modEng_iosc (e : EngId) (f : Eng → Eng) : (modEng e f b).iosc = b.iosc := rfl
@[simp] theorem modEng_regs (e : EngId) (f : Eng → Eng) : (modEng e f b).regs = b.regs := rfl
@[simp] theorem modEng_img (e : EngId) (f : Eng → Eng) : (modEng e f b).img = b.img := rfl
@[simp] theorem modEng_ports (e : EngId) (f : Eng → Eng) : (modEng e f b).ports = b.ports := rfl
@[simp] theorem modEng_hnd (e : EngId) (f : Eng → Eng) : (modEng e f b).hnd = b.hnd := rfl
@[simp] theorem modEng_srl (e : EngId) (f : Eng → Eng) : (modEng e f b).srl = b.srl := rfl
@[simp] theorem modEng_sav (e : EngId) (f : Eng → Eng) : (modEng e f b).sav = b.sav := rfl
@[simp] theorem modEng_chans (e : EngId) (f : Eng → Eng) : (modEng e f b).chans = b.chans := rfl
@[simp] theorem modEng_ops (e : EngId) (f : Eng → Eng) : (modEng e f b).ops = b.ops := rfl
@[simp] theorem modEng_thm (e : EngId) (f : Eng → Eng) : (modEng e f b).thm = b.thm := rfl
@[simp] theorem modEng_clk (e : EngId) (f : Eng → Eng) : (modEng e f b).clk = b.clk := rfl
@[simp] theorem modEng_pwr (e : EngId) (f : Eng → Eng) : (modEng e f b).pwr = b.pwr := rfl
@[simp] theorem modEng_cal (e : EngId) (f : Eng → Eng) : (modEng e f b).cal = b.cal := rfl
@[simp] theorem modEng_sage (e : EngId) (f : Eng → Eng) : (modEng e f b).sage = b.sage := rfl
@[simp] theorem modEng_otp (e : EngId) (f : Eng → Eng) : (modEng e f b).otp = b.otp := rfl
@[simp] theorem modEng_bst (e : EngId) (f : Eng → Eng) : (modEng e f b).bst = b.bst := rfl
@[simp] theorem modEng_twp (e : EngId) (f : Eng → Eng) : (modEng e f b).twp = b.twp := rfl
@[simp] theorem modEng_resp (e : EngId) (f : Eng → Eng) : (modEng e f b).resp = b.resp := rfl
@[simp] theorem modEng_tap (e : EngId) (f : Eng → Eng) : (modEng e f b).tap = b.tap := rfl
@[simp] theorem modEng_fabric (e : EngId) (f : Eng → Eng) : (modEng e f b).fabric = b.fabric := rfl
@[simp] theorem modEng_sramCe (e : EngId) (f : Eng → Eng) : (modEng e f b).sramCe = b.sramCe := rfl
@[simp] theorem modEng_defers (e : EngId) (f : Eng → Eng) : (modEng e f b).defers = b.defers := rfl
@[simp] theorem modEng_fresh (e : EngId) (f : Eng → Eng) : (modEng e f b).fresh = b.fresh := rfl

/-! ### modSavQ -/

@[simp] theorem modSavQ_start (q : QuadId) (f : SavQ → SavQ) : (modSavQ q f b).start = b.start := rfl
@[simp] theorem modSavQ_time (q : QuadId) (f : SavQ → SavQ) : (modSavQ q f b).time = b.time := rfl
@[simp] theorem modSavQ_iosc (q : QuadId) (f : SavQ → SavQ) : (modSavQ q f b).iosc = b.iosc := rfl
@[simp] theorem modSavQ_regs (q : QuadId) (f : SavQ → SavQ) : (modSavQ q f b).regs = b.regs := rfl
@[simp] theorem modSavQ_img (q : QuadId) (f : SavQ → SavQ) : (modSavQ q f b).img = b.img := rfl
@[simp] theorem modSavQ_ports (q : QuadId) (f : SavQ → SavQ) : (modSavQ q f b).ports = b.ports := rfl
@[simp] theorem modSavQ_hnd (q : QuadId) (f : SavQ → SavQ) : (modSavQ q f b).hnd = b.hnd := rfl
@[simp] theorem modSavQ_srl (q : QuadId) (f : SavQ → SavQ) : (modSavQ q f b).srl = b.srl := rfl
@[simp] theorem modSavQ_chans (q : QuadId) (f : SavQ → SavQ) : (modSavQ q f b).chans = b.chans := rfl
@[simp] theorem modSavQ_ops (q : QuadId) (f : SavQ → SavQ) : (modSavQ q f b).ops = b.ops := rfl
@[simp] theorem modSavQ_engs (q : QuadId) (f : SavQ → SavQ) : (modSavQ q f b).engs = b.engs := rfl
@[simp] theorem modSavQ_thm (q : QuadId) (f : SavQ → SavQ) : (modSavQ q f b).thm = b.thm := rfl
@[simp] theorem modSavQ_clk (q : QuadId) (f : SavQ → SavQ) : (modSavQ q f b).clk = b.clk := rfl
@[simp] theorem modSavQ_pwr (q : QuadId) (f : SavQ → SavQ) : (modSavQ q f b).pwr = b.pwr := rfl
@[simp] theorem modSavQ_cal (q : QuadId) (f : SavQ → SavQ) : (modSavQ q f b).cal = b.cal := rfl
@[simp] theorem modSavQ_sage (q : QuadId) (f : SavQ → SavQ) : (modSavQ q f b).sage = b.sage := rfl
@[simp] theorem modSavQ_otp (q : QuadId) (f : SavQ → SavQ) : (modSavQ q f b).otp = b.otp := rfl
@[simp] theorem modSavQ_bst (q : QuadId) (f : SavQ → SavQ) : (modSavQ q f b).bst = b.bst := rfl
@[simp] theorem modSavQ_twp (q : QuadId) (f : SavQ → SavQ) : (modSavQ q f b).twp = b.twp := rfl
@[simp] theorem modSavQ_resp (q : QuadId) (f : SavQ → SavQ) : (modSavQ q f b).resp = b.resp := rfl
@[simp] theorem modSavQ_tap (q : QuadId) (f : SavQ → SavQ) : (modSavQ q f b).tap = b.tap := rfl
@[simp] theorem modSavQ_fabric (q : QuadId) (f : SavQ → SavQ) : (modSavQ q f b).fabric = b.fabric := rfl
@[simp] theorem modSavQ_sramCe (q : QuadId) (f : SavQ → SavQ) : (modSavQ q f b).sramCe = b.sramCe := rfl
@[simp] theorem modSavQ_defers (q : QuadId) (f : SavQ → SavQ) : (modSavQ q f b).defers = b.defers := rfl
@[simp] theorem modSavQ_fresh (q : QuadId) (f : SavQ → SavQ) : (modSavQ q f b).fresh = b.fresh := rfl

/-! ### setLive -/

@[simp] theorem setLive_start (a : Nat) (v : Word) : (setLive a v b).start = b.start := rfl
@[simp] theorem setLive_time (a : Nat) (v : Word) : (setLive a v b).time = b.time := rfl
@[simp] theorem setLive_iosc (a : Nat) (v : Word) : (setLive a v b).iosc = b.iosc := rfl
@[simp] theorem setLive_img (a : Nat) (v : Word) : (setLive a v b).img = b.img := rfl
@[simp] theorem setLive_ports (a : Nat) (v : Word) : (setLive a v b).ports = b.ports := rfl
@[simp] theorem setLive_hnd (a : Nat) (v : Word) : (setLive a v b).hnd = b.hnd := rfl
@[simp] theorem setLive_srl (a : Nat) (v : Word) : (setLive a v b).srl = b.srl := rfl
@[simp] theorem setLive_sav (a : Nat) (v : Word) : (setLive a v b).sav = b.sav := rfl
@[simp] theorem setLive_chans (a : Nat) (v : Word) : (setLive a v b).chans = b.chans := rfl
@[simp] theorem setLive_ops (a : Nat) (v : Word) : (setLive a v b).ops = b.ops := rfl
@[simp] theorem setLive_engs (a : Nat) (v : Word) : (setLive a v b).engs = b.engs := rfl
@[simp] theorem setLive_thm (a : Nat) (v : Word) : (setLive a v b).thm = b.thm := rfl
@[simp] theorem setLive_clk (a : Nat) (v : Word) : (setLive a v b).clk = b.clk := rfl
@[simp] theorem setLive_pwr (a : Nat) (v : Word) : (setLive a v b).pwr = b.pwr := rfl
@[simp] theorem setLive_cal (a : Nat) (v : Word) : (setLive a v b).cal = b.cal := rfl
@[simp] theorem setLive_sage (a : Nat) (v : Word) : (setLive a v b).sage = b.sage := rfl
@[simp] theorem setLive_otp (a : Nat) (v : Word) : (setLive a v b).otp = b.otp := rfl
@[simp] theorem setLive_bst (a : Nat) (v : Word) : (setLive a v b).bst = b.bst := rfl
@[simp] theorem setLive_twp (a : Nat) (v : Word) : (setLive a v b).twp = b.twp := rfl
@[simp] theorem setLive_resp (a : Nat) (v : Word) : (setLive a v b).resp = b.resp := rfl
@[simp] theorem setLive_tap (a : Nat) (v : Word) : (setLive a v b).tap = b.tap := rfl
@[simp] theorem setLive_fabric (a : Nat) (v : Word) : (setLive a v b).fabric = b.fabric := rfl
@[simp] theorem setLive_sramCe (a : Nat) (v : Word) : (setLive a v b).sramCe = b.sramCe := rfl
@[simp] theorem setLive_defers (a : Nat) (v : Word) : (setLive a v b).defers = b.defers := rfl
@[simp] theorem setLive_fresh (a : Nat) (v : Word) : (setLive a v b).fresh = b.fresh := rfl

/-! ### bufferWrite -/

@[simp] theorem bufferWrite_start (a : Nat) (v : Word) : (bufferWrite a v b).start = b.start := rfl
@[simp] theorem bufferWrite_time (a : Nat) (v : Word) : (bufferWrite a v b).time = b.time := rfl
@[simp] theorem bufferWrite_iosc (a : Nat) (v : Word) : (bufferWrite a v b).iosc = b.iosc := rfl
@[simp] theorem bufferWrite_img (a : Nat) (v : Word) : (bufferWrite a v b).img = b.img := rfl
@[simp] theorem bufferWrite_ports (a : Nat) (v : Word) : (bufferWrite a v b).ports = b.ports := rfl
@[simp] theorem bufferWrite_hnd (a : Nat) (v : Word) : (bufferWrite a v b).hnd = b.hnd := rfl
@[simp] theorem bufferWrite_srl (a : Nat) (v : Word) : (bufferWrite a v b).srl = b.srl := rfl
@[simp] theorem bufferWrite_sav (a : Nat) (v : Word) : (bufferWrite a v b).sav = b.sav := rfl
@[simp] theorem bufferWrite_chans (a : Nat) (v : Word) : (bufferWrite a v b).chans = b.chans := rfl
@[simp] theorem bufferWrite_ops (a : Nat) (v : Word) : (bufferWrite a v b).ops = b.ops := rfl
@[simp] theorem bufferWrite_engs (a : Nat) (v : Word) : (bufferWrite a v b).engs = b.engs := rfl
@[simp] theorem bufferWrite_thm (a : Nat) (v : Word) : (bufferWrite a v b).thm = b.thm := rfl
@[simp] theorem bufferWrite_clk (a : Nat) (v : Word) : (bufferWrite a v b).clk = b.clk := rfl
@[simp] theorem bufferWrite_pwr (a : Nat) (v : Word) : (bufferWrite a v b).pwr = b.pwr := rfl
@[simp] theorem bufferWrite_cal (a : Nat) (v : Word) : (bufferWrite a v b).cal = b.cal := rfl
@[simp] theorem bufferWrite_sage (a : Nat) (v : Word) : (bufferWrite a v b).sage = b.sage := rfl
@[simp] theorem bufferWrite_otp (a : Nat) (v : Word) : (bufferWrite a v b).otp = b.otp := rfl
@[simp] theorem bufferWrite_bst (a : Nat) (v : Word) : (bufferWrite a v b).bst = b.bst := rfl
@[simp] theorem bufferWrite_twp (a : Nat) (v : Word) : (bufferWrite a v b).twp = b.twp := rfl
@[simp] theorem bufferWrite_resp (a : Nat) (v : Word) : (bufferWrite a v b).resp = b.resp := rfl
@[simp] theorem bufferWrite_tap (a : Nat) (v : Word) : (bufferWrite a v b).tap = b.tap := rfl
@[simp] theorem bufferWrite_fabric (a : Nat) (v : Word) : (bufferWrite a v b).fabric = b.fabric := rfl
@[simp] theorem bufferWrite_sramCe (a : Nat) (v : Word) : (bufferWrite a v b).sramCe = b.sramCe := rfl
@[simp] theorem bufferWrite_defers (a : Nat) (v : Word) : (bufferWrite a v b).defers = b.defers := rfl
@[simp] theorem bufferWrite_fresh (a : Nat) (v : Word) : (bufferWrite a v b).fresh = b.fresh := rfl

/-! ### ctrAdd -/

@[simp] theorem ctrAdd_start (a n : Nat) : (ctrAdd a n b).start = b.start := rfl
@[simp] theorem ctrAdd_time (a n : Nat) : (ctrAdd a n b).time = b.time := rfl
@[simp] theorem ctrAdd_iosc (a n : Nat) : (ctrAdd a n b).iosc = b.iosc := rfl
@[simp] theorem ctrAdd_img (a n : Nat) : (ctrAdd a n b).img = b.img := rfl
@[simp] theorem ctrAdd_ports (a n : Nat) : (ctrAdd a n b).ports = b.ports := rfl
@[simp] theorem ctrAdd_hnd (a n : Nat) : (ctrAdd a n b).hnd = b.hnd := rfl
@[simp] theorem ctrAdd_srl (a n : Nat) : (ctrAdd a n b).srl = b.srl := rfl
@[simp] theorem ctrAdd_sav (a n : Nat) : (ctrAdd a n b).sav = b.sav := rfl
@[simp] theorem ctrAdd_chans (a n : Nat) : (ctrAdd a n b).chans = b.chans := rfl
@[simp] theorem ctrAdd_ops (a n : Nat) : (ctrAdd a n b).ops = b.ops := rfl
@[simp] theorem ctrAdd_engs (a n : Nat) : (ctrAdd a n b).engs = b.engs := rfl
@[simp] theorem ctrAdd_thm (a n : Nat) : (ctrAdd a n b).thm = b.thm := rfl
@[simp] theorem ctrAdd_clk (a n : Nat) : (ctrAdd a n b).clk = b.clk := rfl
@[simp] theorem ctrAdd_pwr (a n : Nat) : (ctrAdd a n b).pwr = b.pwr := rfl
@[simp] theorem ctrAdd_cal (a n : Nat) : (ctrAdd a n b).cal = b.cal := rfl
@[simp] theorem ctrAdd_sage (a n : Nat) : (ctrAdd a n b).sage = b.sage := rfl
@[simp] theorem ctrAdd_otp (a n : Nat) : (ctrAdd a n b).otp = b.otp := rfl
@[simp] theorem ctrAdd_bst (a n : Nat) : (ctrAdd a n b).bst = b.bst := rfl
@[simp] theorem ctrAdd_twp (a n : Nat) : (ctrAdd a n b).twp = b.twp := rfl
@[simp] theorem ctrAdd_resp (a n : Nat) : (ctrAdd a n b).resp = b.resp := rfl
@[simp] theorem ctrAdd_tap (a n : Nat) : (ctrAdd a n b).tap = b.tap := rfl
@[simp] theorem ctrAdd_fabric (a n : Nat) : (ctrAdd a n b).fabric = b.fabric := rfl
@[simp] theorem ctrAdd_sramCe (a n : Nat) : (ctrAdd a n b).sramCe = b.sramCe := rfl
@[simp] theorem ctrAdd_defers (a n : Nat) : (ctrAdd a n b).defers = b.defers := rfl
@[simp] theorem ctrAdd_fresh (a n : Nat) : (ctrAdd a n b).fresh = b.fresh := rfl

/-! ### ctrClear -/

@[simp] theorem ctrClear_start (a : Nat) : (ctrClear a b).start = b.start := rfl
@[simp] theorem ctrClear_time (a : Nat) : (ctrClear a b).time = b.time := rfl
@[simp] theorem ctrClear_iosc (a : Nat) : (ctrClear a b).iosc = b.iosc := rfl
@[simp] theorem ctrClear_img (a : Nat) : (ctrClear a b).img = b.img := rfl
@[simp] theorem ctrClear_ports (a : Nat) : (ctrClear a b).ports = b.ports := rfl
@[simp] theorem ctrClear_hnd (a : Nat) : (ctrClear a b).hnd = b.hnd := rfl
@[simp] theorem ctrClear_srl (a : Nat) : (ctrClear a b).srl = b.srl := rfl
@[simp] theorem ctrClear_sav (a : Nat) : (ctrClear a b).sav = b.sav := rfl
@[simp] theorem ctrClear_chans (a : Nat) : (ctrClear a b).chans = b.chans := rfl
@[simp] theorem ctrClear_ops (a : Nat) : (ctrClear a b).ops = b.ops := rfl
@[simp] theorem ctrClear_engs (a : Nat) : (ctrClear a b).engs = b.engs := rfl
@[simp] theorem ctrClear_thm (a : Nat) : (ctrClear a b).thm = b.thm := rfl
@[simp] theorem ctrClear_clk (a : Nat) : (ctrClear a b).clk = b.clk := rfl
@[simp] theorem ctrClear_pwr (a : Nat) : (ctrClear a b).pwr = b.pwr := rfl
@[simp] theorem ctrClear_cal (a : Nat) : (ctrClear a b).cal = b.cal := rfl
@[simp] theorem ctrClear_sage (a : Nat) : (ctrClear a b).sage = b.sage := rfl
@[simp] theorem ctrClear_otp (a : Nat) : (ctrClear a b).otp = b.otp := rfl
@[simp] theorem ctrClear_bst (a : Nat) : (ctrClear a b).bst = b.bst := rfl
@[simp] theorem ctrClear_twp (a : Nat) : (ctrClear a b).twp = b.twp := rfl
@[simp] theorem ctrClear_resp (a : Nat) : (ctrClear a b).resp = b.resp := rfl
@[simp] theorem ctrClear_tap (a : Nat) : (ctrClear a b).tap = b.tap := rfl
@[simp] theorem ctrClear_fabric (a : Nat) : (ctrClear a b).fabric = b.fabric := rfl
@[simp] theorem ctrClear_sramCe (a : Nat) : (ctrClear a b).sramCe = b.sramCe := rfl
@[simp] theorem ctrClear_defers (a : Nat) : (ctrClear a b).defers = b.defers := rfl
@[simp] theorem ctrClear_fresh (a : Nat) : (ctrClear a b).fresh = b.fresh := rfl

/-! ### rcSet -/

@[simp] theorem rcSet_start (a i : Nat) : (rcSet a i b).start = b.start := rfl
@[simp] theorem rcSet_time (a i : Nat) : (rcSet a i b).time = b.time := rfl
@[simp] theorem rcSet_iosc (a i : Nat) : (rcSet a i b).iosc = b.iosc := rfl
@[simp] theorem rcSet_img (a i : Nat) : (rcSet a i b).img = b.img := rfl
@[simp] theorem rcSet_ports (a i : Nat) : (rcSet a i b).ports = b.ports := rfl
@[simp] theorem rcSet_hnd (a i : Nat) : (rcSet a i b).hnd = b.hnd := rfl
@[simp] theorem rcSet_srl (a i : Nat) : (rcSet a i b).srl = b.srl := rfl
@[simp] theorem rcSet_sav (a i : Nat) : (rcSet a i b).sav = b.sav := rfl
@[simp] theorem rcSet_chans (a i : Nat) : (rcSet a i b).chans = b.chans := rfl
@[simp] theorem rcSet_ops (a i : Nat) : (rcSet a i b).ops = b.ops := rfl
@[simp] theorem rcSet_engs (a i : Nat) : (rcSet a i b).engs = b.engs := rfl
@[simp] theorem rcSet_thm (a i : Nat) : (rcSet a i b).thm = b.thm := rfl
@[simp] theorem rcSet_clk (a i : Nat) : (rcSet a i b).clk = b.clk := rfl
@[simp] theorem rcSet_pwr (a i : Nat) : (rcSet a i b).pwr = b.pwr := rfl
@[simp] theorem rcSet_cal (a i : Nat) : (rcSet a i b).cal = b.cal := rfl
@[simp] theorem rcSet_sage (a i : Nat) : (rcSet a i b).sage = b.sage := rfl
@[simp] theorem rcSet_otp (a i : Nat) : (rcSet a i b).otp = b.otp := rfl
@[simp] theorem rcSet_bst (a i : Nat) : (rcSet a i b).bst = b.bst := rfl
@[simp] theorem rcSet_twp (a i : Nat) : (rcSet a i b).twp = b.twp := rfl
@[simp] theorem rcSet_resp (a i : Nat) : (rcSet a i b).resp = b.resp := rfl
@[simp] theorem rcSet_tap (a i : Nat) : (rcSet a i b).tap = b.tap := rfl
@[simp] theorem rcSet_fabric (a i : Nat) : (rcSet a i b).fabric = b.fabric := rfl
@[simp] theorem rcSet_sramCe (a i : Nat) : (rcSet a i b).sramCe = b.sramCe := rfl
@[simp] theorem rcSet_defers (a i : Nat) : (rcSet a i b).defers = b.defers := rfl
@[simp] theorem rcSet_fresh (a i : Nat) : (rcSet a i b).fresh = b.fresh := rfl

/-! ### rcClear -/

@[simp] theorem rcClear_start (a : Nat) : (rcClear a b).start = b.start := rfl
@[simp] theorem rcClear_time (a : Nat) : (rcClear a b).time = b.time := rfl
@[simp] theorem rcClear_iosc (a : Nat) : (rcClear a b).iosc = b.iosc := rfl
@[simp] theorem rcClear_img (a : Nat) : (rcClear a b).img = b.img := rfl
@[simp] theorem rcClear_ports (a : Nat) : (rcClear a b).ports = b.ports := rfl
@[simp] theorem rcClear_hnd (a : Nat) : (rcClear a b).hnd = b.hnd := rfl
@[simp] theorem rcClear_srl (a : Nat) : (rcClear a b).srl = b.srl := rfl
@[simp] theorem rcClear_sav (a : Nat) : (rcClear a b).sav = b.sav := rfl
@[simp] theorem rcClear_chans (a : Nat) : (rcClear a b).chans = b.chans := rfl
@[simp] theorem rcClear_ops (a : Nat) : (rcClear a b).ops = b.ops := rfl
@[simp] theorem rcClear_engs (a : Nat) : (rcClear a b).engs = b.engs := rfl
@[simp] theorem rcClear_thm (a : Nat) : (rcClear a b).thm = b.thm := rfl
@[simp] theorem rcClear_clk (a : Nat) : (rcClear a b).clk = b.clk := rfl
@[simp] theorem rcClear_pwr (a : Nat) : (rcClear a b).pwr = b.pwr := rfl
@[simp] theorem rcClear_cal (a : Nat) : (rcClear a b).cal = b.cal := rfl
@[simp] theorem rcClear_sage (a : Nat) : (rcClear a b).sage = b.sage := rfl
@[simp] theorem rcClear_otp (a : Nat) : (rcClear a b).otp = b.otp := rfl
@[simp] theorem rcClear_bst (a : Nat) : (rcClear a b).bst = b.bst := rfl
@[simp] theorem rcClear_twp (a : Nat) : (rcClear a b).twp = b.twp := rfl
@[simp] theorem rcClear_resp (a : Nat) : (rcClear a b).resp = b.resp := rfl
@[simp] theorem rcClear_tap (a : Nat) : (rcClear a b).tap = b.tap := rfl
@[simp] theorem rcClear_fabric (a : Nat) : (rcClear a b).fabric = b.fabric := rfl
@[simp] theorem rcClear_sramCe (a : Nat) : (rcClear a b).sramCe = b.sramCe := rfl
@[simp] theorem rcClear_defers (a : Nat) : (rcClear a b).defers = b.defers := rfl
@[simp] theorem rcClear_fresh (a : Nat) : (rcClear a b).fresh = b.fresh := rfl

/-! ### toStep -/

@[simp] theorem toStep_time (n : Nat) (g : BitVec 4) : (toStep n g b).time = b.time := rfl
@[simp] theorem toStep_iosc (n : Nat) (g : BitVec 4) : (toStep n g b).iosc = b.iosc := rfl
@[simp] theorem toStep_regs (n : Nat) (g : BitVec 4) : (toStep n g b).regs = b.regs := rfl
@[simp] theorem toStep_img (n : Nat) (g : BitVec 4) : (toStep n g b).img = b.img := rfl
@[simp] theorem toStep_ports (n : Nat) (g : BitVec 4) : (toStep n g b).ports = b.ports := rfl
@[simp] theorem toStep_hnd (n : Nat) (g : BitVec 4) : (toStep n g b).hnd = b.hnd := rfl
@[simp] theorem toStep_srl (n : Nat) (g : BitVec 4) : (toStep n g b).srl = b.srl := rfl
@[simp] theorem toStep_sav (n : Nat) (g : BitVec 4) : (toStep n g b).sav = b.sav := rfl
@[simp] theorem toStep_chans (n : Nat) (g : BitVec 4) : (toStep n g b).chans = b.chans := rfl
@[simp] theorem toStep_ops (n : Nat) (g : BitVec 4) : (toStep n g b).ops = b.ops := rfl
@[simp] theorem toStep_engs (n : Nat) (g : BitVec 4) : (toStep n g b).engs = b.engs := rfl
@[simp] theorem toStep_thm (n : Nat) (g : BitVec 4) : (toStep n g b).thm = b.thm := rfl
@[simp] theorem toStep_clk (n : Nat) (g : BitVec 4) : (toStep n g b).clk = b.clk := rfl
@[simp] theorem toStep_pwr (n : Nat) (g : BitVec 4) : (toStep n g b).pwr = b.pwr := rfl
@[simp] theorem toStep_cal (n : Nat) (g : BitVec 4) : (toStep n g b).cal = b.cal := rfl
@[simp] theorem toStep_sage (n : Nat) (g : BitVec 4) : (toStep n g b).sage = b.sage := rfl
@[simp] theorem toStep_otp (n : Nat) (g : BitVec 4) : (toStep n g b).otp = b.otp := rfl
@[simp] theorem toStep_bst (n : Nat) (g : BitVec 4) : (toStep n g b).bst = b.bst := rfl
@[simp] theorem toStep_twp (n : Nat) (g : BitVec 4) : (toStep n g b).twp = b.twp := rfl
@[simp] theorem toStep_resp (n : Nat) (g : BitVec 4) : (toStep n g b).resp = b.resp := rfl
@[simp] theorem toStep_tap (n : Nat) (g : BitVec 4) : (toStep n g b).tap = b.tap := rfl
@[simp] theorem toStep_fabric (n : Nat) (g : BitVec 4) : (toStep n g b).fabric = b.fabric := rfl
@[simp] theorem toStep_sramCe (n : Nat) (g : BitVec 4) : (toStep n g b).sramCe = b.sramCe := rfl
@[simp] theorem toStep_defers (n : Nat) (g : BitVec 4) : (toStep n g b).defers = b.defers := rfl
@[simp] theorem toStep_fresh (n : Nat) (g : BitVec 4) : (toStep n g b).fresh = b.fresh := rfl

/-! ### setEntry -/

@[simp] theorem setEntry_start (h l : Nat) (e : MapEntry) : (setEntry h l e b).start = b.start := rfl
@[simp] theorem setEntry_time (h l : Nat) (e : MapEntry) : (setEntry h l e b).time = b.time := rfl
@[simp] theorem setEntry_iosc (h l : Nat) (e : MapEntry) : (setEntry h l e b).iosc = b.iosc := rfl
@[simp] theorem setEntry_regs (h l : Nat) (e : MapEntry) : (setEntry h l e b).regs = b.regs := rfl
@[simp] theorem setEntry_img (h l : Nat) (e : MapEntry) : (setEntry h l e b).img = b.img := rfl
@[simp] theorem setEntry_ports (h l : Nat) (e : MapEntry) : (setEntry h l e b).ports = b.ports := rfl
@[simp] theorem setEntry_hnd (h l : Nat) (e : MapEntry) : (setEntry h l e b).hnd = b.hnd := rfl
@[simp] theorem setEntry_sav (h l : Nat) (e : MapEntry) : (setEntry h l e b).sav = b.sav := rfl
@[simp] theorem setEntry_chans (h l : Nat) (e : MapEntry) : (setEntry h l e b).chans = b.chans := rfl
@[simp] theorem setEntry_ops (h l : Nat) (e : MapEntry) : (setEntry h l e b).ops = b.ops := rfl
@[simp] theorem setEntry_engs (h l : Nat) (e : MapEntry) : (setEntry h l e b).engs = b.engs := rfl
@[simp] theorem setEntry_thm (h l : Nat) (e : MapEntry) : (setEntry h l e b).thm = b.thm := rfl
@[simp] theorem setEntry_clk (h l : Nat) (e : MapEntry) : (setEntry h l e b).clk = b.clk := rfl
@[simp] theorem setEntry_pwr (h l : Nat) (e : MapEntry) : (setEntry h l e b).pwr = b.pwr := rfl
@[simp] theorem setEntry_cal (h l : Nat) (e : MapEntry) : (setEntry h l e b).cal = b.cal := rfl
@[simp] theorem setEntry_sage (h l : Nat) (e : MapEntry) : (setEntry h l e b).sage = b.sage := rfl
@[simp] theorem setEntry_otp (h l : Nat) (e : MapEntry) : (setEntry h l e b).otp = b.otp := rfl
@[simp] theorem setEntry_bst (h l : Nat) (e : MapEntry) : (setEntry h l e b).bst = b.bst := rfl
@[simp] theorem setEntry_twp (h l : Nat) (e : MapEntry) : (setEntry h l e b).twp = b.twp := rfl
@[simp] theorem setEntry_resp (h l : Nat) (e : MapEntry) : (setEntry h l e b).resp = b.resp := rfl
@[simp] theorem setEntry_tap (h l : Nat) (e : MapEntry) : (setEntry h l e b).tap = b.tap := rfl
@[simp] theorem setEntry_fabric (h l : Nat) (e : MapEntry) : (setEntry h l e b).fabric = b.fabric := rfl
@[simp] theorem setEntry_sramCe (h l : Nat) (e : MapEntry) : (setEntry h l e b).sramCe = b.sramCe := rfl
@[simp] theorem setEntry_defers (h l : Nat) (e : MapEntry) : (setEntry h l e b).defers = b.defers := rfl
@[simp] theorem setEntry_fresh (h l : Nat) (e : MapEntry) : (setEntry h l e b).fresh = b.fresh := rfl

/-! ### delEntry -/

@[simp] theorem delEntry_start (h l : Nat) : (delEntry h l b).start = b.start := rfl
@[simp] theorem delEntry_time (h l : Nat) : (delEntry h l b).time = b.time := rfl
@[simp] theorem delEntry_iosc (h l : Nat) : (delEntry h l b).iosc = b.iosc := rfl
@[simp] theorem delEntry_regs (h l : Nat) : (delEntry h l b).regs = b.regs := rfl
@[simp] theorem delEntry_img (h l : Nat) : (delEntry h l b).img = b.img := rfl
@[simp] theorem delEntry_ports (h l : Nat) : (delEntry h l b).ports = b.ports := rfl
@[simp] theorem delEntry_hnd (h l : Nat) : (delEntry h l b).hnd = b.hnd := rfl
@[simp] theorem delEntry_sav (h l : Nat) : (delEntry h l b).sav = b.sav := rfl
@[simp] theorem delEntry_chans (h l : Nat) : (delEntry h l b).chans = b.chans := rfl
@[simp] theorem delEntry_ops (h l : Nat) : (delEntry h l b).ops = b.ops := rfl
@[simp] theorem delEntry_engs (h l : Nat) : (delEntry h l b).engs = b.engs := rfl
@[simp] theorem delEntry_thm (h l : Nat) : (delEntry h l b).thm = b.thm := rfl
@[simp] theorem delEntry_clk (h l : Nat) : (delEntry h l b).clk = b.clk := rfl
@[simp] theorem delEntry_pwr (h l : Nat) : (delEntry h l b).pwr = b.pwr := rfl
@[simp] theorem delEntry_cal (h l : Nat) : (delEntry h l b).cal = b.cal := rfl
@[simp] theorem delEntry_sage (h l : Nat) : (delEntry h l b).sage = b.sage := rfl
@[simp] theorem delEntry_otp (h l : Nat) : (delEntry h l b).otp = b.otp := rfl
@[simp] theorem delEntry_bst (h l : Nat) : (delEntry h l b).bst = b.bst := rfl
@[simp] theorem delEntry_twp (h l : Nat) : (delEntry h l b).twp = b.twp := rfl
@[simp] theorem delEntry_resp (h l : Nat) : (delEntry h l b).resp = b.resp := rfl
@[simp] theorem delEntry_tap (h l : Nat) : (delEntry h l b).tap = b.tap := rfl
@[simp] theorem delEntry_fabric (h l : Nat) : (delEntry h l b).fabric = b.fabric := rfl
@[simp] theorem delEntry_sramCe (h l : Nat) : (delEntry h l b).sramCe = b.sramCe := rfl
@[simp] theorem delEntry_defers (h l : Nat) : (delEntry h l b).defers = b.defers := rfl
@[simp] theorem delEntry_fresh (h l : Nat) : (delEntry h l b).fresh = b.fresh := rfl

/-! ### setHandle -/

@[simp] theorem setHandle_start (h : Nat) (x : Handle) : (setHandle h x b).start = b.start := rfl
@[simp] theorem setHandle_time (h : Nat) (x : Handle) : (setHandle h x b).time = b.time := rfl
@[simp] theorem setHandle_iosc (h : Nat) (x : Handle) : (setHandle h x b).iosc = b.iosc := rfl
@[simp] theorem setHandle_regs (h : Nat) (x : Handle) : (setHandle h x b).regs = b.regs := rfl
@[simp] theorem setHandle_img (h : Nat) (x : Handle) : (setHandle h x b).img = b.img := rfl
@[simp] theorem setHandle_ports (h : Nat) (x : Handle) : (setHandle h x b).ports = b.ports := rfl
@[simp] theorem setHandle_srl (h : Nat) (x : Handle) : (setHandle h x b).srl = b.srl := rfl
@[simp] theorem setHandle_sav (h : Nat) (x : Handle) : (setHandle h x b).sav = b.sav := rfl
@[simp] theorem setHandle_chans (h : Nat) (x : Handle) : (setHandle h x b).chans = b.chans := rfl
@[simp] theorem setHandle_ops (h : Nat) (x : Handle) : (setHandle h x b).ops = b.ops := rfl
@[simp] theorem setHandle_engs (h : Nat) (x : Handle) : (setHandle h x b).engs = b.engs := rfl
@[simp] theorem setHandle_thm (h : Nat) (x : Handle) : (setHandle h x b).thm = b.thm := rfl
@[simp] theorem setHandle_clk (h : Nat) (x : Handle) : (setHandle h x b).clk = b.clk := rfl
@[simp] theorem setHandle_pwr (h : Nat) (x : Handle) : (setHandle h x b).pwr = b.pwr := rfl
@[simp] theorem setHandle_cal (h : Nat) (x : Handle) : (setHandle h x b).cal = b.cal := rfl
@[simp] theorem setHandle_sage (h : Nat) (x : Handle) : (setHandle h x b).sage = b.sage := rfl
@[simp] theorem setHandle_otp (h : Nat) (x : Handle) : (setHandle h x b).otp = b.otp := rfl
@[simp] theorem setHandle_bst (h : Nat) (x : Handle) : (setHandle h x b).bst = b.bst := rfl
@[simp] theorem setHandle_twp (h : Nat) (x : Handle) : (setHandle h x b).twp = b.twp := rfl
@[simp] theorem setHandle_resp (h : Nat) (x : Handle) : (setHandle h x b).resp = b.resp := rfl
@[simp] theorem setHandle_tap (h : Nat) (x : Handle) : (setHandle h x b).tap = b.tap := rfl
@[simp] theorem setHandle_fabric (h : Nat) (x : Handle) : (setHandle h x b).fabric = b.fabric := rfl
@[simp] theorem setHandle_sramCe (h : Nat) (x : Handle) : (setHandle h x b).sramCe = b.sramCe := rfl
@[simp] theorem setHandle_defers (h : Nat) (x : Handle) : (setHandle h x b).defers = b.defers := rfl
@[simp] theorem setHandle_fresh (h : Nat) (x : Handle) : (setHandle h x b).fresh = b.fresh := rfl

/-! ### setRun -/

@[simp] theorem setRun_start (r : HndRun) : (setRun r b).start = b.start := rfl
@[simp] theorem setRun_time (r : HndRun) : (setRun r b).time = b.time := rfl
@[simp] theorem setRun_iosc (r : HndRun) : (setRun r b).iosc = b.iosc := rfl
@[simp] theorem setRun_regs (r : HndRun) : (setRun r b).regs = b.regs := rfl
@[simp] theorem setRun_img (r : HndRun) : (setRun r b).img = b.img := rfl
@[simp] theorem setRun_ports (r : HndRun) : (setRun r b).ports = b.ports := rfl
@[simp] theorem setRun_srl (r : HndRun) : (setRun r b).srl = b.srl := rfl
@[simp] theorem setRun_sav (r : HndRun) : (setRun r b).sav = b.sav := rfl
@[simp] theorem setRun_chans (r : HndRun) : (setRun r b).chans = b.chans := rfl
@[simp] theorem setRun_ops (r : HndRun) : (setRun r b).ops = b.ops := rfl
@[simp] theorem setRun_engs (r : HndRun) : (setRun r b).engs = b.engs := rfl
@[simp] theorem setRun_thm (r : HndRun) : (setRun r b).thm = b.thm := rfl
@[simp] theorem setRun_clk (r : HndRun) : (setRun r b).clk = b.clk := rfl
@[simp] theorem setRun_pwr (r : HndRun) : (setRun r b).pwr = b.pwr := rfl
@[simp] theorem setRun_cal (r : HndRun) : (setRun r b).cal = b.cal := rfl
@[simp] theorem setRun_sage (r : HndRun) : (setRun r b).sage = b.sage := rfl
@[simp] theorem setRun_otp (r : HndRun) : (setRun r b).otp = b.otp := rfl
@[simp] theorem setRun_bst (r : HndRun) : (setRun r b).bst = b.bst := rfl
@[simp] theorem setRun_twp (r : HndRun) : (setRun r b).twp = b.twp := rfl
@[simp] theorem setRun_resp (r : HndRun) : (setRun r b).resp = b.resp := rfl
@[simp] theorem setRun_tap (r : HndRun) : (setRun r b).tap = b.tap := rfl
@[simp] theorem setRun_fabric (r : HndRun) : (setRun r b).fabric = b.fabric := rfl
@[simp] theorem setRun_sramCe (r : HndRun) : (setRun r b).sramCe = b.sramCe := rfl
@[simp] theorem setRun_defers (r : HndRun) : (setRun r b).defers = b.defers := rfl
@[simp] theorem setRun_fresh (r : HndRun) : (setRun r b).fresh = b.fresh := rfl

/-! ### setLimit -/

@[simp] theorem setLimit_start (l : BitVec 3) : (setLimit l b).start = b.start := rfl
@[simp] theorem setLimit_time (l : BitVec 3) : (setLimit l b).time = b.time := rfl
@[simp] theorem setLimit_iosc (l : BitVec 3) : (setLimit l b).iosc = b.iosc := rfl
@[simp] theorem setLimit_regs (l : BitVec 3) : (setLimit l b).regs = b.regs := rfl
@[simp] theorem setLimit_img (l : BitVec 3) : (setLimit l b).img = b.img := rfl
@[simp] theorem setLimit_ports (l : BitVec 3) : (setLimit l b).ports = b.ports := rfl
@[simp] theorem setLimit_hnd (l : BitVec 3) : (setLimit l b).hnd = b.hnd := rfl
@[simp] theorem setLimit_srl (l : BitVec 3) : (setLimit l b).srl = b.srl := rfl
@[simp] theorem setLimit_sav (l : BitVec 3) : (setLimit l b).sav = b.sav := rfl
@[simp] theorem setLimit_chans (l : BitVec 3) : (setLimit l b).chans = b.chans := rfl
@[simp] theorem setLimit_ops (l : BitVec 3) : (setLimit l b).ops = b.ops := rfl
@[simp] theorem setLimit_engs (l : BitVec 3) : (setLimit l b).engs = b.engs := rfl
@[simp] theorem setLimit_thm (l : BitVec 3) : (setLimit l b).thm = b.thm := rfl
@[simp] theorem setLimit_clk (l : BitVec 3) : (setLimit l b).clk = b.clk := rfl
@[simp] theorem setLimit_cal (l : BitVec 3) : (setLimit l b).cal = b.cal := rfl
@[simp] theorem setLimit_sage (l : BitVec 3) : (setLimit l b).sage = b.sage := rfl
@[simp] theorem setLimit_otp (l : BitVec 3) : (setLimit l b).otp = b.otp := rfl
@[simp] theorem setLimit_bst (l : BitVec 3) : (setLimit l b).bst = b.bst := rfl
@[simp] theorem setLimit_twp (l : BitVec 3) : (setLimit l b).twp = b.twp := rfl
@[simp] theorem setLimit_resp (l : BitVec 3) : (setLimit l b).resp = b.resp := rfl
@[simp] theorem setLimit_tap (l : BitVec 3) : (setLimit l b).tap = b.tap := rfl
@[simp] theorem setLimit_fabric (l : BitVec 3) : (setLimit l b).fabric = b.fabric := rfl
@[simp] theorem setLimit_sramCe (l : BitVec 3) : (setLimit l b).sramCe = b.sramCe := rfl
@[simp] theorem setLimit_defers (l : BitVec 3) : (setLimit l b).defers = b.defers := rfl
@[simp] theorem setLimit_fresh (l : BitVec 3) : (setLimit l b).fresh = b.fresh := rfl

/-! ### draw and emit -/

@[simp] theorem draw_start : (draw b).2.start = b.start := rfl
@[simp] theorem draw_time : (draw b).2.time = b.time := rfl
@[simp] theorem draw_iosc : (draw b).2.iosc = b.iosc := rfl
@[simp] theorem draw_regs : (draw b).2.regs = b.regs := rfl
@[simp] theorem draw_img : (draw b).2.img = b.img := rfl
@[simp] theorem draw_ports : (draw b).2.ports = b.ports := rfl
@[simp] theorem draw_hnd : (draw b).2.hnd = b.hnd := rfl
@[simp] theorem draw_srl : (draw b).2.srl = b.srl := rfl
@[simp] theorem draw_sav : (draw b).2.sav = b.sav := rfl
@[simp] theorem draw_chans : (draw b).2.chans = b.chans := rfl
@[simp] theorem draw_ops : (draw b).2.ops = b.ops := rfl
@[simp] theorem draw_engs : (draw b).2.engs = b.engs := rfl
@[simp] theorem draw_thm : (draw b).2.thm = b.thm := rfl
@[simp] theorem draw_clk : (draw b).2.clk = b.clk := rfl
@[simp] theorem draw_pwr : (draw b).2.pwr = b.pwr := rfl
@[simp] theorem draw_cal : (draw b).2.cal = b.cal := rfl
@[simp] theorem draw_sage : (draw b).2.sage = b.sage := rfl
@[simp] theorem draw_otp : (draw b).2.otp = b.otp := rfl
@[simp] theorem draw_bst : (draw b).2.bst = b.bst := rfl
@[simp] theorem draw_twp : (draw b).2.twp = b.twp := rfl
@[simp] theorem draw_resp : (draw b).2.resp = b.resp := rfl
@[simp] theorem draw_defers : (draw b).2.defers = b.defers := rfl

@[simp] theorem emit_start (m : BitVec 16) (e : Ev) : (emit m e b).start = b.start := by
  unfold emit; split; · rfl
  exact forAll_keep b (·.start) _ fun i b => by split <;> rfl
@[simp] theorem emit_time (m : BitVec 16) (e : Ev) : (emit m e b).time = b.time := by
  unfold emit; split; · rfl
  exact forAll_keep b (·.time) _ fun i b => by split <;> rfl
@[simp] theorem emit_iosc (m : BitVec 16) (e : Ev) : (emit m e b).iosc = b.iosc := by
  unfold emit; split; · rfl
  exact forAll_keep b (·.iosc) _ fun i b => by split <;> rfl
@[simp] theorem emit_regs (m : BitVec 16) (e : Ev) : (emit m e b).regs = b.regs := by
  unfold emit; split; · rfl
  exact forAll_keep b (·.regs) _ fun i b => by split <;> rfl
@[simp] theorem emit_img (m : BitVec 16) (e : Ev) : (emit m e b).img = b.img := by
  unfold emit; split; · rfl
  exact forAll_keep b (·.img) _ fun i b => by split <;> rfl
@[simp] theorem emit_hnd (m : BitVec 16) (e : Ev) : (emit m e b).hnd = b.hnd := by
  unfold emit; split; · rfl
  exact forAll_keep b (·.hnd) _ fun i b => by split <;> rfl
@[simp] theorem emit_srl (m : BitVec 16) (e : Ev) : (emit m e b).srl = b.srl := by
  unfold emit; split; · rfl
  exact forAll_keep b (·.srl) _ fun i b => by split <;> rfl
@[simp] theorem emit_sav (m : BitVec 16) (e : Ev) : (emit m e b).sav = b.sav := by
  unfold emit; split; · rfl
  exact forAll_keep b (·.sav) _ fun i b => by split <;> rfl
@[simp] theorem emit_chans (m : BitVec 16) (e : Ev) : (emit m e b).chans = b.chans := by
  unfold emit; split; · rfl
  exact forAll_keep b (·.chans) _ fun i b => by split <;> rfl
@[simp] theorem emit_ops (m : BitVec 16) (e : Ev) : (emit m e b).ops = b.ops := by
  unfold emit; split; · rfl
  exact forAll_keep b (·.ops) _ fun i b => by split <;> rfl
@[simp] theorem emit_engs (m : BitVec 16) (e : Ev) : (emit m e b).engs = b.engs := by
  unfold emit; split; · rfl
  exact forAll_keep b (·.engs) _ fun i b => by split <;> rfl
@[simp] theorem emit_thm (m : BitVec 16) (e : Ev) : (emit m e b).thm = b.thm := by
  unfold emit; split; · rfl
  exact forAll_keep b (·.thm) _ fun i b => by split <;> rfl
@[simp] theorem emit_clk (m : BitVec 16) (e : Ev) : (emit m e b).clk = b.clk := by
  unfold emit; split; · rfl
  exact forAll_keep b (·.clk) _ fun i b => by split <;> rfl
@[simp] theorem emit_pwr (m : BitVec 16) (e : Ev) : (emit m e b).pwr = b.pwr := by
  unfold emit; split; · rfl
  exact forAll_keep b (·.pwr) _ fun i b => by split <;> rfl
@[simp] theorem emit_cal (m : BitVec 16) (e : Ev) : (emit m e b).cal = b.cal := by
  unfold emit; split; · rfl
  exact forAll_keep b (·.cal) _ fun i b => by split <;> rfl
@[simp] theorem emit_sage (m : BitVec 16) (e : Ev) : (emit m e b).sage = b.sage := by
  unfold emit; split; · rfl
  exact forAll_keep b (·.sage) _ fun i b => by split <;> rfl
@[simp] theorem emit_otp (m : BitVec 16) (e : Ev) : (emit m e b).otp = b.otp := by
  unfold emit; split; · rfl
  exact forAll_keep b (·.otp) _ fun i b => by split <;> rfl
@[simp] theorem emit_bst (m : BitVec 16) (e : Ev) : (emit m e b).bst = b.bst := by
  unfold emit; split; · rfl
  exact forAll_keep b (·.bst) _ fun i b => by split <;> rfl
@[simp] theorem emit_twp (m : BitVec 16) (e : Ev) : (emit m e b).twp = b.twp := by
  unfold emit; split; · rfl
  exact forAll_keep b (·.twp) _ fun i b => by split <;> rfl
@[simp] theorem emit_resp (m : BitVec 16) (e : Ev) : (emit m e b).resp = b.resp := by
  unfold emit; split; · rfl
  exact forAll_keep b (·.resp) _ fun i b => by split <;> rfl
@[simp] theorem emit_tap (m : BitVec 16) (e : Ev) : (emit m e b).tap = b.tap := by
  unfold emit; split; · rfl
  exact forAll_keep b (·.tap) _ fun i b => by split <;> rfl
@[simp] theorem emit_fabric (m : BitVec 16) (e : Ev) : (emit m e b).fabric = b.fabric := by
  unfold emit; split; · rfl
  exact forAll_keep b (·.fabric) _ fun i b => by split <;> rfl
@[simp] theorem emit_sramCe (m : BitVec 16) (e : Ev) : (emit m e b).sramCe = b.sramCe := by
  unfold emit; split; · rfl
  exact forAll_keep b (·.sramCe) _ fun i b => by split <;> rfl
@[simp] theorem emit_defers (m : BitVec 16) (e : Ev) : (emit m e b).defers = b.defers := by
  unfold emit; split; · rfl
  exact forAll_keep b (·.defers) _ fun i b => by split <;> rfl
@[simp] theorem emit_fresh (m : BitVec 16) (e : Ev) : (emit m e b).fresh = b.fresh := by
  unfold emit; split; · rfl
  exact forAll_keep b (·.fresh) _ fun i b => by split <;> rfl

/-! ### Updates of one part: what does not read that part is as before -/

/-- `postCtx` changes the engines only (R382, R383). -/
theorem postCtx_keep {α : Type} (f : Block → α) (hf : ∀ (b : Block) (i : EngId) (g : Eng → Eng), f (modEng i g b) = f b)
    (e k ev : Nat) (line : List Byte) : f (postCtx e k ev line b) = f b := by
  unfold postCtx
  dsimp only
  split <;> split <;> simp [hf]

/-- `awaitPacer` adds one line to what waits for the pacer of one channel (R274). -/
theorem awaitPacer_maintWait (src : AccSrc) (c a : Nat) (v err : Stored) :
    ((awaitPacer src c a v err b).chans[cid c]).maintWait = (b.chans[cid c]).maintWait ++ [maintAcc src c a b.now v err] := by
  simp [awaitPacer, modChan]
@[simp] theorem awaitPacer_ports (src : AccSrc) (c a : Nat) (v err : Stored) : (awaitPacer src c a v err b).ports = b.ports := rfl
@[simp] theorem awaitPacer_regs (src : AccSrc) (c a : Nat) (v err : Stored) : (awaitPacer src c a v err b).regs = b.regs := rfl
@[simp] theorem awaitPacer_srl (src : AccSrc) (c a : Nat) (v err : Stored) : (awaitPacer src c a v err b).srl = b.srl := rfl
@[simp] theorem awaitPacer_ops (src : AccSrc) (c a : Nat) (v err : Stored) : (awaitPacer src c a v err b).ops = b.ops := rfl
@[simp] theorem awaitPacer_sage (src : AccSrc) (c a : Nat) (v err : Stored) : (awaitPacer src c a v err b).sage = b.sage := rfl

/-- `discardPend` leaves no write pending (R56), and live values as they are. -/
@[simp] theorem discardPend_pend : (discardPend b).regs.pend = [] := rfl
@[simp] theorem discardPend_live : (discardPend b).regs.live = b.regs.live := rfl
@[simp] theorem discardPend_twp : (discardPend b).twp = b.twp := rfl
@[simp] theorem discardPend_ports : (discardPend b).ports = b.ports := rfl

/-- After the end of a two-wire transaction the port is neither busy nor addressed (R520). -/
@[simp] theorem twpEnd_busy : (twpEnd b).twp.busy = false := by
  unfold twpEnd outliveTx; dsimp only; split <;> simp_all
@[simp] theorem twpEnd_addressed : (twpEnd b).twp.addressed = false := by
  unfold twpEnd; dsimp only; split <;> rfl
@[simp] theorem twpEnd_regs : (twpEnd b).regs = b.regs := by
  unfold twpEnd; dsimp only; split <;> rfl
@[simp] theorem twpEnd_ports : (twpEnd b).ports = b.ports := by
  unfold twpEnd; dsimp only; split <;> rfl

end Sys2Proof.Machine
end

