-- ==== Sys2Proof/Laws/Raise.lean ====
section
/-! SUPPORT. What raising a fault can change while its reaction takes no unit out of service: Sage's own record, SAGE_FAULT_CNT, and
the event records that wait on ports. -/

namespace Sys2Proof.Machine

open Sys2Proof

/-- From `b` to `c`, only Sage's record, the counters and the event records of ports have changed. -/
def quietly (b c : Block) : Prop :=
  c = { b with ports := c.ports, sage := c.sage, regs := { b.regs with ctr := c.regs.ctr } }
    ∧ ∀ q : PortId, samePort b.ports[q] c.ports[q]

theorem quietly_refl (b : Block) : quietly b b := ⟨rfl, fun _ => rfl⟩

theorem quietly_trans {a b c : Block} (h : quietly a b) (k : quietly b c) : quietly a c := by
  refine ⟨?_, fun q => ?_⟩
  · rw [k.1, h.1]
  · have h1 := h.2 q; have h2 := k.2 q
    unfold samePort at *
    rw [h2, h1]

theorem quietly_sage (b : Block) (g : Sage) : quietly b { b with sage := g } := ⟨rfl, fun _ => rfl⟩

theorem quietly_startTimer (src : Nat) (second : Bool) (b : Block) : quietly b (startTimer src second b) := quietly_sage b _

theorem quietly_foldl {β : Type} (f : Block → β → Block) (h : ∀ b x, quietly b (f b x)) (l : List β) (b : Block) :
    quietly b (l.foldl f b) := by
  induction l generalizing b with
  | nil => exact quietly_refl b
  | cons x t ih => exact quietly_trans (h b x) (ih _)

theorem quietly_pushEvent (p : PortId) (e : Ev) (t : BitVec 64) (b : Block) : quietly b (modPort p (pushEvent e t) b) := by
  refine ⟨rfl, fun q => ?_⟩
  by_cases h : q = p
  · subst h; rw [modPort_same]; rfl
  · rw [modPort_other _ _ h]; rfl

theorem quietly_emit (mask : BitVec 16) (e : Ev) (b : Block) : quietly b (emit mask e b) := by
  unfold emit forAll; split
  · exact quietly_refl b
  · refine quietly_foldl _ (fun b p => ?_) _ b
    dsimp only
    split
    · exact quietly_pushEvent p e _ b
    · exact quietly_refl b

theorem quietly_report (src : Nat) (detail : Word) (own : List OwnEv) (b : Block) : quietly b (report src detail own b) := by
  unfold report; split
  · exact quietly_emit _ _ b
  · exact quietly_foldl _ (fun b o => quietly_emit _ _ b) own b

theorem quietly_amendEvents (f : BitVec 128 → Bool) (g : BitVec 128 → BitVec 128) (b : Block) :
    quietly b (amendEvents f g b) := ⟨rfl, fun q => by simp [amendEvents, allPorts, samePort]⟩

theorem quietly_amendRaise (src : Nat) (old detail : Word) (own : List OwnEv) (b : Block) :
    quietly b (amendRaise src old detail own b) :=
  quietly_trans (quietly_amendEvents _ _ b) (quietly_foldl _ (fun b _ => quietly_amendEvents _ _ b) own _)

/-- The latch step touches Sage and the event records of ports, and leaves the table of reactions and the safe state. -/
theorem latchStep_quiet (src unit : Nat) (detail : Word) (b : Block) :
    quietly b (latchStep src unit detail b) ∧ (latchStep src unit detail b).sage.react = b.sage.react
      ∧ (latchStep src unit detail b).sage.safe = b.sage.safe ∧ (latchStep src unit detail b).sage.enable = b.sage.enable := by
  unfold latchStep latchFault
  split
  · exact ⟨quietly_sage b _, rfl, rfl, rfl⟩
  · dsimp only
    split
    · exact ⟨quietly_trans (quietly_amendEvents _ _ b) (quietly_sage _ _), rfl, rfl, rfl⟩
    · exact ⟨quietly_sage b _, rfl, rfl, rfl⟩

/-- Recording a raise touches Sage, the event records of ports and SAGE_FAULT_CNT alone, and leaves the table of reactions and the
safe state. -/
theorem record_quiet (src unit : Nat) (detail : Word) (b : Block) :
    quietly b (record src unit detail b).1
      ∧ (record src unit detail b).1.sage.react = b.sage.react ∧ (record src unit detail b).1.sage.safe = b.sage.safe
      ∧ (record src unit detail b).1.sage.enable = b.sage.enable := by
  unfold record
  simp only []
  split
  · split
    · split <;> exact ⟨⟨rfl, fun _ => rfl⟩, rfl, rfl, rfl⟩
    · exact ⟨quietly_refl b, rfl, rfl, rfl⟩
  · have h := latchStep_quiet src unit detail (ctrAdd (sageBase + 0x1C) 1 b)
    have k : quietly b (ctrAdd (sageBase + 0x1C) 1 b) := ⟨rfl, fun _ => rfl⟩
    generalize latchStep src unit detail (ctrAdd (sageBase + 0x1C) 1 b) = c at h
    have q := quietly_trans k h.1
    split <;> exact ⟨quietly_trans q (quietly_sage c _), h.2⟩

theorem reactionOf_congr {b c : Block} (h : c.sage.react = b.sage.react) (n : Nat) : reactionOf c n = reactionOf b n := by
  unfold reactionOf; rw [h]

theorem quietly_reportReact (src : Nat) (detail : Word) (own : List OwnEv) (inj : Bool) (b : Block) :
    quietly b (reportReact src detail own inj b) := by
  unfold reportReact; split
  · exact quietly_report _ _ _ _
  · exact quietly_refl b

/-- A reaction up to ALERT takes no unit out of service. -/
theorem react_quiet {src : Nat} (unit : Nat) (detail : Word) (own : List OwnEv) (inj : Bool) {b : Block}
    (h : reactionOf b src ≤ 2) : quietly b (react src unit detail own inj b) := by
  unfold react
  split
  · exact quietly_refl b
  · have h1 : quietly b (noteRef src b) := by unfold noteRef; split; exacts [quietly_sage b _, quietly_refl b]
    have h2 := quietly_trans h1 (quietly_reportReact src detail own inj _)
    generalize reportReact src detail own inj (noteRef src b) = c at h2
    by_cases e2 : reactionOf b src = 2
    · simp only [e2, if_true]
      split
      · exact quietly_trans h2 (quietly_startTimer _ _ _)
      · exact h2
    · have n3 : reactionOf b src ≠ 3 := by omega
      have n4 : reactionOf b src ≠ 4 := by omega
      simp only [e2, n3, n4, if_false]
      exact h2

/-- A raise whose reaction is at most ALERT (R460). -/
theorem raise_quiet {src : Nat} (unit : Nat) (detail : Word) (own : List OwnEv) {b : Block} (h : reactionOf b src ≤ 2) :
    quietly b (raise src unit detail own b) := by
  have r := record_quiet src unit detail b
  unfold raise
  generalize hr : record src unit detail b = x at r ⊢
  obtain ⟨c, f⟩ := x
  cases f
  · dsimp only
    split
    · exact quietly_trans r.1 (quietly_amendRaise _ _ _ _ _)
    · exact r.1
  · exact quietly_trans r.1 (react_quiet unit detail own false (by rw [reactionOf_congr r.2.1]; exact h))

theorem portChange_quiet (code : Nat) (p : PortId) (dir : Nat) (lanes : BitVec 21) {b : Block}
    (h : reactionOf b (fs .lnkDegrade) ≤ 2) : quietly b (portChange code p dir lanes b) := by
  unfold portChange; exact raise_quiet _ _ _ h

end Sys2Proof.Machine
end

