-- ==== Sys2Proof/Laws/Waiters.lean ====
section
/-! SUPPORT. Where nothing waits for a lookup that is held, the passes that look at what waits change nothing. -/

namespace Sys2Proof.Machine

open Sys2Proof

variable {b : Block} {s : State}

theorem waitingPiece_none (h : ∀ d ∈ b.ops.descs, ∀ x ∈ d.pieces, x.st ≠ .waiting) (e : Nat) : waitingPiece b e = none := by
  have n : waitingPieces b e = [] := by
    unfold waitingPieces
    rw [List.flatMap_eq_nil_iff]
    intro d hd
    rw [List.map_eq_nil_iff, List.filter_eq_nil_iff]
    intro x hx
    simp [h d hd x.1 (List.fst_mem_of_mem_zipIdx hx)]
  unfold waitingPiece; rw [n]; rfl

theorem refillQueue_none {e : Nat} (h : waitingPiece b e = none) (n : Nat) : refillQueue e n b = b := by
  cases n with
  | zero => rfl
  | succ n => simp [refillQueue, h]

theorem startPieces_none {e : Nat} (h : nextPiece b b.engs[eid e] = none) (n : Nat) : startPieces e n b = b := by
  cases n with
  | zero => rfl
  | succ n => unfold startPieces; simp only [h]; split <;> [rfl; (split <;> simp_all)]

theorem startPieces_idle {e : Nat} (h : b.engs[eid e].st ≠ .run) (n : Nat) : startPieces e n b = b := by
  cases n with
  | zero => rfl
  | succ n => unfold startPieces; exact if_pos h

/-- An engine takes nothing where no piece waits for it and none of its queue may start. -/
theorem kickEngine_none {e : Nat} (h : waitingPiece b e = none) (k : nextPiece b b.engs[eid e] = none) : kickEngine e b = b := by
  unfold kickEngine; rw [refillQueue_none h, startPieces_none k]

theorem foldl_fix {α β : Type} (f : β → α → β) (l : List α) (b : β) (h : ∀ x ∈ l, f b x = b) : l.foldl f b = b := by
  induction l with
  | nil => rfl
  | cons x t ih => rw [List.foldl_cons, h x (by simp)]; exact ih fun y hy => h y (by simp [hy])

theorem kickAll_none (h : b.ops.descs = []) : kickAll b = b := by
  refine foldl_fix _ _ _ fun e _ => kickEngine_none (waitingPiece_none (by simp [h]) e) ?_
  unfold nextPiece descOf
  rw [List.find?_eq_none]; simp [h]

theorem dispatchAll_none (h : b.ops.descs = []) : dispatchAll b = b := by
  unfold dispatchAll; rw [h]; exact kickAll_none h

theorem flushWrites_none {p : PortId} (h : s.blk.ports[p].writes = []) : flushWrites p s = s := by
  unfold flushWrites; rw [h]; rfl

theorem flushAll_none (h : ∀ p : PortId, s.blk.ports[p].writes = []) : flushAll s = s :=
  foldl_fix _ _ _ fun p _ => flushWrites_none (h p)

/-- Where nothing waits, nothing goes on. -/
theorem settle_none (h : noWaiters s) : settle s = s := by
  unfold settle; rw [dispatchAll_none h.1]; exact flushAll_none h.2

end Sys2Proof.Machine
end

