-- ==== Sys2Proof/Laws/Writes.lean ====
section
/-! SUPPORT. What a register write over a path does once no common check refuses it: the statements about the commands that write
a register rest on these. -/

namespace Sys2Proof.Machine

open Sys2Proof

@[simp] theorem exitPower_P0 {s : State} (h : s.blk.pwr.state = 0) : exitPower s = s := by simp [exitPower, exitWith, h]

theorem wakeBy_P0 {s : State} (path : Path) (a : Word) (h : s.blk.pwr.state = 0) : wakeBy path a s = s := by
  unfold wakeBy; split
  · rfl
  · exact exitPower_P0 h

/-- A write that passes the common checks is the write of its block. -/
theorem writeReg_live {path : Path} {last : Option Bool} {a : Nat} {data : Word} {s : State}
    (hs : s.blk.sage.safe = false) (ho : ownerRefuses path s.blk = false) (hp : s.blk.regs.badPar = []) (ha : a < 2 ^ 32) (h4 : a % 4 = 0)
    (hl : a % 0x1000 < 0x800) (hm : (regAt a).isSome = true) (hk : lockedReg a s.blk = false) :
    writeReg path last (BitVec.ofNat 32 a) data 15 s = writeLive path last a data s := by
  have e : (BitVec.ofNat 32 a).toNat = a := by
    rw [BitVec.toNat_ofNat]; exact Nat.mod_eq_of_lt ha
  have e2 : liveOf a = a := by unfold liveOf; split <;> omega
  have hf : writeFault path (BitVec.ofNat 32 a) 15#4 s.blk = none := by
    simp only [writeFault, e, mapped, e2, hm, ho, h4]
    simp; omega
  have hu : s.upd (useReg 0x14 s.blk) = s := by simp [useReg, hp, State.upd]
  unfold writeReg
  simp only [hu, safeRefuses, hs, e, hk, Bool.false_and, Bool.false_eq_true, if_false]
  erw [hf]

/-- A whole-word write over an open path: its effect, then its response. -/
theorem pathWrite_live {path : Path} {a : Nat} {data : Word} {st : Status} {s t : State} (hw : takesWrites path s)
    (ha : a < 2 ^ 32) (h4 : a % 4 = 0) (hl : a % 0x1000 < 0x800) (hm : (regAt a).isSome = true)
    (hk : lockedReg a s.blk = false) (h : writeLive path none a data s = (some st, t)) (h5 : 5 ≤ t.blk.start.step) :
    pathWrite path (BitVec.ofNat 32 a) data s = answered path a st t := by
  obtain ⟨hp, hz, hs, ho, hb⟩ := hw
  unfold pathWrite pathWriteAt
  rw [wakeBy_P0 _ _ hz, writeReg_live hs ho hb ha h4 hl hm hk, h]
  simp [hp, answered, Nat.not_lt.mpr h5]

/-- An open path has passed step 5. -/
theorem takesWrites_step {path : Path} {s : State} (h : takesWrites path s) : 5 ≤ s.blk.start.step := by
  have := h.1
  cases path <;> simp_all [pathOpen]

/-- `put_live` is `pathWrite_live` with the address as block and offset. -/
theorem put_live {path : Path} {base o : Nat} {data : Word} {st : Status} {s t : State} (hw : takesWrites path s)
    (ha : base + o < 2 ^ 32) (h4 : (base + o) % 4 = 0) (hl : (base + o) % 0x1000 < 0x800) (hm : (regAt (base + o)).isSome = true)
    (hk : lockedReg (base + o) s.blk = false) (h : writeLive path none (base + o) data s = (some st, t))
    (h5 : 5 ≤ t.blk.start.step) : put path base o data s = answered path (base + o) st t :=
  pathWrite_live hw ha h4 hl hm hk h h5

/-- Only the sticky locks of OTP can be set write-once registers. -/
theorem lockedReg_out {a : Nat} (b : Block) (h : ¬ (0x5040 ≤ a ∧ a ≤ 0x5054)) : lockedReg a b = false := by
  unfold lockedReg otpBase
  rw [decide_eq_false h]; rfl

/-! ### Where a register lies -/

theorem baseOf_add {base o : Nat} (hb : base % 0x1000 = 0) (ho : o < 0x1000) : baseOf (base + o) = base := by
  unfold baseOf; omega

theorem lnkBase_mod (n : Nat) : lnkBase n % 0x1000 = 0 := by unfold lnkBase; omega
theorem chnBase_mod (n : Nat) : chnBase n % 0x1000 = 0 := by unfold chnBase; omega
theorem engBase_mod (n : Nat) : engBase n % 0x1000 = 0 := by unfold engBase; omega

theorem regAt_of {base o : Nat} (hb : base % 0x1000 = 0) (ho : o < 0x1000) (h : blockBase base = some base) :
    blockBase (base + o) = some base := by
  unfold blockBase at *
  have : (base + o) / 0x1000 * 0x1000 = base / 0x1000 * 0x1000 := by omega
  rw [this]; exact h

theorem regAt_lnk (p : PortId) {o : Nat} (ho : o < 0x1000) (h4 : o % 4 = 0) : regAt (lnkBase p.val + o) = lnkReg o := by
  have hb : blockBase (lnkBase p.val) = some (lnkBase p.val) := by revert p; decide
  have := p.isLt
  unfold regAt; rw [regAt_of (lnkBase_mod _) ho hb]
  simp only [Nat.add_sub_cancel_left, h4]
  unfold lnkBase sageBase clkBase pwrBase thmBase otpBase bstBase twpBase calBase
  rw [if_neg (by simp)]
  repeat rw [if_neg (by omega)]
  rw [if_pos (by omega)]

theorem regAt_chn (c : ChanId) {o : Nat} (ho : o < 0x1000) (h4 : o % 4 = 0) : regAt (chnBase c.val + o) = chnReg o := by
  have hb : blockBase (chnBase c.val) = some (chnBase c.val) := by revert c; decide
  have := c.isLt
  unfold regAt; rw [regAt_of (chnBase_mod _) ho hb]
  simp only [Nat.add_sub_cancel_left, h4]
  unfold chnBase sageBase clkBase pwrBase thmBase otpBase bstBase twpBase calBase hndBase srlBase savBase
  rw [if_neg (by simp)]
  repeat rw [if_neg (by omega)]
  rw [if_pos (by omega)]

theorem regAt_eng (e : EngId) {o : Nat} (ho : o < 0x1000) (h4 : o % 4 = 0) : regAt (engBase e.val + o) = engReg o := by
  have hb : blockBase (engBase e.val) = some (engBase e.val) := by revert e; decide
  have := e.isLt
  unfold regAt; rw [regAt_of (engBase_mod _) ho hb]
  simp only [Nat.add_sub_cancel_left, h4]
  unfold engBase sageBase clkBase pwrBase thmBase otpBase bstBase twpBase calBase hndBase srlBase savBase
  rw [if_neg (by simp)]
  repeat rw [if_neg (by omega)]
  rw [if_pos (by omega)]

/-- A check of registers that hold good parity changes nothing (R57). -/
theorem checked_good {base : Nat} {s : State} (h : s.blk.regs.badPar = []) : checked base s = s := by
  simp [checked, useRegs, h, State.upd]

/-- A write that goes to its block's function. -/
theorem writeLive_block {path : Path} {last : Option Bool} {a : Nat} {data : Word} {s : State} (hp : s.blk.regs.badPar = [])
    (hv : s.blk.inChive = true → baseOf a ≠ srlBase ∧ isEng (baseOf a) = false) (hc : regAt a ≠ some .counter)
    (h1 : a ≠ 0x4008) (h2 : a ≠ 0x5000) (h3 : a ≠ 0x6000) (h4 : baseOf a ≠ 0x3000) (h5 : baseOf a ≠ 0x2000) :
    writeLive path last a data s = onBlock s (writeBlock path a data s.blk) := by
  have k : (s.blk.inChive && (baseOf a == srlBase || isEng (baseOf a))) = false := by
    cases e : s.blk.inChive
    · rfl
    · obtain ⟨x, y⟩ := hv e; simp [x, y]
  unfold writeLive
  simp only [checked_good hp, ite_self, k, hc, thmBase, otpBase, bstBase, clkBase, pwrBase, h1, h2, h3, h4, h5,
    Bool.false_eq_true, if_false]

theorem portOf_lnk (p : PortId) : portOf (lnkBase p.val) = p := by revert p; decide
theorem chanOf_chn (c : ChanId) : chanOf (chnBase c.val) = c.val := by revert c; decide
theorem engOf_eng (e : EngId) : engOf (engBase e.val) = e.val := by revert e; decide

theorem writeBlock_lnk (path : Path) (p : PortId) {o : Nat} (ho : o < 0x1000) (data : Word) (b : Block) :
    writeBlock path (lnkBase p.val + o) data b = lnkWrite p o data b := by
  have := p.isLt
  have hl : isLnk (lnkBase p.val) = true := by revert p; decide
  unfold writeBlock
  simp only [baseOf_add (lnkBase_mod p.val) ho, Nat.add_sub_cancel_left, hl, portOf_lnk]
  unfold lnkBase sageBase thmBase otpBase bstBase twpBase calBase
  repeat rw [if_neg (by omega)]
  rw [if_pos trivial]

/-- The answer of a write touches the two-wire response and the record of the last response alone. -/
theorem respond_eq (path : Path) (w : Bool) (st : Status) (a : Word) (b : Block) :
    respond path w st a b = { b with resp := st, twp := (respond path w st a b).twp } := by
  unfold respond; dsimp only; split <;> (try split) <;> simp [twpResponse, twpSeen]

@[simp] theorem respond_resp (path : Path) (w : Bool) (st : Status) (a : Word) (b : Block) :
    (respond path w st a b).resp = st := by rw [respond_eq]

section Answer
variable (path : Path) (w : Bool) (st : Status) (a : Word) (b : Block)

@[simp] theorem respond_start : (respond path w st a b).start = b.start := by
  have h := congrArg Block.start (respond_eq path w st a b); exact h
@[simp] theorem respond_time : (respond path w st a b).time = b.time := by
  have h := congrArg Block.time (respond_eq path w st a b); exact h
@[simp] theorem respond_iosc : (respond path w st a b).iosc = b.iosc := by
  have h := congrArg Block.iosc (respond_eq path w st a b); exact h
@[simp] theorem respond_regs : (respond path w st a b).regs = b.regs := by
  have h := congrArg Block.regs (respond_eq path w st a b); exact h
@[simp] theorem respond_img : (respond path w st a b).img = b.img := by
  have h := congrArg Block.img (respond_eq path w st a b); exact h
@[simp] theorem respond_ports : (respond path w st a b).ports = b.ports := by
  have h := congrArg Block.ports (respond_eq path w st a b); exact h
@[simp] theorem respond_hnd : (respond path w st a b).hnd = b.hnd := by
  have h := congrArg Block.hnd (respond_eq path w st a b); exact h
@[simp] theorem respond_srl : (respond path w st a b).srl = b.srl := by
  have h := congrArg Block.srl (respond_eq path w st a b); exact h
@[simp] theorem respond_sav : (respond path w st a b).sav = b.sav := by
  have h := congrArg Block.sav (respond_eq path w st a b); exact h
@[simp] theorem respond_chans : (respond path w st a b).chans = b.chans := by
  have h := congrArg Block.chans (respond_eq path w st a b); exact h
@[simp] theorem respond_ops : (respond path w st a b).ops = b.ops := by
  have h := congrArg Block.ops (respond_eq path w st a b); exact h
@[simp] theorem respond_engs : (respond path w st a b).engs = b.engs := by
  have h := congrArg Block.engs (respond_eq path w st a b); exact h
@[simp] theorem respond_thm : (respond path w st a b).thm = b.thm := by
  have h := congrArg Block.thm (respond_eq path w st a b); exact h
@[simp] theorem respond_clk : (respond path w st a b).clk = b.clk := by
  have h := congrArg Block.clk (respond_eq path w st a b); exact h
@[simp] theorem respond_pwr : (respond path w st a b).pwr = b.pwr := by
  have h := congrArg Block.pwr (respond_eq path w st a b); exact h
@[simp] theorem respond_cal : (respond path w st a b).cal = b.cal := by
  have h := congrArg Block.cal (respond_eq path w st a b); exact h
@[simp] theorem respond_sage : (respond path w st a b).sage = b.sage := by
  have h := congrArg Block.sage (respond_eq path w st a b); exact h
@[simp] theorem respond_otp : (respond path w st a b).otp = b.otp := by
  have h := congrArg Block.otp (respond_eq path w st a b); exact h
@[simp] theorem respond_bst : (respond path w st a b).bst = b.bst := by
  have h := congrArg Block.bst (respond_eq path w st a b); exact h
@[simp] theorem respond_tap : (respond path w st a b).tap = b.tap := by
  have h := congrArg Block.tap (respond_eq path w st a b); exact h
@[simp] theorem respond_fabric : (respond path w st a b).fabric = b.fabric := by
  have h := congrArg Block.fabric (respond_eq path w st a b); exact h
@[simp] theorem respond_sramCe : (respond path w st a b).sramCe = b.sramCe := by
  have h := congrArg Block.sramCe (respond_eq path w st a b); exact h
@[simp] theorem respond_defers : (respond path w st a b).defers = b.defers := by
  have h := congrArg Block.defers (respond_eq path w st a b); exact h
@[simp] theorem respond_fresh : (respond path w st a b).fresh = b.fresh := by
  have h := congrArg Block.fresh (respond_eq path w st a b); exact h

end Answer

end Sys2Proof.Machine
end

