-- ==== Sys2Proof/WellFormed.lean ====
section
/-! DEFINITION. Well-formed commands: the operand ranges that an operand's type does not bound already. -/

namespace Sys2Proof

/-- Measured lane lists name each lane at most once. -/
def lanesDistinct (l : List (Fin 21 × Nat)) : Bool := (l.map (·.1)).Nodup

/-- An attempt list is what the step's retries allow: 1 to 8 attempts (CAL_CFG.retries is at most 7, R445, R451). -/
def attemptsOk {α : Type} (l : List (Attempt α)) : Bool := 0 < l.length && l.length ≤ 8

/-- The command's operands are what its rule lets the event carry. -/
def Instr.wf : Instr → Bool
  | .thermalSample results => decide (∀ r ∈ results, r.1 < 192)
  | .patternEntry _ _ errors => lanesDistinct errors
  | .laneCheckEnd _ errors => lanesDistinct errors
  | .agingMeasure s0 s1 s2 s3 => s0 < 65536 && s1 < 65536 && s2 < 65536 && s3 < 65536
  | .bandgapCheck devs => attemptsOk devs
  | .calBandgapCheck _ devs _ => attemptsOk devs
  | .sensorOffsetCheck drifts late => decide ((∀ d ∈ drifts, d.1 < 192) ∧ ∀ n ∈ late, n < 192)
  | .calSensorCheck _ drifts late => decide ((∀ d ∈ drifts, d.1 < 192) ∧ ∀ n ∈ late, n < 192)
  | .otpRead _ reads => decide (reads.word < 1024)
  | .otpScan _ reads => decide (∀ r ∈ reads, r.word < 1024)
  | _ => true

end Sys2Proof
end

