-- ==== Sys2Proof/Tests/Slice0.lean ====
section
/-! SUPPORT. Tests of single commands, and witnesses: a state and operands that meet the hypotheses of each statement. -/

namespace Sys2Proof.Tests

open Sys2Proof Sys2Proof.Machine

-- One proof at a time: each is an evaluation by the kernel.
set_option Elab.async false

/-! ### States to test with -/

/-- A state from a block. -/
def st (b : Block) : State := { blk := b }

/-- The stack in service: READY, after its start. -/
def svc : Block := { start := { pwrok := true, resetN := true, step := 15, done := true }, time := 5 }

/-- In service, with one port, channel or engine changed. -/
def onPort (x : Port) (b : Block := svc) : State := st { b with ports := b.ports.set 1 x }
def onChan (x : Chan) (b : Block := svc) : State := st { b with chans := b.chans.set 31 x }
def onEng (x : Eng) (b : Block := svc) : State := st { b with engs := b.engs.set 31 x }

/-- A step of a start runs. -/
def atStep (n : Nat) : State := st { start := { pwrok := true, resetN := true, step := n } }

/-- takesWrites over the two-wire port, as a test. -/
def takesB (b : Block) : Bool :=
  pathOpen b .twp && (b.pwr.state == 0) && !b.sage.safe && (b.regs.owner != 1) && b.regs.badPar.isEmpty

theorem takes (b : Block) (h : takesB b = true) : takesWrites .twp (st b) := by
  simp only [takesB, Bool.and_eq_true, Bool.not_eq_true', beq_iff_eq, bne_iff_ne, List.isEmpty_iff] at h
  exact ⟨h.1.1.1.1, h.1.1.1.2, h.1.1.2, by simpa [ownerRefuses, pathTwp, st] using h.1.2, h.2⟩

theorem svc_takes : takesWrites .twp (st svc) := takes _ (by decide)

/-! ### Well-formedness -/

theorem test_wf_sample : (Instr.thermalSample [(191, 0)]).wf = true ∧ (Instr.thermalSample [(192, 0)]).wf = false := by decide
theorem test_wf_pattern : (Instr.patternEntry 0 .commit [(0, 1), (20, 2)]).wf = true
    ∧ (Instr.patternEntry 0 .commit [(20, 1), (20, 2)]).wf = false := by decide
theorem test_wf_laneCheck : (Instr.laneCheckEnd 0 [(0, 1), (1, 1)]).wf = true ∧ (Instr.laneCheckEnd 0 [(0, 1), (0, 2)]).wf = false := by
  decide
theorem test_wf_aging : (Instr.agingMeasure 65535 0 0 0).wf = true ∧ (Instr.agingMeasure 65536 0 0 0).wf = false
    ∧ (Instr.agingMeasure 0 65536 0 0).wf = false ∧ (Instr.agingMeasure 0 0 65536 0).wf = false
    ∧ (Instr.agingMeasure 0 0 0 65536).wf = false := by decide
theorem test_wf_bandgap : (Instr.bandgapCheck [some 0]).wf = true ∧ (Instr.bandgapCheck []).wf = false
    ∧ (Instr.bandgapCheck (List.replicate 9 (some 0))).wf = false := by decide
theorem test_wf_calBandgap : (Instr.calBandgapCheck .twp [some 0] []).wf = true ∧ (Instr.calBandgapCheck .twp [] []).wf = false := by decide
theorem test_wf_offset : (Instr.sensorOffsetCheck [(191, 0)]).wf = true ∧ (Instr.sensorOffsetCheck [(192, 0)]).wf = false := by decide
theorem test_wf_calSensor : (Instr.calSensorCheck .twp [(0, 0)]).wf = true ∧ (Instr.calSensorCheck .twp [(192, 0)]).wf = false := by decide
theorem test_wf_otpRead : (Instr.otpRead .twp ⟨1023, 0, 0, 0⟩).wf = true ∧ (Instr.otpRead .twp ⟨1024, 0, 0, 0⟩).wf = false := by decide
theorem test_wf_otpScan : (Instr.otpScan .twp [⟨1023, 0, 0, 0⟩]).wf = true ∧ (Instr.otpScan .twp [⟨1024, 0, 0, 0⟩]).wf = false := by
  decide

/-! ### Witnesses: the queue, time and DRAM -/

theorem witness_StepRunsFrontCommand : ({ pending := [.classEpoch, .otpChecksDone] } : State).pending = .classEpoch :: [.otpChecksDone] :=
  rfl

/-- Of IdleTickCountsTime: nothing waits; in reset, and outside it with either source of the time. -/
theorem witness_IdleTickCountsTime :
    (∀ b ∈ [svc, { svc with iosc := false }, State.reset.blk], (st b).pending = [] ∧ b.ops.descs = []
        ∧ (∀ p : PortId, b.ports[p].writes = [] ∧ b.ports[p].fences = []) ∧ b.regs.pend = [] ∧ b.regs.forced = [])
      ∧ State.reset.blk.start.step = 0 ∧ (st svc).blk.start.step ≠ 0 ∧ (st svc).blk.iosc = true
      ∧ (st { svc with iosc := false }).blk.start.step ≠ 0 ∧ (st { svc with iosc := false }).blk.iosc = false := by decide +kernel

theorem witness_MemoryCanonicalKept :
    ∃ s t, Inv s ∧ step s = .next t := ⟨{ mem := [(0, 1), (7, 2)], pending := [.resetNFall 5] }, _, (by decide : Memory.wf _ = true), rfl⟩

theorem witness_CommandsKeepQueue : ∃ t, exec (.resetNFall 100) { pending := [.classEpoch] } = .next t := ⟨_, rfl⟩

theorem witness_StoredLineReadsBack : Memory.wf [(71, 1)] = true ∧ ¬ (lineAddr 0 1 ≤ 71 ∧ 71 < lineAddr 0 1 + 72)
    ∧ ¬ (lineAddr 0 1 ≤ 144 ∧ 144 < lineAddr 0 1 + 72) := by decide

/-! ### Witnesses: resets and the start -/

theorem witness_PowerOnReset : State.reset.blk.start.pwrok = false := rfl

/-- Of ResetAndBrownOut: pulses of 99 and 100 ns, a brown-out of 1001 ns of each kind of rail, and a stack whose reset is to
rise. -/
theorem witness_ResetAndBrownOut : 99 < 100 ∧ 100 ≤ 100 ∧ 1000 < 1001
    ∧ (let s := st { start := { pwrok := true } }
       s.blk.start.pwrok = true ∧ s.blk.start.brown = false ∧ s.blk.start.resetN = false) := by decide

theorem witness_StartStepsAdvance :
    ∀ n ∈ [11, 12, 13, 6], (atStep n).blk.starting = true ∧ (atStep n).blk.start.step = n ∧ 6 ≤ n := by decide +kernel

theorem witness_StartFailuresAndRestarts :
    (∀ n ∈ [7, 8, 9, 10, 11, 12, 13, 14, 5], (atStep n).blk.starting = true ∧ (atStep n).blk.start.step = n)
      ∧ (atStep 8).blk.img.count < 64
      ∧ (let s := st { start := { pwrok := true, resetN := true, failed := true } }
         s.blk.start.failed = true ∧ s.blk.sage.safe = false ∧ s.blk.thm.safe = false)
      ∧ svc.thm.safe = false ∧ svc.start.restartWait = none ∧ otpPulsing svc = false
      ∧ ({ svc with img := { stagedOk := true } } : Block).img.stagedOk = true := by decide +kernel

/-! ### Witnesses: images -/

/-- A load that receives: 64 bytes so far. -/
def receiving : Block := { svc with img := { state := .receiving, target := 2, data := List.replicate 64 0, count := 64 } }

/-- Of ImageLoads: a start of a LIVE load in READY, a data word over the path that has none yet and over the path that has the
claim, and an abort of a load that receives, of a LIVE load one of whose
groups has committed, or all, and of a STAGE load that is done. -/
theorem witness_ImageLoads : takesWrites .twp (st svc) ∧ loading svc.img = false ∧ targetAllowed svc (2 : BitVec 2).toNat = true
    ∧ takesWrites .twp (st receiving) ∧ receiving.img.state = .receiving ∧ receiving.img.path = 0 ∧ 64 ≤ receiving.img.data.length
    ∧ (let b := { receiving with img := { receiving.img with path := pathCode .twp } }
       takesWrites .twp (st b) ∧ b.img.path = pathCode .twp)
    ∧ loading receiving.img = true ∧ ¬ (receiving.img.state = .pendingCommit ∧ receiving.img.liveSome = true) ∧ receiving.img.target ≠ 0
    ∧ wfield (rw 0x40 receiving) 3 2 ≠ 3
    ∧ (∀ x ∈ [LoadState.pendingCommit, .done], let b := { svc with img := { state := x, target := 2, liveSome := true } }
      takesB b = true ∧ b.img.target = 2 ∧ b.img.liveSome = true ∧ b.img.state = x ∧ wfield (rw 0x40 b) 3 2 ≠ 3)
    ∧ (let b := { svc with img := { state := .done, target := 1 } }
       takesB b = true ∧ b.img.state = .done ∧ wfield (rw 0x40 b) 3 2 ≠ 3) := by
  refine ⟨svc_takes, ?_, ?_, takes _ ?_, ?_, ?_, ?_, ⟨takes _ ?_, ?_⟩, ?_, ?_, ?_, ?_, ?_, ?_⟩ <;> decide +kernel

/-- A load whose data fails the first check: the magic number. -/
def badImage (target : BitVec 2) : Block := { svc with img := { state := .verifying, target := target, data := List.replicate 64 0 } }

/-- Of the end of the checks: a failed STAGE and LIVE load. -/
theorem witness_ImageVerifyDone : ∀ n ∈ [(1 : BitVec 2), 2], (badImage n).img.state = .verifying ∧ (badImage n).img.target ≠ 0
    ∧ imgCheck (badImage n) ((badImage n).img.target == 2) (badImage n).img.data = some { check := 1, off := 0 } := by
  intro n h; fin_cases h <;> exact ⟨rfl, by decide, rfl⟩

/-! ### Witnesses: registers -/

theorem witness_BufferedWrites : takesWrites .twp (st svc) ∧ wfield (0xFFFFFFFF : Word) 15 8 ≠ 0
    ∧ (onPort { st := .active }).blk.ports[1].st = .active
    ∧ svc.ports[1].st ≠ .active ∧ pendingAt (lnkBase 1) svc = false :=
  ⟨svc_takes, by decide, by decide +kernel, by decide +kernel, rfl⟩

/-- Of RefusalsAndCounterClears: an unaligned address, enables that are not all set, a shadow offset, an offset without a
register, a path that the owner shuts out; a counter clear of zero and of one. -/
theorem witness_RefusalsAndCounterClears :
    (pathOpen svc .twp = true ∧ svc.pwr.state = 0 ∧ svc.sage.safe = false ∧ reactionOf svc (fs .regAccess) = 0
        ∧ svc.regs.badPar = [])
      ∧ (0x2001 : Word).toNat % 4 ≠ 0 ∧ (14 : BitVec 4) ≠ 15
      ∧ (let a := (0x2804 : Word).toNat; a % 4 = 0 ∧ (blockBase a).isSome = true ∧ 0x800 ≤ a % 0x1000)
      ∧ (let a := (0x2400 : Word).toNat; a % 4 = 0 ∧ mapped a = false ∧ a % 0x1000 < 0x800)
      ∧ (let a := (0x2004 : Word).toNat; a % 4 = 0 ∧ mapped a = true ∧ a % 0x1000 < 0x800)
      ∧ (let b := { svc with regs := { owner := 1 } }
         pathOpen b .twp = true ∧ b.pwr.state = 0 ∧ b.sage.safe = false ∧ b.regs.badPar = [] ∧ reactionOf b (fs .regAccess) = 0
           ∧ ownerRefuses .twp b = true)
      ∧ regAt (lnkBase 1 + 0x20) = some .counter ∧ lnkBase 1 + 0x20 < 2 ^ 32 ∧ (lnkBase 1 + 0x20) % 0x1000 < 0x800
      ∧ svc.start.chive = false := by decide +kernel

/-- Of OwnerSweepAndForcedCommit: an owner of 0 and of 3, an upset register, and one of Sage's own, and one pending write of a channel, at rest and in
the middle of a refresh. -/
theorem witness_OwnerSweepAndForcedCommit : takesWrites .twp (st svc) ∧ wfield (0 : Word) 1 0 ≠ 3 ∧ wfield (3 : Word) 1 0 = 3
    ∧ (5 ≤ svc.start.step ∧ svc.sage.enable = true ∧ svc.sage.safe = false ∧ rwMask (0x2004 : Word).toNat ≠ 0
      ∧ svc.regs.badPar = [] ∧ svc.sage.pend.getLsbD (fs .cfgParity) = false ∧ svc.sage.tick ≠ svc.now
      ∧ baseOf (0x2004 : Word).toNat ≠ sageBase ∧ rwMask (0x1014 : Word).toNat ≠ 0 ∧ baseOf (0x1014 : Word).toNat = sageBase
      ∧ svc.sage.pend.getLsbD (fs .sageSelf) = false)
    ∧ (let b := { svc with regs := { pend := [{ addr := chnBase 31 + 4, value := 1 }] } }
       takesWrites .twp (st b) ∧ (∀ w ∈ b.regs.pend, isChn (baseOf w.addr) = true ∧ w.good = true)
         ∧ ∀ c : ChanId, midCommand b.chans[c] = false)
    ∧ (let w : PendWr := { addr := chnBase 31 + 4, value := 1 }
       let b := { (onChan { st := .run, banks := [(63, { tBusy := 1 })] }).blk with regs := { pend := [w] } }
       takesB b = true ∧ b.regs.pend = [w] ∧ baseOf w.addr = chnBase (31 : ChanId).val ∧ midCommand b.chans[31] = true) :=
  ⟨svc_takes, by decide, by decide, by decide +kernel, ⟨takes _ (by decide +kernel), by decide +kernel, by decide +kernel⟩, by decide +kernel⟩

/-! ### Witnesses: training -/

/-- A training block of the given bytes 2 to 15. -/
def block (l : List Byte) : BitVec 144 :=
  let l := ([0x5A, 0xC3] ++ l).take 16 ++ List.replicate (14 - l.length) 0
  BitVec.ofNat 144 (natOfBytes l + (crc16 l).toNat <<< 128)

/-- In service, with the PLLs READY. -/
def locked : Block := { svc with clk := { linkLock := 0xF, tsvLock := 0xF } }

/-- Of DetectSensesLanes: 9 and 10 terminations, with and without a calibration failure, with the link PLL READY and not. -/
theorem witness_DetectSensesLanes : (∀ b ∈ [svc, locked], (onPort { st := .detect } b).blk.ports[1].st = .detect
      ∧ reactionOf (onPort { st := .detect } b).blk (fs .calDegrade) ≤ 2 ∧ (linkReady 1 (onPort { st := .detect } b).blk = true ↔ b = locked))
    ∧ ones (0x1FF : BitVec 21) < 10 ∧ 10 ≤ ones (0x3FF : BitVec 21) := by decide +kernel

/-- Of TrainAndLock: a TRAIN block that asks for preset 9, a lane given up with 11 and with 10 good lanes, and a MARKER block. -/
theorem witness_TrainAndLock :
    (let x := (onPort { st := .train }).blk.ports[1]
     x.st = .train ∧ 10 ≤ goodLanes x.failRx ∧ 10 ≤ goodLanes x.failTx ∧ x.lanes[20].eqDone = false ∧ 10 ≤ goodLanes (bset x.failRx 20))
      ∧ (let k := block [1, 20, 0, 0, 9, 0, 1]
         blockIs 1 k = true ∧ blockLane k ≤ 20 ∧ byteOf k 8 / 2 % 2 = 0 ∧ byteOf k 7 % 16 = 0)
      ∧ (let x := (onPort { st := .train, failRx := 0x7FF }).blk.ports[1]
         x.st = .train ∧ 10 ≤ goodLanes x.failRx ∧ 10 ≤ goodLanes x.failTx ∧ x.lanes[20].eqDone = false
           ∧ goodLanes (bset x.failRx 20) < 10)
      ∧ (let s := onPort { st := .lock }
         let k := block [2, 20, 0, 0, 255, 255]
         s.blk.ports[1].st = .lock ∧ blockIs 2 k = true ∧ blockLane k ≤ 20 ∧ 0 ≠ laneIx (laneMap s.blk 1 false (blockLane k))
           ∧ s.blk.ports[1].failRx.getLsbD 0 = false ∧ s.blk.ports[1].lanes[0].arrival = none) := by decide +kernel

/-- Of ExchangeReachesActive: a first block, and the last block of an exchange that ends. -/
theorem witness_ExchangeReachesActive :
    (let k := block [3, 20, 0, 3, 15, 0xDF, 0, 0, 0, 0]
     let x : Port := { st := .exchange, exLast := exchBody k, exSame := 3, exAcked := 3 }
     let s := onPort x locked
     linkReady 1 s.blk = true ∧ blockIs 3 k = true ∧ s.blk.ports[1].st = .exchange ∧ exchOk k = true ∧ byteOf k 7 / 32 % 4 = 2 ∧ byteOf k 7 % 32 = 31
       ∧ 4 ≤ x.exAcked + byteOf k 7 / 128 ∧ 4 ≤ (if exchBody k = x.exLast then x.exSame + 1 else 1)
       ∧ s.blk.starting = false ∧ s.blk.thm.owe.getLsbD 1 = false)
      ∧ (let k := block [3, 20, 0, 3, 15, 0x5F]
         blockIs 3 k = true ∧ (onPort { st := .exchange }).blk.ports[1].st = .exchange
           ∧ (onPort { st := .exchange }).blk.ports[1].exAcked + byteOf k 7 / 128 < 4 ∧ linkReady 1 (onPort { st := .exchange }).blk = false) := by
  decide +kernel

/-- Of TrainingLimitsAndRecover: the first and the third attempt, in TRAIN and in LOCK; a port that loses its bit lock, or gets
four RECOVER blocks of the far end; those blocks in RECOVER; the end of the lane check. -/
theorem witness_TrainingLimitsAndRecover :
    (∀ x ∈ [({ st := .train } : Port), { st := .lock, attempts := 2 }, { st := .exchange, attempts := 1 }],
      reactionOf (onPort x).blk (fs .lnkDegrade) ≤ 2 ∧ ((onPort x).blk.ports[1].st = .train ∨ (onPort x).blk.ports[1].st = .lock
        ∨ (onPort x).blk.ports[1].st = .exchange))
      ∧ (∀ x ∈ [({ st := .active } : Port), { st := .idle }],
        ((onPort x).blk.ports[1].st = .active ∨ (onPort x).blk.ports[1].st = .idle)
          ∧ (onPort x).blk.ports[1].rate = BitVec.ofNat 4 (portRate 1 (onPort x).blk))
      ∧ (let s := onPort { st := .recover, rstep := .blocks }
         s.blk.ports[1].st = .recover ∧ s.blk.ports[1].rstep = .blocks ∧ lastFour 5 (List.replicate 4 (block [5, 0])) = true)
      ∧ (let s := onPort { st := .recover, rstep := .laneCheck }
         s.blk.ports[1].st = .recover ∧ s.blk.ports[1].rstep = .laneCheck) := by decide +kernel

theorem onPort_takes (x : Port) : takesWrites .twp (onPort x) := takes _ (by rfl)

/-- Of LinkCommands: a port that is ACTIVE, one that is DISABLED, and each refusal. -/
theorem witness_LinkCommands : takesWrites .twp (onPort { st := .active }) ∧ takesWrites .twp (onPort {})
    ∧ (let b := (onPort { st := .active }).blk
       b.ports[1].st = .active ∧ b.ports[1].rate = BitVec.ofNat 4 (portRate 1 b) ∧ pendingAt (lnkBase 1) b = false
         ∧ (rw (lnkBase 1) b).getLsbD 0 = false ∧ b.ports[1].st ≠ .disabled)
    ∧ (let b := (onPort {}).blk
       b.ports[1].st ≠ .active ∧ b.ports[1].st ≠ .idle ∧ b.ports[1].st = .disabled ∧ bstOnPort b 1 = false ∧ b.start.chive = false
         ∧ b.thm.safe = false ∧ 15 ≤ b.start.step ∧ pendingAt (lnkBase 1) b = false) :=
  ⟨onPort_takes _, onPort_takes _, by decide +kernel, by decide +kernel⟩

/-- Of IdleAndPattern: an idle block at an ACTIVE port, an idle port, a port that waits for its marker flit; LNK_PRBS.enable at
1 and 0. -/
theorem witness_IdleAndPattern :
    (let b := (onPort { st := .active, waitMarker := true }).blk
     b.ports[1].st = .active ∧ blockIs 4 (block [4, 0]) = true ∧ b.ports[1].waitMarker = true
       ∧ b.ports[1].rate = BitVec.ofNat 4 (portRate 1 b))
      ∧ (let b := (onPort { st := .idle, idleRx := true }).blk; b.ports[1].st = .idle ∧ b.ports[1].idleRx = true)
      ∧ (let b := (onPort { st := .active } { svc with regs := { live := [(lnkBase 1 + 0x1C, 0xD)] } }).blk
         b.ports[1].st = .active ∧ rwf (lnkBase 1 + 0x1C) 0 0 b = 1 ∧ lastFour 6 (List.replicate 4 (block [6, 0, 0, 0, 2])) = true
           ∧ (List.replicate 4 (block [6, 0, 0, 0, 2])).getLast? = some (block [6, 0, 0, 0, 2]))
      ∧ (let b := (onPort { st := .pattern }).blk
         b.ports[1].st = .pattern ∧ rwf (lnkBase 1 + 0x1C) 0 0 b = 0 ∧ b.ports[1].rate = BitVec.ofNat 4 (portRate 1 b)) := by
  decide +kernel

/-! ### Witnesses: flits -/

/-- Of FlitTimesAndTimers: a replay, a full window, nothing to send, one completion; each timer at its first and last expiry. -/
theorem witness_FlitTimesAndTimers :
    (∀ x ∈ [({ st := .active, nextSeq := 1 } : Port), { st := .active, nextSeq := 64, replayPtr := 64 },
        { st := .active, ret := Vector.replicate 4 0 }, { st := .active, txCmpl := [7], far := #v[1, 0, 0, 0] },
        { st := .active, nakState := true }, { st := .active, nakState := true, naks := 4 },
        { st := .active, nextSeq := 1, replayPtr := 1 }, { st := .active, nextSeq := 1, replayPtr := 1, timeouts := 1 }],
      let b := (onPort x).blk
      b.ports[1].st = .active ∧ b.ports[1].idleTx = false ∧ b.ports[1].idleRx = false ∧ b.ports[1].fences = []
        ∧ b.ports[1].discard = false ∧ pendingAt (lnkBase 1) b = false ∧ b.regs.badPar = [] ∧ b.ports[1].rate = BitVec.ofNat 4 (portRate 1 b))
      ∧ (0 : BitVec 16) ≠ 1 ∧ ((64 : BitVec 16) - 0).toNat = 64 ∧ ((0 : BitVec 16) - 0).toNat ≠ 64 ∧ 0 < (#v[1, 0, 0, 0] : Vector Nat 4)[0]
      ∧ (let x : Port := { st := .active, txCmpl := [7], far := #v[1, 0, 0, 0] }; x.txReg = [] ∧ x.txEv = [] ∧ x.txData = []) := by
  decide +kernel

/-- A full-width ACTIVE port between markers, that expects flit `n`. -/
def listens (n : BitVec 16) : Port := { st := .active, widthRx := 2, rxFlits := 1, expected := n }

/-- What `listens` takes a flit of the lanes for. -/
def got (wire : BitVec 2880) : BitVec 2880 :=
  BitVec.ofNat 2880 (natOfBytes (scrFlit (lanesOf (listens 3).widthRx) (listens 3).rxScr (bytesOf 360 wire)).2)

/-- A flit with empty slots: its control block and its CRC-64. -/
def flitOf (ctl crc : Nat) : BitVec 2880 := BitVec.ofNat 2880 ((ctl + crc <<< 256) <<< 2560)

/-- CRC-64 is zero over bytes of zero, so that only the control block counts in `flitOf`. -/
theorem crc_zeros (n : Nat) (l : List Byte) : crc64 (List.replicate n 0 ++ l) = crc64 l := by
  have one : crcByteMsb 64 0x42F0E1EBA9EA3693 0 0 = 0 := by decide +kernel
  have h : (List.replicate n (0 : Byte)).foldl (crcByteMsb 64 0x42F0E1EBA9EA3693) 0 = 0 := by
    induction n with
    | zero => rfl
    | succ n ih => rw [List.replicate_succ, List.foldl_cons, one, ih]
  rw [crc64, List.foldl_append, h, crc64]

/-- Flit 3, which returns 255 credits of every pool, and its CRC-64 computed apart. -/
def crc3 : Nat := 0xBD825E6F9DACA41A
def flit3 (crc : Nat) : BitVec 2880 := flitOf (3 + 0xFFFF <<< 16 + 0xFFFFFFFF <<< 32) crc

theorem flit3_crc (crc : Nat) (h : bytesOf 352 (flit3 crc) = List.replicate 320 0 ++ (bytesOf 352 (flit3 0)).drop 320) :
    flitCrc (flit3 crc) = BitVec.ofNat 64 crc3 := by
  rw [flitCrc, h, crc_zeros]; decide +kernel

/-- Flit 3 scrambled over the 20 lanes from their seeds, computed apart. -/
def wire3 : BitVec 2880 :=
  BitVec.ofNat 2880 (
    0xF0F0F0F0F0F0F0F0F0F0F0F0 <<< 480 + 0x672546047B395A186B294A0873315210632142005C5C5C5CBCBCBCBC3C3C <<< 240
      + 0x3C3CFCFCFCFC7C7C7C7C0000000000000000000000000000000000000000 <<< 0 +
    0xD95D9B1F75556545BB9BAB8B <<< 1056 + 0xB393A3833F1F2F0F37172707F2D2E2C2FCDCECCCF4D4E4C4F8D8E8C8F0D0 <<< 816
      + 0xE0C0333B373F3038343C323A363E3139353D333B373F70707070F0F0F0F0 <<< 576 +
    0xB3B3B3B333333333F3F3F3F3 <<< 1632 + 0x73737373FFFFFFFFFFFFFFFFFFFFFFFFFFFFFFFFFFFFFFFF2EBE66F61181 <<< 1392
      + 0x59C935A57DED03934BDB27B76FFFD1559317E86CAA2EC94D8B0FF87CBA3E <<< 1152 +
    0xFFDBEDC9F6D2E4C0466E527A <<< 2208 + 0x8BA39FB781A995BD0E261A32042C1038B0B0B0B030303030303030303030 <<< 1968
      + 0x3030303030306B214E04743E511B662C43097D3758126F254A00D3D3D3D3 <<< 1728 +
    0xCC6166C53390436F0A9843D1 <<< 2784 + 0xFC6EB52758CA1183F276B0342BAF69ED8A0EC84C8400C64225A1981F42E2 <<< 2544
      + 0x12B2B414E4449C3CCC6C208070D008A858F8F4D0E6C2FBDFE9CDF2D6E0C4 <<< 2304)

/-- The same with one bit of its CRC-64 turned. -/
def wireBad : BitVec 2880 := wire3 ^^^ 1#2880 <<< 2816

theorem got_wire3 : got wire3 = flit3 crc3 := by decide +kernel
theorem got_wireBad : got wireBad = flit3 (crc3 ^^^ 1) := by decide +kernel

theorem listens_wires (n : BitVec 16) : let x := (onPort (listens n)).blk.ports[1]
    x.st = .active ∧ x.idleRx = false ∧ x.discard = false ∧ x.rxFlits % 4096 ≠ 0
      ∧ x.expected = n ∧ x.widthRx = (listens 3).widthRx ∧ x.rxScr = (listens 3).rxScr ∧ (onPort (listens n)).blk.regs.badPar = [] :=
  ⟨rfl, rfl, rfl, (by decide : 1 % 4096 ≠ 0), rfl, rfl, rfl, rfl⟩

/-- Of FlitsArrive, with `listens_wires`: a flit that is not whole, one ahead of the expected one, and the expected one. -/
theorem witness_FlitsArrive :
    (flitCrc (got wireBad) ≠ fCrc (got wireBad))
      ∧ (let f := got wire3; flitCrc f = fCrc f ∧ isNull f = false ∧ (∀ k, k < 5 → fType f k = 0)
          ∧ (fSeq f ≠ (listens 2).expected ∧ (fSeq f - (listens 2).expected).toNat < 32768) ∧ fSeq f = (listens 3).expected) := by
  rw [got_wire3, got_wireBad, flit3_crc _ (by decide +kernel)]
  refine ⟨by decide +kernel, ?_⟩
  simp only [flit3_crc crc3 (by decide +kernel)]
  decide +kernel

/-! ### Witnesses: data requests -/

/-- Segment 0 of handle 1, open to all ports and quadrants, lies in channel 31 and has been written. -/
def seg31 : Nat := 31 * 65536
def held (x : Port) (c : Chan := { st := .run }) (e : MapEntry := { pseg := seg31 }) (written : List Nat := [seg31]) : Block :=
  { svc with
    hnd := { table := [(1, { size := 1, attr := 0xFFFFF300 })] },
    srl := { map := [(2097152, e)], written := written },
    ports := svc.ports.set 1 x,
    chans := svc.chans.set 31 c }

/-- A request of tag 5. -/
def request (op len handle line : Nat) : BitVec 64 := BitVec.ofNat 64 (op + len <<< 9 + handle <<< 11 + line <<< 23 + 5 <<< 54)

/-- A port at which one request waits. -/
def asks (e : BitVec 64) (mask : BitVec 64 := 0) : Port := { st := .active, rxq := [.req e mask 0 0], tags := [(5, { kind := .other })] }

theorem waits_of (b : Block) (i : RxItem)
    (h : (b.pwr.state == 0 && b.ports[1].rxq == [i] && b.ports[1].fences.isEmpty && b.ports[1].writes.isEmpty
      && b.ports[1].st != .disabled) = true) : waitsAlone 1 i (st b) := by
  simp only [Bool.and_eq_true, beq_iff_eq, List.isEmpty_iff, bne_iff_ne] at h
  exact ⟨h.1.1.1.1, h.1.1.1.2, h.1.1.2, h.1.2, h.2⟩

/-- Each request that follows waits alone at its port, as these do. -/
theorem witness_waitsAlone : waitsAlone 1 (.req (request 1 0 1 0) 0 0 0) (st (held (asks (request 1 0 1 0))))
    ∧ waitsAlone 1 (.req (request 3 0 1 1023) 1 0 0) (st (held (asks (request 3 0 1 1023) 1)))
    ∧ waitsAlone 1 (.req (request 1 0 1 0) 0 0 0) (onPort (asks (request 1 0 1 0)) {})
    ∧ (∀ k : Fin 4, waitsAlone 1 (.reg (BitVec.ofNat 128 k.val) 0) (onPort { st := .active, rxq := [.reg (BitVec.ofNat 128 k.val) 0] })) := by
  refine ⟨waits_of _ _ (by decide +kernel), waits_of _ _ (by decide +kernel), waits_of _ _ (by decide +kernel), ?_⟩
  intro k
  fin_cases k <;> exact waits_of _ _ (by decide +kernel)

/-- Of ReadRefusals: a stack that is not READY, an absent handle, a port outside the mask, lines beyond the handle and at its
end, a start that is no multiple. -/
theorem witness_ReadRefusals :
    refusing (onPort (asks (request 1 0 1 0)) {}).blk = true
      ∧ (∀ a ∈ [(0, 1, 0), (0, 2, 0), (3, 1, 1020), (1, 1, 1)], (hdrOf (request 1 a.1 a.2.1 a.2.2)).op = 1)
      ∧ (let b := held (asks (request 1 0 2 0)); refusing b = false ∧ handleSize b (hdrOf (request 1 0 2 0)).handle = none)
      ∧ (let b := { held (asks (request 1 0 1 0)) with hnd := { table := [(1, { size := 1, attr := 0xFFFDF300 })] } }
         refusing b = false ∧ handleSize b 1 = some 1 ∧ (portsOf b 1).getLsbD 1 = false)
      ∧ (let b := held (asks (request 1 3 1 1020)); let h := hdrOf (request 1 3 1 1020)
         refusing b = false ∧ handleSize b h.handle = some 1 ∧ (portsOf b h.handle).getLsbD 1 = true ∧ 1024 * 1 < h.line + 2 ^ h.len)
      ∧ (let b := held (asks (request 1 1 1 1)); let h := hdrOf (request 1 1 1 1)
         handleSize b h.handle = some 1 ∧ (portsOf b h.handle).getLsbD 1 = true ∧ h.line + 2 ^ h.len ≤ 1024 * 1
           ∧ h.line % 2 ^ h.len ≠ 0) := by decide +kernel

/-- The last eight lines of a segment. -/
def rd8 : BitVec 64 := request 1 3 1 1016

/-- Of ReadsAreServed: from an OFFLINE channel, from a segment never written, and from one that holds data. -/
theorem witness_ReadsAreServed :
    (∀ b ∈ [held (asks rd8) {}, held (asks rd8) {} (written := []), held (asks rd8)],
      (hdrOf rd8).op = 1 ∧ requestCheck b 1 (hdrOf rd8) = .ok ∧ lookupHeld b (hdrOf rd8).handle (hdrOf rd8).line = false
        ∧ placeOf b (hdrOf rd8).handle (hdrOf rd8).line = some (seg31, 1016))
      ∧ (held (asks rd8) {}).chans[cid (segChan seg31)].st = .offline
      ∧ (let b := held (asks rd8) (written := []); b.chans[cid (segChan seg31)].st ≠ .offline ∧ isWritten b seg31 = false)
      ∧ (let b := held (asks rd8); let x := b.chans[cid (segChan seg31)]
         x.st ≠ .offline ∧ isWritten b seg31 = true ∧ x.xbar = [] ∧ x.wq = [] ∧ x.rq.length + 2 ^ (hdrOf rd8).len ≤ 128
           ∧ wqUsed x ≤ 64) := by decide +kernel

/-- Of WriteHeadersWait: headers that are accepted and refused. -/
theorem witness_WriteHeadersWait : ∀ h ∈ [1, 2],
    (hdrOf (request 2 0 h 1023)).op = 2 ∧ (hdrOf (request 3 0 h 1023)).op = 3
      ∧ (requestCheck (held (asks (request 2 0 h 1023))) 1 (hdrOf (request 2 0 h 1023)) = .ok ↔ h = 1)
      ∧ (requestCheck (held (asks (request 3 0 h 1023))) 1 (hdrOf (request 3 0 h 1023)) = .ok ↔ h = 1) := by decide +kernel

/-- A port whose one write of tag 5 waits for its line, which has come. -/
def lineCame (w : WPend) : Port := { st := .active, rxq := [.data 5 0 false 1 0], writes := [w], tags := [(5, { kind := .write })] }

/-- Of WriteLinesComplete: a refused write, and one that is served. -/
theorem witness_WriteLinesComplete :
    (∀ r ∈ [some Status.noHandle, none],
      let w : WPend := { tag := 5, handle := 1, line := 1023, count := 1, cls := 0, hint := 0, refused := r }
      let x := (held (lineCame w)).ports[1]
      x.rxq = [.data ((5 : BitVec 10).toNat + 1024 * x.gen) 0 false 1 x.gen] ∧ x.writes = [w]
        ∧ w.tag = (5 : BitVec 10).toNat + 1024 * x.gen ∧ w.count = 1 ∧ w.got = [] ∧ x.st ≠ .disabled)
      ∧ (let w : WPend := { tag := 5, handle := 1, line := 1023, count := 1, cls := 0, hint := 0 }
         let b := held (lineCame w); let c := b.chans[cid (segChan seg31)]
         w.refused = none ∧ w.mask = none ∧ lookupHeld b w.handle w.line = false ∧ placeOf b w.handle w.line = some (seg31, 1023)
           ∧ isWritten b seg31 = true ∧ c.st ≠ .offline ∧ c.xbar = [] ∧ c.wq = [] ∧ c.fills = [] ∧ c.await = [] ∧ rqUsed c ≤ 128 ∧ wqUsed c < 64
           ∧ b.now - w.arr ≤ target b w.cls) := by decide +kernel

/-- Of FencesAndUndefined: the least undefined opcode, a fence with nothing before it, and one with a tag before it. -/
theorem witness_FencesAndUndefined :
    5 ≤ (hdrOf (request 5 0 1 0)).op
      ∧ (let e := request 4 1 1 0; let b := held (asks e)
         (hdrOf e).op = 4 ∧ (hdrOf e).len = 1 ∧ handleCheck b 1 (hdrOf e).handle = .ok
           ∧ b.ports[1].tags = [((hdrOf e).tag + 1024 * b.ports[1].gen, { kind := .other })])
      ∧ (let e := request 4 1 1 0; let b := held { asks e with tags := [(3, { kind := .read }), (5, { kind := .other, ord := 1 })] }
         handleCheck b 1 (hdrOf e).handle = .ok ∧ b.ops.descs = [] ∧ ({ kind := .read } : TagUse).ord < 1
           ∧ ({ kind := .read } : TagUse).done = none
           ∧ b.ports[1].tags = [(3, { kind := .read }), ((hdrOf e).tag + 1024 * b.ports[1].gen, { kind := .other, ord := 1 })]
           ∧ 3 ≠ (hdrOf e).tag + 1024 * b.ports[1].gen) := by decide +kernel

/-- Of RegisterRecords: a read, a write that enables three bytes, and 64 bits at an odd word. -/
theorem witness_RegisterRecords :
    5 ≤ svc.start.step ∧ svc.pwr.state = 0 ∧ svc.defers = [] ∧ svc.sage.safe = false
      ∧ svc.regs.badPar.contains 0x14 = false ∧ reactionOf svc (fs .regAccess) = 0
      ∧ (let r : BitVec 128 := BitVec.ofNat 128 (1 + (chnBase 31 + 4) <<< 32)
         recType r = 1 ∧ recAddr r = BitVec.ofNat 32 (chnBase 31 + 4))
      ∧ (let r : BitVec 128 := BitVec.ofNat 128 (2 + 14 <<< 22 + 4 <<< 32)
         recType r = 2 ∧ recEn r % 16 ≠ 15 ∧ (recAddr r).toNat % 4 = 0)
      ∧ (let r : BitVec 128 := BitVec.ofNat 128 (4 + 4 <<< 32); recType r = 4 ∧ (recAddr r).toNat % 8 ≠ 0) := by decide +kernel

/-! ### Witnesses: channels -/

/-- A segment fill of channel 31, whose neighbour refresh is off, with what waits behind it. -/
def filling (rq : List Acc) (await : List WDone) : Block :=
  { held { st := .active, tags := [(5, { kind := .write })] } { st := .run, fills := [seg31], rq := rq, await := await } with
    regs := { live := [(chnBase 31 + 0x14, 0)] } }

/-- Of FillsEnd: a write that has entered its queue behind the fill, and a read behind it that a queued write serves. -/
theorem witness_FillsEnd :
    (∀ b ∈ [filling [] [], filling [] [{ port := 1, tag := 5, handle := 1, pseg := seg31 }]],
      b.chans[31].fills = seg31 :: [] ∧ b.chans[31].st = .run ∧ b.chans[31].xbar = [] ∧ b.chans[31].banks = []
        ∧ rwf (chnBase 31 + 0x14) 15 0 b = 0)
      ∧ (let w : WDone := { port := 1, tag := 5, handle := 1, pseg := seg31, st := some .ok }
         let b := filling [] [w]
         b.chans[31].rq = [] ∧ b.chans[31].await = [w] ∧ w.pseg = seg31 ∧ w.st = some .ok ∧ b.ports[w.port].sends w.tag = true)
      ∧ (let q : Acc := { src := .read 1 5 0 1 1023, pla := 1, pseg := seg31, cls := 0, held := some 0, ord := 1 }
         let b := filling [q] []
         b.chans[31].rq = [q] ∧ b.chans[31].await = [] ∧ q.pseg = seg31 ∧ q.held = some 0 ∧ q.src = .read 1 5 0 1 1023
           ∧ b.chans[31].wq = [] ∧ b.ports[1].sends 5 = true) := by decide +kernel

/-- A DRAM_TIMING section whose bank machines have one state: in each of the four sets the 16 parameters are 1, event 4
refreshes, events 5 and 6 enter and leave power-down, and event 31 does nothing. -/
def timing : List Byte :=
  let entry := fun (k : Nat) => if k = 4 then [1, 0, 5, 0] else if k = 5 then [1, 0, 6, 0] else if k = 6 then [1, 0, 7, 0]
    else if k = 31 then [1, 0, 0, 0] else [0, 0, 0, 0]
  let set := ((List.range 16).map fun i => [1, 0, 0, BitVec.ofNat 8 (i + 1)]).flatten ++ [0, 32, 1, 0] ++ [0, 0, 0, 0]
    ++ ((List.range 32).map entry).flatten
  set ++ set ++ set ++ set

/-- Channel 31 with those bank machines. -/
def banked (x : Chan) : Block := { svc with img := { live := [(3, timing)] }, chans := svc.chans.set 31 x }

/-- What bankTakes asks, as a test. -/
def takesEv (b : Block) (k ev act : Nat) : Bool :=
  let x := b.chans[31]
  let e := bankEntry b 31 k ev
  !(x.bank k).stopped && (x.bank k).heldEv.isEmpty && x.st != .offline && entValid e && entGuard e == 0 && !entFault e && entAction e == act

theorem takesEv_iff (b : Block) (k ev act : Nat) (h : takesEv b k ev act = true) : bankTakes 31 k ev act (st b) := by
  simp only [takesEv, Bool.and_eq_true, Bool.not_eq_true', beq_iff_eq, bne_iff_ne, List.isEmpty_iff] at h
  exact ⟨h.1.1.1.1.1.1, h.1.1.1.1.1.2, h.1.1.1.1.2, h.1.1.1.2, h.1.1.2, h.1.2, h.2⟩

/-- Of BankMachines: a timer whose end is taken, and one whose end the table does not hold. -/
theorem witness_BankMachines :
    (let b := banked { st := .run, banks := [(63, { timed := true })] }
     (b.chans[31].bank 63).timed = true ∧ takesEv b 63 31 0 = true ∧ entTimer (bankEntry b 31 63 31) = 0)
      ∧ (let b := banked { st := .run, banks := [(63, { timed := true, state := 1 })] }
         (b.chans[31].bank 63).timed = true ∧ (b.chans[31].bank 63).stopped = false ∧ b.chans[31].st ≠ .offline
           ∧ entValid (bankEntry b 31 63 31) = false ∧ reactionOf b (fs .chnTable) ≤ 2) := by decide +kernel

/-- A read that waits for a line of a remap entry. -/
def rdAcc : Acc := { src := .read 1 5 0 1 1023, pla := 1, pseg := seg31, cls := 0, arr := 5 }

theorem rests_of (b : Block) (h : (b.chans[31].served == [] && b.chans[31].softRun == none && copyOf b 31 == none
    && b.engs[31] == {}) = true) : unitsRest 31 (st b) := by
  simp only [Bool.and_eq_true, beq_iff_eq] at h
  refine ⟨h.1.1.1, h.1.1.2, h.1.2, ?_⟩
  intro k d i
  have e : (st b).blk.engs[(31 : ChanId)] = {} := h.2
  rw [e]
  revert k d i
  simp

/-- Of SchedulerCyclesAndPicks: channels that are held, stalled and switching; a line in a remap entry, which is picked. -/
theorem witness_SchedulerCyclesAndPicks :
    (∀ x ∈ [({ held := true } : Chan), { stall := true }, { blockTil := 2 },
        { st := .run, rq := [rdAcc], remap := some { pla := 1, data := 0 } :: List.replicate 15 none }],
      unitsRest 31 (onChan x) ∧ x.divNext = none) ∧ (
    (∀ x ∈ [({ held := true } : Chan), { stall := true }, { blockTil := 2 }],
      (onChan x).blk.chans[31].srWant = false ∧ (onChan x).blk.chans[31].abort = false ∧ (onChan x).blk.regs.badPar = []
        ∧ (onChan x).blk.regs.forced = []
        ∧ ((onChan x).blk.chans[31].held = true ∨ (onChan x).blk.chans[31].stall = true
          ∨ ((onChan x).blk.chans[31].st ≠ .powerdown ∧ (onChan x).blk.chans[31].cycle + 1 < (onChan x).blk.chans[31].blockTil)))
      ∧ (let b := (onChan { st := .run, rq := [rdAcc], remap := some { pla := 1, data := 0 } :: List.replicate 15 none }).blk
         let x := b.chans[31]
         x.st = .run ∧ x.srWant = false ∧ x.held = false ∧ x.stall = false ∧ x.blockTil ≤ x.cycle + 1 ∧ x.banks = [] ∧ x.fills = []
           ∧ x.maintWait = [] ∧ x.xbar = [] ∧ x.wq = [] ∧ x.inflight = [] ∧ x.rq = [rdAcc] ∧ rdAcc.isRead = true
           ∧ rdAcc.held = none ∧ x.abort = false ∧ b.regs.badPar = [] ∧ b.regs.forced = []
           ∧ remapOf x rdAcc.pla = some { pla := 1, data := 0 } ∧ b.srl.rebuild = [] ∧ aged b rdAcc = false
           ∧ pickAcc b 31 = some rdAcc)) := by
  refine ⟨?_, by decide +kernel⟩
  intro x hx
  simp only [List.mem_cons, List.not_mem_nil, or_false] at hx
  obtain rfl | rfl | rfl | rfl := hx <;> exact ⟨rests_of _ (by decide +kernel), rfl⟩

theorem height_pos : 4 ≤ Config.height := by unfold Config.height; omega

theorem first_group : (groupBanks 0).headD 0 = 0 := by
  have := height_pos
  obtain ⟨n, h⟩ : ∃ n, 4 * Config.height = n + 1 := ⟨4 * Config.height - 1, by omega⟩
  rw [groupBanks, banksOf, h, List.range_succ_eq_map, List.filter_cons_of_pos (by decide)]; rfl

/-- Of RefreshRulesAndTicks: a turn that was taken early, one that is postponed, one that is issued, a forced refresh, and a
tick. -/
theorem witness_RefreshRulesAndTicks :
    (∀ y ∈ [({ early := true } : Bank), {}, { owed := [0] }],
      let b := banked { st := .run, dueLeft := [63], banks := [(63, y)] }
      b.chans[31].st = .run ∧ b.chans[31].stall = false ∧ b.chans[31].dueLeft.head? = some 63 ∧ b.chans[31].dueLeft.head? ≠ some 62
        ∧ (b.chans[31].bank 63) = y
        ∧ y.row = none ∧ takesEv b 63 4 5 = true)
      ∧ postponed (banked { st := .run, dueLeft := [63] }) 31 63 = false ∧ ({ owed := [0] } : Bank).owed.head? = some 0
      ∧ (let b := { banked { st := .run, dueLeft := [63], rq := [{ rdAcc with pla := 15 * 2 ^ 22 + 3 * 2 ^ 20, cls := 7 }] } with
           regs := { live := [(chnBase 31 + 0x10, 0x118)] } }
         b.chans[31].dueLeft.head? = some 63 ∧ (b.chans[31].bank 63).early = false ∧ postponed b 31 63 = true)
      ∧ (let b := banked { st := .run }
         b.chans[31].st = .run ∧ b.chans[31].banks = [] ∧ b.chans[31].dueLeft = [] ∧ pendingAt (chnBase 31) b = false
           ∧ b.chans[31].stall = false ∧ b.regs.badPar = [] ∧ b.chans[31].group = 0
           ∧ postponed b 31 0 = false ∧ takesEv b 0 4 5 = true
           ∧ ((throttleCurve b 3).eval b.chans[31].levelNext).toNat = b.chans[31].div)
      ∧ (groupBanks 0).headD 0 = 0 :=
  ⟨by decide +kernel, by decide +kernel, by decide +kernel, by decide +kernel, by decide +kernel, first_group⟩

/-- Of PowerDown: an idle channel whose banks take event 5, one in power-down that has work and whose banks take event 6, and
one that has none. -/
theorem witness_PowerDown :
    (let b := { banked { st := .run, wokenRef := true } with regs := { live := [(chnBase 31 + 0x18, 0x110)] } }
     b.chans[31].banks = [] ∧ mayPowerDown b 31 = true ∧ ∀ k, k < 64 → takesEv b k 5 6 = true)
      ∧ (let b := banked { st := .powerdown, rq := [rdAcc] }
         b.chans[31].banks = [] ∧ b.chans[31].st = .powerdown ∧ wakes b.chans[31] = true ∧ ∀ k, k < 64 → takesEv b k 6 7 = true)
      ∧ wakes (banked { st := .powerdown }).chans[31] = false := by decide +kernel

/-- Of ReadReturns: the oldest read in flight, whose line is clean, and poisoned. -/
theorem witness_ReadReturns :
    (let b := held { st := .active, tags := [(5, { kind := .read })] } { st := .run, inflight := [rdAcc] }
     b.chans[31].inflight = [rdAcc] ∧ rdAcc.src = .read 1 5 0 1 1023 ∧ b.chans[31].xbar = [] ∧ b.chans[31].served = []
       ∧ b.regs.forced = [] ∧ b.ports[1].sends 5 = true
       ∧ b.now - rdAcc.arr ≤ target b rdAcc.cls ∧ (decodeLine rdAcc.double (storedAt b [] 31 rdAcc.pla ^^^ rdAcc.err ^^^ 0)).1 = .clean
       ∧ (decodeLine rdAcc.double (storedAt b [] 31 rdAcc.pla ^^^ rdAcc.err ^^^ encodeP true 0)).1 = .poisoned) := by decide +kernel

/-! ### Witnesses: protection -/

theorem exists_base (c n : Nat) (h : c < 32) (h' : n < 3072) : segExists (c * 65536 + n) = true := by
  have := height_pos
  have e : segSlice (c * 65536 + n) = 0 ∧ segIn (c * 65536 + n) ≤ 3071 := by unfold segSlice segIn; omega
  simp only [segExists, e.1, Bool.and_eq_true, decide_eq_true_eq]
  exact ⟨⟨by omega, by omega⟩, e.2⟩

/-- A channel whose walk stands at the last line but one of its segment. -/
def walkingBy (x : Chan) : Block := { held {} { x with st := .run, dillRun := true, dillLine := 1022 } with
  regs := { live := [(chnBase 31 + 0x100, 1)] }, engs := svc.engs.set 31 { st := .run } }
def walking : Block := walkingBy {}

/-- A maintenance read of a line, for its unit. -/
def ofUnit (x : AccSrc) (pla : Nat) : Acc := { src := x, pla := pla, pseg := seg31, cls := 0, maint := true }

/-- A channel with a soft row repair that runs. -/
def soft : Soft := { bank := 63, row := 24575, spare := 3 }
def repairing (r : Soft) (x : Chan := {}) : Block := { held {} { x with st := .run, softRun := some r }
    (written := [plaSeg 31 (rowBase 63 24575)]) with
  engs := svc.engs.set 31 { st := .run } }

theorem walking_reads : dillSkips walking (segOf 31 0 0 + walking.chans[31].dillSeg) = false := by
  have h : segOf 31 0 0 + walking.chans[31].dillSeg = 31 * 65536 + 0 := by decide +kernel
  rw [h, dillSkips, exists_base 31 0 (by decide) (by decide)]
  decide +kernel

/-- Of DillAndRepair: the walk with a read of it under way and without; a scrub to verify; a line of each that returns clean; and a
soft repair of the last row of the last bank: before its lines are copied, behind a write of the row, and complete. -/
theorem witness_DillAndRepair :
    (∀ x ∈ [{}, ({ maintWait := [ofUnit .dill 5] } : Chan)], let b := walkingBy x
      b.regs.badPar = [] ∧ dillMay b 31 = true ∧ b.srl.rebuild = [] ∧ (maintPending b.chans[31] (· == .dill) = true ↔ x ≠ {}))
      ∧ dillSkips walking (segOf 31 0 0 + walking.chans[31].dillSeg) = false
      ∧ (let b := held {} { st := .run, verify := [(1, false, 0)] }; b.chans[31].verify = (1, false, 0) :: [])
      ∧ (∀ e ∈ [ofUnit .dill (plaOf seg31 1022), ofUnit (.verify false 0) 1],
        let b := walkingBy { inflight := [e] }
        b.chans[31].inflight = [e] ∧ b.chans[31].xbar = [] ∧ b.chans[31].served = [] ∧ b.regs.forced = []
          ∧ (decodeLine (isDouble b (plaSeg 31 e.pla)) (storedAt b [] 31 e.pla ^^^ e.err ^^^ 0)).1 = .clean
          ∧ (e.src = .dill → e.pla = plaOf (segOf 31 0 0 + b.chans[31].dillSeg) b.chans[31].dillLine ∧ b.chans[31].dillLine < 1023))
      ∧ (let b := repairing soft
         b.chans[31].softRun = some soft ∧ b.engs[31].st = .run ∧ soft.copied < 32 ∧ isWritten b (plaSeg 31 (rowBase soft.bank soft.row)) = true)
      ∧ (let b := repairing soft { wq := [{ ofUnit .write (rowBase 63 24575) with maint := false }] }
         b.chans[31].softRun = some soft ∧ b.engs[31].st = .run ∧ rowWaits b.chans[31] soft = true)
      ∧ (let r := { soft with copied := 32 }; let b := repairing r
         b.chans[31].softRun = some r ∧ b.engs[31].st = .run ∧ r.copied = 32 ∧ rowWaits b.chans[31] r = false ∧ b.chans[31].softWait = []
           ∧ r.bank < 64 ∧ r.row < 24576 ∧ r.spare < 4 ∧ b.chans[31].remap = List.replicate 16 none ∧ b.chans[31].soft = []) :=
  ⟨by decide +kernel, walking_reads, by decide +kernel, by decide +kernel, by decide +kernel, by decide +kernel, by decide +kernel⟩

/-- Of SramWords: rebuilds of the two bitmaps. -/
theorem witness_SramWords : 5 ≤ svc.start.step ∧ reactionOf svc (fs .sramHeat) ≤ 2 ∧ reactionOf svc (fs .bitmapUe) ≤ 2
    ∧ (let b := { held {} with srl := { rebuild := [64 * 2], protRebuild := [64 * 2] } }
       64 * 2 ∈ b.srl.rebuild ∧ b.hnd.flat = false ∧ b.ops.descs = [] ∧ (∀ p : PortId, b.ports[p].writes = [])
         ∧ 64 * 2 ∈ b.srl.protRebuild) := by decide +kernel

/-! ### Witnesses: thermal registers and epochs -/

/-- The thermal safe state, with resume_ok, and every channel off. -/
def tripped : Block := { svc with
  thm := { safe := true, tripPin := true, resumeOk := true }
  ports := svc.ports.set 0 { st := .detect }
  engs := Vector.replicate 32 { st := .run } }

/-- Of ThermalRegisters: the image's own threshold, one above it, an acknowledgement too early, and one in time. -/
theorem witness_ThermalRegisters : takesWrites .twp (st svc) ∧ limitOk 0 0x58000300 svc = true ∧ limitOk 0 0x58010300 svc = false
    ∧ (1 : Word).getLsbD 0 = true ∧ ¬ (svc.thm.safe = true ∧ svc.thm.resumeOk = true ∧ svc.thm.inStart = false)
    ∧ takesWrites .twp (st tripped)
    ∧ (tripped.thm.safe = true ∧ tripped.thm.resumeOk = true ∧ tripped.thm.inStart = false
      ∧ tripped.ports[(0 : PortId)].st = .detect ∧ (∀ c : ChanId, tripped.chans[c].st = .offline)
      ∧ ∀ e : EngId, tripped.engs[e].st = .run ∨ tripped.engs[e].st = .halted) :=
  ⟨svc_takes, by decide +kernel, by decide +kernel, by decide, by decide, takes _ (by decide +kernel), by decide +kernel⟩

/-- Of ClassAndHeatEpochs: before step 5, in the safe state, between the strobes and at them, in service, and while the stack
starts. -/
theorem witness_ClassAndHeatEpochs : (atStep 4).blk.start.step < 5 ∧ ({ svc with sage := { safe := true } } : Block).sage.safe = true
    ∧ strobe 1000 svc = false ∧ strobe 1000000 svc = false
    ∧ (let b := { svc with time := 1000 }
       5 ≤ b.start.step ∧ strobe 1000 b = true ∧ b.regs.badPar = [] ∧ b.sage.safe = false ∧ b.img.liveWait = [] ∧ b.regs.pend = [])
    ∧ (let b := { (atStep 14).blk with time := 1000000 }
       5 ≤ b.start.step ∧ strobe 1000000 b = true ∧ b.regs.badPar = [] ∧ b.sage.safe = false ∧ b.thm.safe = false ∧ b.ready = false) := by
  decide +kernel

/-! ### Witnesses: handles -/

/-- The arguments of a handle command. -/
def withArgs (h size : Nat) (b : Block) : Block := { b with
  regs := { b.regs with live := [(hndBase + 4, BitVec.ofNat 32 h), (hndBase + 8, BitVec.ofNat 32 size), (hndBase + 0xC, 0xFFFFF300)] } }

theorem unused_base (b : Block) (c : Nat) (hf : b.hnd.flat = false)
    (hu : (usedSegs b).filter (fun s => segChan s == c && segSlice s == 0 && !inFlat b s) = []) : unusedIn b c 0 = 3072 := by
  have := height_pos
  have h : ¬ (0 ≥ Config.height) := by omega
  simp [unusedIn, h, flatInSlice, hf, hu]

/-- A stack whose channels run and hold nothing: each has room. -/
def vacant : Block := { svc with chans := Vector.replicate 32 { st := .run } }

theorem vacant_above (b : Block) (c : Nat) (hf : b.hnd.flat = false)
    (hu : (usedSegs b).filter (fun s => segChan s == c && segSlice s == 0 && !inFlat b s) = []) (ho : chanClosed b c = false)
    (hr : reserve b = 16) : 3056 ≤ freeAbove b c := by
  have h0 : 3072 ≤ freeInChan b c := by
    rw [freeInChan, List.range_succ_eq_map, List.map_cons, List.sum_cons, freeInSlice, ho]
    simp only [Bool.false_eq_true, ↓reduceIte, unused_base b c hf hu]
    omega
  rw [freeAbove, hr]; omega

theorem mask_above (b : Block) : freeAbove b 0 ≤ maskSpace b 15 := by
  have l : (List.range 4).filter (fun i => 15 / 2 ^ i % 2 == 1) = [0, 1, 2, 3] := by decide
  have r : List.range 8 = [0, 1, 2, 3, 4, 5, 6, 7] := by decide
  simp only [maskSpace, l, spaceQ, r, List.map_cons, List.map_nil, List.sum_cons, List.sum_nil, Nat.mul_zero, Nat.zero_add]
  omega

/-- The same with handle 1, of `n` segments; segment 0 lies in channel 31. -/
def owning (n : Nat) : Block := { vacant with
  hnd := { table := [(1, { size := n, attr := 0xFFFFF301 })] }, srl := { map := [(2097152, { pseg := seg31 })], written := [seg31] } }

/-- CREATE of one segment. -/
def creates : Block := withArgs 0 1 vacant

theorem create_ok : createCheck creates (hndArgs 1 creates) = .ok := by
  have hm := Nat.le_trans (vacant_above creates 0 rfl rfl (by decide +kernel) (by decide +kernel)) (mask_above creates)
  have ha : (hndArgs 1 creates).size = 1 ∧ attrQmask (hndArgs 1 creates).attr = 15 := by decide +kernel
  rw [createCheck, if_neg (by decide +kernel), if_neg (by decide +kernel), ha.1, ha.2, if_neg (by omega), if_neg (by decide +kernel)]

/-- GROW from one segment to two. -/
def grows : Block := withArgs 1 2 (owning 1)

theorem grow_ok : changeCheck grows (hndArgs 2 grows) = .ok := by
  have hm := Nat.le_trans (vacant_above grows 0 rfl (by decide +kernel) (by decide +kernel) (by decide +kernel)) (mask_above grows)
  have ha : (hndArgs 2 grows).size = 2 ∧ attrQmask (attrOf grows (hndArgs 2 grows).h) = 15 ∧ handleSize grows (hndArgs 2 grows).h = some 1 := by
    decide +kernel
  rw [changeCheck, ha.2.2]
  simp only
  rw [if_neg (by decide +kernel), if_neg (by decide +kernel), ha.1, ha.2.1, if_neg (by omega), if_neg (by decide +kernel)]

/-- Of HandleCommandsStart: no command runs, and each command's checks pass; those of a CREATE of no segments fail. -/
theorem witness_HandleCommandsStart :
    (∀ b ∈ [creates, withArgs 0 0 vacant, grows, withArgs 1 1 (owning 2)],
      takesB b = true
        ∧ b.start.chive = false ∧ refusing b = false ∧ b.hnd.run = none ∧ b.srl.migs = [] ∧ b.ops.halts = [])
      ∧ createCheck creates (hndArgs 1 creates) = .ok
      ∧ (let b := withArgs 0 0 vacant; createCheck b (hndArgs 1 b) ≠ .ok)
      ∧ changeCheck grows (hndArgs 2 grows) = .ok
      ∧ (let b := withArgs 1 1 (owning 2)
         changeCheck b (hndArgs 3 b) = .ok ∧ changeCheck b (hndArgs 4 b) = .ok ∧ queryCheck b (hndArgs 5 b).h = .ok)
      ∧ hndNoCommand 0 = true ∧ hndNoCommand 7 = true :=
  ⟨by decide +kernel, create_ok, by decide +kernel, grow_ok, by decide +kernel, rfl, rfl⟩

/-- Of HandleCommandsFinish: a drain, and the ends of CREATE, GROW, DESTROY, QUERY and of a refused command. -/
theorem witness_HandleCommandsFinish :
    (∀ r ∈ [({ op := 4, path := .twp, handle := 1, draining := true } : HndRun), { op := 1, path := .twp, handle := 1 },
        { op := 2, path := .link 1, handle := 1, size := 2 }, { op := 4, path := .twp, handle := 1 },
        { op := 5, path := .twp, handle := 1, info := some { size := 1, attr := 0, resv := 0, state := 0, written := 0 } },
        { op := 1, path := .twp, handle := 0, status := .noSpace }],
      let b := { owning 1 with hnd := { (owning 1).hnd with run := some r } }
      b.hnd.run = some r ∧ b.sage.safe = false) ∧ (handleOf (owning 1) 1).isSome = true := by decide +kernel

/-- Of DrainsRelease: a drain that a queued access holds back, and one that nothing does. -/
theorem witness_DrainsRelease :
    let r : HndRun := { op := 4, path := .twp, handle := 1, draining := true }
    let b := { owning 1 with hnd := { (owning 1).hnd with run := some r } }
    b.hnd.run = some r ∧ r.draining = true ∧ b.sage.safe = false ∧ drainWaits b r = false ∧ r.handle < 4096
      ∧ drainWaits { b with chans := b.chans.set 31 { st := .run, rq := [rdAcc] } } r = true := by decide +kernel

/-! ### Witnesses: Sorrel -/

/-- A Sorrel command of handle 1 (or of a physical segment) that runs. -/
def asksSorrel (op : BitVec 3) (seg dest : Nat) : Block := { owning 1 with
  srl := { (owning 1).srl with busy := true, runOp := op, runHandle := 1, runSeg := seg, runDest := dest, retired := [65536] } }

theorem migrate_ok : migrateCheck (asksSorrel 3 0 0) 1 0 0 = .ok := by
  have hu : 3072 ≤ ((List.range 16).map (unusedIn (asksSorrel 3 0 0) 0)).sum := by
    rw [List.range_succ_eq_map, List.map_cons, List.sum_cons, unused_base _ 0 rfl (by decide +kernel)]; omega
  have hs : srlHandle (asksSorrel 3 0 0) 1 0 true = .ok := by decide +kernel
  have he : mapEntry (asksSorrel 3 0 0) 1 0 = some { pseg := seg31 } := by decide +kernel
  have hr : reserve (asksSorrel 3 0 0) = 16 := by decide +kernel
  rw [migrateCheck, hs, he]
  simp only
  rw [if_neg (by decide +kernel), if_neg, if_neg (by decide +kernel)]
  rw [hr]
  simp only [show ((0 : Nat) == 0x3F) = false from rfl, Bool.false_and, Bool.not_false, Bool.true_and, Bool.false_or, Bool.or_eq_true,
    decide_eq_true_eq, not_or]
  exact ⟨by omega, by decide +kernel⟩

/-- Of SorrelCommands: each command with an operand that it serves, and one that it refuses. -/
theorem witness_SorrelCommands :
    (let b := asksSorrel 1 0 0
     b.srl.busy = true ∧ b.srl.runOp = 1 ∧ srlHandle b 1 0 false = .ok ∧ mapEntry b 1 0 = some { pseg := seg31 }
       ∧ ({ pseg := seg31 } : MapEntry).quarantined = false)
      ∧ (let b := asksSorrel 1 1 0; b.srl.busy = true ∧ b.srl.runOp = 1 ∧ srlHandle b 1 1 false ≠ .ok)
      ∧ (segExists (2 ^ 21) = false ∧ segExists 65536 = true ∧ segExists 131072 = true)
      ∧ (let b := asksSorrel 2 65536 0; b.srl.busy = true ∧ b.srl.runOp = 2 ∧ inFlat b 65536 = false ∧ b.srl.retired.contains 65536 = true)
      ∧ migrateCheck (asksSorrel 3 0 0) 1 0 0 = .ok ∧ migrateCheck (asksSorrel 3 0 32) 1 0 32 ≠ .ok
      ∧ (let b := asksSorrel 4 0 0
         let o : Order := { reason := .host, handle := 1, lseg := 0 }
         b.srl.runOp = 4 ∧ b.ops.descs = [] ∧ (∀ p : PortId, b.ports[p].writes = []) ∧ b.srl.evacWait = []
           ∧ srlHandle b 1 0 false = .ok ∧ hasMove b 1 0 = false
           ∧ orderOf { b with srl := { b.srl with queue := [o] } } 1 0 = some o)
      ∧ (let b := asksSorrel 5 131072 0
         b.srl.runOp = 5 ∧ inFlat b 131072 = false ∧ b.srl.retired.contains 131072 = false ∧ ownerOf b 131072 = .free
           ∧ migFrom b 131072 = none)
      ∧ svc.ready = true ∧ svc.sage.safe = false ∧ svc.thm.safe = false ∧ 5 ≤ svc.start.step :=
  ⟨by decide +kernel, by decide +kernel, ⟨by decide, exists_base 1 0 (by decide) (by decide), exists_base 2 0 (by decide) (by decide)⟩,
    by decide +kernel, migrate_ok, by decide +kernel, by decide +kernel, by decide +kernel, by decide +kernel⟩

/-- A stack with one order, of the least hot segment to channel 0, and the place that it finds there. -/
def order0 : Order := { reason := .host, handle := 1, lseg := 0, dest := some 0 }
def orders : Block := { owning 1 with srl := { (owning 1).srl with queue := [order0] } }

theorem dest_at (b : Block) (h l src c s p q : Nat) (hp : attrPolicy (attrOf b h) = p) (hq : attrQmask (attrOf b h) = q)
    (hc : candChan b q c = true) (hr : hasRoom b false c = true) (hs : pickSeg b p c = some s) :
    destOf b { reason := .host, handle := h, lseg := l, dest := some c } src = some s := by
  simp [destOf, namedChan, hp, hq, hc, hr, hs]

theorem order_dest : destOf orders order0 seg31 = some 0 := by
  have hf := vacant_above orders 0 rfl (by decide +kernel) (by decide +kernel) (by decide +kernel)
  have hc : candChan orders 15 0 = true := by decide +kernel
  have hs : freeInSlice orders 0 0 = 3072 := by
    rw [freeInSlice, if_neg (by decide +kernel), unused_base orders 0 rfl (by decide +kernel)]
  have ha : attrPolicy (attrOf orders order0.handle) = 1 ∧ attrQmask (attrOf orders order0.handle) = 15 := by decide +kernel
  have hp : pickSeg orders 1 0 = some 0 := by
    have h : lowestFree orders 0 0 = some 0 := by
      rw [lowestFree, List.range_succ_eq_map, List.map_cons, List.find?_cons_of_pos]
      · rfl
      · decide +kernel
    obtain ⟨n, hn⟩ : ∃ n, Config.height = n + 1 := ⟨Config.height - 1, by have := height_pos; omega⟩
    have hl : sliceBy orders 1 0 (fun _ => true) = some 0 := by
      simp only [sliceBy, hn, List.range_succ_eq_map, ↓reduceIte]
      rw [List.filter_cons_of_pos (by simp [hs])]; rfl
    rw [pickSeg, pickIn, hl, Option.bind_some]; exact h
  have hr : hasRoom orders false 0 = true := by
    simp only [hasRoom, Bool.false_eq_true, ↓reduceIte, decide_eq_true_eq]; omega
  exact dest_at orders 1 0 seg31 0 0 1 15 ha.1 ha.2 hc hr hp

/-- That migration at a stage. -/
def mig0 (x : MigStage) (blank : Bool := false) : Mig := { order := order0, src := seg31, dst := 0, stage := x, blank := blank }
def moving (m : Mig) (x : Chan := {}) : Block := { orders with
  srl := { (owning 1).srl with migs := [m] }
  chans := (Vector.replicate 32 ({ st := .run } : Chan)).set 31 { x with st := .run }
  engs := Vector.replicate 32 { st := .run } }

/-- Of MigrationSteps: the start; the copy of nothing, of a line that is to be read, and of one that is under way; its return;
a write to forward; the commit and the release. -/
theorem witness_MigrationSteps :
    (orders.srl.queue = [order0] ∧ orders.srl.evacWait = [] ∧ canStart orders order0 = true
      ∧ mapEntry orders 1 0 = some { pseg := seg31 } ∧ destOf orders order0 seg31 = some 0)
      ∧ (∀ m ∈ [mig0 .copy true, mig0 .copy, mig0 .hold, mig0 .release],
        let b := moving m
        migFrom b seg31 = some m ∧ (copyMay b m = true ↔ m.stage = .copy) ∧ b.sage.safe = false ∧ b.thm.safe = false ∧ b.ops.descs = []
          ∧ (∀ p : PortId, b.ports[p].writes = []) ∧ writesWait b.chans[cid (segChan seg31)] seg31 = false
          ∧ destWaits b.chans[cid (segChan m.dst)] m.dst = false
          ∧ mapEntry b 1 0 = some { pseg := seg31 } ∧ segBusy b.chans[cid (segChan seg31)] seg31 = false
          ∧ order0.reason ≠ .evac ∧ b.srl.retireAt.contains seg31 = false)
      ∧ (mig0 .copy true).blank = true ∧ (mig0 .copy).blank = false ∧ (mig0 .copy).copied < 1024
      ∧ (∀ x ∈ [{}, ({ maintWait := [ofUnit (.copyRead seg31 0) 5] } : Chan)],
        let b := moving (mig0 .copy) x
        (maintPending b.chans[cid (segChan seg31)] (AccSrc.copyReadOf seg31) = true ↔ x ≠ {})
          ∧ (b.chans[cid (segChan 0)].maintWait.any fun w => AccSrc.copyWriteOf seg31 w.src) = false)
      ∧ (let r := ofUnit (.copyRead seg31 0) (plaOf seg31 0); let b := moving (mig0 .copy) { inflight := [r] }
         let x := b.chans[cid (segChan seg31)]
         migFrom b seg31 = some (mig0 .copy) ∧ r.src = .copyRead seg31 (mig0 .copy).copied ∧ x.inflight = [r] ∧ x.xbar = [] ∧ x.served = []
           ∧ b.regs.forced = []
           ∧ (decodeLine (isDouble b seg31) (storedAt b [] (segChan seg31) r.pla ^^^ r.err ^^^ 0)).1 = .clean)
      ∧ forwardTo (moving (mig0 .copy)) (plaSeg 31 (plaOf seg31 1023)) = some (mig0 .copy) :=
  ⟨⟨rfl, rfl, by decide +kernel, by decide +kernel, order_dest⟩, by decide +kernel, rfl, rfl, by decide, by decide +kernel,
    by decide +kernel, by decide +kernel⟩

/-- A stack all of whose sensors read 127.996 °C and whose zones stand so, and the sample that says the same. -/
def hot : Block := { svc with
  time := 100000
  thm := { sensors := Vector.replicate 192 { value := 0x7FFF },
           zones := Vector.replicate 68 { temp := 0x7FFF, warn := true, trip := true },
           sets := (List.range 192).map fun n => (n, []) } }
def hotResults : List (Nat × BitVec 16) := (List.range 192).map fun n => (n, 0x7FFF)

theorem foldl_same {α β : Type} (f : α → β → α) (a : α) (l : List β) (h : ∀ x ∈ l, f a x = a) : l.foldl f a = a := by
  induction l with
  | nil => rfl
  | cons x l ih => rw [List.foldl_cons, h x (by simp), ih fun y hy => h y (by simp [hy])]

theorem hot_sensor (n : Nat) : sensorAt hot n = { value := 0x7FFF } := by simp [sensorAt, hot]
theorem hot_zone (z : Nat) : zoneAt hot z = { temp := 0x7FFF, warn := true, trip := true } := by simp [zoneAt, hot]

theorem hot_modSensor (n : Nat) (f : Sensor → Sensor) (h : f { value := 0x7FFF } = { value := 0x7FFF }) : modSensor n f hot = hot := by
  have : Vector.set hot.thm.sensors (Fin.ofNat 192 n) (f (sensorAt hot n)) = hot.thm.sensors := by
    rw [hot_sensor, h]; simp [hot]
  rw [modSensor, this]

theorem hot_modZone (z : Nat) (f : Zone → Zone)
    (h : f { temp := 0x7FFF, warn := true, trip := true } = { temp := 0x7FFF, warn := true, trip := true }) : modZone z f hot = hot := by
  have : Vector.set hot.thm.zones (Fin.ofNat 68 z) (f (zoneAt hot z)) = hot.thm.zones := by rw [hot_zone, h]; simp [hot]
  rw [modZone, this]

theorem hot_clears : takeClears hot = hot := by
  rw [takeClears, foldl_same _ _ _ (fun n _ => if_neg (by simp [hot]))]; rfl

theorem hot_find (n : Nat) (h : n < 192) : hotResults.find? (fun r => r.1 == n) = some (n, 0x7FFF) := by
  have h' : ∀ m : Fin 192, hotResults.find? (fun r => r.1 == m.val) = some (m.val, 0x7FFF) := by decide +kernel
  exact h' ⟨n, h⟩

theorem sensor_lt (n : Nat) (h : n ∈ sensorList) : n < 192 := by simp [sensorList] at h; exact h.1

theorem hot_results : takeResults hotResults hot = hot := by
  apply foldl_same; intro n hn
  rw [hot_find n (sensor_lt n hn)]; exact hot_modSensor n _ rfl

theorem hot_median (n : Nat) (h : n < 192) : neighbourMedian hot n = none := by
  have h' : ∀ m : Fin 192, mfind hot.thm.sets m.val = some [] := by decide +kernel
  rw [neighbourMedian, neighboursOf, h' ⟨n, h⟩]; rfl

theorem hot_judge : judgeSensors hot = hot := by
  apply foldl_same; intro n hn
  rw [hot_sensor, hot_median n (sensor_lt n hn)]; rfl

theorem hot_quiet : (sensorList.any fun n => (sensorAt hot n).suspect && !(sensorAt hot n).told) = false := by
  simp [hot_sensor]

theorem hot_note : noteSuspects hot hot = hot := by
  rw [noteSuspects, if_neg]; simp [hot_sensor]

theorem zone_sensors (z : Nat) : ∃ a l, zoneSensors z = a :: l := by
  by_cases h : z % 17 = 16 <;> simp [zoneSensors, h, List.range_succ]

theorem hot_form (z : Nat) : zoneForm hot z = (32767, false, false) := by
  have h : ∀ l : List Nat, l.filter (fun n => (sensorAt hot n).suspect) = [] := by intro l; simp [hot_sensor]
  have v : ∀ n, (sensorAt hot n).value.toInt = 32767 := by intro n; rw [hot_sensor]; decide
  obtain ⟨a, l, e⟩ := zone_sensors z
  rw [zoneForm, h, if_pos rfl, e]
  simp only [v, List.map_cons, maxInt]
  rw [foldl_same]
  intro x hx
  simp at hx
  omega

theorem hot_formZone (z : Nat) : formZone z (32767, false, false) hot = hot := by
  have h : storeTemp 32767 hot = (0x7FFF, hot) := rfl
  simp only [formZone, hot_zone, h, Bool.false_and, Bool.or_false, Bool.false_eq_true, ↓reduceIte]
  exact hot_modZone z _ rfl

theorem hot_tell (n : Nat) : tellSuspect n hot = hot := by simp [tellSuspect, hot_sensor]

theorem hot_sample : sampleZones hotResults hot = (zoneList.map fun z => (z, 32767), hot) := by
  simp only [sampleZones, hot_clears, hot_results, hot_judge, hot_note, hot_quiet, Bool.false_eq_true, ↓reduceIte, hot_form,
    List.map_map, Function.comp_def]
  rw [foldl_same (fun b (f : Nat × Int × Bool × Bool) => formZone f.1 f.2 b) hot, foldl_same _ hot]
  · intro n _; exact hot_tell n
  · intro f hf; simp at hf; obtain ⟨z, _, rfl⟩ := hf; exact hot_formZone z

theorem hot_limits (z : Nat) : (limitOfZone hot z 0).1 - (limitOfZone hot z 0).2 ≤ 32767 ∧ (limitOfZone hot z 2).1 ≤ 32767 := by
  by_cases h : z % 17 = 16 <;> simp only [limitOfZone, h, ↓reduceIte] <;> decide +kernel

theorem hot_compare : compareZones (zoneList.map fun z => (z, (32767 : Int))) hot = hot := by
  have h : ∀ z, compareZone z 32767 hot = hot := by
    intro z
    simp only [compareZone, hot_zone, hot_limits z, decide_true, ↓reduceIte]
    exact hot_modZone z _ rfl
  rw [compareZones, foldl_same _ hot]
  · rfl
  · intro t ht; simp at ht; obtain ⟨z, _, rfl⟩ := ht; exact h z

theorem hot_trips : (tripZone hot (zoneList.map fun z => (z, (32767 : Int)))).isSome = true := by
  have h : (zoneList.map fun z => (z, (32767 : Int))).filter (fun t => (zoneAt hot t.1).trip) = zoneList.map fun z => (z, (32767 : Int)) := by
    simp [hot_zone]
  have m : 16 ∈ zoneList := by simp [zoneList, zonesIn, layers, zoneOf]; exact ⟨0, by decide, .inr rfl⟩
  rw [tripZone, h]
  cases e : zoneList with
  | nil => rw [e] at m; cases m
  | cons a l => rfl

/-- Of ThermalSamplesAndLevels: steps 5 and 6, between the strobes and at one, a sample that trips the stack, and the three ways
of a zone's level. -/
theorem witness_ThermalSamplesAndLevels :
    (atStep 5).blk.start.step < 6 ∧ strobe 100000 svc = false ∧ (6 ≤ (atStep 6).blk.start.step ∧ strobe 100000 (atStep 6).blk = true)
      ∧ (6 ≤ hot.start.step ∧ strobe 100000 hot = true ∧ hot.regs.badPar = [] ∧ hot.sage.safe = false ∧ hot.thm.safe = false ∧ hot.pwr.state = 0
        ∧ let z := sampleZones hotResults (commitLive thmSection (commitPlain thmBase hot))
          z.2.sage.safe = false ∧ z.2.pwr.state = 0 ∧ reactionOf z.2 (fs .lnkDegrade) ≤ 2 ∧ (tripZone (compareZones z.1 z.2) z.1).isSome = true)
      ∧ (let c : Curve := { id := 0, xUnit := 1, yUnit := 0, step := true, pts := [(0, 1), (2, 2), (4, 3)] }
         (c.eval 2).toNat = 2 ∧ (c.eval (2 + 2)).toNat = 3) := by
  refine ⟨by decide, by decide, by decide, ⟨by decide, by decide, rfl, rfl, rfl, rfl, ?_⟩, by decide⟩
  have h : commitLive thmSection (commitPlain thmBase hot) = hot := rfl
  simp only [h, hot_sample, hot_compare]
  exact ⟨rfl, rfl, by decide +kernel, hot_trips⟩

/-! ### Witnesses: near-memory operations -/

/-- A descriptor of tag 9 on handle 1, for `count` lines from `line` on, with operand A `a`. -/
def desc (op line count : Nat) (a : Nat := 0) (handle : Nat := 1) : BitVec 512 :=
  BitVec.ofNat 512 (op + 9 <<< 13 + handle <<< 23 + line <<< 64 + count <<< 96 + a <<< 192)

/-- The block that holds descriptors, with the engines in RUN. -/
def works (ds : List Desc) (x : Port := {}) : Block :=
  { held x with ops := { descs := ds, nextId := 100 }, engs := Vector.replicate 32 { st := .run } }

/-- The last line of the handle is filled. -/
def fill1 : BitVec 512 := desc 2 1023 1 7

/-- Of DescriptorsAcceptedAndStarted: a descriptor that is refused, one that is queued, one whose queue is full; a start with
nothing to start and one with a descriptor. -/
theorem witness_DescriptorsAcceptedAndStarted :
    (∀ w ∈ [(desc 2 1024 1).toNat, fill1.toNat],
      let x : Port := { st := .active, rxq := [.opd (BitVec.ofNat 512 w) 0] }
      let b := works [] x
      (b.pwr.state == 0 && b.ports[1].rxq == [.opd (BitVec.ofNat 512 w) b.ports[1].gen] && b.ports[1].fences.isEmpty && b.ports[1].writes.isEmpty
        && b.ports[1].st != .disabled) = true ∧ b.ops.descs = [])
      ∧ descCheck (works []) 1 (desc 2 1024 1) ≠ .ok ∧ descCheck (works []) 1 fill1 = .ok
      ∧ (opqUsed (works []) 1 < opqDepth (attrOpq (attrOf (works []) 1)) ∧ poolUsed (works []) < 4096)
      ∧ (let b := works ((List.range 16).map fun i => ({ id := i, port := 1, words := fill1, st := .queued, inq := true } : Desc))
         (∀ d ∈ b.ops.descs, d.id < b.ops.nextId ∧ d.st ≠ .waiting) ∧ descCheck b 1 fill1 = .ok
           ∧ opqDepth (attrOpq (attrOf b 1)) ≤ opqUsed b 1)
      ∧ mayStart (works []) 1 = none
      ∧ (let d : Desc := { id := 4, port := 1, words := fill1, st := .queued, inq := true }
         let b := works [d]
         mayStart b 1 = some d ∧ (∀ e ∈ b.ops.descs, e.id = d.id → e = d) ∧ splitDesc b d.words = [{ lseg := 0 }]
           ∧ lookupHeld b (pieceHandle d.words) 0 = false ∧ ¬ listOp (dOp d.words) ∧ mapEntry b (pieceHandle d.words) 0 = some { pseg := seg31 }
           ∧ ({ pseg := seg31 } : MapEntry).quarantined = false ∧ b.chans[cid (segChan seg31)].st ≠ .offline ∧ b.engs[eid (segChan seg31)].st = .run
           ∧ b.engs[eid (segChan seg31)].queue = [] ∧ b.engs[eid (segChan seg31)].ctx[2].work = .none
           ∧ (∀ f ∈ b.ops.descs, ∀ y ∈ f.pieces, y.st ≠ .waiting)) := by decide +kernel

/-- A descriptor whose one piece runs. -/
def runs (w : BitVec 512) : Desc :=
  { id := 4, port := 1, words := w, st := .running, inq := true, pieces := [{ lseg := 0, st := .running, eng := 31, pseg := seg31 }] }

/-- Its piece, and the same descriptor with the piece `x`. -/
def piece31 : Piece := { lseg := 0, st := .running, eng := 31, pseg := seg31 }
def runsAs (w : BitVec 512) (x : Piece) : Desc := { runs w with pieces := [x] }
def worksAs (w : BitVec 512) (x : Piece) (c : Chan := { st := .run }) : Block :=
  { works [runsAs w x] with chans := svc.chans.set 31 c }

/-- Of PiecesEnd: a piece that is queued, one whose channel is OFFLINE, one that is done, with its write held back and not, a FILL of
one line; a read of a piece that returns clean, and with three wrong symbols. -/
theorem witness_PiecesEnd :
    (∀ x ∈ [piece31, { piece31 with st := .queued }, { piece31 with fin := true }, { piece31 with fin := true, fills := [seg31] },
        { piece31 with asked := true }],
      let d := runsAs fill1 x
      let b := worksAs fill1 x
      descOf b 4 = some d ∧ d.pieces[0]? = some x ∧ (∀ e ∈ b.ops.descs, e.id = 4 → e = d) ∧ d.st = .running ∧ b.engs[eid x.eng].st = .run
        ∧ b.engs[eid x.eng].queue = [] ∧ (x.st = .running → waitingPiece b x.eng = none) ∧ b.chans[cid (segChan x.pseg)].st ≠ .offline)
      ∧ (worksAs fill1 piece31 {}).chans[cid (segChan piece31.pseg)].st = .offline
      ∧ (let x := { piece31 with fin := true }; pieceOver (worksAs fill1 x) 4 0 x = true)
      ∧ (let x := { piece31 with fin := true, fills := [seg31] }; pieceOver (worksAs fill1 x { st := .run, fills := [seg31] }) 4 0 x = false)
      ∧ (let d := runsAs fill1 piece31; let b := worksAs fill1 piece31; let x := piece31
         x.fin = false ∧ x.at_ = none ∧ x.fills = [] ∧ x.pos = 0 ∧ x.status = .ok ∧ b.srl.migs = []
           ∧ lookupHeld b (descHandle d.words) (dLine d.words) = false ∧ dOp d.words = 2 ∧ dCount d.words = 1 ∧ x.lseg = dLine d.words / 1024
           ∧ mapEntry b (descHandle d.words) x.lseg = some { pseg := seg31 } ∧ ({ pseg := seg31 } : MapEntry).quarantined = false
           ∧ isWritten b seg31 = true
           ∧ let c := b.chans[cid (segChan seg31)]
             c.st ≠ .offline ∧ c.rq = [] ∧ c.wq = [] ∧ c.inflight = [] ∧ c.xbar = [] ∧ seg31 ∉ c.fills)
      ∧ (let w := desc 9 0 1; let x := { piece31 with asked := true }; let d := runsAs w x
         let a : Acc := { src := .engRead 4 0 x.try_ false 0, pla := plaOf seg31 0, pseg := seg31, cls := 0, arr := 5 }
         let b := worksAs w x { st := .run, inflight := [a] }
         descOf b 4 = some d ∧ x.st = .running ∧ x.asked = true ∧ b.chans[31].inflight = [a] ∧ b.chans[31].xbar = [] ∧ b.chans[31].served = []
           ∧ b.regs.forced = [] ∧ (decodeLine a.double (storedAt b [] 31 a.pla ^^^ a.err ^^^ 0)).1 = .clean
           ∧ (decodeLine a.double (storedAt b [] 31 a.pla ^^^ a.err ^^^ 0x100010001)).1 = .uncorrectable
           ∧ reactionOf b (fs .dataUeDemand) ≤ 2 ∧ (handleOf b (descHandle d.words)).map Handle.st = some .active
           ∧ b.engs[eid x.eng].st = .run ∧ b.chans[cid (segChan x.pseg)].st ≠ .offline ∧ x.fin = false ∧ x.at_ = none ∧ x.log = []
           ∧ x.pos = 0 ∧ x.value = 0 ∧ b.now - a.arr ≤ target b a.cls ∧ dOp d.words = 9 ∧ dCount d.words = 1
           ∧ x.lseg = dLine d.words / 1024) := by decide +kernel

/-- A descriptor whose piece has ended. -/
def ended (op : Nat) (x : Piece := { lseg := 0, st := .ended }) : Desc :=
  { id := 4, port := 1, tag := 9, words := desc op 0 1, st := .running, inq := true, pieces := [x] }

/-- Of LeadFoldsAndCompletions: each operation's fold, one that ended as POISON, one whose lead engine is halted; a completion to
accept, one to send, and none. -/
theorem witness_LeadFoldsAndCompletions :
    (∀ op ∈ [1, 2, 3, 4, 5, 6, 7, 8, 9, 10],
      let d := ended op
      let b := works [d] { st := .active, tags := [(9, { kind := .desc })] }
      descOf b 4 = some d ∧ d.st = .running ∧ (∀ x ∈ d.pieces, x.st = .ended) ∧ foldStatus d = .ok ∧ dOp d.words = op
        ∧ b.ports[d.port].sends d.tag = true ∧ b.engs[eid d.lead].st = .run)
      ∧ (let d : Desc := { ended 1 with led := true, lead := 31 }
         let b := { works [d] with engs := svc.engs.set 31 { st := .halted } }
         descOf b 4 = some d ∧ d.led = true ∧ b.engs[eid d.lead].st ≠ .run)
      ∧ (let d := ended 1 { lseg := 0, st := .ended, status := .poison, off := some 0 }
         (∀ x ∈ d.pieces, x.st = .ended) ∧ foldStatus d = .poison ∧ dOp d.words = 1)
      ∧ (let d : Desc := { ended 2 with st := .done }
         let b := works [d] { st := .active, tags := [(9, { kind := .desc })] }
         descOf b 4 = some d ∧ d.st = .done ∧ (∀ e ∈ b.ops.descs, e.id = 4 → e = d) ∧ (∀ e ∈ b.ops.descs, e.st ≠ .waiting)
           ∧ b.ops.coll.length < 256 ∧ b.ports[d.port].sends d.tag = true ∧ d.pieces.any (fun x => x.st == .running) = false)
      ∧ (let b := { works [] { st := .active, features := 2, far := #v[0, 0, 0, 1] } with ops := { coll := [(1, 9)] } }
         b.ops.coll = (1, 9) :: [] ∧ collReady b [] (1, 9) = true)
      ∧ svc.ops.coll = [] := by decide +kernel

/-- Handle `h` is named in SUP_OPQ_HANDLE, and handle 1's queue is halted with one descriptor done, stopped or queued. -/
def opq (h : Nat) (halts : SMap (Option Halt)) (life : List DState) : Block := { works [] with
  regs := { live := [(supBase + 0x604, BitVec.ofNat 32 h)] },
  ops := { halts := halts, descs := life.map fun s => { id := 4, port := 1, words := fill1, st := s, inq := true } } }

/-- Of QueueCommands: no handle, handle 0, a queue that runs, a halted queue with nothing stopped, and one with a stopped
descriptor. -/
theorem witness_QueueCommands :
    (∀ b ∈ [opq 2 [] [], { opq 0 [] [] with hnd := { flat := true } }, opq 1 [] [], opq 1 [(1, some { cause := 1 })] [.done],
        opq 1 [(1, some { cause := 1 })] [.stopped, .queued]],
      takesB b = true)
      ∧ (let b := opq 2 [] []; handleSize b (rwf (supBase + 0x604) 11 0 b) = none)
      ∧ (let b := { opq 0 [] [] with hnd := { flat := true } }
         (handleSize b (rwf (supBase + 0x604) 11 0 b)).isSome = true ∧ rwf (supBase + 0x604) 11 0 b = 0)
      ∧ (let b := opq 1 [] []
         rwf (supBase + 0x604) 11 0 b = 1 ∧ (handleSize b 1).isSome = true ∧ mfind b.ops.halts 1 = none)
      ∧ (∀ life ∈ [[DState.done], [.stopped, .queued]],
        let b := opq 1 [(1, some { cause := 1 })] life
        (mfind b.ops.halts 1).isSome = true ∧ b.srl.migs = []
          ∧ (∀ d ∈ b.ops.descs, d.st ≠ .waiting ∧ d.st ≠ .running ∧ ∀ x ∈ d.pieces, x.st ≠ .running ∧ x.st ≠ .waiting ∧ x.st ≠ .queued)
          ∧ (∀ e : EngId, b.engs[e].queue = []) ∧ (life = [.done] → ∀ d ∈ b.ops.descs, d.st ≠ .stopped)
          ∧ ∀ d ∈ b.ops.descs, d.inq = true ∧ descHandle d.words = 1) := by decide +kernel

/-! ### Witnesses: engines -/

/-- Of EnginesTrapAndReload: a context that runs a piece without its timer, with no access of its own held back and with one; a reload
with the engine held and not; ENG_CTRL.reload, with the engine HALTED, running and under test. -/
theorem witness_EnginesTrapAndReload :
    (let b := (onEng { st := .run, ctx := Vector.replicate 6 { work := .piece 4 0 } }).blk
     b.engs[31].st = .run ∧ ctxWork b 31 5 ≠ .none ∧ (ctxNow b 31 5).timed = false ∧ heldBack b 31 5 = false
       ∧ reactionOf b (fs .engTrap) ≤ 2 ∧ b.engs[31].traps = [] ∧ 2 ≤ rwf (supBase + 8) 3 0 b)
      ∧ (let a : Acc := { src := .engWrite 4 0, pla := 1, pseg := seg31, cls := 0 }
         let b := (onEng { st := .run, ctx := Vector.replicate 6 { work := .piece 4 0 } }
           (onChan { st := .run, xbar := [{ lines := [a] }] }).blk).blk
         heldBack b 31 5 = true)
      ∧ (let b := (onEng { st := .loading } { svc with regs := { live := [(engBase 31, 1)] } }).blk
         b.engs[31].st = .loading ∧ heldNow b 31 = true ∧ waitingPiece b 31 = none)
      ∧ (let b := (onEng { st := .loading }).blk
         b.engs[31].st = .loading ∧ heldNow b 31 = false ∧ b.engs[31].queue = [] ∧ waitingPiece b 31 = none)
      ∧ (∀ x ∈ [EState.halted, .run], ∀ k ∈ [none, some ({ test := 0x12, target := 31, path := .twp, elems := [] } : BstRun)],
        let b := (onEng { st := x } { svc with bst := { run := k } }).blk
        takesB b = true ∧ b.start.chive = false ∧ (engTested b 31 = true ↔ k ≠ none)
          ∧ pendingAt (engBase 31) b = false ∧ b.engs[31].st = x) := by decide +kernel

/-- An engine whose context 2 runs a piece of an owner-defined operation by table 7 (its format entry names it). -/
def owned : Block :=
  let d : Desc := { id := 4, port := 1, words := desc 0x80 0 1, st := .running, inq := true, pieces := [{ lseg := 0, st := .running, eng := 31 }] }
  { works [d] with
    img := { live := [(12, [1, 0, 0, 0, 0x80, 7] ++ List.replicate 30 0)] },
    engs := svc.engs.set 31 { st := .run, ctx := Vector.replicate 6 { work := .piece 4 0, table := some 7 } } }

/-- Of EngineContextsRun: all that the state must hold for an event to run, one that the stack makes itself and one that it does not,
whatever table 7 is and its action does (Config leaves them open); and a commit of ENG_CTRL.halt as 1 and as 0, after 10 µs and
before. -/
theorem witness_EngineContextsRun :
    (owned.engs[31].st = .run ∧ owned.regs.badPar = [] ∧ ctxWork owned 31 2 ≠ .none ∧ pendingAt (engBase 31) owned = false
      ∧ owned.engs[31].ctx[2].table = some 7 ∧ workTable owned (ctxWork owned 31 2) = some 7
      ∧ owned.engs[31].ctx[2].heldEv = [] ∧ (30 : Fin 32).val ≠ 31 ∧ stackMakes 2 30 = true ∧ stackMakes 2 8 = false ∧ owned.engs[31].evq = []
      ∧ ({ owned.engs[31] with evq := [(2, 30, [])] } : Eng).evq = [(2, 30, [])]
      ∧ actionOk (entAction 0x00010001) 2 (ownerWork owned (ctxWork owned 31 2)) = true
      ∧ entValid 0x00010001 = true ∧ entGuard 0x00010001 = 0 ∧ entFault 0x00010001 = false)
      ∧ (∀ w ∈ [1, 0], ∀ now ∈ [1004, 1005],
        let v : PendWr := { addr := engBase 31, value := BitVec.ofNat 32 w, since := 5 }
        let b := (onEng { st := .run, ctx := Vector.replicate 6 { work := .piece 4 0 } }
          { svc with time := BitVec.ofNat 64 now, regs := { pend := [v] } }).blk
        b.engs[31].st = .run ∧ b.regs.badPar = [] ∧ b.regs.pend = [v] ∧ v.good = true ∧ (v.since + 1000 ≤ b.now ↔ now = 1005)
          ∧ atOnceNow (engBase 31) b = false
          ∧ (v.value.getLsbD 0 = true ↔ w = 1) ∧ b.sage.safe = false ∧ b.thm.safe = false ∧ engGated b 31 = false ∧ engTested b 31 = false) := by
  decide +kernel

/-! ### Witnesses: clocks -/

def clocked (c : Clk) : Block := { svc with clk := c }

/-- Of RefclkAndPlls: windows inside and outside the range, REFCLK proven and not, a first and a later proof; each PLL locked
and not. -/
theorem witness_RefclkAndPlls :
    svc.start.step ≠ 0 ∧ svc.start.waitRef = false ∧ (atStep 14).blk.start.step ≠ 15 ∧ 3 ≤ (atStep 3).blk.start.step ∧ (atStep 2).blk.start.step < 3
      ∧ (∀ x ∈ [PState.active, .idle, .pattern], (onPort { st := x }).blk.ports[1].mayRecover = true) ∧ svc.ports[1].mayRecover = false
      ∧ (980 ≤ (980 : BitVec 16).toNat ∧ (1020 : BitVec 16).toNat ≤ 1020 ∧ (979 : BitVec 16).toNat < 980 ∧ 1020 < (1021 : BitVec 16).toNat)
      ∧ (clocked {}).clk.proven = false ∧ (clocked { proven := true }).clk.proven = true ∧ reactionOf svc (fs .clkRef) ≤ 2
      ∧ reactionOf svc (fs .lnkDegrade) ≤ 2 ∧ reactionOf svc (fs .clkPll) ≤ 2
      ∧ (∀ l ∈ [true, false], let b := { (atStep 14).blk with clk := { windows := 10, lostOnce := l } }; let c := b.clk
        3 ≤ b.start.step ∧ b.start.step ≠ 15 ∧ b.start.waitRef = false ∧ c.proven = false ∧ 10 ≤ c.windows ∧ c.lostOnce = l)
      ∧ (clocked { windows := 9 }).clk.windows < 10
      ∧ (let c := (clocked { linkLock := 8, tsvLock := 8, mgmtLock := true }).clk
         c.linkLock.getLsbD (3 : QuadId).val = true ∧ c.tsvLock.getLsbD (3 : QuadId).val = true ∧ c.mgmtLock = true)
      ∧ (3 ≤ svc.start.step ∧ svc.pwr.state ≠ 4 ∧ (∀ k : ChanId, svc.chans[k].st ≠ .selfRefresh) ∧ ∀ p : PortId, svc.ports[p].idleTx = false)
      ∧ (let c := (clocked {}).clk
         c.linkLock.getLsbD (3 : QuadId).val = false ∧ c.tsvLock.getLsbD (3 : QuadId).val = false ∧ c.mgmtLock = false
           ∧ unitRuns (clocked {}) (3 : QuadId).val = true ∧ unitRuns (clocked {}) (4 + (3 : QuadId).val) = true) := by decide +kernel

theorem closed_rows (c : Clk) (k : ChanId) : ∀ m ∈ banksOf, ((clocked c).chans[k].bank m).row = none := by
  intro m _
  have h : (clocked c).chans[k] = {} := by simp [clocked, svc]
  rw [h]; rfl

/-- Of SequencerSteps: a step at the head of the queue of each kind, in range and out of it, that lowers a lane rate, that takes the
TSV clock down, and neither; steps that run; commits of CLK_SRC and CLK_CLKEN_RUN, with a BIST run and without, and a step that gates. -/
theorem witness_SequencerSteps :
    (∀ x ∈ [SeqStep.op 3, .op 0, .ratio true 2 4, .ratio true 0 1, .clken 0], ∀ n ∈ [0, 2],
      let b := clocked { queue := [x], rateOps := Vector.replicate 4 0, tsvOps := Vector.replicate 4 (BitVec.ofNat 2 n) }
      b.pwr.state = 0 ∧ b.regs.badPar = [] ∧ b.clk.hops = [] ∧ b.clk.queue = x :: [] ∧ reactionOf b (fs .lnkDegrade) ≤ 2)
      ∧ (let b := clocked {}; stepDown b (.op 0) = true ∧ stepDown b (.op 3) = false ∧ rateFalls b (.op 3) = false)
      ∧ rateFalls (clocked { rateOps := Vector.replicate 4 3 }) (.op 0) = true
      ∧ (∀ (c : Clk) (k : ChanId), ∀ m ∈ banksOf, ((clocked c).chans[k].bank m).row = none)
      ∧ (let b := clocked {}
         b.clk.running = none ∧ b.sage.safe = false ∧ b.thm.safe = false ∧ b.start.done = true ∧ b.bst.run = none)
      ∧ ratioOk (2 : BitVec 2).toNat (4 : BitVec 5).toNat = true ∧ ratioOk (0 : BitVec 2).toNat (1 : BitVec 5).toNat = false
      ∧ (∀ x ∈ [SeqStep.op 3, .ratio true 2 4],
        let b := clocked { running := some x }
        b.clk.running = some x ∧ b.clk.hops = [] ∧ (∀ w ∈ b.regs.pend, baseOf w.addr ≠ clkBase ∧ baseOf w.addr ≠ pwrBase)
          ∧ reactionOf b (fs .lnkDegrade) ≤ 2 ∧ reactionOf b (fs .calDegrade) ≤ 2)
      ∧ (∀ p ∈ [true, false],
        let w : PendWr := { addr := clkBase + 8, value := 7 }
        let b := { clocked { proven := p } with regs := { live := [(clkBase + 8, 0)], pend := [w] } }
        b.clk.running = none ∧ b.clk.queue = [] ∧ b.regs.pend = [w] ∧ w.good = true
          ∧ b.clk.proven = p ∧ w.value &&& ~~~(rw (clkBase + 8) b) ≠ 0)
      ∧ (∀ k ∈ [none, some ({ test := 3, target := 31, path := .twp, elems := [] } : BstRun)],
        let v : PendWr := { addr := clkBase + 0x20, value := 0 }
        let b := { (onEng { st := .run }).blk with regs := { pend := [v] }, bst := { run := k } }
        b.clk.running = none ∧ b.clk.queue = [] ∧ b.regs.pend = [v] ∧ v.good = true ∧ reactionOf b (fs .gateBusy) ≤ 2
          ∧ b.engs[31].st = .run
          ∧ (let off := (b.clk.gateWait ||| BitVec.ofNat 15 (rw (clkBase + 0x20) b).toNat) &&& ~~~(BitVec.ofNat 15 (0 : Word).toNat)
             let bist : BitVec 15 := if b.bst.run.isSome then 0x1000 else 0
             let keep := (off &&& ((1 : BitVec 15) ||| fabricBusy b ||| bist)).zeroExtend 32
             keep ≠ 0 ∧ ((0 : Word) ||| keep).getLsbD (8 + 31 / 8) = false))
      ∧ (let b := clocked { queue := [.clken 0] }
         b.clk.running = none ∧ b.clk.queue = [.clken 0] ∧ b.regs.pend = [] ∧ b.sage.safe = false ∧ b.thm.safe = false) := by
  refine ⟨by decide +kernel, by decide +kernel, by decide +kernel, closed_rows, by decide +kernel⟩

/-! ### Witnesses: power states -/

def powered (p : Pwr) : Block := { svc with pwr := p }


/-- Of PowerStates: a stack that is not idle, the deepest state reached and refused for a busy unit, nothing deeper to take, and
each end of a state. -/
theorem witness_PowerStates :
    (let b := (onPort { tags := [(5, { kind := .read })] }).blk; refusing b = false ∧ b.regs.badPar = [] ∧ isIdle b = false)
      ∧ (let b := powered {}
         refusing b = false ∧ b.regs.badPar = [] ∧ isIdle b = true ∧ b.clk.running = none ∧ b.clk.queue = [] ∧ b.pwr.state.toNat < chooseState b
           ∧ unitsIn b b.pwr.state.toNat &&& ~~~(unitsIn b (chooseState b)) &&& (0 ||| fabricBusy b) = 0
           ∧ unitsIn b b.pwr.state.toNat &&& ~~~(unitsIn b (chooseState b)) &&& (1 ||| fabricBusy b) ≠ 0
           ∧ reactionOf b (fs .gateBusy) ≤ 2 ∧ ∀ k : ChanId, b.chans[k].st ≠ .run ∧ b.chans[k].st ≠ .powerdown)
      ∧ (let b := powered { state := 4 }; isIdle b = true ∧ chooseState b ≤ b.pwr.state.toNat)
      ∧ (let b := { powered {} with clk := { queue := [.op 3] } }; isIdle b = true ∧ b.clk.queue ≠ [])
      ∧ (let b := { powered { state := 4 } with clk := { queue := [.op 3] } }
         b.pwr.state = 4 ∧ b.clk.queue ≠ [] ∧ b.ops.descs = [] ∧ ∀ e : EngId, b.engs[e].queue = [])
      ∧ (∀ n ∈ [1, 4], let b := { powered { state := BitVec.ofNat 3 n } with twp := { addressed := true, ptrSet := true, ptr := BitVec.ofNat 32 (chnBase 31) } }
         b.pwr.state ≠ 0 ∧ wakeHolds b .twoWire = true ∧ (∀ k : ChanId, b.chans[k].st ≠ .selfRefresh) ∧ reactionOf b (fs .lnkDegrade) ≤ 2
           ∧ reactionOf b (fs .calDegrade) ≤ 2 ∧ b.regs.pend = [])
      ∧ wakeHolds (powered { state := 1 }) .twoWire = false
      ∧ (let b := powered { state := 4 }
         pathOpen b .twp = true ∧ b.sage.safe = false ∧ ownerRefuses .twp b = false ∧ b.regs.badPar = [] ∧ b.pwr.state = 4
           ∧ (∀ w ∈ b.regs.pend, w.good = true ∧ baseOf w.addr ≠ clkBase ∧ baseOf w.addr ≠ pwrBase) ∧ wfield (rw pwrBase b) 2 0 ≤ 4
           ∧ reactionOf b (fs .calDegrade) ≤ 2) := by decide +kernel

/-! ### Witnesses: calibration -/

/-- Of CalibrationInService: the limits of the band gap and of a sensor's offset, on both sides; a margin, a low margin and a
failed centring of the last group; aging. -/
theorem witness_CalibrationInService :
    let b := (onEng { st := .run } (onChan { st := .run, recal := [35] }).blk).blk
    calRuns b = true ∧ b.sage.enable = true ∧ firstGood bandgapOk (attemptsOf b [some 121, some 120]) = some 120
      ∧ firstGood bandgapOk (attemptsOf b [some 121, some (-121)]) = none
      ∧ (b.sage.pend.getLsbD (fs .calBandgap) = false ∧ b.sage.tick ≠ b.now) ∧ reactionOf b (fs .calBandgap) ≤ 2
      ∧ sensorPresent 63 = true ∧ (-256 ≤ (-256 : BitVec 16).toInt ∧ (256 : BitVec 16).toInt ≤ 256)
      ∧ ((-257 : BitVec 16).toInt < -256 ∧ 256 < (257 : BitVec 16).toInt) ∧ reactionOf b (fs .calDegrade) ≤ 2
      ∧ b.chans[31].st ≠ .offline ∧ b.engs[31].st = .run ∧ firstGood (fun _ => true) (attemptsOf b [none, some (51 : Byte)]) = some 51 ∧ tsvMin b ≤ (51 : Byte).toNat
      ∧ firstGood (fun _ => true) (attemptsOf b [some (50 : Byte), some 60]) = some 50 ∧ (50 : Byte).toNat < tsvMin b
      ∧ firstGood (fun _ => true) (attemptsOf b (afterGood [some (50 : Byte), some 60])) = some 60 ∧ sparesTested b 31 = false
      ∧ firstGood (fun _ => true) (attemptsOf b ([] : List (Attempt Byte))) = none ∧ b.chans[31].tsvSpares < 8
      ∧ ∀ q : Fin 4, 65535 * (q.val / 3) < 65536 := by decide +kernel

/-- Of CalibrationCommands: a go with nothing running, one while a command runs, and one of an OFFLINE channel. -/
theorem witness_CalibrationCommands :
    (let b := (onEng { st := .run } (onChan { st := .run }).blk).blk
     takesWrites .twp (st b) ∧ b.engs[eid (31 : BitVec 5).toNat].st = .run ∧ b.start.chive = false ∧ b.cal.busy = false ∧ calRuns b = true ∧ b.chans[cid (31 : BitVec 5).toNat].st ≠ .offline
       ∧ reactionOf b (fs .chnOffline) ≤ 2 ∧ firstGood bandgapOk (attemptsOf b [some 120]) = some 120 ∧ sensorPresent 0 = true
       ∧ b.chans[cid (30 : BitVec 5).toNat].st = .offline)
      ∧ (let b : Block := { svc with cal := { busy := true, op := 2 } }
         takesWrites .twp (st b) ∧ b.cal.busy = true ∧ b.cal.op = 2) := by
  refine ⟨⟨takes _ (by decide +kernel), ?_⟩, takes _ (by decide +kernel), ?_⟩ <;> decide +kernel

/-! ### Witnesses: Sage -/

/-- Of SageRecordsRaises: a reserved source, a source below ISOLATE, new and pending, with the latch empty and taken; the
sources of the safe state; a stall. -/
theorem witness_SageRecordsRaises :
    5 ≤ svc.start.step ∧ svc.sage.safe = false ∧ sourceOf (255 : Byte).toNat = none
      ∧ (let src : Byte := 96
         src ≠ 0 ∧ (sourceOf src.toNat).isSome = true ∧ svc.sage.tick ≠ svc.now ∧ svc.sage.latchTick ≠ svc.now ∧ svc.sage.pend.getLsbD src.toNat = false
           ∧ reactionOf svc src.toNat = 2 ∧ reactionOf svc (8 : Byte).toNat = 0 ∧ svc.sage.latched = false)
      ∧ (let b : Block := { svc with sage := { pend := bset 0 96, latched := true, source := 96 } }
         b.sage.pend.getLsbD (96 : Byte).toNat = true ∧ b.sage.latched = true ∧ b.sage.tick ≠ b.now)
      ∧ (∀ n ∈ [(fs .sageSelf), (fs .supLockstep), (fs .supMemUe), (fs .supWdog)],
        svc.sage.pend.getLsbD n = false ∧ svc.sage.tick ≠ svc.now ∧ reactionOf svc n = 4)
      ∧ (svc.start.done = true ∧ svc.starting = false ∧ svc.start.supHeld = false)
      ∧ (quiesced svc (0 : Byte).toNat = false ∧ quiesced svc (0x2F : Byte).toNat = false ∧ svc.sage.pend.getLsbD (fs .fabStall) = false
        ∧ reactionOf svc (fs .fabStall) ≤ 2) := by decide +kernel

/-- Of SageEscalatesClearsInjects: no timer, a first and a second run of one; a clear of a source that has escalated and of one
that has not; an injection that is taken, and one that is refused. -/
theorem witness_SageEscalatesClearsInjects :
    svc.sage.timers.find? (fun t => t.1 == (96 : Byte).toNat) = none
      ∧ (∀ second ∈ [true, false],
        let b : Block := { svc with sage := { pend := bset 0 96, timers := [(96, second)] } }
        b.sage.safe = false ∧ b.sage.pend.getLsbD (96 : Byte).toNat = true
          ∧ b.sage.timers.find? (fun t => t.1 == (96 : Byte).toNat) = some ((96 : Byte).toNat, second))
      ∧ (sourceOf (96 : Byte).toNat).map Source.isolates = some false
      ∧ (∀ esc ∈ [0, 96],
        let b : Block := { svc with sage := { pend := bset (bset 0 96) (fs .clkRef), esc := bset 0 esc, latched := true, source := 96 } }
        takesB b = true
          ∧ b.sage.pend.getLsbD (96 : Byte).toNat = true ∧ (96 : Byte).toNat ≠ (fs .chnTable) ∧ b.sage.source = 96 ∧ b.sage.source ≠ 24
          ∧ b.sage.pend.getLsbD (fs .clkRef) = true ∧ (b.sage.esc.getLsbD (96 : Byte).toNat = true ↔ esc = 96))
      ∧ takesB svc = true
      ∧ (svc.sage.pend.getLsbD (96 : Byte).toNat = false ∧ svc.sage.esc.getLsbD (96 : Byte).toNat = false ∧ svc.sage.tick ≠ svc.now
        ∧ (sourceOf (96 : Byte).toNat).isSome = true ∧ reactionOf svc (96 : Byte).toNat ≤ 2 ∧ sourceOf (255 : Byte).toNat = none) := by
  decide +kernel

/-! ### Witnesses: OTP -/

theorem secded_data (d : BitVec 64) : (secded d).truncate 64 = d := by
  apply BitVec.eq_of_getLsbD_eq
  intro i hi
  simp only [secded, BitVec.truncate_eq_setWidth, BitVec.getLsbD_setWidth, BitVec.getLsbD_append, hi, decide_true, Bool.true_and, ↓reduceIte]

theorem secded_reads (d : BitVec 64) : secdedDecode (secded d) = some (d, false) := by
  unfold secdedDecode
  simp only [secded_data, or_true, ↓reduceIte]

/-- A token of the command `op`: nonce, key and signature. Its digest is both parts of the signature, and its key is the
difference of the point with that abscissa and the generator, so that the signature holds: the points were computed apart. -/
structure Token where
  op : BitVec 8
  target : BitVec 8
  data : BitVec 16
  nonce : BitVec 8
  x : Nat
  y : Nat
  z : Nat

def Token.fields (t : Token) : List Byte := beBytes 48 t.x ++ beBytes 48 t.y ++ beBytes 48 t.z ++ beBytes 48 t.z
def Token.bytes (t : Token) : List Byte :=
  [0x56, 0x58, 0x54, 0x4B, t.op, 0, 0, 0, t.target, 0, 0, 0, t.nonce, 0, 0, 0] ++ List.replicate 8 0 ++ bytesOf 8 t.data ++ t.fields

/-- Word `k` of the hash of the token's key. -/
def Token.hash (t : Token) (k : Nat) : BitVec 64 := BitVec.ofNat 64 (natAt (keyHashOf (t.fields.take 96)) (8 * k) 8)

/-- The stack in life-cycle state 2 with that token's key in slot 0: words 0x58 and 0x3FC and ten life-cycle words are blank. -/
def Token.blk (t : Token) : Block :=
  let ones := secded (BitVec.allOnes 64)
  { svc with otp := { token := t.bytes, claim := some .twp, nonce := t.nonce.zeroExtend 32, lc := 2
                      run := some { op := BitVec.ofNat 3 t.op.toNat, path := .twp, phase := .checks }
                      cap := [(0, secded 0), (0x50, secded (t.hash 0)), (0x51, secded (t.hash 1)), (0x52, secded (t.hash 2)),
                              (0x53, secded (t.hash 3)), (0x54, secded (t.hash 4)), (0x55, secded (t.hash 5)), (0x56, ones),
                              (0x3FC, secded 0)]
                      words := [(0x40, ones), (0x41, ones)] ++ (List.range 10).map (fun i => (0x42 + i, 0))
                        ++ [(0x58, 0), (0x5E, ones), (0x3FC, 0)] } }

theorem ones_set : otpIsSet (secded (BitVec.allOnes 64)) = true := by
  rw [otpIsSet, secded_data]; decide +kernel

theorem Token.word (t : Token) (w : Nat) (d : BitVec 64) (h : otpCap t.blk w = secded d) : otpWord t.blk w = some d := by
  rw [otpWord, h, secded_reads]; rfl

theorem Token.key (t : Token) (h : (List.range 6).flatMap (fun k => bytesOf 8 (t.hash k)) = keyHashOf (t.fields.take 96)) :
    keyHash t.blk 0 = some (keyHashOf (t.fields.take 96)) := by
  have m : otpMarkerCap t.blk 0x56 = true := by
    rw [otpMarkerCap, t.word 0x56 (BitVec.allOnes 64) rfl]
    exact ones_set
  have w : (List.range 6).map (fun k => otpWord t.blk (0x50 + k)) = (List.range 6).map fun k => some (t.hash k) := by
    simp only [show List.range 6 = [0, 1, 2, 3, 4, 5] from rfl, List.map_cons, List.map_nil]
    rw [t.word 0x50 (t.hash 0) rfl, t.word 0x51 (t.hash 1) rfl, t.word 0x52 (t.hash 2) rfl, t.word 0x53 (t.hash 3) rfl,
      t.word 0x54 (t.hash 4) rfl, t.word 0x55 (t.hash 5) rfl]
  rw [keyHash, if_neg (by decide), if_neg (by decide)]
  simp only [↓reduceIte, m, w, Bool.not_true, Bool.false_eq_true, ← h]
  rfl

/-- The token's key, signature and form hold, and its target is allowed. -/
structure Token.Good (t : Token) : Prop where
  slot : slotAccepted t.blk (BitVec.ofNat 3 t.op.toNat) 0 = true
  hash : (List.range 6).flatMap (fun k => bytesOf 8 (t.hash k)) = keyHashOf (t.fields.take 96)
  signed : verifySig t.fields (t.bytes.take 0x20) = true
  bytes : natAt t.bytes 5 1 = 0 ∧ t.bytes.drop 0x20 = t.fields ∧ wordAt t.bytes 0xC = t.nonce.zeroExtend 32
    ∧ natAt t.bytes 0x10 8 = 0
  form : tokenFormed t.blk (BitVec.ofNat 3 t.op.toNat) = true
  target : targetOk t.blk (BitVec.ofNat 3 t.op.toNat) = true

theorem Token.Good.passes {t : Token} (g : t.Good) : otpChecks t.blk (BitVec.ofNat 3 t.op.toNat)
    = if BitVec.ofNat 3 t.op.toNat = 4 then (if lifeOk t.blk then none else some (.badArg, (otpCode .prereq)))
      else if BitVec.ofNat 3 t.op.toNat = 2 ∧ t.blk.otp.slock.getLsbD (targetRegion t.blk (BitVec.ofNat 3 t.op.toNat)) = true then
        some (.writeIgnored, (otpCode .sticky))
      else if otpSealed t.blk (targetRegion t.blk (BitVec.ofNat 3 t.op.toNat)) then some (.writeIgnored, (otpCode .permanent))
      else match otpNamed t.blk (BitVec.ofNat 3 t.op.toNat) with
        | some w => if otpRaw t.blk w = 0 then none else some (.writeIgnored, (otpCode .written))
        | none => none := by
  have k : keyOk t.blk (BitVec.ofNat 3 t.op.toNat) = true := by
    have e : t.blk.otp.token = t.bytes := rfl
    simp only [keyOk, e, g.bytes.1, g.bytes.2.1, g.slot, t.key g.hash, beq_self_eq_true, Bool.and_self]
  have s : tokenSigned t.blk = true := by
    have e : t.blk.otp.token = t.bytes := rfl
    rw [tokenSigned, e, g.bytes.2.1]; exact g.signed
  have f : tokenFresh t.blk = true := by
    have e : t.blk.otp.token = t.bytes := rfl
    have n : t.blk.otp.nonce = t.nonce.zeroExtend 32 := rfl
    rw [tokenFresh, e, n, g.bytes.2.2.1, g.bytes.2.2.2, otpUid, t.word 0 0 rfl]; simp
  rw [otpChecks, k, s, f, g.form, g.target]
  rfl

def programToken : Token := {
  op := 2, target := 0x58, data := 0x1234, nonce := 0,
  x := 0x3CF27B5CF9AE8E61048564026C889A411D3E630A6F05C188BA8E69EE535C6CF5A2084796C2C290BE0A520BBB26C81582,
  y := 0xEACFF2E6CAB32989C5D7BF8335CACD70762DF1E39917A1BE0E9BDE9D3B7E7D564E6A6DED4F2001328EDBAB0DC038FD48,
  z := 0x9678EECE9798F886688976FC3B8FA417CBE0B7B136A63359684A860314B8670B51B9FE0EC62142CF1FC89C3232CB21C4 }

def lockToken : Token := {
  op := 3, target := 0x4, data := 0x0, nonce := 0,
  x := 0x3D510A92390F722B6A4CC80F6F185B3E91EC9D5418F107A34BD84CA2DC179F53A6DE45B39472FD1A4799ADED967F613B,
  y := 0x07DBB2B50B7EB5014FBCA1D82D61A0363E6F336565320D4053734B4556AB7EE06E2B9B0E40115BAAA33855F357576408,
  z := 0xF982E8A754C61896F797E4E38A9266345FCA6E990394F4AB30E56771229A82B456802759F84BB3174B3B5E608AE25F91 }

def lifeToken : Token := {
  op := 4, target := 0x3, data := 0x0, nonce := 2,
  x := 0x73B56D5447A7C06A566BBC75B18CF7C5CDB6293CA52B373225F99CBE206173A352E2217578A460E3B8ED720608749E23,
  y := 0x1B604F81F67898240DC664831E1B409AE7907B35D8416CACDDC160B892650692135749CC9329D00A120AB177F196F6FB,
  z := 0x43A4572FC8CAC406E9E9E146C603E91524552A67296DAF52B48B98B1AC3DE1DA2C5950235754F5B7232A56973C2CED15 }

theorem program_good : programToken.Good :=
  ⟨by decide +kernel, by decide +kernel, by decide +kernel, by decide +kernel, by decide +kernel, by decide +kernel⟩

theorem lock_good : lockToken.Good :=
  ⟨by decide +kernel, by decide +kernel, by decide +kernel, by decide +kernel, by decide +kernel, by decide +kernel⟩

theorem life_good : lifeToken.Good :=
  ⟨by decide +kernel, by decide +kernel, by decide +kernel, by decide +kernel, by decide +kernel, by decide +kernel⟩

theorem Token.open (t : Token) : otpSealed t.blk 4 = false := by
  rw [otpSealed, otpLockWord]
  simp only [Nat.reduceEqDiff, ↓reduceIte, t.word 0x3FC 0 rfl]
  rfl

theorem program_passes : otpChecks programToken.blk 2 = none := by
  have h := program_good.passes
  have r : targetRegion programToken.blk 2 = 4 ∧ otpNamed programToken.blk 2 = some 0x58 ∧ otpRaw programToken.blk 0x58 = 0 := by decide +kernel
  rw [show BitVec.ofNat 3 programToken.op.toNat = 2 from rfl, r.1, r.2.1, Token.open] at h
  rw [h, if_neg (by decide), if_neg (by decide +kernel), if_neg (by decide)]
  exact if_pos r.2.2

theorem lock_passes : otpChecks lockToken.blk 3 = none ∧ otpLockWord (tokenTarget lockToken.blk) = some 0x3FC := by
  have h := lock_good.passes
  have r : targetRegion lockToken.blk 3 = 4 ∧ otpNamed lockToken.blk 3 = some 0x3FC ∧ otpRaw lockToken.blk 0x3FC = 0 := by decide +kernel
  rw [show BitVec.ofNat 3 lockToken.op.toNat = 3 from rfl, r.1, r.2.1, Token.open] at h
  refine ⟨?_, by decide +kernel⟩
  rw [h, if_neg (by decide), if_neg (by decide), if_neg (by decide)]
  exact if_pos r.2.2

theorem life_passes : otpChecks lifeToken.blk 4 = none
    ∧ (blankLife lifeToken.blk).take (lifeNeed lifeToken.blk) = [0x42] := by
  have z : secded (BitVec.allOnes 64) ≠ 0 := by
    intro e; have := congrArg (fun v : BitVec 72 => v.truncate 64) e; simp only [secded_data] at this; revert this; decide
  have n : lcCount lifeToken.blk = 2 := by
    have f : ∀ i ∈ List.range 12, otpIsSet (otpRaw lifeToken.blk (0x40 + i)) = decide (i < 2) := by
      intro i hi
      have hi := List.mem_range.mp hi
      interval_cases i
      · exact ones_set
      · exact ones_set
      all_goals decide +kernel
    rw [lcCount, lcCountOf, List.filter_congr f]; decide
  have bl : blankLife lifeToken.blk = (List.range 10).map (0x42 + ·) := by
    have f : ∀ w ∈ (List.range 12).map (0x40 + ·), (otpRaw lifeToken.blk w == 0) = decide (0x42 ≤ w) := by
      intro w hw
      obtain ⟨i, hi, rfl⟩ := List.mem_map.mp hw
      have hi := List.mem_range.mp hi
      interval_cases i
      · exact beq_eq_false_iff_ne.mpr z
      · exact beq_eq_false_iff_ne.mpr z
      all_goals decide +kernel
    rw [blankLife, List.filter_congr f]; decide
  have m : markerNow lifeToken.blk 0x5E = true := ones_set
  have need : lifeNeed lifeToken.blk = 1 := by rw [lifeNeed, n]; decide +kernel
  have ok : lifeOk lifeToken.blk = true := by
    rw [lifeOk, need, bl, m]; decide +kernel
  refine ⟨?_, by rw [need, bl]; decide⟩
  have h := life_good.passes
  rw [show BitVec.ofNat 3 lifeToken.op.toNat = 4 from rfl, ok] at h
  exact h

/-- The bits that SEC-DED may turn, none for the last, and the check byte that each explains over data of zeros. -/
def turned (i : Fin 73) : BitVec 72 := if i.val < 72 then BitVec.ofNat 72 (1 <<< i.val) else 0
def topByte (w : BitVec 72) : BitVec 8 := w.extractLsb' 64 8
def explains (i : Fin 73) : BitVec 8 := Config.secdedCheck ((turned i).truncate 64) ^^^ topByte (turned i)

/-- A word from its check byte and its data. -/
def checked (c : BitVec 8) (d : BitVec 64) : BitVec 72 := c ++ d
theorem checked_bit (c : BitVec 8) (d : BitVec 64) (i : Nat) :
    (checked c d).getLsbD i = if i < 64 then d.getLsbD i else c.getLsbD (i - 64) := BitVec.getLsbD_append

/-- Whatever the check byte is, some word is uncorrectable: 73 words and the blank one cannot explain 256 check bytes. -/
theorem uncorrectable : ∃ w : BitVec 72, secdedDecode w = none := by
  by_contra h
  push Not at h
  have low : ∀ (c : BitVec 8) (e : BitVec 72), ((checked c 0) ^^^ e).truncate 64 = (e.truncate 64 : BitVec 64) := by
    intro c e
    apply BitVec.eq_of_getLsbD_eq; intro i hi
    simp [checked_bit, hi]
  have top : ∀ (c : BitVec 8) (e : BitVec 72), topByte ((checked c 0) ^^^ e) = c ^^^ topByte e := by
    intro c e
    apply BitVec.eq_of_getLsbD_eq; intro i hi
    simp [topByte, checked_bit, hi]
  have chk : ∀ d : BitVec 64, topByte (secded d) = Config.secdedCheck d := by
    intro d
    have e : secded d = checked (Config.secdedCheck d) d := rfl
    apply BitVec.eq_of_getLsbD_eq; intro i hi
    simp [topByte, e, checked_bit, hi]
  have each : ∀ (c : BitVec 8) (i : Fin 73), secded ((((checked c 0) ^^^ turned i).truncate 64 : BitVec 64))
      = (checked c 0) ^^^ turned i → explains i = c := by
    intro c i e
    have := congrArg topByte e
    rw [chk, low, top] at this
    rw [explains, this, BitVec.xor_assoc, BitVec.xor_self, BitVec.xor_zero]
  have all : ∀ c : BitVec 8, c ≠ 0 → ∃ i, explains i = c := by
    intro c z
    have zero : checked c 0 ≠ 0 := fun e => z (by
      have := congrArg topByte (BitVec.xor_zero.trans e); rw [top] at this; simpa [topByte] using this)
    have hc := h (checked c 0)
    unfold secdedDecode at hc
    simp only at hc
    split at hc
    · rename_i e
      refine ⟨72, each c 72 ?_⟩
      simpa [turned] using e.resolve_left zero
    · split at hc
      · rename_i i e
        have hi := List.mem_range.mp (List.mem_of_find?_eq_some e)
        have e := List.find?_some e
        simp only [beq_iff_eq] at e
        refine ⟨⟨i, by omega⟩, each c _ ?_⟩
        simpa [turned, hi] using e
      · exact absurd rfl hc
  have sur : Function.Surjective fun i : Option (Fin 73) => (i.elim 0 explains).toFin := by
    intro n
    by_cases z : BitVec.ofFin n = 0
    · exact ⟨none, congrArg BitVec.toFin z.symm⟩
    · obtain ⟨i, hi⟩ := all (BitVec.ofFin n) z
      exact ⟨some i, by simp only [Option.elim, hi]⟩
  have := Fintype.card_le_of_surjective _ sur
  simp at this

/-! ### Witnesses: OTP commands -/

theorem not_owned : ownerRefuses .twp svc = false := by decide

/-- A READ of word 9, by the two-wire port. -/
def reads9 (words : SMap (BitVec 72)) : Block :=
  { svc with otp := { words := words }, regs := { live := [(otpBase + 4, 9)] } }

/-- The life-cycle state in which a token is taken, while a command runs, or none does. -/
def otpRuns (r : Option OtpRun) (token : List Byte) (claim : Option Path) (done : Bool := false) (lc : BitVec 3 := 2) : Block :=
  { svc with otp := { run := r, token := token, claim := claim, done := done, lc := lc } }

/-- Of OtpReadsAndAborts: a word that decodes, one that does not, the reads that name word 9, and each phase of a command. -/
theorem witness_OtpReadsAndAborts :
    (∀ words, takesWrites .twp (st (reads9 words)) ∧ (reads9 words).start.done = true ∧ (reads9 words).thm.safe = false
        ∧ (reads9 words).otp.run = none ∧ (9 : Nat) = rwf (otpBase + 4) 9 0 (reads9 words) ∧ reactionOf (reads9 words) (fs .otpMarginal) ≤ 2
        ∧ (reads9 words).otp.lc ≠ 6)
      ∧ (∃ d, secdedDecode (rawReads (reads9 [(9, secded 5)]) { word := 9, normal := 0, high := 0, low := 0 }).1 = some d)
      ∧ (∃ w, secdedDecode (rawReads (reads9 [(9, w)]) { word := 9, normal := 0, high := 0, low := 0 }).1 = none)
      ∧ (∀ r ∈ [none, some ({ op := 2, path := .twp, phase := .checks } : OtpRun), some { op := 2, path := .twp, phase := .pulse }],
        takesWrites .twp (st (otpRuns r [] none)) ∧ (otpRuns r [] none).otp.run = r ∧ r.all (fun x => !x.dead) = true) := by
  have raw : ∀ w : BitVec 72, (rawReads (reads9 [(9, w)]) { word := 9, normal := 0, high := 0, low := 0 }).1 = w := by
    intro w
    have b : sealedBlank (reads9 [(9, w)]) 9 = false := by
      rw [sealedBlank, Bool.and_eq_false_iff]; right
      show (match otpRegion 9 with | some r => (0 : BitVec 6).getLsbD r | none => false) = false
      decide
    rw [rawReads, b]; exact BitVec.xor_zero
  refine ⟨fun words => ⟨⟨rfl, rfl, rfl, not_owned, rfl⟩, rfl, rfl, rfl, rfl, ?_, (by decide : (0 : BitVec 3) ≠ 6)⟩,
    ⟨_, by rw [raw]; exact secded_reads 5⟩, ?_, ?_⟩
  · exact (by decide : reactionOf svc (fs .otpMarginal) ≤ 2)
  · obtain ⟨w, h⟩ := uncorrectable
    exact ⟨w, by rw [raw]; exact h⟩
  · intro r hr
    exact ⟨⟨rfl, rfl, rfl, not_owned, rfl⟩, rfl, by revert r; decide⟩

/-- A pulse of word 0x58 toward bit 0, over the charge `raw`. -/
def pulsing (r : OtpRun) (raw : BitVec 72) : Block := { svc with otp := { run := some r, lc := 2, words := [(0x58, raw)] } }
def pulse : OtpRun := { op := 2, path := .twp, phase := .pulse, word := 0x58, target := 1, unv := 1 }

/-- Of OtpPrograms: the token window at its limits and the claim of each path; commands that start and that do not; a sticky
lock's first and second write; checks that fail and that pass, for each command; pulses that end the command, that leave a bit
and that come after a reset. -/
theorem witness_OtpPrograms :
    ((∀ n ∈ [223, 224], ∀ c ∈ [none, some Path.twp, some (.link 15)], let b := otpRuns none (List.replicate n 0) c
        takesWrites .twp (st b) ∧ b.otp.token.length = n
          ∧ ((∀ p, b.otp.claim = some p → pathTwp p = pathTwp .twp) ↔ c ≠ some (.link 15)))
      ∧ (∀ done ∈ [true, false], ∀ lc ∈ [2, 6], let b := otpRuns none [] none done (BitVec.ofNat 3 lc)
        takesWrites .twp (st b) ∧ b.otp.run = none ∧ b.start.done = true ∧ b.thm.safe = false ∧ b.otp.done = done
          ∧ b.otp.lc = BitVec.ofNat 3 lc)
      ∧ (∀ m ∈ [0, 32], let b : Block := { svc with otp := { slockSet := BitVec.ofNat 6 m } }
        takesWrites .twp (st b) ∧ (b.otp.slockSet.getLsbD (5 : Fin 6).val = true ↔ m = 32) ∧ (5 : Fin 6).val ≠ 1 ∧ (1 : Fin 6).val = 1
          ∧ reactionOf b (fs .regAccess) ≤ 2))
      ∧ (let r : OtpRun := { op := 2, path := .twp, phase := .checks }
         (otpRuns (some r) [] none).otp.run = some r ∧ r.phase = .checks ∧ ∃ f, otpChecks (otpRuns (some r) [] none) r.op = some f)
      ∧ (∀ t ∈ [programToken, lockToken, lifeToken], ∃ r, t.blk.otp.run = some r ∧ r.phase = .checks ∧ otpChecks t.blk r.op = none
        ∧ (r.op = 2 ∨ (r.op = 3 ∧ otpLockWord (tokenTarget t.blk) = some 0x3FC)
          ∨ (r.op = 4 ∧ (blankLife t.blk).take (lifeNeed t.blk) = 0x42 :: [])))
      ∧ (let r : OtpRun := { pulse with dead := true }; (pulsing r 0).otp.run = some r ∧ r.phase = .pulse ∧ r.dead = true)
      ∧ (∀ missed ∈ [0, 1], let r : OtpRun := { pulse with pulses := 6 }; let b := pulsing r 0
        let m := BitVec.ofNat 72 missed
        b.otp.run = some r ∧ r.phase = .pulse ∧ r.dead = false ∧ b.start.restartWait = none
          ∧ ¬ ((otpRaw b r.word ||| (r.unv &&& ~~~m) ||| ((0 : BitVec 72) &&& ~~~r.target)) ||| mget b.otp.faint r.word 0 ||| 0)
              &&& ~~~r.target ≠ 0
          ∧ (r.unv &&& (m ||| 0) = 0 ↔ missed = 0) ∧ r.abort = false ∧ r.pulses + 1 < 8 ∧ r.more = [] ∧ b.defers = [])
      ∧ (∀ faint ∈ [0, 2], let r : OtpRun := { pulse with abort := true }; let b := pulsing r 0
        b.otp.run = some r ∧ r.phase = .pulse ∧ r.dead = false ∧ b.start.restartWait = none ∧ r.abort = true ∧ b.defers = []
          ∧ ((otpRaw b r.word ||| (r.unv &&& ~~~0) ||| ((0 : BitVec 72) &&& ~~~r.target)) ||| mget b.otp.faint r.word 0
              ||| BitVec.ofNat 72 faint) &&& ~~~r.target = BitVec.ofNat 72 faint)
      ∧ (∃ w, let r : OtpRun := { pulse with pulses := 7 }; let b := pulsing r w
        b.otp.run = some r ∧ r.phase = .pulse ∧ r.dead = false ∧ b.start.restartWait = none ∧ r.unv &&& (1 ||| 0) ≠ 0 ∧ r.abort = false
          ∧ r.pulses = 7 ∧ b.defers = []
          ∧ secdedDecode (otpRaw b r.word ||| (r.unv &&& ~~~1) ||| ((0 : BitVec 72) &&& ~~~r.target)) = none) := by
  refine ⟨⟨?_, ?_, ?_⟩, ⟨rfl, rfl, ?_⟩, ?_, by decide, by decide, by decide, ?_⟩
  · intro n _ c hc
    refine ⟨⟨rfl, rfl, rfl, not_owned, rfl⟩, List.length_replicate, ?_⟩
    simp only [List.mem_cons, List.not_mem_nil, or_false] at hc
    obtain rfl | rfl | rfl := hc <;> simp [otpRuns, pathTwp]
  · intro d _ lc _; exact ⟨⟨rfl, rfl, rfl, not_owned, rfl⟩, rfl, rfl, rfl, rfl, rfl⟩
  · intro m hm
    refine ⟨⟨rfl, rfl, rfl, not_owned, rfl⟩, ?_, by decide, rfl, (by decide : reactionOf svc (fs .regAccess) ≤ 2)⟩
    revert m; decide
  · exact ⟨(.accessError, (otpCode .key)), by decide⟩
  · intro t ht
    simp only [List.mem_cons, List.not_mem_nil, or_false] at ht
    obtain rfl | rfl | rfl := ht
    · exact ⟨_, rfl, rfl, program_passes, .inl rfl⟩
    · exact ⟨_, rfl, rfl, lock_passes.1, .inr (.inl ⟨rfl, lock_passes.2⟩)⟩
    · exact ⟨_, rfl, rfl, life_passes.1, .inr (.inr ⟨rfl, life_passes.2⟩)⟩
  · obtain ⟨w, h⟩ := uncorrectable
    refine ⟨w, rfl, rfl, rfl, rfl, by decide, rfl, rfl, rfl, ?_⟩
    have e : otpRaw (pulsing { pulse with pulses := 7 } w) 0x58 ||| ((1 : BitVec 72) &&& ~~~1) ||| ((0 : BitVec 72) &&& ~~~1) = w := by
      have z : (1 : BitVec 72) &&& ~~~1 = 0 := by decide
      rw [z, show (0 : BitVec 72) &&& ~~~1 = 0 by decide]
      show (w ||| 0#72) ||| 0#72 = w
      rw [BitVec.or_zero, BitVec.or_zero]
    exact (congrArg secdedDecode e).trans h

/-! ### Witnesses: self-test -/

/-- BST_CMD holds the test and its target: channel 31 runs, engine 31 is held, port 15 is DISABLED, and class B is admitted. -/
def selfTest (test n : Nat) (x : Bist := {}) : Block := { svc with
  regs := { live := [(bstBase + 4, BitVec.ofNat 32 (test * 256 + n))] }
  bst := x
  otp := { lc := 5 }
  chans := svc.chans.set 31 { st := .run }
  engs := svc.engs.set 31 { st := .held } }

theorem self_takes (t n : Nat) (x : Bist) : takesWrites .twp (st (selfTest t n x)) := ⟨rfl, rfl, rfl, not_owned, rfl⟩

/-- Of SelfTestRuns: each test with a target that passes and one that fails a check, a test that does not exist, an abort in
each state, of a run that an event has cut too, and an end of the run, with its channel and without. -/
theorem witness_SelfTestRuns :
    (∀ t n (x : Bist), takesWrites .twp (st (selfTest t n x)) ∧ (selfTest t n x).bst = x)
      ∧ (∀ c ∈ [(1, 0xFF), (2, 15), (3, 31), (4, 31), (0x10, 31), (0x11, 31), (0x12, 31), (0x13, 15)],
        let b := selfTest c.1 c.2
        rwf (bstBase + 4) 15 8 b = c.1 ∧ rwf (bstBase + 4) 7 0 b = c.2 ∧ bstCheck b c.1 c.2 = none
          ∧ rwf (bstBase + 4) 15 8 (selfTest c.1 32) = c.1 ∧ (bstCheck (selfTest c.1 32) c.1 32).isSome = true)
      ∧ (let b := selfTest 5 0
         knownTest (rwf (bstBase + 4) 15 8 b) = false ∧ b.start.done = true ∧ (rw (clkBase + 0x20) b).getLsbD 12 = true ∧ b.otp.lc ≠ 6)
      ∧ (∀ t ∈ [3, 0x10], let r : BstRun := { test := t, target := 31, path := .link 15, elems := [0, 1] }
         let b := selfTest t 31 { run := some r }
         b.bst.run = some r ∧ b.sage.safe = false ∧ b.thm.safe = false
           ∧ ¬ (chanTest r.test = true ∧ b.chans[cid r.target].st = .offline) ∧ b.defers = [] ∧ reactionOf b (fs .bstFail) ≤ 2)
      ∧ (∀ cut ∈ [true, false], let r : BstRun := { test := 0x10, target := 30, path := .link 15, elems := [0, 1], cut := cut }
         let b := selfTest 0x10 30 { run := some r }
         b.bst.run = some r ∧ r.cut = cut ∧ chanTest r.test = true ∧ b.chans[cid r.target].st = .offline) :=
  ⟨fun t n x => ⟨self_takes t n x, rfl⟩, by decide +kernel, by decide +kernel, by decide +kernel, by decide +kernel⟩

/-! ### Witnesses: the two-wire port -/

/-- A transaction of the two-wire port: PEC mode is on or off. -/
def wire (x : Twp) (mode : Bool := false) (pend : List PendWr := []) : Block :=
  { svc with twp := x, regs := { live := if mode then [(twpBase, 1)] else [], pend := pend } }

/-- A stack with all straps high, in service. -/
def strapped : Block := { svc with start := { svc.start with straps := 7 } }

/-- Of TwoWireTransactions: straps taken at RESET_N's rise; the stack's address and another; a pointer and a word to take, with
and without PEC mode and with a PEC byte that fits and one that does not; a read; a STOP of a transaction and of none; a
stretch; a timeout; an error. -/
theorem witness_TwoWireTransactions :
    (5 ≤ svc.start.step ∧ ∃ u, exec (.resetNRise (BitVec.ofNat 3 (4 * b2n true + 2 * b2n true + b2n true)))
          (st { start := { pwrok := true } }) = .next u
        ∧ strapped.start.straps = u.blk.start.straps ∧ strapped.twp.stretched = false ∧ strapped.regs.badPar = [])
      ∧ (∀ busy ∈ [true, false], let b := wire { busy := busy }
        ((0x70 : Byte).toNat / 2 = 0x38 + b.start.straps.toNat ∧ (0x72 : Byte).toNat / 2 ≠ 0x38 + b.start.straps.toNat)
          ∧ b.twp.busy = busy ∧ b.twp.stretched = false ∧ b.regs.badPar = [])
      ∧ (∀ mode ∈ [true, false], ∀ set ∈ [true, false], let b := wire { busy := true, addressed := true, ptrSet := set, ptr := 0x2004 } mode
        (b.twp.addressed = true ∧ b.twp.reading = false ∧ b.twp.nacking = false) ∧ b.twp.ptrSet = set ∧ b.twp.late = none
          ∧ pecMode b = mode ∧ crc8 (b.twp.pec ++ bytesOf 4 (0 : Word)) ≠ (1 : Byte) ∧ crc8 (b.twp.pec ++ bytesOf 4 (0 : Word)) = (0 : Byte))
      ∧ (∃ u, exec (.registerWrite .twp 0x2004 0 15) (st (wire { busy := true, addressed := true, ptrSet := true, ptr := 0x2004 })) = .next u
        ∧ 5 ≤ u.blk.start.step)
      ∧ (∀ a ∈ [bstBase + 4, twpBase, 0x2400],
        let b := wire { bus := true, busy := true, addressed := true, ptrSet := true, ptr := BitVec.ofNat 32 a }
        takesB b = true ∧ b.twp.ptr.toNat = a ∧ b.twp.bus = true ∧ a % 4 = 0 ∧ a % 0x1000 < 0x800 ∧ (mapped a = false ↔ a = 0x2400)
          ∧ reactionOf b (fs .regAccess) ≤ 2)
      ∧ (∀ mode ∈ [true, false], let b := wire { busy := true, addressed := true, reading := true } mode
        (b.twp.addressed = true ∧ b.twp.reading = true ∧ b.twp.nacking = false ∧ b.pwr.state = 0) ∧ pecMode b = mode
          ∧ pecMode (readReg .twp b.twp.ptr b).2.2 = mode)
      ∧ (let b := wire { busy := true, addressed := true }; b.twp.busy = true ∧ b.regs.pend = [])
      ∧ (let b := wire {} false [{ addr := twpBase, value := 1 }]; b.twp.busy = false ∧ b.regs.pend = [{ addr := twpBase, value := 1 }])
      ∧ ((wire {}).regs.pend = [] ∧ freshSource (fs .twpTimeout) (wire {}) ∧ reactionOf (wire {}) (fs .twpTimeout) ≤ 2) := by
  refine ⟨⟨by decide, _, rfl, by decide, by decide, rfl⟩, by decide +kernel, by decide +kernel, ⟨_, rfl, by decide +kernel⟩,
    by decide +kernel, by decide +kernel, by decide +kernel, by decide +kernel, by decide +kernel, ?_, by decide +kernel⟩
  exact ⟨by decide +kernel, by decide +kernel⟩

/-! ### Tests: the spec's check values and worked examples -/

/-- "123456789", whose check values R113 and R521 give. -/
def digits : List Byte := [0x31, 0x32, 0x33, 0x34, 0x35, 0x36, 0x37, 0x38, 0x39]
theorem test_crc32c : crc32c digits = 0xE3069283 := by decide +kernel
theorem test_crc8 : crc8 digits = 0xF4 := by decide +kernel

/-- The example of R140: state 3 stays, reads a column and starts timer 2. -/
theorem test_tableEntry : let e : Word := 0x0C020021
    entNext e = 3 ∧ entAction e = 2 ∧ entGuard e = 0 ∧ entTimer e = 2 ∧ entFault e = false ∧ entHold e = false ∧ entValid e = true := by
  decide

/-- The example of R142: the ramp of class 5 at 0.8 of its target. -/
theorem test_rampCurve : (mkCurve 0x05020500 [0, 0x00800000, 0x00C00002, 0x01000004, 0x01800008]).eval 0xCC = 2 := by decide +kernel

/-- The example of chapter 7: a read, a write and a fence, all of handle 17. -/
theorem test_requestEntries :
    hdrOf 0x0140021509808861 = { op := 1, cls := 6, hint := 0, len := 0, handle := 17, line := 0x42A13, tag := 5 }
      ∧ hdrOf 0x1040000800008AA2 = { op := 2, cls := 2, hint := 1, len := 1, handle := 17, line := 0x1000, tag := 0x41 }
      ∧ (hdrOf 0x10C0000000008804).op = 4 := by decide +kernel

/-- The example of chapter 1: line 0x213 of physical segment 0x0A57C. -/
theorem test_lineAddress : segChan 0x0A57C = 0 ∧ plaSlice (plaOf 0x0A57C 0x213) = 10 ∧ plaBankIn (plaOf 0x0A57C 0x213) = 0
    ∧ plaRow (plaOf 0x0A57C 0x213) = 11236 ∧ plaCol (plaOf 0x0A57C 0x213) = 0x13 := by decide

/-- The example of chapter 12: a physical line of channel 12. -/
theorem test_physicalLine : plaSlice 0xE28151 = 3 ∧ plaBankIn 0xE28151 = 2 ∧ plaRow 0xE28151 = 5130 ∧ plaCol 0xE28151 = 17
    ∧ plaSeg 12 0xE28151 = 0xC3281 ∧ plaLine 0xE28151 = 0x151 := by decide

/-- A field of the block that a command leaves. -/
def after {α : Type} (c : Instr) (s : State) (f : Block → α) : Option α :=
  match exec c s with
  | .next t => some (f t.blk)
  | _ => none

/-- The example of chapter 21: a stack strapped to 101, the pointer at IDN_REG_OWNER, and owner 2 at the fourth byte. -/
def strapped5 (x : Twp) : State := st { svc with start := { svc.start with straps := 5 }, twp := x }
theorem test_twpStart : after (.twpStart 0x7A false false) (strapped5 {}) (fun b => b.twp.addressed) = some true := by decide +kernel
theorem test_twpOwner : after (.twpWordWrite 2 0) (strapped5 { busy := true, addressed := true, ptrSet := true, ptr := 0x14, rsp := 0x14000000 })
    (fun b => (b.regs.owner, b.twp.ptr, b.twp.rsp)) = some (2, 0x18, 0x15000100) := by decide +kernel

/-- The example of chapter 2: a second write of CHN_NRF_PROB replaces the pending value; the live register keeps its own. -/
theorem test_pendingReplaced :
    let s := st { (onChan { st := .run }).blk with regs := { pend := [{ addr := chnBase 31 + 0x14, value := 128 }] } }
    after (.registerWrite .twp (BitVec.ofNat 32 (chnBase 31 + 0x14)) 32 15) s (fun b => (b.regs.pend.map (·.value), rw (chnBase 31 + 0x14) b))
      = some ([32], rw (chnBase 31 + 0x14) s.blk) := by decide +kernel

/-- The example of chapter 20: DRAM_MARCH on channel 7 holds it, and run 5 starts. -/
theorem test_dramMarch : after (.dramMarch .twp)
    (st { selfTest 0x10 7 { runId := 4 } with chans := svc.chans.set 7 { st := .run } })
    (fun b => ((b.chans[7]).held, b.bst.runId)) = some (true, 5) := by decide +kernel

/-- A token word waits at its place (R487), least significant byte first. -/
theorem test_tokenWrite : after (.otpTokenWrite .twp 0 0x4B545856) (st svc) (fun b => b.otp.token) = some [0x56, 0x58, 0x54, 0x4B] := by
  decide +kernel

end Sys2Proof.Tests
end

section
/-! SUPPORT. One port changed: updates of a port compose, what an update of one port leaves alone, and the records and credits
that a port of a running link gives back. -/

namespace Sys2Proof.Machine

open Sys2Proof

section OnePort
variable {p : PortId} {b : Block}

theorem modPort_congr {f g : Port → Port} (h : f b.ports[p] = g b.ports[p]) : modPort p f b = modPort p g b := by
  unfold modPort; rw [h]

theorem modPort_fixed {f : Port → Port} (h : f b.ports[p] = b.ports[p]) : modPort p f b = b := by
  unfold modPort
  rw [h]
  simp

theorem modPort_modPort (f g : Port → Port) : modPort p f (modPort p g b) = modPort p (fun x => f (g x)) b := by
  simp [modPort]

theorem onlyPort_modPort (p : PortId) (f : Port → Port) (s : State) : onlyPort p s (s.upd (modPort p f s.blk)) :=
  ⟨rfl, fun _ hq => modPort_other s.blk f hq, rfl, rfl⟩

/-- The checks of a request read no port (R12). -/
@[simp] theorem requestCheck_modPort (f : Port → Port) (q : PortId) (h : Hdr) :
    requestCheck (modPort p f b) q h = requestCheck b q h := rfl

/-- Units of the link in force go back to the host's pool (R199). -/
theorem returnCredit_own {gen : Nat} (k : Fin 4) (n : Nat) (hg : b.ports[p].gen = gen) :
    returnCredit p k n gen b = modPort p (fun x => { x with ret := x.ret.set k (x.ret[k] + n) }) b :=
  modPort_congr (if_pos hg)

theorem returnCredit_zero (k : Fin 4) (gen : Nat) : returnCredit p k 0 gen b = b :=
  modPort_fixed (by simp)

/-- A READ holds one unit of REQ and none of DATA (R198). -/
theorem releaseCred_read (p : PortId) (gen : Nat) (b : Block) :
    releaseCred (some { port := p, gen := gen, req := 1, data := 0 }) b = returnCredit p 0 1 gen b :=
  returnCredit_zero 1 gen

/-- A tag of 10 bits of the link in force sends its records, unless the port is DISABLED (R163, R165). -/
theorem sends_own {x : Port} {tag : Nat} (ht : tag < 1024) (hs : x.st ≠ .disabled) : x.sends (tag + 1024 * x.gen) = true := by
  have hgen : (tag + 1024 * x.gen) / 1024 = x.gen := by omega
  simp [Port.sends, Port.live, hgen, hs]

theorem sendCmpl_sent {tag : Nat} (st : Status) (kind handle : Nat) (h : b.ports[p].sends tag = true) :
    sendCmpl p tag st kind handle b
      = modPort p (fun x => { x with txCmpl := x.txCmpl ++ [cmplRecord tag st kind handle b.time] }) b :=
  if_pos h

end OnePort

end Sys2Proof.Machine
end

section
/-! SUPPORT. Where nothing is held back, what time alone may set going changes nothing, and a step on an empty queue is one tick
of STACK_TIME. -/

namespace Sys2Proof.Machine

open Sys2Proof

variable {b : Block} {s : State}

/-! ### What waits for time alone -/

theorem haltFences_none {p : PortId} (h : b.ports[p].fences = []) : haltFences p b = b :=
  modPort_fixed (by rw [h, List.map_nil, ← h])

theorem checkFences_none {p : PortId} (h : b.ports[p].fences = []) : checkFences p b = b := by
  simp only [checkFences, h, List.filter_nil, List.foldl_nil]
  exact modPort_fixed (by rw [h, List.filter_nil, ← h])

theorem recheckFences_none (h : ∀ p : PortId, b.ports[p].fences = []) : recheckFences b = b :=
  foldl_fix _ _ _ fun p _ => (congrArg (checkFences p) (haltFences_none (h p))).trans (checkFences_none (h p))

theorem hopsNow_none (h : s.blk.clk.hops = []) : hopsNow s = s := if_pos h

theorem forcedGo_none (h : b.regs.forced = []) : forcedGo b = b := if_pos h

theorem commitIdle_none (h : b.regs.pend = []) : commitIdle b = b := by
  simp [commitIdle, pendBases, h]

/-! ### The tick -/

/-- In reset STACK_TIME stands. -/
theorem tick_inReset (h : b.start.step = 0) : tick b = b := if_pos h

theorem tick_withoutIosc (h : b.start.step ≠ 0) (hi : b.iosc = false) : tick b = { b with time := b.time + 1 } := by
  simp [tick, h, hi]

theorem tick_withIosc (h : b.start.step ≠ 0) (hi : b.iosc = true) : tick b = rcSet 0x20 1 { b with time := b.time + 1 } := by
  simp [tick, h, hi]

/-- A tick changes the time and the RC bits alone. -/
theorem tick_eq (b : Block) :
    tick b = { b with time := (tick b).time, regs := { b.regs with rc := (tick b).regs.rc } } := by
  by_cases h : b.start.step = 0
  · rw [tick_inReset h]
  · by_cases hi : b.iosc = true
    · rw [tick_withIosc h hi]; rfl
    · rw [tick_withoutIosc h (Bool.eq_false_iff.mpr hi)]

/-- A tick holds nothing back that was not held back. -/
theorem quietStack_tick (h : quietStack s) : quietStack (s.upd (tick s.blk)) := by
  rw [tick_eq s.blk]
  exact h

/-- Where nothing is held back, an empty queue lets one tick pass and nothing else. -/
theorem idleTick_quiet (h : quietStack s) : idleTick s = s.upd (tick s.blk) := by
  obtain ⟨hwait, hhops, hfences, hpend, hforced⟩ := quietStack_tick h
  unfold idleTick
  rw [settle_none hwait, hopsNow_none hhops]
  dsimp only
  rw [recheckFences_none hfences, forcedGo_none hforced, commitIdle_none hpend, State.upd_self]

theorem step_idle (h : s.pending = []) : step s = .next (idleTick s) := by
  simp only [step, h]

/-- On an empty queue, with nothing held back, a step is the tick. -/
theorem step_quiet (hp : s.pending = []) (h : quietStack s) : step s = .next (s.upd (tick s.blk)) := by
  rw [step_idle hp, idleTick_quiet h]

/-! ### Event bits -/

theorem bset_getLsbD_same {w i : Nat} (x : BitVec w) (h : i < w) : (bset x i).getLsbD i = true := by
  rw [bset, BitVec.getLsbD_or, BitVec.getLsbD_ofNat, Nat.one_shiftLeft, Nat.testBit_two_pow_self]
  simp [h]

theorem rcGet_rcSet_same (a i : Nat) (b : Block) : rcGet a (rcSet a i b) = bset (rcGet a b) i :=
  mget_mset_same _ _ _ _

end Sys2Proof.Machine

open Sys2Proof Sys2Proof.Machine

/-- Settles O2: nothing held back leaves the tick alone (`step_quiet`), and the tick has one case for each clause. -/
theorem idleTickCountsTime : Obligations.IdleTickCountsTime := by
  intro s hp hq
  rw [step_quiet hp hq]
  refine ⟨fun h0 => ?inReset, fun h0 hi => ?counted, fun h0 hi => ⟨_, rfl, ?countedFromIosc⟩⟩
  case inReset => rw [tick_inReset h0, State.upd_self]
  case counted => rw [tick_withoutIosc h0 hi]
  case countedFromIosc =>
    rw [tick_withIosc h0 hi]
    refine ⟨rfl, rfl, ?_⟩
    rw [State.upd_blk, rcGet_rcSet_same]
    exact bset_getLsbD_same _ (by decide)

end

section
/-! SUPPORT. Data requests: a request that waits alone is taken at once, what the order of R12 answers, and a refused READ. -/

namespace Sys2Proof.Machine

open Sys2Proof

/-! ### Request entries -/

theorem hdrOf_tag_lt (e : BitVec 64) : (hdrOf e).tag < 1024 := Nat.mod_lt _ (by decide)

/-- An entry is itself where it is no masked write, whatever mask is asked for. -/
theorem isEntry_unmasked {e : BitVec 64} (h : (hdrOf e).op ≠ 3) (mask m : BitVec 64) (gen arr : Nat) :
    isEntry e mask (.req e m gen arr) = true := by
  have hop : e.toNat % 16 ≠ 3 := h
  simp [isEntry, hop]

section Alone
variable {p : PortId} {e mask m : BitVec 64} {gen arr : Nat} {s : State}

/-- In P0 no request has a power state to end (R439). -/
theorem wakeEntry_P0 (ok : Hdr → Bool) (h : s.blk.pwr.state = 0) : wakeEntry p e mask ok s = s := by
  simp [wakeEntry, wakeRow, h]

/-- A request that waits alone on its port, and whose lookup is not held, is taken at once. -/
theorem runEntry_alone {ok : Hdr → Bool} (k : Hdr → Nat → Nat → Nat → State → State)
    (hw : waitsAlone p (.req e m gen arr) s) (hok : ok (hdrOf e) = true) (hmine : isEntry e mask (.req e m gen arr) = true)
    (hfree : (hdrOf e).op = 1 → requestCheck s.blk p (hdrOf e) = .ok →
      lookupHeld s.blk (hdrOf e).handle (hdrOf e).line = false) :
    runEntry p e mask ok k s = k (hdrOf e) ((hdrOf e).tag + 1024 * gen) gen arr
      (s.upd (modPort p (fun x => { x with rxq := [] }) s.blk)) := by
  obtain ⟨-, hrxq, hfences, hwrites, -⟩ := hw
  have htake : takeItem (isEntry e mask) [] s.blk.ports[p].rxq = some ([], .req e m gen arr, []) := by
    rw [hrxq, takeItem, if_pos hmine]
  have harrive : arrive p (isEntry e mask) (acceptReq e mask s.blk.now) s.blk = s.blk := by
    simp only [arrive, htake]
  have hfenced : fenced s.blk.ports[p] [] ((hdrOf e).tag + 1024 * gen) (some (hdrOf e).handle) = false := by
    rw [fenced, hfences]; rfl
  have hclash : clashes s.blk.ports[p] [] (hdrOf e) = false := by
    rw [clashes, hwrites]; simp
  have hlook : ((hdrOf e).op = 1 && requestCheck s.blk p (hdrOf e) == .ok
      && lookupHeld s.blk (hdrOf e).handle (hdrOf e).line) = false := by
    rw [Bool.eq_false_iff]
    simp only [ne_eq, Bool.and_eq_true, decide_eq_true_eq, beq_iff_eq]
    rintro ⟨⟨hop, hst⟩, hheld⟩
    exact Bool.false_ne_true ((hfree hop hst).symm.trans hheld)
  unfold runEntry
  simp only [hok, harrive, htake, hfenced, hclash, hlook]
  rfl

end Alone

/-! ### The order of checks (R12) -/

section Checks
variable {b : Block} {p : PortId} {h : Hdr} {n : Nat}

theorem handleCheck_refusing (g : Nat) (hr : refusing b = true) : handleCheck b p g = .accessError := if_pos hr

theorem handleCheck_noHandle {g : Nat} (hr : refusing b = false) (hn : handleSize b g = none) :
    handleCheck b p g = .noHandle := by
  simp [handleCheck, hr, hn]

theorem handleCheck_portExcluded {g : Nat} (hr : refusing b = false) (hn : handleSize b g = some n)
    (hp : (portsOf b g).getLsbD p.val = false) : handleCheck b p g = .accessError := by
  simp only [handleCheck, hr, hn, hp, Bool.false_eq_true, if_false]

theorem handleCheck_ok {g : Nat} (hr : refusing b = false) (hn : handleSize b g = some n)
    (hp : (portsOf b g).getLsbD p.val = true) : handleCheck b p g = .ok := by
  simp [handleCheck, hr, hn, hp]

/-- What the handle refuses comes before the lines are looked at. -/
theorem requestCheck_handleRefused {st : Status} (hc : handleCheck b p h.handle = st) (hne : st ≠ .ok) :
    requestCheck b p h = st := by
  subst hc
  unfold requestCheck
  split
  · next hok => exact absurd hok hne
  · rfl

theorem requestCheck_beyond (hc : handleCheck b p h.handle = .ok) (hn : handleSize b h.handle = some n)
    (hl : 1024 * n < h.line + h.count) : requestCheck b p h = .accessError := by
  simp [requestCheck, hc, hn, hl]

theorem requestCheck_unaligned (hc : handleCheck b p h.handle = .ok) (hn : handleSize b h.handle = some n)
    (hl : h.line + h.count ≤ 1024 * n) (ha : h.line % h.count ≠ 0) : requestCheck b p h = .badArg := by
  simp [requestCheck, hc, hn, Nat.not_lt.mpr hl, ha]

end Checks

/-! ### A refused READ -/

/-- A port that has answered the one request that waited with the record `r`, and gives its REQ unit back. -/
def answeredPort (r : BitVec 64) (x : Port) : Port :=
  { x with rxq := [], ret := x.ret.set 0 (x.ret[0] + 1), txCmpl := x.txCmpl ++ [r] }

theorem doRead_refused {p : PortId} {h : Hdr} {b : Block} (tag gen arr : Nat) (hne : requestCheck b p h ≠ .ok) :
    doRead p h tag gen arr b = sendCmpl p tag (requestCheck b p h) 2 h.handle (returnCredit p 0 1 gen b) := by
  unfold doRead
  dsimp only
  split
  · next hok => exact absurd hok hne
  · rw [releaseCred_read]

theorem exec_read (p : PortId) (e : BitVec 64) (s : State) :
    exec (.read p e) s = .next (readRow p e (wakeEntry p e 0 (fun h => h.op == 1) s)) := rfl

/-- A refused READ that waits alone answers with its status and gives its credit back; nothing else changes. -/
theorem exec_read_refused {p : PortId} {e mask : BitVec 64} {arr : Nat} {s : State} {st : Status}
    (hw : waitsAlone p (.req e mask s.blk.ports[p].gen arr) s) (hop : (hdrOf e).op = 1)
    (hst : requestCheck s.blk p (hdrOf e) = st) (hne : st ≠ .ok) :
    exec (.read p e) s = .next (s.upd (modPort p (answeredPort
      (cmplRecord ((hdrOf e).tag + 1024 * s.blk.ports[p].gen) st 2 (hdrOf e).handle s.blk.time)) s.blk)) := by
  obtain ⟨hP0, -, -, -, hup⟩ := id hw
  have hrow : readRow p e s = s.upd (doRead p (hdrOf e) ((hdrOf e).tag + 1024 * s.blk.ports[p].gen) s.blk.ports[p].gen arr
      (modPort p (fun x => { x with rxq := [] }) s.blk)) :=
    runEntry_alone _ hw (by simp [hop]) (isEntry_unmasked (by simp [hop]) _ _ _ _) fun _ hok => absurd (hst ▸ hok) hne
  rw [exec_read, wakeEntry_P0 _ hP0, hrow, doRead_refused _ _ _ (by rwa [requestCheck_modPort, hst]), requestCheck_modPort, hst,
    returnCredit_own 0 1 (by rw [modPort_same]), modPort_modPort,
    sendCmpl_sent _ _ _ (by rw [modPort_same]; exact sends_own (hdrOf_tag_lt e) hup), modPort_modPort]
  rfl

/-- What the host sees of a refused READ. -/
theorem read_refused_answers {p : PortId} {e mask : BitVec 64} {arr : Nat} {s : State} {st : Status}
    (hw : waitsAlone p (.req e mask s.blk.ports[p].gen arr) s) (hop : (hdrOf e).op = 1)
    (hst : requestCheck s.blk p (hdrOf e) = st) (hne : st ≠ .ok) :
    ∃ t, exec (.read p e) s = .next t ∧ onlyPort p s t ∧ t.blk.ports[p].rxq = []
      ∧ t.blk.ports[p].txCmpl = s.blk.ports[p].txCmpl
          ++ [cmplRecord ((hdrOf e).tag + 1024 * s.blk.ports[p].gen) st 2 (hdrOf e).handle s.blk.time]
      ∧ t.blk.ports[p].txData = s.blk.ports[p].txData
      ∧ t.blk.ports[p].ret = s.blk.ports[p].ret.set 0 (s.blk.ports[p].ret[0] + 1) := by
  refine ⟨_, exec_read_refused hw hop hst hne, onlyPort_modPort p _ s, ?_⟩
  rw [State.upd_blk, modPort_same]
  exact ⟨rfl, rfl, rfl, rfl⟩

end Sys2Proof.Machine

open Sys2Proof Sys2Proof.Machine

/-- Settles O22: `read_refused_answers` for each status that the order of R12 gives. -/
theorem readRefusals : Obligations.ReadRefusals := by
  intro p e mask arr s hw hop
  have hcount : (hdrOf e).count = 2 ^ (hdrOf e).len := if_neg (by rw [hop]; decide)
  refine ⟨fun hr => ?refusing, fun hr hn => ?noHandle, fun hr n hn =>
    ⟨fun hp => ?portExcluded, fun hp => ⟨fun hl => ?beyond, fun hl ha => ?unaligned⟩⟩⟩
  case refusing =>
    exact read_refused_answers hw hop (requestCheck_handleRefused (handleCheck_refusing _ hr) (by decide)) (by decide)
  case noHandle =>
    exact read_refused_answers hw hop (requestCheck_handleRefused (handleCheck_noHandle hr hn) (by decide)) (by decide)
  case portExcluded =>
    exact read_refused_answers hw hop (requestCheck_handleRefused (handleCheck_portExcluded hr hn hp) (by decide)) (by decide)
  case beyond =>
    exact read_refused_answers hw hop (requestCheck_beyond (handleCheck_ok hr hn hp) hn (by rwa [hcount])) (by decide)
  case unaligned =>
    exact read_refused_answers hw hop
      (requestCheck_unaligned (handleCheck_ok hr hn hp) hn (by rwa [hcount]) (by rwa [hcount])) (by decide)

end

section
/-! SUPPORT. What every operation of the model does to DRAM and to the queue: it stores whole lines or loses all data, so the
canonical form stays, and it leaves the commands that wait. One lemma per operation over the state, in the order of the model. -/

namespace Sys2Proof.Machine

open Sys2Proof

/-- `s` has come from `r` by operations of the stack: the commands that wait are those of `r`, and DRAM is in its canonical form
if it was in `r`. -/
def Evolves (r s : State) : Prop := s.pending = r.pending ∧ (Inv r → Inv s)

/-- Where a command answers a next state, it has come from `r`. -/
def AnswerEvolves (r : State) (a : Res) : Prop := ∀ t, a = .next t → Evolves r t

section Rules
variable {r s t : State}

theorem Evolves.refl : Evolves r r := ⟨rfl, id⟩

/-- A change of the units. -/
theorem Evolves.upd {b : Block} (h : Evolves r s) : Evolves r (s.upd b) := h

/-- A stored line. -/
theorem Evolves.store {c a : Nat} {v : Stored} (h : Evolves r s) : Evolves r { s with mem := dramSet s.mem c a v } :=
  ⟨h.1, fun hr => dramSet_wf c a v (h.2 hr)⟩

/-- The loss of all data. -/
theorem Evolves.lose {b : Block} (h : Evolves r s) : Evolves r { s with blk := b, mem := [] } := ⟨h.1, fun _ => rfl⟩

theorem Evolves.ite {p : Prop} [Decidable p] (hs : Evolves r s) (ht : Evolves r t) : Evolves r (if p then s else t) := by
  split <;> assumption

theorem Evolves.foldl {β : Type} {f : State → β → State} {l : List β} (hf : ∀ s x, Evolves r s → Evolves r (f s x))
    (h : Evolves r s) : Evolves r (l.foldl f s) := by
  induction l generalizing s with
  | nil => exact h
  | cons x l ih => exact ih (hf s x h)

theorem AnswerEvolves.next (h : Evolves r s) : AnswerEvolves r (.next s) := by
  rintro t ⟨⟩; exact h

theorem AnswerEvolves.fault {f : Fault} : AnswerEvolves r (.fault f) := by rintro t ⟨⟩

end Rules

variable {r s : State}

/-! ### Lines of DRAM -/

theorem mirrorSoft_evolves {c a : Nat} {v : Stored} (h : Evolves r s) : Evolves r (mirrorSoft c a v s) := by
  unfold mirrorSoft
  dsimp only
  split
  · exact h
  · exact .ite h (.ite h.store h.upd)

theorem putLine_evolves {c a : Nat} {v : Stored} (h : Evolves r s) : Evolves r (putLine c a v s) := by
  unfold putLine
  refine mirrorSoft_evolves ?_
  split
  · exact h.upd
  · exact h.store

theorem storeLine_evolves {c : Nat} {e : Acc} (h : Evolves r s) : Evolves r (storeLine c e s) := (putLine_evolves h).upd

theorem fillSegment_evolves {g : Nat} {v : Stored} (h : Evolves r s) : Evolves r (fillSegment g v s) :=
  .foldl (fun _ _ => putLine_evolves) h

theorem startFill_evolves {g k : Nat} (h : Evolves r s) : Evolves r (startFill g k s) := (fillSegment_evolves h).upd

theorem firstWrite_evolves {g k : Nat} (h : Evolves r s) : Evolves r (firstWrite g k s) := by
  have hfill : Evolves r (startFill g k (s.upd (setWritten g true s.blk))) := startFill_evolves h.upd
  refine .ite h ?_
  dsimp only
  split
  · exact startFill_evolves hfill
  · exact hfill

/-! ### Requests -/

theorem doWrite_evolves {p : PortId} {w : WPend} (h : Evolves r s) : Evolves r (doWrite p w s) := by
  unfold doWrite
  dsimp only
  split
  · exact h.upd
  · refine .ite h.upd ?_
    split
    · exact h.upd
    · exact .ite h.upd (firstWrite_evolves h).upd

theorem flushN_evolves {p : PortId} {n : Nat} (h : Evolves r s) : Evolves r (flushN p n s) := by
  induction n generalizing s with
  | zero => exact h
  | succ n ih =>
    unfold flushN
    split
    · exact h
    · exact ih (doWrite_evolves h.upd)

theorem flushWrites_evolves {p : PortId} (h : Evolves r s) : Evolves r (flushWrites p s) := flushN_evolves h

theorem flushAll_evolves (h : Evolves r s) : Evolves r (flushAll s) := .foldl (fun _ _ => flushWrites_evolves) h

/-- A request entry changes what its own meaning `k` changes. -/
theorem runEntry_evolves {p : PortId} {e mask : BitVec 64} {ok : Hdr → Bool} {k : Hdr → Nat → Nat → Nat → State → State}
    (hk : ∀ x tag gen arr s, Evolves r s → Evolves r (k x tag gen arr s)) (h : Evolves r s) :
    Evolves r (runEntry p e mask ok k s) := by
  unfold runEntry
  dsimp only
  refine .ite h ?_
  split
  · exact .ite h.upd (.ite h.upd (hk _ _ _ _ _ h.upd))
  · exact h.upd

theorem dataRow_evolves {p : PortId} {tag : BitVec 10} {line : BitVec 3} {poison : Bool} {d : Line} (h : Evolves r s) :
    Evolves r (dataRow p tag line poison d s) := by
  unfold dataRow
  dsimp only
  split
  · exact .ite (flushWrites_evolves h.upd) h.upd
  · exact h.upd

/-! ### Protection -/

theorem dillStep_evolves {c : Nat} {err : Stored} (h : Evolves r s) : Evolves r (dillStep c err s) :=
  .ite h (.ite h (.ite h.upd h.upd))

theorem verifyRead_evolves {c : Nat} {err : Stored} (h : Evolves r s) : Evolves r (verifyRead c err s) := by
  unfold verifyRead
  split
  · exact h
  · exact h.upd

theorem softDone_evolves {c : Nat} {errs : List LineErr} (h : Evolves r s) : Evolves r (softDone c errs s) := by
  unfold softDone
  split
  · exact h
  · exact .ite h (.ite h.upd h.upd)

/-- The rebuild of a written-bitmap word fills the segments of the flat region (R344). -/
theorem rebuildWritten_evolves {w : Nat} (h : Evolves r s) : Evolves r (rebuildWritten w s) := by
  refine .ite h (Evolves.upd (.foldl (fun s g hs => ?_) h))
  refine .ite (fillSegment_evolves hs).upd ?_
  split
  · exact .ite hs hs.upd
  · exact hs

/-! ### Bank machines -/

theorem writeColumn_evolves {c : Nat} {e : Acc} (h : Evolves r s) : Evolves r (writeColumn c e s) := by
  have hline := storeLine_evolves (c := c) (e := e) (h.upd (b := countColumn c e (modChan (cid c) (dropEntry e) s.blk)))
  unfold writeColumn
  dsimp only
  split
  · exact hline.upd
  · exact hline.upd
  · exact hline.upd
  · exact hline

theorem bankAct_evolves {c k act : Nat} {t : Sel} (h : Evolves r s) : Evolves r (bankAct c k act t s) := by
  unfold bankAct
  dsimp only
  split
  case h_3 => exact writeColumn_evolves h.upd
  all_goals exact h.upd

theorem bankEvent_evolves {c k ev : Nat} {t : Sel} (h : Evolves r s) : Evolves r (bankEvent c k ev t s).1 := by
  unfold bankEvent
  dsimp only
  split
  · exact h
  split
  · exact h.upd
  split
  · split
    · exact h.upd
    · exact h
  · exact .ite (bankAct_evolves h).upd.upd (bankAct_evolves h).upd

theorem heldScan_evolves {c k : Nat} {l : List (Nat × Option Nat × Option Nat)} (h : Evolves r s) :
    Evolves r (heldScan c k l s).1 := by
  induction l generalizing s with
  | nil => exact h
  | cons x l ih =>
    unfold heldScan
    dsimp only
    split
    · exact h.upd
    split
    · exact (bankEvent_evolves h).upd
    · exact ih (bankEvent_evolves h)

theorem bankHeld_evolves {c k n : Nat} (h : Evolves r s) : Evolves r (bankHeld c k n s) := by
  induction n generalizing s with
  | zero => exact h
  | succ n ih => exact .ite (ih (heldScan_evolves h.upd)) (heldScan_evolves h.upd)

theorem fire_evolves {c k ev : Nat} {t : Sel} (h : Evolves r s) : Evolves r (fire c k ev t s).1 := by
  unfold fire
  dsimp only
  split
  · exact bankHeld_evolves (bankEvent_evolves h)
  · exact bankEvent_evolves h

theorem bankTimer_evolves {c k : Nat} (h : Evolves r s) : Evolves r (bankTimer c k s) := .ite h (fire_evolves h.upd)

theorem fireAll_evolves {c ev : Nat} (h : Evolves r s) : Evolves r (fireAll c ev s) := .foldl (fun _ _ => fire_evolves) h

theorem closeAll_evolves {c : Nat} (h : Evolves r s) : Evolves r (closeAll c s) :=
  .foldl (fun _ _ hs => .ite (fire_evolves hs) hs) h

/-! ### The scheduler -/

theorem issueAcc_evolves {c : Nat} {raw : Bool} {e : Acc} (h : Evolves r s) : Evolves r (issueAcc c raw e s) := by
  unfold issueAcc
  dsimp only
  split
  · exact .ite h.upd (writeColumn_evolves h)
  · exact .ite (fire_evolves h) (fire_evolves h).upd
  · exact fire_evolves h
  · exact .ite (fire_evolves (fire_evolves h)) (fire_evolves h)

theorem refreshNow_evolves {c k : Nat} (h : Evolves r s) : Evolves r (refreshNow c k s) :=
  fire_evolves (.ite (fire_evolves h) h)

theorem leavePowerDown_evolves {c : Nat} (h : Evolves r s) : Evolves r (leavePowerDown c s) := .ite h (fireAll_evolves h)

theorem forceRefresh_evolves {c k : Nat} (h : Evolves r s) : Evolves r (forceRefresh c k s) :=
  .ite h (refreshNow_evolves h.upd)

theorem refreshTurn_evolves {c k : Nat} (h : Evolves r s) : Evolves r (refreshTurn c k s) := by
  have hforced := forceRefresh_evolves (c := c) (k := k) (leavePowerDown_evolves (c := c)
    (h.upd (b := modChan (cid c) (fun x => { x with dueLeft := sdel k x.dueLeft }) s.blk)))
  exact .ite h.upd (.ite hforced.upd (.ite hforced.upd (refreshNow_evolves hforced.upd)))

theorem gapRefresh_evolves {c k : Nat} (h : Evolves r s) : Evolves r (gapRefresh c k s) :=
  .ite (fire_evolves h) (fire_evolves h.upd)

theorem nrfIssue_evolves {c k : Nat} (h : Evolves r s) : Evolves r (nrfIssue c k s) :=
  .ite (fire_evolves h) (fire_evolves h)

theorem pullIn_evolves {c k : Nat} (h : Evolves r s) : Evolves r (pullIn c k s) :=
  .ite (fire_evolves h) (.ite (fire_evolves h).upd (fire_evolves h))

theorem settleBank_evolves {c k : Nat} (h : Evolves r s) : Evolves r (settleBank c k s) := by
  refine .foldl (fun _ _ => refreshNow_evolves) (Evolves.upd ?_)
  split
  · exact h
  · exact .foldl (fun _ _ => fire_evolves) (.ite (fire_evolves h) h)

theorem settleBanks_evolves {c : Nat} (h : Evolves r s) : Evolves r (banksOf.foldl (fun s k => settleBank c k s) s) :=
  .foldl (fun _ _ => settleBank_evolves) h

theorem enterSelfRefresh_evolves {c : Nat} (h : Evolves r s) : Evolves r (enterSelfRefresh c s) :=
  fireAll_evolves (closeAll_evolves (settleBanks_evolves h))

theorem leaveSelfRefresh_evolves {c : Nat} (h : Evolves r s) : Evolves r (leaveSelfRefresh c s) :=
  .ite h.upd (fireAll_evolves h)

theorem enterPowerDown_evolves {c : Nat} {raws : List Bool} (h : Evolves r s) : Evolves r (enterPowerDown c raws s) :=
  .ite h.upd (fireAll_evolves h.upd)

theorem sinkPowerDown_evolves {c : Nat} {raws : List Bool} (h : Evolves r s) : Evolves r (sinkPowerDown c raws s) :=
  fireAll_evolves (closeAll_evolves (settleBanks_evolves h.upd))

theorem settleCycle_evolves {c ev : Nat} (h : Evolves r s) : Evolves r (settleCycle c ev s) := by
  unfold settleCycle
  dsimp only
  split
  · exact fire_evolves h
  · exact fire_evolves h
  · exact fire_evolves h.upd
  · exact .ite h (fireAll_evolves h)

theorem switchCycle_evolves {c div : Nat} (h : Evolves r s) : Evolves r (switchCycle c div s) := by
  unfold switchCycle
  dsimp only
  split
  · exact fire_evolves h
  · exact .ite h h.upd

theorem cycleCommand_evolves {c : Nat} {raw : Bool} (h : Evolves r s) : Evolves r (cycleCommand c raw s) := by
  unfold cycleCommand
  dsimp only
  split
  · exact gapRefresh_evolves h
  · exact nrfIssue_evolves h
  · refine .ite h ?_
    split
    · exact issueAcc_evolves h
    split
    · exact fire_evolves h
    split
    · exact pullIn_evolves h
    · exact h

theorem runCycle_evolves {c : Nat} {raw : Bool} (h : Evolves r s) : Evolves r (runCycle c raw s) := by
  refine .ite (settleCycle_evolves h) ?_
  split
  · exact switchCycle_evolves h
  · exact .ite (settleCycle_evolves h) (cycleCommand_evolves h.upd)

theorem abortBanks_evolves {c : Nat} (h : Evolves r s) : Evolves r (abortBanks c s) := fireAll_evolves h.upd

theorem schedule_evolves {c : Nat} {raw : Bool} (h : Evolves r s) : Evolves r (schedule c raw s) := by
  have hflushed : Evolves r (if (modChan (cid c) (fun x => { x with cycle := x.cycle + 1 }) s.blk).chans[cid c].srWant
      then flushAll (s.upd (modChan (cid c) (fun x => { x with cycle := x.cycle + 1 }) s.blk))
      else s.upd (modChan (cid c) (fun x => { x with cycle := x.cycle + 1 }) s.blk)) := .ite (flushAll_evolves h.upd) h.upd
  exact .ite (abortBanks_evolves hflushed)
    (.ite (.ite hflushed.upd (.ite (leavePowerDown_evolves hflushed.upd) (fireAll_evolves hflushed.upd)))
      (.ite hflushed (runCycle_evolves hflushed.upd).upd))

theorem tickRefresh_evolves {c : Nat} (h : Evolves r s) : Evolves r (tickRefresh c s) :=
  refreshTurn_evolves (Evolves.upd (.foldl (fun _ _ => forceRefresh_evolves) (.foldl (fun _ _ => refreshTurn_evolves) h)))

theorem readReturn_evolves {c : Nat} {err : Stored} (h : Evolves r s) : Evolves r (readReturn c err s) := by
  unfold readReturn
  split
  · exact h
  · exact h.upd

theorem fillClose_evolves {c g : Nat} (h : Evolves r s) : Evolves r (fillClose c g s) :=
  .foldl (fun _ _ hs => Evolves.upd (.ite (fire_evolves hs) hs)) h

theorem fillDone_evolves {c : Nat} {raws : List Bool} (h : Evolves r s) : Evolves r (fillDone c raws s) := by
  unfold fillDone
  split
  · exact h
  · exact (fillClose_evolves h).upd

end Sys2Proof.Machine

end

section
/-! SUPPORT. What the engines' pieces do to DRAM and to the queue: they ask for lines, and fill the segments that they write
first. -/

namespace Sys2Proof.Machine

open Sys2Proof

variable {r s : State} {w v : Work1} {d : Desc}

/-! ### Line accesses of a piece -/

/-- A change of the piece alone. -/
theorem Evolves.on {f : Piece → Piece} (h : Evolves r w.s) : Evolves r (w.on f).s := h

theorem useAns_s (a : Ans) (off : Nat) (w : Work1) : (useAns a off w).2.s = w.s := by
  unfold useAns
  split
  · dsimp only; split <;> rfl
  all_goals rfl

theorem engRead_evolves {second : Bool} {line off : Nat} {a : Option (Bool × Line)}
    (hread : engRead d second line off w = (a, v)) (h : Evolves r w.s) : Evolves r v.s := by
  suffices Evolves r (engRead d second line off w).2.s by rwa [hread] at this
  unfold engRead
  split
  · exact h
  split
  · rw [useAns_s]; exact h
  split
  · exact h
  split
  · exact h
  · rw [knowAns, useAns_s]; exact h
  · dsimp only; rw [knowAns, useAns_s]; exact h.upd
  · split
    · rw [knowAns, useAns_s]; exact h
    · exact h.upd

/-- The first write to a segment of a piece fills it (R354). -/
theorem engWrite_evolves {second poison : Bool} {line off : Nat} {x : Line} (h : Evolves r w.s) :
    Evolves r (engWrite d second line off poison x w).s := by
  unfold engWrite
  split
  · exact h
  split
  · exact h
  · exact h
  · exact h
  · exact (firstWrite_evolves h).upd

/-! ### The operations -/

theorem copyStep_evolves {i : Nat} (h : Evolves r w.s) : Evolves r (copyStep d w i).s := by
  unfold copyStep
  split
  next hread => exact engWrite_evolves (engRead_evolves hread h)
  next hread => exact engRead_evolves hread h

theorem fillStep_evolves {i : Nat} (h : Evolves r w.s) : Evolves r (fillStep d w i).s := engWrite_evolves h

theorem zeroStep_evolves {i : Nat} (h : Evolves r w.s) : Evolves r (zeroStep d w i).s := by
  unfold zeroStep
  split
  · split
    · exact engWrite_evolves h
    · exact h
  · exact engWrite_evolves h

theorem reduceStep_evolves {i : Nat} (h : Evolves r w.s) : Evolves r (reduceStep d w i).s := by
  unfold reduceStep
  dsimp only
  split
  next hread => exact (engRead_evolves hread h).on
  next hread => exact engRead_evolves hread h

theorem crcStep_evolves {i : Nat} (h : Evolves r w.s) : Evolves r (crcStep d w i).s := by
  unfold crcStep
  split
  next hread => exact (engRead_evolves hread h).on
  next hread => exact engRead_evolves hread h

theorem compareStep_evolves {i : Nat} (h : Evolves r w.s) : Evolves r (compareStep d w i).s := by
  unfold compareStep
  split
  next hread =>
    split
    next hread' =>
      split
      · exact (engRead_evolves hread' (engRead_evolves hread h)).on
      · exact engRead_evolves hread' (engRead_evolves hread h)
    next hread' => exact engRead_evolves hread' (engRead_evolves hread h)
  next hread => exact engRead_evolves hread h

theorem atomicStep_evolves {i : Nat} (h : Evolves r w.s) : Evolves r (atomicStep d w i).s := by
  unfold atomicStep
  split
  · dsimp only; split <;> exact h
  · exact h
  · rw [useAns_s]; exact h
  split
  · exact h
  split
  · exact h
  · exact h
  · exact h.upd
  split
  · exact h.upd
  split
  · exact engWrite_evolves h
  · exact h

theorem gatherEntry_evolves {idx j : Nat} (h : Evolves r w.s) : Evolves r (gatherEntry d idx j w).s := by
  unfold gatherEntry
  split
  · exact h
  split
  next hread => exact engWrite_evolves (engRead_evolves hread h)
  next hread => exact engRead_evolves hread h

theorem scatterWins_evolves {idx j : Nat} (h : Evolves r w.s) : Evolves r (scatterWins d idx j w).2.s := by
  unfold scatterWins
  split
  · exact h
  split
  · exact h.upd
  · exact h

theorem scatterEntry_evolves {idx j : Nat} (h : Evolves r w.s) : Evolves r (scatterEntry d idx j w).s := by
  unfold scatterEntry
  split
  · exact h
  split
  next hread =>
    dsimp only
    split
    · exact engWrite_evolves (scatterWins_evolves (engRead_evolves hread h))
    · exact scatterWins_evolves (engRead_evolves hread h)
  next hread => exact engRead_evolves hread h

theorem listLine_evolves {t j : Nat} {a : Option (Bool × Line)} (hline : listLine d t j w = (a, v)) (h : Evolves r w.s) :
    Evolves r v.s := by
  suffices Evolves r (listLine d t j w).2.s by rwa [hline] at this
  unfold listLine
  split
  · split
    · exact h
    split
    next hread => exact (engRead_evolves hread h).on
    next hread => exact engRead_evolves hread h
  · split
    next hread => exact (engRead_evolves hread h).on
    next hread => exact engRead_evolves hread h

theorem listStep_evolves {j : Nat} (h : Evolves r w.s) : Evolves r (listStep d w j).s := by
  unfold listStep
  split
  next hline =>
    dsimp only
    split
    · exact gatherEntry_evolves (listLine_evolves hline h)
    · exact scatterEntry_evolves (listLine_evolves hline h)
  next hline => exact (listLine_evolves hline h).on
  next hline => exact listLine_evolves hline h

/-! ### Pieces -/

/-- What keeps `Evolves` for a piece and one more step keeps it for a run of steps. -/
theorem foldl_work_evolves {α β : Type} {f : α → β → α} {g : α → Work1} {l : List β} {a : α}
    (hf : ∀ a x, Evolves r (g a).s → Evolves r (g (f a x)).s) (h : Evolves r (g a).s) : Evolves r (g (l.foldl f a)).s := by
  induction l generalizing a with
  | nil => exact h
  | cons x l ih => exact ih (hf a x h)

/-- One line that an owner-defined piece sees, behind those that it has seen. -/
def ownerGet (d : Desc) (second : Bool) (base : Nat) (a : List Line × Work1) (i : Nat) : List Line × Work1 :=
  if a.2.wait then a else
  match engRead d second (base + i) i a.2 with
  | (some (_, x), v) => (a.1 ++ [x], v)
  | (none, v) => (a.1 ++ [0], v)

/-- The lines of one range, where the format entry has its flag. -/
def ownerRange (d : Desc) (fl : List Byte) (flag : Nat) (second : Bool) (base lo hi : Nat) (a : List Line × Work1) :
    List Line × Work1 :=
  if fmtFlag fl flag then ((List.range (hi - lo)).map (lo + ·)).foldl (ownerGet d second base) a else a

theorem ownerRead_eq (fl : List Byte) (lo hi : Nat) : ownerRead d fl lo hi w
    = ownerRange d fl 2 true (dLine2 d.words) lo hi (ownerRange d fl 0 false (dLine d.words) lo hi ([], w)) := rfl

theorem ownerGet_evolves {second : Bool} {base i : Nat} {a : List Line × Work1} (h : Evolves r a.2.s) :
    Evolves r (ownerGet d second base a i).2.s := by
  unfold ownerGet
  split
  · exact h
  split
  next hread => exact engRead_evolves hread h
  next hread => exact engRead_evolves hread h

theorem ownerRange_evolves {fl : List Byte} {flag base lo hi : Nat} {second : Bool} {a : List Line × Work1}
    (h : Evolves r a.2.s) : Evolves r (ownerRange d fl flag second base lo hi a).2.s := by
  unfold ownerRange
  split
  · exact foldl_work_evolves (g := Prod.snd) (fun _ _ => ownerGet_evolves) h
  · exact h

theorem ownerRead_evolves {fl : List Byte} {lo hi : Nat} (h : Evolves r w.s) : Evolves r (ownerRead d fl lo hi w).2.s := by
  rw [ownerRead_eq]
  exact ownerRange_evolves (ownerRange_evolves h)

theorem ownerWrite_evolves {fl : List Byte} {x : Nat × Line} (h : Evolves r w.s) : Evolves r (ownerWrite d fl w x).s := by
  unfold ownerWrite
  dsimp only
  split
  · exact h
  split
  · exact engWrite_evolves h
  split
  · exact engWrite_evolves h
  · exact h

theorem ownerStep_evolves {fl : List Byte} {lo hi i : Nat} (h : Evolves r w.s) : Evolves r (ownerStep d fl lo hi w i).s := by
  unfold ownerStep
  dsimp only
  split
  · exact ownerRead_evolves h
  · exact foldl_work_evolves (g := id) (fun _ _ => ownerWrite_evolves) (ownerRead_evolves h)

theorem runStep_evolves {f : Work1 → Nat → Work1} (hf : ∀ w i, Evolves r w.s → Evolves r (f w i).s) {i : Nat}
    (h : Evolves r w.s) : Evolves r (runStep d f w i).s := by
  unfold runStep
  dsimp only
  split
  · exact h
  split
  · exact h
  split
  · exact hf _ _ h
  · exact hf _ _ h

theorem runSteps_evolves {f : Work1 → Nat → Work1} (hf : ∀ w i, Evolves r w.s → Evolves r (f w i).s) {lo hi : Nat}
    (h : Evolves r w.s) : Evolves r (runSteps d f lo hi w).s := by
  have hrun : Evolves r ((List.range (hi - lo)).foldl (fun w i => runStep d f w (lo + i)) w).s :=
    foldl_work_evolves (g := id) (fun _ _ => runStep_evolves hf) h
  unfold runSteps
  dsimp only
  split <;> exact hrun

theorem runPiece_evolves (h : Evolves r w.s) : Evolves r (runPiece d w).s := by
  unfold runPiece
  dsimp only
  split
  · exact h
  split
  · exact runSteps_evolves (fun _ _ => copyStep_evolves) h
  split
  · exact runSteps_evolves (fun _ _ => fillStep_evolves) h
  split
  · split
    · exact runSteps_evolves (fun _ _ => zeroStep_evolves) h
    split
    · exact h
    · exact h.upd
  split
  · exact runSteps_evolves (fun _ _ => atomicStep_evolves) h
  split
  · exact runSteps_evolves (fun _ _ => reduceStep_evolves) h
  split
  · exact runSteps_evolves (fun _ _ => listStep_evolves) h
  split
  · exact runSteps_evolves (fun _ _ => crcStep_evolves) h
  split
  · exact runSteps_evolves (fun _ _ => compareStep_evolves) h
  split
  · exact runSteps_evolves (fun _ _ => ownerStep_evolves) h
  · exact h

theorem advancePiece_evolves {id i : Nat} {errs : List LineErr} (h : Evolves r s) : Evolves r (advancePiece id i errs s) := by
  unfold advancePiece
  split
  · exact h
  · exact .ite h (Evolves.upd (runPiece_evolves h))

theorem pieceDone_evolves {id i : Nat} {errs : List LineErr} (h : Evolves r s) : Evolves r (pieceDone id i errs s) := by
  unfold pieceDone
  split
  · exact h
  refine .ite h (.ite h.upd ?_)
  dsimp only
  split
  · exact advancePiece_evolves h
  · exact .ite (advancePiece_evolves h).upd (advancePiece_evolves h)

/-! ### Lines that have been served -/

theorem readTook_evolves {c id i try_ line : Nat} {e : Acc} {second : Bool} {x : Stored} (h : Evolves r s) :
    Evolves r (readTook c e id i try_ second line x s) := by
  unfold readTook
  dsimp only
  split
  · exact advancePiece_evolves h.upd
  · exact advancePiece_evolves h.upd
  · exact advancePiece_evolves h.upd
  · exact advancePiece_evolves h.upd
  split
  · exact h.upd
  split <;> exact h.upd

theorem rmwTook_evolves {c id i line : Nat} {e : Acc} {x : Stored} (h : Evolves r s) : Evolves r (rmwTook c e id i line x s) := by
  unfold rmwTook
  split
  · exact h
  dsimp only
  split
  · exact .ite (advancePiece_evolves h.upd) (advancePiece_evolves h.upd)
  · exact .ite (advancePiece_evolves h.upd) (advancePiece_evolves h.upd)
  · exact .ite (advancePiece_evolves h.upd) (advancePiece_evolves h.upd)
  · exact advancePiece_evolves h.upd
  · exact h.upd

theorem takeOne_evolves {c : Nat} {x : Acc × Stored} (h : Evolves r s) : Evolves r (takeOne c s x) := by
  unfold takeOne
  split
  · exact readTook_evolves h
  · exact rmwTook_evolves h
  · exact h.upd
  · exact h.upd
  · exact h.upd
  · exact h.upd
  · exact h

theorem takeServed_evolves {c : Nat} (h : Evolves r s) : Evolves r (takeServed c s) := by
  unfold takeServed
  split
  · exact h
  · exact .foldl (fun _ _ => takeOne_evolves) h.upd

theorem pieceWork_evolves {c : Nat} {k : Fin 6} (h : Evolves r s) : Evolves r (pieceWork c s k) := by
  unfold pieceWork
  split
  · exact advancePiece_evolves h
  · exact h

theorem engineWork_evolves {c : Nat} (h : Evolves r s) : Evolves r (engineWork c s) := by
  refine .ite h (.foldl (fun _ _ => pieceWork_evolves) ?_)
  split
  · exact h.upd
  · exact h.upd

theorem cycleRow_evolves {c : Nat} {raw : Bool} (h : Evolves r s) : Evolves r (cycleRow c raw s) :=
  takeServed_evolves (schedule_evolves (engineWork_evolves (takeServed_evolves h)))

theorem returnRow_evolves {c : Nat} {err : Stored} (h : Evolves r s) : Evolves r (returnRow c err s) :=
  takeServed_evolves (readReturn_evolves h)

end Sys2Proof.Machine

end

section
/-! SUPPORT. What placement, clocks, power states, the thermal sample and register writes do to DRAM and to the queue: those that
end a hold let the writes behind it go on, and those that wake the stack let its channels leave self-refresh. -/

namespace Sys2Proof.Machine

open Sys2Proof

variable {r s : State}

/-! ### Placement -/

theorem settle_evolves (h : Evolves r s) : Evolves r (settle s) := flushAll_evolves h.upd

theorem copyDone_evolves {src : Nat} {errs : List LineErr} (h : Evolves r s) : Evolves r (copyDone src errs s) := by
  unfold copyDone
  split
  · exact h
  · exact .ite h (.ite h.upd (.ite h h.upd))

theorem commitMig_evolves {src : Nat} (h : Evolves r s) : Evolves r (commitMig src s) := by
  refine .ite h ?_
  split
  · exact h
  · exact .ite (flushAll_evolves h.upd) (.ite (flushAll_evolves h.upd) h)

theorem whenRuns_evolves {op : BitVec 3} {f : Block → Block} (h : Evolves r s) : Evolves r (whenRuns op f s) := .ite h.upd h

/-! ### Power states -/

theorem wakeChans_evolves {f : Nat → Bool} (h : Evolves r s) : Evolves r (wakeChans f s) :=
  .ite h (.foldl (fun _ _ hs => .ite (leaveSelfRefresh_evolves hs) hs) h)

theorem sleepChan_evolves {c : Nat} (h : Evolves r s) : Evolves r (sleepChan c s) := .ite h (sinkPowerDown_evolves h.upd)

theorem dozeChan_evolves {c : Nat} (h : Evolves r s) : Evolves r (dozeChan c s) := .ite (enterSelfRefresh_evolves h) h

theorem enterState_evolves {n : Nat} (h : Evolves r s) : Evolves r (enterState n s) :=
  have hdoze := Evolves.foldl (f := fun s c => dozeChan c s) (fun _ _ => dozeChan_evolves) h.upd
  Evolves.upd (.ite (.foldl (fun _ _ => sleepChan_evolves) hdoze) hdoze)

theorem enterPower_evolves {busy : BitVec 15} (h : Evolves r s) : Evolves r (enterPower busy s) :=
  .ite h.upd (.ite h.upd (.ite h.upd (.ite h.upd (enterState_evolves h.upd))))

theorem exitWith_evolves {ivrFail : List Nat} (h : Evolves r s) : Evolves r (exitWith ivrFail s) :=
  .ite h (.ite h.upd (wakeChans_evolves h.upd))

theorem exitPower_evolves (h : Evolves r s) : Evolves r (exitPower s) := .ite (exitWith_evolves h.upd) (exitWith_evolves h)

theorem leavePower_evolves {cause : WakeCause} {ivrFail : List Nat} (h : Evolves r s) :
    Evolves r (leavePower cause ivrFail s) := .ite h (exitWith_evolves h.upd)

/-! ### Clocks -/

theorem pllLocked_evolves {l : Pll} (h : Evolves r s) : Evolves r (pllLocked l s) := by
  refine .ite h ?_
  split
  · exact h.upd
  · exact wakeChans_evolves h.upd
  · exact h.upd

theorem clkenStep_evolves (h : Evolves r s) : Evolves r (clkenStep s) := by
  unfold clkenStep
  split
  · exact .ite h (exitPower_evolves h).upd
  · exact h

theorem clkenCommit_evolves {busy : BitVec 15} (h : Evolves r s) : Evolves r (clkenCommit busy s) :=
  .ite h (Evolves.upd (.ite (.ite (exitPower_evolves h) h) (clkenStep_evolves h)))

theorem takeHop_evolves {x : Hop} (h : Evolves r s) : Evolves r (takeHop s x) :=
  .ite h.upd (Evolves.upd (.foldl (fun _ _ => closeAll_evolves) h))

theorem hopWhere_evolves {f : Hop → Bool} (h : Evolves r s) : Evolves r (hopWhere f s) :=
  .ite h (.foldl (fun _ _ => takeHop_evolves) h.upd)

theorem hopsNow_evolves (h : Evolves r s) : Evolves r (hopsNow s) := hopWhere_evolves h

theorem startStep_evolves {x : SeqStep} (h : Evolves r s) : Evolves r (startStep x s) :=
  hopsNow_evolves (Evolves.upd (hopWhere_evolves (exitPower_evolves h.upd)))

theorem finishStep_evolves {x : SeqStep} (h : Evolves r s) : Evolves r (finishStep x s) := (hopWhere_evolves h).upd

theorem stepEnd_evolves {ivrFail : List Nat} (h : Evolves r s) : Evolves r (stepEnd ivrFail s) := by
  unfold stepEnd
  split
  · exact h
  · exact (hopsNow_evolves (finishStep_evolves h).upd).upd

/-! ### Thermal -/

theorem sampleTrip_evolves {temps : List (Nat × Int)} (h : Evolves r s) : Evolves r (sampleTrip temps s) := by
  unfold sampleTrip
  split
  · exact h
  · exact .ite (.ite h h.upd) (.ite h (exitWith_evolves h).upd)

theorem thermalSample_evolves {results : List (Nat × BitVec 16)} (h : Evolves r s) : Evolves r (thermalSample results s) :=
  .ite h (.ite (sampleTrip_evolves h.upd) (sampleTrip_evolves h.upd).upd)

theorem tripAck_evolves {data : Word} (h : Evolves r s) : Evolves r (tripAck data s).2 := by
  unfold tripAck
  split
  · exact h
  split
  · exact (wakeChans_evolves h.upd).upd
  · exact h

theorem adoptLevel_evolves {c : Nat} (h : Evolves r s) : Evolves r (adoptLevel c s) := h

theorem refreshTick_evolves {c : Nat} (h : Evolves r s) : Evolves r (refreshTick c s) :=
  .ite h (adoptLevel_evolves (tickRefresh_evolves h.upd).upd)

/-! ### Register writes -/

theorem clkWrite_evolves {o : Nat} {data : Word} (h : Evolves r s) : Evolves r (clkWrite o data s).2 :=
  Evolves.upd (.ite (exitPower_evolves h) h)

theorem pwrWrite_evolves {o : Nat} {data : Word} (h : Evolves r s) : Evolves r (pwrWrite o data s).2 := by
  unfold pwrWrite
  split
  · exact h
  · exact Evolves.upd (.ite (exitPower_evolves h) h)

theorem writeLive_evolves {path : Path} {lastDone : Option Bool} {a : Nat} {data : Word} (h : Evolves r s) :
    Evolves r (writeLive path lastDone a data s).2 := by
  have hchecked : Evolves r (if usesArgs (baseOf a) && data.getLsbD 0 && regAt a != some .counter then checked (baseOf a) s
      else s) := .ite h.upd h
  unfold writeLive
  dsimp only
  generalize (if usesArgs (baseOf a) && data.getLsbD 0 && regAt a != some .counter then checked (baseOf a) s else s) = s at hchecked
  split
  · exact hchecked
  split
  · split <;> exact hchecked.upd
  split
  · exact tripAck_evolves hchecked
  split
  · exact hchecked.upd
  split
  · exact hchecked.upd
  split
  · exact clkWrite_evolves hchecked
  split
  · exact pwrWrite_evolves hchecked
  · exact hchecked.upd

theorem writeReg_evolves {path : Path} {lastDone : Option Bool} {addr data : Word} {be : BitVec 4} (h : Evolves r s) :
    Evolves r (writeReg path lastDone addr data be s).2 := by
  unfold writeReg
  dsimp only
  split
  · exact h.upd
  split
  · exact h.upd
  split
  · exact h.upd
  · exact writeLive_evolves h.upd

theorem wakeBy_evolves {path : Path} {addr : Word} (h : Evolves r s) : Evolves r (wakeBy path addr s) :=
  .ite h (exitPower_evolves h)

theorem pathWriteAt_evolves {lastDone : Option Bool} {path : Path} {addr data : Word} {be : BitVec 4} (h : Evolves r s) :
    Evolves r (pathWriteAt lastDone path addr data be s) := by
  have hwritten := writeReg_evolves (path := path) (lastDone := lastDone) (addr := addr) (data := data) (be := be)
    (wakeBy_evolves (path := path) (addr := addr) h)
  refine .ite h (.ite hwritten ?_)
  split <;> exact hwritten.upd

theorem pathWrite_evolves {path : Path} {addr data : Word} (h : Evolves r s) : Evolves r (pathWrite path addr data s) :=
  pathWriteAt_evolves h

theorem put_evolves {path : Path} {base o : Nat} {data : Word} (h : Evolves r s) : Evolves r (put path base o data s) :=
  pathWrite_evolves h

theorem calRow_evolves {path : Path} {op target : Nat} {f : Block → Block} (h : Evolves r s) :
    Evolves r (calRow path op target f s) := Evolves.upd (.ite h (put_evolves h))

theorem otpReadRow_evolves {path : Path} {op : BitVec 3} {f : Block → Block} (h : Evolves r s) :
    Evolves r (otpReadRow path op f s) := Evolves.upd (.ite h (put_evolves h))

theorem bstRow_evolves {path : Path} {ok : Nat → Bool} (h : Evolves r s) : Evolves r (bstRow path ok s) :=
  .ite (put_evolves h) h

/-! ### Register records -/

theorem finishRec_evolves {p : PortId} {ty gen : Nat} {lo hi : Option Status} {x : BitVec 128} {d0 d1 : Word}
    (h : Evolves r s) : Evolves r (finishRec p ty lo hi x d0 d1 gen s) := .ite h h.upd

theorem runRec_evolves {p : PortId} {x : BitVec 128} {gen : Nat} (h : Evolves r s) : Evolves r (runRec p x gen s) :=
  .ite (finishRec_evolves h.upd)
    (.ite (finishRec_evolves (writeReg_evolves h))
      (.ite (.ite (finishRec_evolves h.upd) (finishRec_evolves h.upd))
        (.ite (.ite (finishRec_evolves h.upd) (finishRec_evolves (writeReg_evolves (writeReg_evolves h))))
          (finishRec_evolves h.upd))))

theorem regRecord_evolves {p : PortId} {x : BitVec 128} (h : Evolves r s) : Evolves r (regRecord p x s) := by
  refine .ite h ?_
  dsimp only
  split
  · exact .ite h.upd (runRec_evolves (wakeBy_evolves h.upd))
  · exact h.upd

theorem wakeRow_evolves {p : PortId} {f : RxItem → Bool} {accept : Port → Except Nat Port} (h : Evolves r s) :
    Evolves r (wakeRow p f accept s) := .ite h (.ite (exitPower_evolves h.upd) h.upd)

theorem wakeEntry_evolves {p : PortId} {e mask : BitVec 64} {ok : Hdr → Bool} (h : Evolves r s) :
    Evolves r (wakeEntry p e mask ok s) := .ite h (wakeRow_evolves h)

/-! ### The two-wire port -/

theorem twpWrite_evolves {data : Word} {pec : Byte} (h : Evolves r s) : Evolves r (twpWrite data pec s) := by
  refine .ite h ?_
  split
  · exact (pathWrite_evolves h.upd).upd
  · exact .ite h (.ite h.upd (.ite (pathWrite_evolves h.upd) (pathWrite_evolves h.upd).upd))

theorem twpRead_evolves (h : Evolves r s) : Evolves r (twpRead s) := .ite h (wakeBy_evolves h).upd

/-! ### Commands and steps -/

/-- No command stores anything but whole lines, and none touches the queue behind it. -/
theorem exec_evolves (c : Instr) (s : State) : AnswerEvolves s (exec c s) := by
  cases c with
  | pwrokFall => exact .next (.lose .refl)
  | brownOutReset rail ns =>
    refine .next ⟨rfl, fun hs => ?_⟩
    show Memory.wf (if ns ≤ 1000 then s.mem else []) = true
    split
    · exact hs
    · rfl
  | opStep =>
    show AnswerEvolves s (execOpStep s)
    unfold execOpStep
    split
    · exact .next (startStep_evolves .refl)
    · exact .next .refl
  | ratioModeChange =>
    show AnswerEvolves s (execRatioModeChange s)
    unfold execRatioModeChange
    split
    · split
      · exact .fault
      · exact .next (startStep_evolves .refl)
    · exact .next .refl
  | refclkLoss count => exact .next (.ite .refl .refl)
  | read p e => exact .next (runEntry_evolves (fun _ _ _ _ _ hs => hs.upd) (wakeEntry_evolves .refl))
  | write p e => exact .next (runEntry_evolves (fun _ _ _ _ _ hs => hs.upd) (wakeEntry_evolves .refl))
  | writeMasked p e m => exact .next (runEntry_evolves (fun _ _ _ _ _ hs => hs.upd) (wakeEntry_evolves .refl))
  | fence p e => exact .next (runEntry_evolves (fun _ _ _ _ _ hs => hs.upd) (wakeEntry_evolves .refl))
  | undefinedOpcodeRequest p e => exact .next (runEntry_evolves (fun _ _ _ _ _ hs => hs.upd) (wakeEntry_evolves .refl))
  | writeDataLine p t l po d => exact .next (dataRow_evolves .refl)
  | registerRecord p x => exact .next (regRecord_evolves .refl)
  | operationDescriptor p d => exact .next (Evolves.upd (wakeRow_evolves .refl))
  | segmentFillDone k raws => exact .next (fillDone_evolves .refl)
  | schedulerCycle k raw => exact .next (Evolves.upd (cycleRow_evolves (.upd .refl)))
  | dramReadReturn k err => exact .next (Evolves.upd (returnRow_evolves .refl))
  | bankTimerExpiry k bank => exact .next (bankTimer_evolves .refl)
  | refreshTick k => exact .next (refreshTick_evolves .refl)
  | perBankRefreshDue k bank => exact .next (.ite (refreshTurn_evolves .refl) .refl)
  | forcedRefresh k bank => exact .next (.ite (forceRefresh_evolves .refl) .refl)
  | powerDownEntry k raws => exact .next (.ite (enterPowerDown_evolves .refl) .refl)
  | powerDownExit k => exact .next (.ite (leavePowerDown_evolves .refl) .refl)
  | thermalSample l => exact .next (thermalSample_evolves .refl)
  | copyDone src errs => exact .next (copyDone_evolves .refl)
  | commit src => exact .next (commitMig_evolves .refl)
  | segQuery => exact .next (whenRuns_evolves .refl)
  | physQuery => exact .next (whenRuns_evolves .refl)
  | migrate => exact .next (whenRuns_evolves .refl)
  | abort => exact .next (settle_evolves (whenRuns_evolves .refl))
  | retire => exact .next (whenRuns_evolves .refl)
  | dillRead k err => exact .next (dillStep_evolves (.upd .refl))
  | scrubVerify k err => exact .next (verifyRead_evolves .refl)
  | softRowRepairDone k errs => exact .next (softDone_evolves .refl)
  | bitmapRebuildDone w => exact .next (settle_evolves (rebuildWritten_evolves .refl))
  | pieceEnd d x errs => exact .next (pieceDone_evolves .refl)
  | pllLockAcquired l => exact .next (pllLocked_evolves .refl)
  | clkenRunCommit busy => exact .next (clkenCommit_evolves .refl)
  | powerStateEntry busy => exact .next (enterPower_evolves .refl)
  | powerStateExit cause l => exact .next (leavePower_evolves .refl)
  | sequencerStepEnd l => exact .next (stepEnd_evolves .refl)
  | registerWrite path a d be => exact .next (pathWriteAt_evolves .refl)
  | counterClearWrite path a d => exact .next (.ite (pathWrite_evolves .refl) .refl)
  | bstAbort path last => exact .next (pathWriteAt_evolves .refl)
  | hndCmdInvalid path op => exact .next (.ite (put_evolves .refl) .refl)
  | opqCmdInvalid path op => exact .next (.ite (put_evolves .refl) .refl)
  | otpCmdInvalid path op => exact .next (.ite (put_evolves .refl) .refl)
  | calTsvRecal path t l => exact .next (calRow_evolves .refl)
  | calBandgapCheck path l k => exact .next (calRow_evolves .refl)
  | calSensorCheck path l k => exact .next (calRow_evolves .refl)
  | otpRead path l => exact .next (otpReadRow_evolves .refl)
  | otpScan path l => exact .next (otpReadRow_evolves .refl)
  | refCheck path | linkLoopback path | tsvSpare path | eccPath path | dramMarch path | tsvFull path | engSram path
  | replaySram path | bstInvalidTest path => exact .next (bstRow_evolves .refl)
  | twpWordWrite d pec => exact .next (twpWrite_evolves .refl)
  | twpWordRead => exact .next (twpRead_evolves .refl)
  | restartCommand path | imageLoadStart path | imageLoadAbort path | imageDataWrite path | idnRegOwnerWrite path
  | forcedCommit path | lnkRetrain path | lnkReenable path | thmTripAck path | thmSuspectClr path | thmLimitWrite path
  | create path | grow path | shrink path | destroy path | query path | resume path | cancel path | cancelAll path
  | opqQuery path | engReload path | pwrWake path | calCmdInvalid path | sageClear path | sageInject path
  | otpProgram path | otpLock path | otpLifecycle path | otpAbort path | otpTokenWrite path | otpSlockWrite path =>
    exact .next (put_evolves .refl)
  | _ => exact .next (Evolves.upd .refl)

theorem idleTick_evolves (s : State) : Evolves s (idleTick s) :=
  Evolves.upd (hopsNow_evolves (settle_evolves (Evolves.upd .refl)))

end Sys2Proof.Machine

open Sys2Proof Sys2Proof.Machine

/-- Settles O3: an empty queue lets time pass (`idleTick_evolves`); else the command at the front runs (`exec_evolves`). -/
theorem memoryCanonicalKept : Obligations.MemoryCanonicalKept := by
  intro s t hs hstep
  unfold step at hstep
  split at hstep
  · obtain rfl : idleTick s = t := Host.Outcome.next.inj hstep
    exact (idleTick_evolves s).2 hs
  next c rest _ => exact (exec_evolves c { s with pending := rest } t hstep).2 hs

end

section
/-! SUPPORT. How an access reaches the queues of its channel: the crossbar lets it in where nothing waits before it, its port gets
its units back, and a line is served at its entry or waits. -/

namespace Sys2Proof.Machine

open Sys2Proof

variable {b : Block}

theorem modChan_modChan {c : ChanId} (f g : Chan → Chan) : modChan c f (modChan c g b) = modChan c (fun x => f (g x)) b := by
  simp [modChan]

/-! ### The crossbar -/

/-- The channel whose crossbar holds nothing once an access has gone through it at a time. -/
def crossed (now : Nat) (x : Chan) : Chan := { x with xbar := [], idleAt := now }

/-- An access that fits where nothing waits in the crossbar is in its queues at once (R292). -/
theorem submit_alone {c : Nat} {ls : List Acc} (done : Option WDone) (cred : Option Cred)
    (hxbar : b.chans[cid c].xbar = []) (hfits : fits b.chans[cid c] ls = true) :
    submit c ls done cred b = enterAll c { lines := ls, done := done, cred := cred }
      (modChan (cid c) (crossed b.now) b) := by
  have hwaits : (modChan (cid c) (fun x => { x with
      xbar := x.xbar ++ [{ lines := ls, done := done, cred := cred }], idleAt := b.now }) b).chans[cid c].xbar
        = [{ lines := ls, done := done, cred := cred }] := by
    rw [modChan_same, hxbar]; rfl
  have hfits' : fits (modChan (cid c) (fun x => { x with
      xbar := x.xbar ++ [{ lines := ls, done := done, cred := cred }], idleAt := b.now }) b).chans[cid c] ls = true := by
    rw [modChan_same]; exact hfits
  simp only [submit, letIn, hwaits, List.length_singleton, letInN, hfits', if_true, modChan_modChan]
  rfl

/-- The units of an access go back to its port whatever becomes of its lines. -/
theorem releaseCred_chans (k : Option Cred) (b : Block) : (releaseCred k b).chans = b.chans := by cases k <;> rfl
theorem releaseCred_regs (k : Option Cred) (b : Block) : (releaseCred k b).regs = b.regs := by cases k <;> rfl
theorem releaseCred_time (k : Option Cred) (b : Block) : (releaseCred k b).time = b.time := by cases k <;> rfl
theorem releaseCred_modChan_ports (k : Option Cred) (c : ChanId) (f : Chan → Chan) (b : Block) :
    (releaseCred k (modChan c f b)).ports = (releaseCred k b).ports := by cases k <;> rfl

/-- The block with an access at its channel: it has left the crossbar, its port has its units back, and Savory has granted its
lines. -/
def admitted (c : Nat) (cred : Option Cred) (sav : Savory) (b : Block) : Block :=
  { releaseCred cred (modChan (cid c) (crossed b.now) b) with sav := sav }

section Admitted
variable (c : Nat) (cred : Option Cred) (sav : Savory) (b : Block)

theorem admitted_chan : (admitted c cred sav b).chans[cid c] = crossed b.now b.chans[cid c] := by
  show (releaseCred _ _).chans[cid c] = _
  rw [releaseCred_chans, modChan_same]

theorem admitted_chan_other {d : ChanId} (h : d ≠ cid c) : (admitted c cred sav b).chans[d] = b.chans[d] := by
  show (releaseCred _ _).chans[d] = _
  rw [releaseCred_chans, modChan_other _ _ h]

theorem admitted_ports : (admitted c cred sav b).ports = (releaseCred cred b).ports := releaseCred_modChan_ports _ _ _ _
theorem admitted_regs : (admitted c cred sav b).regs = b.regs := releaseCred_regs _ _
theorem admitted_time : (admitted c cred sav b).time = b.time := releaseCred_time _ _

end Admitted

/-- A line as it enters its queue: it has the number `n` of its group, and is in-grant or not (R278). -/
def numbered (n : Nat) (v : Acc → Bool) (e : Acc) : Acc := { e with grp := n, inGrant := v e }

/-- The lines of an access are numbered and granted; the grants of Savory alone pay for them (R282). -/
theorem grantLines_eq (c : Nat) (x : Chan) (ls : List Acc) (b : Block) : ∃ (v : Acc → Bool) (sav : Savory),
    grantLines c (groupAcc x ls) b = (ls.map (numbered x.ord v), { b with sav := sav }) := by
  cases ls with
  | nil => exact ⟨fun _ => false, b.sav, rfl⟩
  | cons e l =>
    by_cases hm : e.maint = true
    · exact ⟨Acc.inGrant, b.sav, if_pos hm⟩
    · refine ⟨fun _ => inGrantNow b (quadOf c) e.cls, (spend (quadOf c) e.cls (l.length + 1) b).sav, (if_neg hm).trans ?_⟩
      simp [groupAcc, numbered, spend, modSavQ]

/-- Reads complete nothing behind a fill (R35). -/
theorem awaitFill_none {c : Nat} {g : XAcc} (h : ∀ e ∈ g.lines, doneOf g.done e = none) : awaitFill c g b = b := by
  unfold awaitFill
  split
  · rfl
  next e l hlines => rw [h e (by rw [hlines]; exact List.mem_cons_self)]

/-! ### Reads enter the read queue -/

/-- The channel once reads have entered its read queue, in order. -/
def enterReads (ls : List Acc) (x : Chan) : Chan := ls.foldl (fun x e => enterOne e x) x

theorem enterOne_read {e : Acc} (h : e.isRead = true) (x : Chan) :
    enterOne e x = { x with rq := x.rq ++ [{ e with ord := x.ord }], ord := x.ord + 1 } := if_pos h

/-- A read whose line no queued write holds waits in the read queue (R294). -/
theorem enterLine_read {c : Nat} {e : Acc} (h : e.isRead = true) (hwq : b.chans[cid c].wq = []) :
    enterLine c e b = modChan (cid c) (enterOne e) b := by
  have hqueued : queuedWrite b.chans[cid c] e.pla = none := by rw [queuedWrite, hwq]; rfl
  simp only [enterLine, h, if_true, hqueued]

theorem foldl_enterLine_reads {c : Nat} {ls : List Acc} (h : ∀ e ∈ ls, e.isRead = true) (hwq : b.chans[cid c].wq = []) :
    ls.foldl (fun b e => enterLine c e b) b = modChan (cid c) (enterReads ls) b := by
  induction ls generalizing b with
  | nil => simp [enterReads, modChan]
  | cons e l ih =>
    have he := h e List.mem_cons_self
    rw [List.foldl_cons, enterLine_read he hwq, ih (fun x hx => h x (List.mem_cons_of_mem _ hx)) ?_, modChan_modChan]
    · rfl
    · rw [modChan_same, enterOne_read he]; exact hwq

theorem enterReads_pla {ls : List Acc} (h : ∀ e ∈ ls, e.isRead = true) (x : Chan) :
    (enterReads ls x).rq.map Acc.pla = x.rq.map Acc.pla ++ ls.map Acc.pla := by
  induction ls generalizing x with
  | nil => simp [enterReads]
  | cons e l ih =>
    have htail := ih (fun x hx => h x (List.mem_cons_of_mem _ hx)) (enterOne e x)
    rw [enterOne_read (h e List.mem_cons_self)] at htail
    rw [enterReads, List.foldl_cons, enterOne_read (h e List.mem_cons_self)]
    rw [enterReads] at htail
    rw [htail]
    simp

/-- A read is no masked write, whose completion it would carry. -/
theorem doneOf_read {e : Acc} (h : e.isRead = true) : doneOf none e = none := by
  unfold doneOf
  split
  next hsrc => simp [Acc.isRead, hsrc] at h
  · rfl

/-- Reads of a port that fit a channel where no write waits are in its read queue at once; the port gets its units back. -/
theorem submit_reads {c : Nat} {ls : List Acc} (cred : Option Cred) (hxbar : b.chans[cid c].xbar = [])
    (hfits : fits b.chans[cid c] ls = true) (hreads : ∀ e ∈ ls, e.isRead = true) (hwq : b.chans[cid c].wq = []) :
    (submit c ls none cred b).chans[cid c].rq.map Acc.pla = b.chans[cid c].rq.map Acc.pla ++ ls.map Acc.pla
      ∧ (∀ d, d ≠ cid c → (submit c ls none cred b).chans[d] = b.chans[d])
      ∧ (submit c ls none cred b).ports = (releaseCred cred b).ports := by
  obtain ⟨v, sav, hgrant⟩ := grantLines_eq c (crossed b.now b.chans[cid c]) ls
    (releaseCred cred (modChan (cid c) (crossed b.now) b))
  have hreads' : ∀ e ∈ ls.map (numbered b.chans[cid c].ord v), e.isRead = true := by
    simpa [numbered, Acc.isRead] using hreads
  have hpla : (ls.map (numbered b.chans[cid c].ord v)).map Acc.pla = ls.map Acc.pla := by simp [numbered]
  have hentered : submit c ls none cred b
      = modChan (cid c) (enterReads (ls.map (numbered b.chans[cid c].ord v))) (admitted c cred sav b) := by
    rw [submit_alone none cred hxbar hfits]
    unfold enterAll
    rw [awaitFill_none fun e he => doneOf_read (hreads e he), modChan_same, hgrant]
    exact foldl_enterLine_reads hreads' ((congrArg Chan.wq (admitted_chan c cred sav b)).trans hwq)
  rw [hentered]
  refine ⟨?_, fun d hd => ?_, admitted_ports c cred sav b⟩
  · rw [modChan_same, enterReads_pla hreads', hpla, admitted_chan]
    rfl
  · rw [modChan_other _ _ hd, admitted_chan_other c cred sav b hd]

end Sys2Proof.Machine

end

section
/-! SUPPORT. A READ that passes its checks: it completes on an OFFLINE channel, answers zeros from an unwritten segment, or enters
the read queue of its channel. -/

namespace Sys2Proof.Machine

open Sys2Proof

/-! ### Lines answered at once -/

/-- A port that has answered lines of a read. -/
def sentLines (l : List TxData) (x : Port) : Port := { x with txData := x.txData ++ l }

theorem foldl_sendData {p : PortId} {b : Block} {l : List TxData} (h : ∀ d ∈ l, b.ports[p].sends d.tag = true) :
    l.foldl (fun b d => sendData p d b) b = modPort p (sentLines l) b := by
  induction l generalizing b with
  | nil => exact (modPort_fixed (by simp [sentLines])).symm
  | cons d l ih =>
    have hsend : sendData p d b = modPort p (sentLines [d]) b := if_pos (h d List.mem_cons_self)
    have hrest : ∀ e ∈ l, (modPort p (sentLines [d]) b).ports[p].sends e.tag = true := by
      intro e he
      rw [modPort_same]
      exact h e (List.mem_cons_of_mem _ he)
    rw [List.foldl_cons, hsend, ih hrest, modPort_modPort]
    exact modPort_congr (by simp [sentLines])

theorem sendLines_sent {p : PortId} {b : Block} {tag : Nat} (n : Nat) (poison : Bool) (d : Line)
    (h : b.ports[p].sends tag = true) : sendLines p tag n poison d b
      = modPort p (sentLines ((List.range n).map fun i => { tag := tag, line := i, poison := poison, d := d })) b := by
  have hall : ∀ e ∈ (List.range n).map (fun i => ({ tag := tag, line := i, poison := poison, d := d } : TxData)),
      b.ports[p].sends e.tag = true := by simpa using fun _ _ => h
  rw [← foldl_sendData hall, List.foldl_map]
  rfl

/-! ### The read -/

section Place
variable {p : PortId} {h : Hdr} {b : Block} {g l : Nat}

/-- What a READ of the link in force makes of its place once its checks have passed. -/
theorem doRead_offline (tag gen arr : Nat) (hok : requestCheck b p h = .ok) (hplace : placeOf b h.handle h.line = some (g, l))
    (hoff : b.chans[cid (segChan g)].st = .offline) :
    doRead p h tag gen arr b = sendCmpl p tag .channelOffline 2 h.handle (returnCredit p 0 1 gen b) := by
  simp only [doRead, hok, hplace, hoff, if_true, releaseCred_read]

theorem doRead_unwritten (tag gen arr : Nat) (hok : requestCheck b p h = .ok) (hplace : placeOf b h.handle h.line = some (g, l))
    (hon : b.chans[cid (segChan g)].st ≠ .offline) (hw : isWritten b g = false) :
    doRead p h tag gen arr b = sendLines p tag h.count false 0 (returnCredit p 0 1 gen b) := by
  simp only [doRead, hok, hplace, hon, hw, if_false, Bool.not_false, if_true, releaseCred_read]

/-- The lines that a READ asks its channel for. -/
def readLines (b : Block) (p : PortId) (h : Hdr) (tag arr g l : Nat) : List Acc :=
  (List.range h.count).map fun i =>
    lineAcc b p h.handle h.cls h.hint arr (.read p tag i h.handle (h.line + i)) g (l + i) 0

theorem doRead_written (tag gen arr : Nat) (hok : requestCheck b p h = .ok) (hplace : placeOf b h.handle h.line = some (g, l))
    (hon : b.chans[cid (segChan g)].st ≠ .offline) (hw : isWritten b g = true) :
    doRead p h tag gen arr b = submit (segChan g) (readLines b p h tag arr g l) none
      (some { port := p, gen := gen, req := 1, data := 0 }) b := by
  simp only [doRead, hok, hplace, hon, hw, if_false, Bool.not_true, Bool.false_eq_true, readLines]

theorem readLines_read (tag arr : Nat) : ∀ e ∈ readLines b p h tag arr g l, e.isRead = true := by
  simp [readLines, lineAcc, Acc.isRead]

theorem readLines_pla (tag arr : Nat) :
    (readLines b p h tag arr g l).map Acc.pla = (List.range h.count).map fun i => plaOf g (l + i) := by
  simp [readLines, lineAcc]

/-- Reads take entries of the read queue alone (R292). -/
theorem fits_reads {x : Chan} {ls : List Acc} (hreads : ∀ e ∈ ls, e.isRead = true) (hrq : x.rq.length + ls.length ≤ 128)
    (hwq : wqUsed x ≤ 64) : fits x ls = true := by
  have hone : ls.map accRq = ls.map fun _ => 1 := List.map_congr_left fun e he => by simp [accRq, hreads e he]
  have hzero : ls.map accWq = ls.map fun _ => 0 := List.map_congr_left fun e he => by simp [accWq, hreads e he]
  simp [fits, hone, hzero, rqUsed, hrq, hwq]

end Place

/-- A port whose receive buffers hold nothing. -/
def emptied (x : Port) : Port := { x with rxq := [] }

/-- A READ that waits alone, and whose lookup is not held, is executed at once. -/
theorem exec_read_alone {p : PortId} {e mask : BitVec 64} {gen arr : Nat} {s : State}
    (hw : waitsAlone p (.req e mask gen arr) s) (hop : (hdrOf e).op = 1)
    (hfree : lookupHeld s.blk (hdrOf e).handle (hdrOf e).line = false) :
    exec (.read p e) s = .next (s.upd (doRead p (hdrOf e) ((hdrOf e).tag + 1024 * gen) gen arr
      (modPort p emptied s.blk))) := by
  have hrow : readRow p e s = _ :=
    runEntry_alone _ hw (by simp [hop]) (isEntry_unmasked (by simp [hop]) _ _ _ _) fun _ _ => hfree
  rw [exec_read, wakeEntry_P0 _ hw.1, hrow]
  rfl

/-- A port that has taken the one request that waited, and gives its REQ unit back. -/
def takenPort (x : Port) : Port := { x with rxq := [], ret := x.ret.set 0 (x.ret[0] + 1) }

theorem returnCredit_taken (p : PortId) (b : Block) :
    returnCredit p 0 1 b.ports[p].gen (modPort p emptied b) = modPort p takenPort b := by
  rw [returnCredit_own 0 1 (by rw [modPort_same]; rfl), modPort_modPort]
  rfl

end Sys2Proof.Machine

open Sys2Proof Sys2Proof.Machine

/-- Settles O23: one case for each place that `doRead` looks at. -/
theorem readsAreServed : Obligations.ReadsAreServed := by
  intro p e mask arr g l s hw hop hok hfree hplace
  have hcount : (hdrOf e).count = 2 ^ (hdrOf e).len := if_neg (by rw [hop]; decide)
  have hsends : (modPort p takenPort s.blk).ports[p].sends ((hdrOf e).tag + 1024 * s.blk.ports[p].gen) = true := by
    rw [modPort_same]
    exact sends_own (hdrOf_tag_lt e) hw.2.2.2.2
  refine ⟨fun hoff => ?offline, fun hon hzero => ?unwritten, fun hon hdata hxbar hwq hrq hwqUsed => ?written⟩
  case offline =>
    rw [exec_read_alone hw hop hfree, doRead_offline (b := modPort p emptied s.blk) _ _ _ hok hplace hoff, returnCredit_taken, sendCmpl_sent _ _ _ hsends,
      modPort_modPort]
    refine ⟨_, rfl, onlyPort_modPort p _ s, ?_⟩
    rw [State.upd_blk, modPort_same]
    exact ⟨rfl, rfl⟩
  case unwritten =>
    rw [exec_read_alone hw hop hfree, doRead_unwritten (b := modPort p emptied s.blk) _ _ _ hok hplace hon hzero, returnCredit_taken,
      sendLines_sent _ _ _ hsends, modPort_modPort, hcount]
    refine ⟨_, rfl, onlyPort_modPort p _ s, ?_⟩
    rw [State.upd_blk, modPort_same]
    exact ⟨rfl, rfl⟩
  case written =>
    have hlines := readLines_read (b := modPort p emptied s.blk) (p := p) (h := hdrOf e) (g := g) (l := l)
      ((hdrOf e).tag + 1024 * s.blk.ports[p].gen) arr
    have hfits := fits_reads (x := s.blk.chans[cid (segChan g)]) hlines (by simpa [readLines, hcount] using hrq) hwqUsed
    obtain ⟨hqueued, hothers, hports⟩ := submit_reads (b := modPort p emptied s.blk)
      (some { port := p, gen := s.blk.ports[p].gen, req := 1, data := 0 }) hxbar hfits hlines hwq
    rw [releaseCred_read, returnCredit_taken] at hports
    rw [exec_read_alone hw hop hfree, doRead_written (b := modPort p emptied s.blk) _ _ _ hok hplace hon hdata]
    rw [readLines_pla, hcount] at hqueued
    refine ⟨_, rfl, rfl, rfl, hqueued, hothers, fun q hq => ?_, ?_⟩
    · rw [State.upd_blk, hports, modPort_other _ _ hq]
    · rw [State.upd_blk, hports, modPort_same]
      exact ⟨rfl, rfl, rfl⟩

end

section
/-! SUPPORT. A full-line write enters the write queue of its channel: what its line counts for, and its completion. -/

namespace Sys2Proof.Machine

open Sys2Proof

/-! ### What a served line counts for -/

/-- From `b` to `t`, only Sorrel's records and the counts of lines of channel `c` have changed. -/
def Tallied (c : ChanId) (b t : Block) : Prop :=
  t = { b with chans := t.chans, srl := t.srl } ∧ (∀ d, d ≠ c → t.chans[d] = b.chans[d])
    ∧ t.chans[c] = { b.chans[c] with lines := t.chans[c].lines, nWq := t.chans[c].nWq }

section Tally
variable {c : ChanId} {b t u : Block}

theorem Tallied.refl (c : ChanId) (b : Block) : Tallied c b b := ⟨rfl, fun _ _ => rfl, rfl⟩

theorem Tallied.trans (h : Tallied c b t) (k : Tallied c t u) : Tallied c b u := by
  obtain ⟨hb, hother, hc⟩ := h
  obtain ⟨kb, kother, kc⟩ := k
  refine ⟨?_, fun d hd => (kother d hd).trans (hother d hd), ?_⟩
  · rw [kb, hb]
  · rw [kc, hc]

theorem Tallied.srl (r : Sorrel) (h : Tallied c b t) : Tallied c b { t with srl := r } :=
  h.trans ⟨rfl, fun _ _ => rfl, rfl⟩

theorem Tallied.regs (h : Tallied c b t) : t.regs = b.regs := by rw [h.1]
theorem Tallied.time (h : Tallied c b t) : t.time = b.time := by rw [h.1]
theorem Tallied.ports (h : Tallied c b t) : t.ports = b.ports := by rw [h.1]

theorem Tallied.wq (h : Tallied c b t) : t.chans[c].wq = b.chans[c].wq := by rw [h.2.2]
theorem Tallied.await (h : Tallied c b t) : t.chans[c].await = b.chans[c].await := by rw [h.2.2]

theorem tallied_lines (l : Vector (BitVec 64) 8) (b : Block) :
    Tallied c b (modChan c (fun x => { x with lines := l }) b) :=
  ⟨rfl, fun _ hd => modChan_other _ _ hd, by rw [modChan_same]⟩

theorem tallied_modEntry (h l : Nat) (f : MapEntry → MapEntry) (b : Block) : Tallied c b (modEntry h l f b) := by
  unfold modEntry
  split
  · exact (Tallied.refl c b).srl _
  · exact .refl c b

/-- A line counts for its class, for the heat of its segment and for its home quadrant (R243, R276). -/
theorem tallied_serveLine (c k pseg : Nat) (host : Option Nat) (b : Block) : Tallied (cid c) b (serveLine c k pseg host b) := by
  have hline := tallied_lines (c := cid c) (b.chans[cid c].lines.set (Fin.ofNat 8 k) (b.chans[cid c].lines[Fin.ofNat 8 k] + 1)) b
  unfold serveLine
  dsimp only
  split
  · exact hline.srl _
  split
  · exact ((hline.srl _).srl _).trans (tallied_modEntry _ _ _ _)
  · exact (hline.srl _).srl _

/-- A poisoned line marks its segment (R240). -/
theorem tallied_noteLine (c : ChanId) (e : Acc) (b : Block) : Tallied c b (noteLine e b) := by
  unfold noteLine poisonSum
  split
  · split
    · exact tallied_modEntry _ _ _ _
    · exact .refl c b
  · exact .refl c b

end Tally

/-! ### A full-line write -/

variable {b : Block} {c : Nat} {e : Acc} {w : WDone}

/-- A full-line write of a host is counted and served as it enters the write queue (R33). -/
theorem enterLine_write (h : e.src = .write) :
    enterLine c e b = noteLine e (serveLine c e.cls e.pseg e.quad (modChan (cid c) (enterOne e) b)) := by
  have hread : e.isRead = false := by simp [Acc.isRead, h]
  have hdrop : dropsNow b.chans[cid c] e = false := by simp [dropsNow, Acc.conditional, h]
  have hover : e.overrides = true := by simp [Acc.overrides, h]
  simp only [enterLine, hread, hdrop, hover, countServed, engWritten, h, if_true, Bool.false_eq_true, if_false]

/-- A write enters an empty write queue as its only entry. -/
theorem enterOne_write (h : e.src = .write) {x : Chan} (hwq : x.wq = []) :
    (enterOne e x).wq = [{ e with ord := x.ord }] ∧ (enterOne e x).await = x.await := by
  simp [enterOne, Acc.isRead, Acc.isMasked, Acc.overrides, h, supersede, queuedWrite, hwq]

/-- A full-line write that enters an empty write queue stands there alone; what completes, ports, registers and time are as
before. -/
theorem enterLine_write_alone (h : e.src = .write) (hwq : b.chans[cid c].wq = []) :
    ((enterLine c e b).chans[cid c].wq.map fun a => (a.pla, a.data)) = [(e.pla, e.data)]
      ∧ (enterLine c e b).chans[cid c].await = b.chans[cid c].await
      ∧ (∀ d, d ≠ cid c → (enterLine c e b).chans[d] = b.chans[d])
      ∧ (enterLine c e b).ports = b.ports ∧ (enterLine c e b).regs = b.regs ∧ (enterLine c e b).time = b.time := by
  have htally : Tallied (cid c) (modChan (cid c) (enterOne e) b) (enterLine c e b) := by
    rw [enterLine_write h]
    exact (tallied_serveLine _ _ _ _ _).trans (tallied_noteLine _ _ _)
  obtain ⟨hqueue, hawait⟩ := enterOne_write h hwq
  refine ⟨?_, ?_, fun d hd => ?_, htally.ports, htally.regs, htally.time⟩
  · rw [htally.wq, modChan_same, hqueue]; rfl
  · rw [htally.await, modChan_same, hawait]
  · rw [htally.2.1 d hd, modChan_other _ _ hd]

theorem awaitFill_noFill {g : XAcc} (h : b.chans[cid c].fills = []) : awaitFill c g b = b := by
  have hnone : ∀ n, b.chans[cid c].fills.contains n = false := fun n => by rw [h]; rfl
  unfold awaitFill
  split
  · rfl
  split
  · simp only [hnone, Bool.false_eq_true, if_false]
  · rfl

/-- The targets of the classes are registers (R270). -/
theorem target_congr {t : Block} (h : t.regs = b.regs) (k : Nat) : target t k = target b k := by
  simp only [target, rwf, rw, h]

/-- A write in time, which nothing has been accepted before behind a fill, completes at once (R33, R269). -/
theorem writeEntered_inTime (hawait : b.chans[cid c].await = []) (hlate : b.now - e.arr ≤ target b e.cls) :
    writeEntered c e w b = sendCmpl w.port w.tag .ok 1 w.handle b := by
  simp only [writeEntered, endLatency, Nat.not_lt.mpr hlate, writeDone, hawait, if_false, List.any_nil,
    Bool.false_eq_true]

/-- A port that has one more record to send. -/
def completed (r : BitVec 64) (x : Port) : Port := { x with txCmpl := x.txCmpl ++ [r] }

/-- A full-line write of one line, in time, that fits a channel where nothing waits and no fill runs is the only entry of its write
queue, and completes; the port gets its units back. -/
theorem submit_write (cred : Option Cred) (hsrc : e.src = .write) (hxbar : b.chans[cid c].xbar = [])
    (hwq : b.chans[cid c].wq = []) (hfills : b.chans[cid c].fills = []) (hawait : b.chans[cid c].await = [])
    (hfits : fits b.chans[cid c] [e] = true) (hlate : b.now - e.arr ≤ target b e.cls)
    (hsends : (releaseCred cred b).ports[w.port].sends w.tag = true) :
    ((submit c [e] (some w) cred b).chans[cid c].wq.map fun a => (a.pla, a.data)) = [(e.pla, e.data)]
      ∧ (∀ d, d ≠ cid c → (submit c [e] (some w) cred b).chans[d] = b.chans[d])
      ∧ (submit c [e] (some w) cred b).ports
          = (modPort w.port (completed (cmplRecord w.tag .ok 1 w.handle b.time)) (releaseCred cred b)).ports := by
  obtain ⟨v, sav, hgrant⟩ := grantLines_eq c (crossed b.now b.chans[cid c]) [e]
    (releaseCred cred (modChan (cid c) (crossed b.now) b))
  have hadm := admitted_chan c cred sav b
  have hfills' : (releaseCred cred (modChan (cid c) (crossed b.now) b)).chans[cid c].fills = [] :=
    (congrArg Chan.fills hadm).trans hfills
  obtain ⟨hqueue, hwait, hothers, hports, hregs, htime⟩ := enterLine_write_alone (b := admitted c cred sav b)
    (e := numbered b.chans[cid c].ord v e) hsrc ((congrArg Chan.wq hadm).trans hwq)
  have hentered : submit c [e] (some w) cred b = writeEntered c (numbered b.chans[cid c].ord v e) w
      (enterLine c (numbered b.chans[cid c].ord v e) (admitted c cred sav b)) := by
    rw [submit_alone (some w) cred hxbar hfits]
    unfold enterAll
    rw [awaitFill_noFill hfills', modChan_same, hgrant]
    rfl
  generalize enterLine c (numbered b.chans[cid c].ord v e) (admitted c cred sav b) = t at *
  have hnow : t.now = b.now := congrArg BitVec.toNat (htime.trans (admitted_time c cred sav b))
  have htarget : target t e.cls = target b e.cls := target_congr (hregs.trans (admitted_regs c cred sav b)) _
  have hsends' : t.ports[w.port].sends w.tag = true := by rwa [hports, admitted_ports]
  rw [writeEntered_inTime (e := numbered b.chans[cid c].ord v e) (hwait.trans ((congrArg Chan.await hadm).trans hawait))
    (show t.now - e.arr ≤ target t e.cls by rwa [hnow, htarget]), sendCmpl_sent _ _ _ hsends'] at hentered
  rw [hentered]
  refine ⟨hqueue, fun d hd => (hothers d hd).trans (admitted_chan_other c cred sav b hd), ?_⟩
  simp only [modPort, hports, admitted_ports, htime, admitted_time]
  rfl

end Sys2Proof.Machine

end

section
/-! SUPPORT. The last line of a write: it reaches its write, which is executed at once where nothing stands before it. -/

namespace Sys2Proof.Machine

open Sys2Proof

section LastLine
variable {p : PortId} {poison : Bool} {d : Line} {w : WPend} {b : Block} {s : State}

/-- A write once its only line has arrived. -/
def filled (poison : Bool) (d : Line) (w : WPend) : WPend := { w with got := [(0, poison, d)] }

/-- A port with one pending write, or none. -/
def withWrites (l : List WPend) (x : Port) : Port := { x with writes := l }

/-- The first line of the one pending write of a port reaches it; a refused write gives its DATA unit back (R190). -/
theorem takeLine_single {gen : Nat} (hwrites : b.ports[p].writes = [w]) (hgot : w.got = []) :
    takeLine p w.tag 0 gen poison d b
      = modPort p (withWrites [filled poison d w]) (if w.refused.isSome then returnCredit p 1 1 gen b else b) := by
  have hrefused : b.ports[p].writes.any (fun x => x.tag == w.tag && x.refused.isSome) = w.refused.isSome := by
    rw [hwrites]; simp
  have hkept : (if w.refused.isSome then returnCredit p 1 1 gen b else b).ports[p].writes = [w] := by
    split
    · rw [returnCredit, modPort_same, ← hwrites]
      split <;> rfl
    · exact hwrites
  simp only [takeLine, hrefused]
  refine modPort_congr ?_
  rw [hkept]
  simp [withWrites, filled, hgot]

/-- The one data line that waits goes to the one write that waits for it (R189). -/
theorem dataRow_single {tag : BitVec 10} (hrxq : s.blk.ports[p].rxq
      = [.data (tag.toNat + 1024 * s.blk.ports[p].gen) 0 poison d s.blk.ports[p].gen])
    (hwrites : s.blk.ports[p].writes = [w]) (htag : w.tag = tag.toNat + 1024 * s.blk.ports[p].gen) :
    dataRow p tag 0 poison d s
      = flushWrites p (s.upd (takeLine p w.tag 0 s.blk.ports[p].gen poison d (modPort p emptied s.blk))) := by
  have hmod : w.tag % 1024 = tag.toNat := by
    rw [htag, Nat.add_mul_mod_self_left, Nat.mod_eq_of_lt tag.isLt]
  rw [← htag] at hrxq
  have hmine : isData tag.toNat (0 : BitVec 3).toNat (.data w.tag 0 poison d s.blk.ports[p].gen) = true := by
    simp only [isData, hmod, beq_self_eq_true]
    rfl
  have htake : takeItem (isData tag.toNat (0 : BitVec 3).toNat) [] s.blk.ports[p].rxq
      = some ([], .data w.tag 0 poison d s.blk.ports[p].gen, []) := by
    rw [hrxq, takeItem, if_pos hmine]
  have harrive : arrive p (isData tag.toNat (0 : BitVec 3).toNat) (acceptData tag.toNat (0 : BitVec 3).toNat poison d) s.blk
      = s.blk := by
    simp only [arrive, htake]
  have hany : [w].any (fun x => x.tag == w.tag) = true := by simp
  simp only [dataRow, harrive, htake, hwrites, hany, if_true, List.append_nil]
  rfl

/-- A pending write that may go is executed, and leaves nothing behind it on its port. -/
theorem flushWrites_single (hwrites : s.blk.ports[p].writes = [w]) (hmay : mayWrite s.blk [] w = true) :
    flushWrites p s = doWrite p w (s.upd (modPort p (withWrites []) s.blk)) := by
  simp only [flushWrites, hwrites, List.length_singleton, flushN, takeWrite, hmay, if_true, List.nil_append]
  rfl

/-- A write whose one line has come may go where no lookup holds it, or its own has refused it (R190, R252). -/
theorem mayWrite_filled (hcount : w.count = 1) (hgo : w.refused = none → lookupHeld b w.handle w.line = false) :
    mayWrite b [] (filled poison d w) = true := by
  have hcomplete : (filled poison d w).complete = true := by simp [filled, WPend.complete, hcount]
  cases hr : w.refused with
  | none =>
    have hfree : lookupHeld b (filled poison d w).handle (filled poison d w).line = false := hgo hr
    simp [mayWrite, hcomplete, hfree]
  | some st =>
    have hrefused : (filled poison d w).refused = some st := hr
    simp [mayWrite, hcomplete, hrefused]

theorem returnCredit_emptied (k : Fin 4) (n gen : Nat) (b : Block) :
    returnCredit p k n gen (modPort p emptied b) = modPort p emptied (returnCredit p k n gen b) := by
  simp only [returnCredit, modPort_modPort]
  refine modPort_congr ?_
  simp only [apply_ite emptied]
  rfl

/-- A port that holds neither an item nor a write. -/
def bothTaken (x : Port) : Port := { x with rxq := [], writes := [] }

/-- The block once the last line of a write has come: nothing waits on its port, and a refused write has given its DATA unit
back. -/
def lineTaken (p : PortId) (w : WPend) (b : Block) : Block :=
  modPort p bothTaken (if w.refused.isSome then returnCredit p 1 1 b.ports[p].gen b else b)

/-- A port that has discarded the last line of a refused write. -/
def discarded (x : Port) : Port := { x with rxq := [], writes := [], ret := x.ret.set 1 (x.ret[1] + 1) }

theorem lineTaken_refused {st : Status} (h : w.refused = some st) : lineTaken p w b = modPort p discarded b := by
  rw [lineTaken, h, Option.isSome_some, if_pos rfl, returnCredit_own 1 1 rfl, modPort_modPort]
  rfl

theorem lineTaken_accepted (h : w.refused = none) : lineTaken p w b = modPort p bothTaken b := by
  rw [lineTaken, h]
  rfl

/-- The last line of a write of one line executes it. -/
theorem dataRow_last {tag : BitVec 10} (hrxq : s.blk.ports[p].rxq
      = [.data (tag.toNat + 1024 * s.blk.ports[p].gen) 0 poison d s.blk.ports[p].gen])
    (hwrites : s.blk.ports[p].writes = [w]) (htag : w.tag = tag.toNat + 1024 * s.blk.ports[p].gen) (hcount : w.count = 1)
    (hgot : w.got = []) (hgo : w.refused = none → lookupHeld s.blk w.handle w.line = false) :
    dataRow p tag 0 poison d s = doWrite p (filled poison d w) (s.upd (lineTaken p w s.blk)) := by
  have htaken : takeLine p w.tag 0 s.blk.ports[p].gen poison d (modPort p emptied s.blk)
      = modPort p (fun x => withWrites [filled poison d w] (emptied x))
        (if w.refused.isSome then returnCredit p 1 1 s.blk.ports[p].gen s.blk else s.blk) := by
    rw [takeLine_single (by rw [modPort_same]; exact hwrites) hgot, returnCredit_emptied, ← apply_ite (modPort p emptied),
      modPort_modPort]
  rw [dataRow_single hrxq hwrites htag, htaken, flushWrites_single (by rw [State.upd_blk, modPort_same]; rfl) ?_]
  · rw [State.upd_upd, State.upd_blk, modPort_modPort]
    rfl
  · refine mayWrite_filled hcount fun hr => ?_
    rw [hr]
    exact hgo hr

/-- A port whose pools have other units to give back. -/
def withRet (v : Vector Nat 4) (x : Port) : Port := { x with ret := v }

theorem returnCredit_ret (p : PortId) (k : Fin 4) (n gen : Nat) (b : Block) :
    ∃ v, returnCredit p k n gen b = modPort p (withRet v) b := by
  by_cases hg : b.ports[p].gen = gen
  · exact ⟨_, (returnCredit_own k n hg).trans (modPort_congr rfl)⟩
  · exact ⟨b.ports[p].ret, modPort_congr (if_neg hg)⟩

/-- What an access gives back goes to its own port (R199). -/
theorem releaseCred_ret (p : PortId) (gen req data : Nat) (b : Block) :
    ∃ v, releaseCred (some { port := p, gen := gen, req := req, data := data }) b = modPort p (withRet v) b := by
  obtain ⟨v, hv⟩ := returnCredit_ret p 0 req gen b
  obtain ⟨u, hu⟩ := returnCredit_ret p 1 data gen (modPort p (withRet v) b)
  refine ⟨u, ?_⟩
  rw [releaseCred, hv, hu, modPort_modPort]
  rfl

/-- A refused write completes with the status of its lookup (R190). -/
theorem doWrite_refused {st : Status} (h : w.refused = some st) :
    doWrite p w s = s.upd (sendCmpl p w.tag st 1 w.handle s.blk) := by
  simp only [doWrite, h]

/-- The line that a full-line write of one line puts into its channel. -/
def writeLine (b : Block) (p : PortId) (w : WPend) (g l : Nat) : Acc :=
  lineAcc b p w.handle w.cls w.hint w.arr .write g l (encodeP (w.lineAt 0).1 (w.lineAt 0).2)

/-- A full-line write takes one entry of the write queue (R292). -/
theorem fits_write {x : Chan} {e : Acc} (h : e.src = .write) (hrq : rqUsed x ≤ 128) (hwq : wqUsed x < 64) :
    fits x [e] = true := by
  have hread : accRq e = 0 := by simp [accRq, Acc.isRead, Acc.isMasked, h]
  have hwrite : accWq e = 1 := by simp [accWq, Acc.isRead, h]
  simp [fits, hread, hwrite, hrq, Nat.succ_le_of_lt hwq]

/-- A full-line write of one line to a segment written before goes to its channel. -/
theorem doWrite_line {g l : Nat} (hr : w.refused = none) (hm : w.mask = none) (hcount : w.count = 1)
    (hplace : placeOf s.blk w.handle w.line = some (g, l)) (hw : isWritten s.blk g = true)
    (hon : s.blk.chans[cid (segChan g)].st ≠ .offline) :
    doWrite p w s = s.upd (submit (segChan g) [writeLine s.blk p w g l]
      (some { port := p, tag := w.tag, handle := w.handle, pseg := g })
      (some { port := p, gen := w.tag / 1024, req := 1, data := 1 }) s.blk) := by
  have hwritten : firstWrite g w.cls s = s := if_pos hw
  simp only [doWrite, hr, hm, hplace, hon, hwritten, hcount, fullMask, if_true, if_false]
  simp [writeLine]

/-- A full-line write of one line, in time, to a segment written before: where nothing waits in its channel it is the only entry of
the write queue, and completes; its port gets its units back. -/
theorem doWrite_line_enters {g l : Nat} (hr : w.refused = none) (hm : w.mask = none) (hcount : w.count = 1)
    (hplace : placeOf s.blk w.handle w.line = some (g, l)) (hw : isWritten s.blk g = true)
    (hon : s.blk.chans[cid (segChan g)].st ≠ .offline) (hxbar : s.blk.chans[cid (segChan g)].xbar = [])
    (hwq : s.blk.chans[cid (segChan g)].wq = []) (hfills : s.blk.chans[cid (segChan g)].fills = [])
    (hawait : s.blk.chans[cid (segChan g)].await = []) (hrq : rqUsed s.blk.chans[cid (segChan g)] ≤ 128)
    (hroom : wqUsed s.blk.chans[cid (segChan g)] < 64) (hlate : s.blk.now - w.arr ≤ target s.blk w.cls)
    (hsends : s.blk.ports[p].sends w.tag = true) :
    ∃ (b : Block) (v : Vector Nat 4), doWrite p w s = s.upd b
      ∧ (b.chans[cid (segChan g)].wq.map fun a => (a.pla, a.data)) = [(plaOf g l, encodeP (w.lineAt 0).1 (w.lineAt 0).2)]
      ∧ (∀ k, k ≠ cid (segChan g) → b.chans[k] = s.blk.chans[k])
      ∧ b.ports = (modPort p (fun x => completed (cmplRecord w.tag .ok 1 w.handle s.blk.time) (withRet v x)) s.blk).ports := by
  obtain ⟨v, hret⟩ := releaseCred_ret p (w.tag / 1024) 1 1 s.blk
  have hfits : fits s.blk.chans[cid (segChan g)] [writeLine s.blk p w g l] = true := fits_write rfl hrq hroom
  have hsent : (releaseCred (some { port := p, gen := w.tag / 1024, req := 1, data := 1 }) s.blk).ports[p].sends w.tag = true := by
    rw [hret, modPort_same]
    exact hsends
  obtain ⟨hqueue, hothers, hports⟩ := submit_write (w := { port := p, tag := w.tag, handle := w.handle, pseg := g })
    _ rfl hxbar hwq hfills hawait hfits hlate hsent
  rw [hret, modPort_modPort] at hports
  exact ⟨_, v, doWrite_line hr hm hcount hplace hw hon, hqueue, hothers, hports⟩

theorem exec_writeDataLine (p : PortId) (tag : BitVec 10) (poison : Bool) (d : Line) (s : State) :
    exec (.writeDataLine p tag 0 poison d) s = .next (dataRow p tag 0 poison d s) := rfl

end LastLine

end Sys2Proof.Machine

open Sys2Proof Sys2Proof.Machine

/-- Settles O25: the last line executes its write (`dataRow_last`), which its lookup has refused (`doWrite_refused`) or which enters
its channel (`doWrite_line`, `submit_write`). -/
theorem writeLinesComplete : Obligations.WriteLinesComplete := by
  intro p tag poison d w s hrxq hwrites htag hcount hgot hup
  have hsends : ∀ x : Port, x.gen = s.blk.ports[p].gen → x.st = s.blk.ports[p].st → x.sends w.tag = true := by
    intro x hgen hst
    rw [htag, ← hgen]
    exact sends_own tag.isLt (hst ▸ hup)
  refine ⟨fun st hr => ?refused, fun g l hr hm hfree hplace hw hon hxbar hwq hfills hawait hrq hroom hlate => ?served⟩
  case refused =>
    have hrow := dataRow_last hrxq hwrites htag hcount hgot fun h => absurd (h.symm.trans hr) (by simp)
    have hsent : (modPort p discarded s.blk).ports[p].sends w.tag = true := by
      rw [modPort_same]
      exact hsends _ rfl rfl
    rw [exec_writeDataLine, hrow, doWrite_refused (w := filled poison d w) hr, lineTaken_refused hr, State.upd_upd, State.upd_blk]
    refine ⟨_, rfl, ?_⟩
    rw [sendCmpl_sent (tag := (filled poison d w).tag) _ _ _ hsent, modPort_modPort]
    refine ⟨onlyPort_modPort p _ s, ?_⟩
    rw [State.upd_blk, modPort_same]
    exact ⟨rfl, rfl, rfl, rfl⟩
  case served =>
    have hrow := dataRow_last hrxq hwrites htag hcount hgot fun _ => hfree
    have hsent : (modPort p bothTaken s.blk).ports[p].sends w.tag = true := by
      rw [modPort_same]
      exact hsends _ rfl rfl
    obtain ⟨b, v, hwritten, hqueue, hothers, hports⟩ := doWrite_line_enters (w := filled poison d w)
      (s := s.upd (modPort p bothTaken s.blk)) hr hm hcount hplace hw hon hxbar hwq hfills hawait hrq hroom hlate hsent
    rw [State.upd_blk, modPort_modPort] at hports
    rw [exec_writeDataLine, hrow, lineTaken_accepted hr, hwritten]
    refine ⟨_, rfl, rfl, rfl, hqueue, ?_, ?_, ?_, fun q hq => ?_, hothers⟩
    · rw [State.upd_blk, hports, modPort_same]; rfl
    · rw [State.upd_blk, hports, modPort_same]; rfl
    · rw [State.upd_blk, hports, modPort_same]; rfl
    · rw [State.upd_blk, hports, modPort_other _ _ hq]

end

section
/-! SUPPORT. The end of a segment fill: the burst leaves the banks of its slice closed, each activated at the segment's last row,
and nothing else of its channel changed; what waited behind the fill is then served or completes. -/

namespace Sys2Proof.Machine

open Sys2Proof

/-! ### Banks -/

@[simp] theorem Chan.bank_modBank_same (x : Chan) (k : Nat) (f : Bank → Bank) : (x.modBank k f).bank k = f (x.bank k) :=
  mget_mset_same _ _ _ _

theorem Chan.bank_modBank_other (x : Chan) {k j : Nat} (f : Bank → Bank) (h : j ≠ k) : (x.modBank k f).bank j = x.bank j :=
  mget_mset_other _ _ _ h

theorem modChan_congr {c : ChanId} {f g : Chan → Chan} {b : Block} (h : f b.chans[c] = g b.chans[c]) :
    modChan c f b = modChan c g b := by
  unfold modChan; rw [h]

theorem modChan_fixed {c : ChanId} {f : Chan → Chan} {b : Block} (h : f b.chans[c] = b.chans[c]) : modChan c f b = b := by
  unfold modChan
  rw [h]
  simp

/-- A channel with other banks. -/
def withBanks (m : SMap Bank) (x : Chan) : Chan := { x with banks := m }

/-- No row of the channel is open, and no neighbour refresh is pending. -/
def Calm (x : Chan) : Prop := ∀ k, (x.bank k).row = none ∧ (x.bank k).nrf = none

theorem Calm.modBank {x : Chan} (h : Calm x) (k : Nat) {f : Bank → Bank} (hrow : (f (x.bank k)).row = (x.bank k).row)
    (hnrf : (f (x.bank k)).nrf = (x.bank k).nrf) : Calm (x.modBank k f) := by
  intro j
  by_cases hj : j = k
  · subst hj
    rw [Chan.bank_modBank_same, hrow, hnrf]
    exact h j
  · rw [Chan.bank_modBank_other x f hj]
    exact h j

/-! ### The burst -/

section Burst
variable {c g : Nat} {s : State} {b : Block}

/-- A bank whose precharge has just ended the burst. -/
def stamped (b : Block) (c k : Nat) (x : Chan) : Chan := x.modBank k fun y => { y with tPre := some (preAt b c k x) }

/-- Where no row is open, the burst only stamps the precharge of its banks (R301). -/
theorem fillClose_calm (hrun : s.blk.chans[cid c].st = .run) (h : Calm s.blk.chans[cid c]) :
    ∃ m, fillClose c g s = s.upd (modChan (cid c) (withBanks m) s.blk) ∧ Calm (withBanks m s.blk.chans[cid c]) := by
  unfold fillClose
  generalize sliceBanks g = l
  induction l generalizing s with
  | nil => exact ⟨s.blk.chans[cid c].banks, by rw [modChan_fixed rfl]; rfl, h⟩
  | cons k l ih =>
    have hclosed : (s.blk.chans[cid c].bank k).row.isSome = false := by rw [(h k).1]; rfl
    have hstamp : modChan (cid c) (unlessOffline (stamped s.blk c k)) s.blk = modChan (cid c) (stamped s.blk c k) s.blk :=
      modChan_congr (if_neg (by rw [hrun]; decide))
    have hchan : (s.upd (modChan (cid c) (stamped s.blk c k) s.blk)).blk.chans[cid c] = stamped s.blk c k s.blk.chans[cid c] := by
      rw [State.upd_blk, modChan_same]
    obtain ⟨m, hrest, hm⟩ := ih (s := s.upd (modChan (cid c) (stamped s.blk c k) s.blk)) (by rw [hchan]; exact hrun)
      (by rw [hchan]; exact h.modBank k rfl rfl)
    rw [hchan] at hm
    refine ⟨m, ?_, hm⟩
    rw [State.upd_upd, State.upd_blk, modChan_modChan] at hrest
    rw [List.foldl_cons]
    simp only [hclosed, Bool.false_eq_true, if_false]
    exact (congrArg (fun b => l.foldl _ (s.upd b)) hstamp).trans hrest

/-- The banks once rows have been activated in them, in order (R316). -/
def activated (rs : List (Nat × Nat)) (x : Chan) : Chan :=
  rs.foldl (fun x r => x.modBank r.2 fun y => { y with actRow := some r.1 }) x

theorem Calm.activated {x : Chan} (h : Calm x) (rs : List (Nat × Nat)) : Calm (activated rs x) := by
  induction rs generalizing x with
  | nil => exact h
  | cons r rs ih => exact ih (h.modBank r.2 rfl rfl)

/-- Without draws, the activates of a fill only leave their rows (R315). -/
theorem fillDraws_calm {rs : List (Nat × Nat)} {raws : List Bool} (hprob : rwf (chnBase c + 0x14) 15 0 b = 0)
    (h : Calm b.chans[cid c]) : fillDraws c rs raws b = modChan (cid c) (activated rs) b := by
  induction rs generalizing b raws with
  | nil => simp [fillDraws, activated, modChan]
  | cons r rs ih =>
    have hcycle : fillCycle c r.2 b = b := by rw [fillCycle, (h r.2).2]
    have hdraw : drawRow c r.2 r.1 (raws.headD false) b = b := if_pos hprob
    rw [fillDraws, hcycle, hdraw, ih (b := modChan (cid c) _ b) hprob (by rw [modChan_same]; exact h.modBank r.2 rfl rfl), modChan_modChan]
    rfl

theorem activated_append (rs qs : List (Nat × Nat)) (x : Chan) : activated (rs ++ qs) x = activated qs (activated rs x) :=
  List.foldl_append ..

theorem activated_eq (rs : List (Nat × Nat)) (x : Chan) : activated rs x = withBanks (activated rs x).banks x := by
  induction rs generalizing x with
  | nil => rfl
  | cons r rs ih => exact ih (x.modBank r.2 _)

theorem activated_withBanks (rs : List (Nat × Nat)) (m : SMap Bank) (x : Chan) :
    activated rs (withBanks m x) = withBanks (activated rs (withBanks m x)).banks x :=
  activated_eq rs (withBanks m x)

/-- Banks that are activated at one row stand at it. -/
theorem activated_actRow {rs : List (Nat × Nat)} {x : Chan} {k n : Nat} (hall : ∀ r ∈ rs, r.1 = n)
    (hk : k ∈ rs.map Prod.snd ∨ (x.bank k).actRow = some n) : ((activated rs x).bank k).actRow = some n := by
  induction rs generalizing x with
  | nil => simpa [activated] using hk
  | cons r rs ih =>
    refine ih (fun q hq => hall q (List.mem_cons_of_mem _ hq)) ?_
    by_cases hr : k = r.2
    · right
      rw [hr, Chan.bank_modBank_same, hall r List.mem_cons_self]
    · rw [Chan.bank_modBank_other _ _ hr]
      simpa [hr] using hk

/-- The last row of the segment is activated last, in each bank of its slice. -/
theorem activated_fillRows (g : Nat) (x : Chan) {i : Nat} (hi : i < 4) :
    ((activated (fillRows g) x).bank (4 * segSlice g + i)).actRow = some (8 * segIn g + 7) := by
  have hlast : fillRows g = (List.range 7).flatMap (fun j => (List.range 4).map fun i => (8 * segIn g + j, 4 * segSlice g + i))
      ++ (List.range 4).map fun i => (8 * segIn g + 7, 4 * segSlice g + i) := by
    rw [fillRows, List.range_succ (n := 7), List.flatMap_append, List.flatMap_singleton]
  rw [hlast, activated_append]
  refine activated_actRow (by simp) (.inl ?_)
  simpa using hi

/-- After the rows of a fill, the banks of its slice stand at the segment's last row, closed; nothing but banks has changed. -/
theorem fillRows_activated (g : Nat) {m : SMap Bank} {x : Chan} (h : Calm (withBanks m x)) :
    ∃ n : SMap Bank, activated (fillRows g) (withBanks m x) = withBanks n x ∧
      ∀ i, i < 4 → (mget n (4 * segSlice g + i) {}).actRow = some (8 * segIn g + 7)
        ∧ (mget n (4 * segSlice g + i) {}).row = none := by
  obtain ⟨n, hn⟩ : ∃ n, activated (fillRows g) (withBanks m x) = withBanks n x := ⟨_, activated_withBanks ..⟩
  have hrows := fun i (hi : i < 4) => activated_fillRows g (withBanks m x) hi
  have hclosed := h.activated (fillRows g)
  rw [hn] at hrows hclosed
  exact ⟨n, hn, fun i hi => ⟨hrows i hi, (hclosed _).1⟩⟩

/-- A channel whose burst has ended. -/
def burstEnded (m : SMap Bank) (rest : List Nat) (x : Chan) : Chan := { x with banks := m, fills := rest }

/-- The queued reads of a segment that a queued write holds. -/
def heldReads (g : Nat) (x : Chan) : List Acc := x.rq.filter fun q => q.pseg == g && q.held.isSome

/-- A read that takes its line from the write queue leaves its own queue, and is served (R295). -/
def serveHeld (c : Nat) (b : Block) (q : Acc) : Block := serveQueued c q (q.held.getD 0) (modChan (cid c) (dropEntry q) b)

/-- What the end of a fill does where no row was open: its banks stand at the segment's last row, closed, and what waited behind the
fill goes on. -/
theorem fillDone_calm {raws : List Bool} {rest : List Nat} (hfills : s.blk.chans[cid c].fills = g :: rest)
    (hrun : s.blk.chans[cid c].st = .run) (hbanks : s.blk.chans[cid c].banks = []) (hprob : rwf (chnBase c + 0x14) 15 0 s.blk = 0) :
    ∃ m : SMap Bank, (∀ i, i < 4 → (mget m (4 * segSlice g + i) {}).actRow = some (8 * segIn g + 7)
        ∧ (mget m (4 * segSlice g + i) {}).row = none) ∧
      fillDone c raws s = s.upd (letIn c (drainAwait c g
        ((heldReads g s.blk.chans[cid c]).foldl (serveHeld c) (modChan (cid c) (burstEnded m rest) s.blk)))) := by
  have hcalm : Calm s.blk.chans[cid c] := fun k => by rw [Chan.bank, hbanks]; exact ⟨rfl, rfl⟩
  obtain ⟨m, hclose, hm⟩ := fillClose_calm (g := g) hrun hcalm
  obtain ⟨n, hends, hslice⟩ := fillRows_activated g hm
  refine ⟨n, hslice, ?_⟩
  have hdraws : fillDraws c (fillRows g) raws (modChan (cid c) (withBanks m) s.blk) = modChan (cid c) (withBanks n) s.blk := by
    rw [fillDraws_calm (b := modChan (cid c) (withBanks m) s.blk) hprob (by rw [modChan_same]; exact hm), modChan_modChan]
    exact modChan_congr hends
  unfold fillDone
  simp only [hfills, hclose, State.upd_blk, hdraws, modChan_modChan, modChan_same]
  rfl

end Burst

/-! ### What waited behind the fill -/

section Behind
variable {c g : Nat} {b : Block}

theorem letIn_none (h : b.chans[cid c].xbar = []) : letIn c b = b := by
  rw [letIn, h]; rfl

/-- A channel where no completion waits. -/
def noneWait (x : Chan) : Chan := { x with await := [] }

/-- The completions of a segment that wait, once those that may go have gone. -/
def awaitLeft (g : Nat) (gone : List WDone) (x : Chan) : Chan := { x with await := x.await.filter (fun w => w.pseg != g) ++ gone }

theorem awaitLeft_all {g : Nat} {x : Chan} (h : ∀ w ∈ x.await, w.pseg = g) : awaitLeft g [] x = noneWait x := by
  simpa [awaitLeft, noneWait] using h

theorem drainAwait_none (h : b.chans[cid c].await = []) : drainAwait c g b = b := by
  have hfixed : awaitLeft g [] b.chans[cid c] = b.chans[cid c] := by
    generalize b.chans[cid c] = x at *
    cases x
    simp only at h
    subst h
    rfl
  unfold drainAwait
  split
  · rfl
  · rw [h]
    exact modChan_fixed hfixed

/-- The one write behind a fill that has entered its queue completes as the fill ends (R35). -/
theorem drainAwait_single {w : WDone} {st : Status} (h : b.chans[cid c].await = [w]) (hw : w.pseg = g) (hst : w.st = some st)
    (hfills : g ∉ b.chans[cid c].fills) :
    drainAwait c g b = sendCmpl w.port w.tag st 1 w.handle (modChan (cid c) noneWait b) := by
  have hnone : b.chans[cid c].fills.contains g = false := by simpa using hfills
  have hbehind : modChan (cid c) (awaitLeft g []) b = modChan (cid c) noneWait b :=
    modChan_congr (awaitLeft_all (by rw [h]; simpa using hw))
  have hgo : (b.chans[cid c].await.filter fun w => w.pseg == g) = [w] := by simp [-Fin.getElem_fin, h, hw]
  have htake : [w].takeWhile (fun w => w.st.isSome) = [w] := by simp [hst]
  simp only [drainAwait, hnone, hgo, htake, Bool.false_eq_true, if_false, List.foldl_cons, List.foldl_nil, hst]
  exact congrArg _ hbehind

/-- From `b` to `t` no channel has changed, and no line that goes out. -/
def DataKept (b t : Block) : Prop := t.chans = b.chans ∧ ∀ p : PortId, t.ports[p].txData = b.ports[p].txData

theorem DataKept.emit {t : Block} (mask : BitVec 16) (e : Ev) (h : DataKept b t) : DataKept b (emit mask e t) := by
  refine ⟨(emit_chans t mask e).trans h.1, fun p => ?_⟩
  rw [(quietly_emit mask e t).2 p]
  exact h.2 p

/-- A missed target is counted, and reported as its count grows (R276 to R278). -/
theorem dataKept_countMiss (c k : Nat) (inGrant : Bool) (b : Block) : DataKept b (countMiss c k inGrant b) := by
  unfold countMiss
  extract_lets a sat counted reported
  have hcounted : DataKept b counted := ⟨rfl, fun _ => rfl⟩
  have hreported : DataKept b reported := by
    unfold reported
    split
    · exact hcounted
    split
    · exact DataKept.emit _ _ ⟨rfl, fun _ => rfl⟩
    · exact hcounted
  clear_value reported
  split
  · exact hreported
  · exact hreported

theorem dataKept_endLatency (c k arr : Nat) (inGrant : Bool) (b : Block) : DataKept b (endLatency c k arr inGrant b) := by
  unfold endLatency
  split
  · exact dataKept_countMiss ..
  · exact ⟨rfl, fun _ => rfl⟩

/-- A port whose line `off` of a tag has gone out. -/
def lineGone (tag off : Nat) (x : Port) : Port :=
  { x with tags := x.tags.map fun t => if t.1 = tag then (t.1, { t.2 with wait := bclr t.2.wait off }) else t }

/-- A line that is delivered for a live tag goes out (R185); beyond that only what a latency target counts may change. -/
theorem deliverRead_sent {p : PortId} {tag off : Nat} (e : Acc) (poison : Bool) (d : Line) (h : b.ports[p].sends tag = true) :
    DataKept (modPort p (lineGone tag off) (modPort p (sentLines [{ tag := tag, line := off, poison := poison, d := d }]) b))
      (deliverRead c p tag off e poison d b) := by
  have hsent : sendData p { tag := tag, line := off, poison := poison, d := d } b
      = modPort p (sentLines [{ tag := tag, line := off, poison := poison, d := d }]) b := if_pos h
  unfold deliverRead
  dsimp only
  rw [hsent]
  split
  · split
    · exact dataKept_endLatency ..
    · exact ⟨rfl, fun _ => rfl⟩
  · exact dataKept_endLatency ..

/-- A channel that has served one more line from its write queue. -/
def servedQueued (x : Chan) : Chan := { x with nWq := x.nWq + 1 }

/-- The count of poisoned lines of a channel, after one more line (R328). -/
def poisonCounted (c : Nat) (poison : Bool) (b : Block) : Block := if poison then ctrAdd (chnBase c + 0x12C) 1 b else b

theorem poisonCounted_keeps (c : Nat) (poison : Bool) (b : Block) :
    (poisonCounted c poison b).chans = b.chans ∧ (poisonCounted c poison b).ports = b.ports := by
  unfold poisonCounted
  split
  · exact ⟨rfl, rfl⟩
  · exact ⟨rfl, rfl⟩

section Read
variable {q : Acc} {v : Stored} {p : PortId} {tag off h line : Nat}

theorem countServed_read (hsrc : q.src = .read p tag off h line) (b : Block) :
    countServed c q b = serveLine c q.cls q.pseg q.quad b := by
  rw [countServed, hsrc]

theorem serveQueued_read (hsrc : q.src = .read p tag off h line) (b : Block) :
    serveQueued c q v b = deliverRead c p tag off q ((decodeLine false v).1 == .poisoned) (lineOf v)
      (poisonCounted c ((decodeLine false v).1 == .poisoned) (modChan (cid c) servedQueued (serveLine c q.cls q.pseg q.quad b))) := by
  rw [← countServed_read hsrc, serveQueued, hsrc]
  rfl

/-- A read served from the write queue counts, and its line goes out; of its channel only counts change (R295). -/
theorem serveQueued_sent (hsrc : q.src = .read p tag off h line) (hsends : b.ports[p].sends tag = true) :
    ∃ t, Tallied (cid c) b t ∧ (serveQueued c q v b).chans = t.chans
      ∧ (serveQueued c q v b).ports[p].txData
          = b.ports[p].txData ++ [{ tag := tag, line := off, poison := (decodeLine false v).1 == .poisoned, d := lineOf v }] := by
  have htally : Tallied (cid c) b (modChan (cid c) servedQueued (serveLine c q.cls q.pseg q.quad b)) :=
    (tallied_serveLine c q.cls q.pseg q.quad b).trans ⟨rfl, fun _ hd => modChan_other _ _ hd, by rw [modChan_same]; rfl⟩
  refine ⟨_, htally, ?_⟩
  have hports := htally.ports
  rw [serveQueued_read hsrc]
  generalize modChan (cid c) servedQueued (serveLine c q.cls q.pseg q.quad b) = t at *
  generalize hpoison : ((decodeLine false v).1 == .poisoned) = poison
  obtain ⟨kchans, kports⟩ := poisonCounted_keeps c poison t
  obtain ⟨hchans, htx⟩ := deliverRead_sent (c := c) (off := off) q poison (lineOf v)
    (show (poisonCounted c poison t).ports[p].sends tag = true by rwa [kports, hports])
  refine ⟨hchans.trans kchans, ?_⟩
  rw [htx p, modPort_same, modPort_same, kports, hports]
  rfl

end Read

end Behind

/-! ### The end of a fill -/

section FillEnd
variable {k g : Nat} {c : ChanId} {rest : List Nat} {raws : List Bool} {s : State}

theorem cid_val (c : ChanId) : cid c.val = c := Fin.ext (Nat.mod_eq_of_lt c.isLt)

theorem exec_segmentFillDone {b : Block} (h : fillDone c.val raws s = s.upd b) :
    exec (.segmentFillDone c raws) s = .next (s.upd b) :=
  congrArg _ h

/-- The banks of the slice of a segment stand at its last row, closed. -/
def AtLastRow (g : Nat) (m : SMap Bank) : Prop :=
  ∀ i, i < 4 → (mget m (4 * segSlice g + i) {}).actRow = some (8 * segIn g + 7) ∧ (mget m (4 * segSlice g + i) {}).row = none

theorem heldReads_single {x : Chan} {q : Acc} {v : Stored} (hrq : x.rq = [q]) (hq : q.pseg = g) (hheld : q.held = some v) :
    heldReads g x = [q] := by
  simp [heldReads, hrq, hq, hheld]

theorem dropEntry_last {x : Chan} {q : Acc} (hrq : x.rq = [q]) (hwq : ∀ w ∈ x.wq, w.ord ≠ q.ord) :
    (dropEntry q x).rq = [] ∧ (dropEntry q x).wq = x.wq := by
  simpa [dropEntry, hrq] using hwq

variable (hk : cid k = c) (hfills : s.blk.chans[c].fills = g :: rest) (hrun : s.blk.chans[c].st = .run)
  (hxbar : s.blk.chans[c].xbar = []) (hbanks : s.blk.chans[c].banks = []) (hprob : rwf (chnBase k + 0x14) 15 0 s.blk = 0)
include hk hfills hrun hxbar hbanks hprob

/-- The one write behind a fill, which has entered its queue, completes as the fill ends. -/
theorem fillDone_write {w : WDone} {st : Status} (hrest : g ∉ rest) (hrq : s.blk.chans[c].rq = [])
    (hawait : s.blk.chans[c].await = [w]) (hw : w.pseg = g) (hst : w.st = some st)
    (hsends : s.blk.ports[w.port].sends w.tag = true) :
    ∃ m, AtLastRow g m ∧ fillDone k raws s = s.upd (modPort w.port (completed (cmplRecord w.tag st 1 w.handle s.blk.time))
      (modChan c (fun x => noneWait (burstEnded m rest x)) s.blk)) := by
  subst hk
  obtain ⟨m, hslice, hdone⟩ := fillDone_calm (raws := raws) hfills hrun hbanks hprob
  have hended : (modChan (cid k) (burstEnded m rest) s.blk).chans[cid k] = burstEnded m rest s.blk.chans[cid k] := modChan_same _ _ _
  have hnoread : heldReads g s.blk.chans[cid k] = [] := by rw [heldReads, hrq]; rfl
  refine ⟨m, hslice, hdone.trans (congrArg s.upd ?_)⟩
  rw [hnoread, List.foldl_nil,
    drainAwait_single (by rw [hended]; exact hawait) hw hst (by rw [hended]; exact hrest), modChan_modChan,
    sendCmpl_sent (b := modChan (cid k) (fun x => noneWait (burstEnded m rest x)) s.blk) _ _ _ hsends]
  refine letIn_none ?_
  show (modChan (cid k) (fun x => noneWait (burstEnded m rest x)) s.blk).chans[cid k].xbar = []
  rw [modChan_same]
  exact hxbar

/-- The one read behind a fill, whose line a queued write holds, is answered as the fill ends. -/
theorem fillDone_read {q : Acc} {v : Stored} {p : PortId} {tag off h line : Nat} (hrq : s.blk.chans[c].rq = [q])
    (hawait : s.blk.chans[c].await = []) (hq : q.pseg = g) (hheld : q.held = some v) (hsrc : q.src = .read p tag off h line)
    (hsends : s.blk.ports[p].sends tag = true) :
    ∃ m t u, AtLastRow g m ∧ fillDone k raws s = s.upd u
      ∧ Tallied c (modChan c (fun x => dropEntry q (burstEnded m rest x)) s.blk) t ∧ u.chans = t.chans
      ∧ u.ports[p].txData = s.blk.ports[p].txData
          ++ [{ tag := tag, line := off, poison := (decodeLine false v).1 == .poisoned, d := lineOf v }] := by
  subst hk
  obtain ⟨m, hslice, hdone⟩ := fillDone_calm (raws := raws) hfills hrun hbanks hprob
  have hserve : serveHeld k (modChan (cid k) (burstEnded m rest) s.blk) q
      = serveQueued k q v (modChan (cid k) (fun x => dropEntry q (burstEnded m rest x)) s.blk) := by
    rw [serveHeld, hheld, modChan_modChan]; rfl
  obtain ⟨t, htally, hchans, htx⟩ := serveQueued_sent (c := k) (v := v) (b := modChan (cid k) (fun x => dropEntry q (burstEnded m rest x)) s.blk)
    hsrc hsends
  have hchan := htally.2.2
  rw [modChan_same] at hchan
  rw [heldReads_single hrq hq hheld, List.foldl_cons, List.foldl_nil, hserve,
    drainAwait_none (by rw [hchans, hchan]; exact hawait), letIn_none (by rw [hchans, hchan]; exact hxbar)] at hdone
  exact ⟨m, t, _, hslice, hdone, htally, hchans, htx⟩

end FillEnd

end Sys2Proof.Machine

open Sys2Proof Sys2Proof.Machine

/-- Settles O28: the burst leaves its banks at the segment's last row, closed (`fillDone_calm`), and then what waited behind the fill
completes (`fillDone_write`) or is answered from the write queue (`fillDone_read`). -/
theorem fillsEnd : Obligations.FillsEnd := by
  intro c g rest raws s hfills hrest hrun hxbar hbanks hprob
  refine ⟨fun w st hrq hawait hw hst hsends => ?_, fun q v p tag off h line hrq hawait hq hheld hsrc hord hsends => ?_⟩
  · obtain ⟨m, hslice, hdone⟩ := fillDone_write (raws := raws) (cid_val c) hfills hrun hxbar hbanks hprob hrest hrq hawait hw hst hsends
    have hchan : (modPort w.port (completed (cmplRecord w.tag st 1 w.handle s.blk.time))
        (modChan c (fun x => noneWait (burstEnded m rest x)) s.blk)).chans[c] = noneWait (burstEnded m rest s.blk.chans[c]) := by
      rw [modPort_chans, modChan_same]
    refine ⟨_, ⟨exec_segmentFillDone hdone, rfl, rfl, ?_, ?_, fun d hd => ?_, ?_⟩, ?_, rfl, ?_, fun r hr => modPort_other _ _ hr⟩
    · rw [State.upd_blk, hchan]; rfl
    · rw [State.upd_blk, hchan]; rfl
    · rw [State.upd_blk, modPort_chans, modChan_other _ _ hd]
    · rw [State.upd_blk, hchan]; exact hslice
    · rw [State.upd_blk, hchan]; rfl
    · rw [State.upd_blk, modPort_same]; rfl
  · obtain ⟨m, t, u, hslice, hdone, htally, hchans, htx⟩ :=
      fillDone_read (raws := raws) (cid_val c) hfills hrun hxbar hbanks hprob hrq hawait hq hheld hsrc hsends
    obtain ⟨hdrop, hkept⟩ := dropEntry_last (x := burstEnded m rest s.blk.chans[c]) hrq hord
    obtain ⟨-, hothers, hchan⟩ := htally
    rw [modChan_same] at hchan
    refine ⟨_, ⟨exec_segmentFillDone hdone, rfl, rfl, ?_, ?_, fun d hd => ?_, ?_⟩, ?_, htx⟩
    · rw [State.upd_blk, hchans, hchan]; rfl
    · rw [State.upd_blk, hchans, hchan]; exact hkept
    · rw [State.upd_blk, hchans, hothers d hd, modChan_other _ _ hd]
    · rw [State.upd_blk, hchans, hchan]; exact hslice
    · rw [State.upd_blk, hchans, hchan]; exact hdrop

end

section
/-! SUPPORT. The register file after a write: what a live value reads, what waits in a commit buffer, and when a block's buffer takes
a write at once (R52 to R54). -/

namespace Sys2Proof.Machine

open Sys2Proof

/-! ### The answer of a write -/

section Answered
variable {path : Path} {a : Nat} {st : Status} {t : State}

@[simp] theorem answered_resp : (answered path a st t).blk.resp = st := respond_resp _ _ _ _ _
@[simp] theorem answered_regs : (answered path a st t).blk.regs = t.blk.regs := respond_regs _ _ _ _ _
@[simp] theorem answered_ports : (answered path a st t).blk.ports = t.blk.ports := respond_ports _ _ _ _ _
@[simp] theorem answered_mem : (answered path a st t).mem = t.mem := rfl
@[simp] theorem rw_answered (k : Nat) : rw k (answered path a st t).blk = rw k t.blk := by
  simp only [rw, answered_regs]
@[simp] theorem shadow_answered (k : Nat) : shadow k (answered path a st t).blk = shadow k t.blk := by
  simp only [shadow, rw, answered_regs]
@[simp] theorem ctr_answered (k : Nat) : ctr k (answered path a st t).blk = ctr k t.blk := by
  simp only [ctr, answered_regs]
@[simp] theorem ctrSat_answered (k : Nat) : ctrSat k (answered path a st t).blk = ctrSat k t.blk := by
  simp only [ctrSat, ctr_answered]

end Answered

/-! ### Live values -/

/-- A store of one key leaves every other, whatever defaults the two have. -/
theorem mget_mset_ne {α : Type} [DecidableEq α] (m : SMap α) {k j : Nat} (d e v : α) (h : j ≠ k) :
    mget (mset m k d v) j e = mget m j e := by
  unfold mset
  split
  · exact mget_filter_other m e h
  · exact mget_mput_other m e v h

section Live
variable {b : Block} {l : List PendWr}

theorem rw_setLive_same (a : Nat) (v : Word) (b : Block) : rw a (setLive a v b) = v := mget_mset_same _ _ _ _

theorem rw_setLive_other {a k : Nat} (v : Word) (h : k ≠ a) : rw k (setLive a v b) = rw k b := mget_mset_ne _ _ _ _ h

/-- Making writes live changes the live values and their parity alone. -/
theorem applyWrites_eq (l : List PendWr) (b : Block) :
    applyWrites l b = { b with regs := { b.regs with
      live := (applyWrites l b).regs.live, badPar := (applyWrites l b).regs.badPar } } := by
  induction l generalizing b with
  | nil => rfl
  | cons w t ih => exact ih (setLive w.addr w.value b)

theorem rw_applyWrites_none {a : Nat} (h : ∀ w ∈ l, w.addr ≠ a) : rw a (applyWrites l b) = rw a b := by
  induction l generalizing b with
  | nil => rfl
  | cons w t ih =>
    calc rw a (applyWrites t (setLive w.addr w.value b))
      _ = rw a (setLive w.addr w.value b) := ih fun v hv => h v (List.mem_cons_of_mem _ hv)
      _ = rw a b := rw_setLive_other _ (h w List.mem_cons_self).symm

/-- A write that is the only one of its register is what the register holds. -/
theorem rw_applyWrites_mem {w : PendWr} (hw : w ∈ l) (hone : ∀ v ∈ l, v.addr = w.addr → v = w) :
    rw w.addr (applyWrites l b) = w.value := by
  induction l generalizing b with
  | nil => cases hw
  | cons x t ih =>
    have hrest : ∀ v ∈ t, v.addr = w.addr → v = w := fun v hv => hone v (List.mem_cons_of_mem _ hv)
    by_cases ht : w ∈ t
    · exact ih ht hrest
    · obtain rfl : w = x := (List.mem_cons.mp hw).resolve_right ht
      calc rw w.addr (applyWrites t (setLive w.addr w.value b))
        _ = rw w.addr (setLive w.addr w.value b) := rw_applyWrites_none fun v hv e => ht (hrest v hv e ▸ hv)
        _ = w.value := rw_setLive_same _ _ b

end Live

/-! ### Commit buffers -/

section Buffers
variable {b : Block} {base : Nat}

/-- The value that waits is what the shadow shows (R54). -/
theorem shadow_bufferWrite (a : Nat) (v : Word) (b : Block) : shadow a (bufferWrite a v b) = v := by
  have hothers : (b.regs.pend.filter fun w => w.addr != a).find? (fun w => w.addr == a) = none := by
    simp [List.find?_eq_none]
  simp [shadow, bufferWrite, List.find?_append, hothers]

/-- A write replaces what waits for its register (R52). -/
theorem bufferWrite_one (a : Nat) (v : Word) (b : Block) :
    ((bufferWrite a v b).regs.pend.filter fun w => w.addr == a).length = 1 := by
  have hothers : (b.regs.pend.filter fun w => w.addr != a).filter (fun w => w.addr == a) = [] := by
    simp [List.filter_eq_nil_iff]
  simp [bufferWrite, List.filter_append, hothers]

/-- Writes with right parity are taken from the buffer, and nothing else happens (R57). -/
theorem takePend_good (h : ∀ w ∈ b.regs.pend, w.good = true) :
    takePend base b = (b.regs.pend.filter fun w => baseOf w.addr == base,
      { b with regs := { b.regs with pend := b.regs.pend.filter fun w => baseOf w.addr != base } }) := by
  have hgood : ∀ w ∈ b.regs.pend.filter fun w => baseOf w.addr == base, w.good = true :=
    fun w hw => h w (List.mem_of_mem_filter hw)
  unfold takePend
  dsimp only
  rw [List.filter_eq_self.mpr hgood, foldl_fix _ _ _ fun w hw => if_pos (hgood w hw)]

/-- Where nothing waits for a block, its buffer holds the one write that comes. -/
theorem takePend_bufferWrite {a : Nat} (v : Word) (h : pendingAt (baseOf a) b = false) :
    takePend (baseOf a) (bufferWrite a v b)
      = ([{ addr := a, value := v, after := !b.regs.forced.isEmpty, since := b.now }], b) := by
  have hbase : ∀ w ∈ b.regs.pend, baseOf w.addr ≠ baseOf a := by simpa [pendingAt] using h
  have haddr : ∀ w ∈ b.regs.pend, w.addr ≠ a := fun w hw e => hbase w hw (congrArg baseOf e)
  have hkept : (b.regs.pend.filter fun w => w.addr != a) = b.regs.pend := by simpa [List.filter_eq_self] using haddr
  have hnone : (b.regs.pend.filter fun w => baseOf w.addr == baseOf a) = [] := by simpa [List.filter_eq_nil_iff] using hbase
  have hall : (b.regs.pend.filter fun w => baseOf w.addr != baseOf a) = b.regs.pend := by
    simpa [List.filter_eq_self] using hbase
  simp [takePend, bufferWrite, hkept, List.filter_append, hnone, hall]

end Buffers

/-! ### A port's block -/

section LnkBlock
variable {b : Block} {p : PortId}

theorem lnkBase_cases (p : PortId) : isLnk (lnkBase p.val) = true ∧ lnkBase p.val ≠ clkBase ∧ lnkBase p.val ≠ pwrBase
    ∧ lnkBase p.val ≠ srlBase ∧ lnkBase p.val ≠ savBase ∧ lnkBase p.val ≠ twpBase := by
  revert p; decide

theorem atOnceNow_lnk (p : PortId) (b : Block) : atOnceNow (lnkBase p.val) b = (b.ports[p].st != .active) := by
  obtain ⟨hlnk, hclk, hpwr, -, -, htwp⟩ := lnkBase_cases p
  simp [atOnceNow, hlnk, hclk, hpwr, htwp, portOf_lnk]

theorem commitAt_lnk (p : PortId) (b : Block) : commitAt (lnkBase p.val) b = commitLnk p b := by
  obtain ⟨hlnk, hclk, hpwr, hsrl, hsav, -⟩ := lnkBase_cases p
  simp [commitAt, hlnk, hclk, hpwr, hsrl, hsav, portOf_lnk]

theorem baseOf_lnk (p : PortId) {o : Nat} (ho : o < 0x1000) : baseOf (lnkBase p.val + o) = lnkBase p.val :=
  baseOf_add (lnkBase_mod _) ho

/-- The write of an ACTIVE port's register waits (R53). -/
theorem buffer_active {o : Nat} (v : Word) (ho : o < 0x1000) (h : b.ports[p].st = .active) :
    buffer (lnkBase p.val + o) v b = bufferWrite (lnkBase p.val + o) v b := by
  unfold buffer commitNow
  rw [baseOf_lnk p ho, atOnceNow_lnk, bufferWrite_ports, h]
  rfl

/-- While a port is not ACTIVE a write of its registers, but for LNK_CTRL, is live at once (R53). -/
theorem buffer_inactive {o : Nat} (v : Word) (ho : o < 0x1000) (h0 : o ≠ 0) (h : b.ports[p].st ≠ .active)
    (hpend : pendingAt (lnkBase p.val) b = false) :
    buffer (lnkBase p.val + o) v b = setLive (lnkBase p.val + o) v b := by
  obtain ⟨-, hclk, hpwr, -⟩ := lnkBase_cases p
  have hnow : atOnceNow (lnkBase p.val) (bufferWrite (lnkBase p.val + o) v b) = true := by
    rw [atOnceNow_lnk, bufferWrite_ports]; simpa using h
  have htake := takePend_bufferWrite (a := lnkBase p.val + o) v (by rwa [baseOf_lnk p ho])
  rw [baseOf_lnk p ho] at htake
  have hctrl : ¬ (lnkBase p.val + o = lnkBase p.val ∧ v.getLsbD 0 = true) := fun e => h0 (by omega)
  unfold buffer commitNow
  rw [baseOf_lnk p ho, hnow, if_neg (by decide), if_neg (by simp [hclk, hpwr]), commitAt_lnk]
  unfold commitLnk
  rw [htake]
  exact if_neg hctrl

end LnkBlock

/-! ### LNK_CFG -/

/-- A write of LNK_CFG that leaves a width goes to the port's commit buffer. -/
theorem writeLive_lnkCfg {path : Path} {p : PortId} {data : Word} {s : State} (hgood : s.blk.regs.badPar = [])
    (hwidth : wfield data 15 8 ≠ 0) :
    writeLive path none (lnkBase p.val + 4) data s
      = (some .ok, s.upd (buffer (lnkBase p.val + 4) (data &&& 0xFFFE) s.blk)) := by
  have hreg : regAt (lnkBase p.val + 4) = some (.rw 0xFFFE 0x084E) := regAt_lnk p (by decide) (by decide)
  have hmask : rwMask (lnkBase p.val + 4) = 0xFFFE := by rw [rwMask, hreg]
  have hbase := baseOf_lnk p (o := 4) (by decide)
  have hother : isEng (lnkBase p.val) = false ∧ lnkBase p.val ≠ srlBase := by revert p; decide
  have hlow : 0x10000 ≤ lnkBase p.val := Nat.le_add_right _ _
  have hwrite : lnkWrite p 4 data s.blk = (.ok, buffer (lnkBase p.val + 4) (data &&& 0xFFFE) s.blk) := by
    simp [lnkWrite, bufferOk, hwidth, hmask]
  rw [writeLive_block hgood (fun _ => by rw [hbase]; exact ⟨hother.2, hother.1⟩) (by rw [hreg]; simp) (by omega) (by omega)
    (by omega) (by omega) (by omega), writeBlock_lnk path p (by decide), hwrite]
  rfl

/-- What a write of LNK_CFG over an open path answers. -/
theorem exec_write_lnkCfg {path : Path} {p : PortId} {data : Word} {s : State} (hw : takesWrites path s)
    (hwidth : wfield data 15 8 ≠ 0) (hstart : (buffer (lnkBase p.val + 4) (data &&& 0xFFFE) s.blk).start = s.blk.start) :
    exec (.registerWrite path (BitVec.ofNat 32 (lnkBase p.val + 4)) data 15) s
      = .next (answered path (lnkBase p.val + 4) .ok (s.upd (buffer (lnkBase p.val + 4) (data &&& 0xFFFE) s.blk))) := by
  obtain ⟨-, -, -, -, hgood⟩ := id hw
  have hp := p.isLt
  have hsum : lnkBase p.val = 0x10000 + p.val * 0x1000 := rfl
  have hreg : regAt (lnkBase p.val + 4) = some (.rw 0xFFFE 0x084E) := regAt_lnk p (by decide) (by decide)
  refine congrArg Host.Outcome.next (pathWrite_live hw (by omega) (by omega) (by omega) (by rw [hreg]; rfl)
    (lockedReg_out _ (by omega)) (writeLive_lnkCfg hgood hwidth) ?_)
  rw [State.upd_blk, hstart]
  exact takesWrites_step hw

end Sys2Proof.Machine

open Sys2Proof Sys2Proof.Machine

/-- Settles O11: the buffer of an ACTIVE port keeps the write (`buffer_active`), that of another commits it (`buffer_inactive`). -/
theorem bufferedWrites : Obligations.BufferedWrites := by
  intro path p data s hw hwidth
  refine ⟨fun hst => ?waits, fun hst hpend => ?live⟩
  case waits =>
    have hbuf := buffer_active (b := s.blk) (p := p) (o := 4) (data &&& 0xFFFE) (by decide) hst
    refine ⟨_, exec_write_lnkCfg hw hwidth (by rw [hbuf]; rfl), answered_resp, ?_⟩
    simp only [rw_answered, shadow_answered, answered_regs, answered_ports, answered_mem, hbuf, State.upd_blk]
    exact ⟨rfl, shadow_bufferWrite _ _ s.blk, bufferWrite_one _ _ s.blk, rfl, rfl, rfl⟩
  case live =>
    have hbuf := buffer_inactive (b := s.blk) (p := p) (o := 4) (data &&& 0xFFFE) (by decide) (by decide) hst hpend
    refine ⟨_, exec_write_lnkCfg hw hwidth (by rw [hbuf]; rfl), answered_resp, ?_⟩
    simp only [rw_answered, answered_regs, answered_ports, answered_mem, hbuf, State.upd_blk]
    exact ⟨rw_setLive_same _ _ s.blk, rfl, rfl, rfl⟩

end

section
/-! SUPPORT. The refusals of a register write (R44, R48, R50, R54): each leaves the registers, and answers ACCESS_ERROR. A write of a
counter (R63). -/

namespace Sys2Proof.Machine

open Sys2Proof

/-! ### Which refusal a write meets -/

section Refusals
variable {path : Path} {addr : Word} {be : BitVec 4} {b : Block}

theorem writeFault_unaligned (h : addr.toNat % 4 ≠ 0) : writeFault path addr be b = some 1 := if_pos h

theorem writeFault_narrow (h4 : addr.toNat % 4 = 0) (h : be ≠ 15) : writeFault path addr be b = some 0 :=
  (if_neg (not_not.mpr h4)).trans (if_pos h)

theorem writeFault_shadow (h4 : addr.toNat % 4 = 0) (hbe : be = 15) (hblock : (blockBase addr.toNat).isSome = true)
    (h : 0x800 ≤ addr.toNat % 0x1000) : writeFault path addr be b = some 6 := by
  simp [writeFault, h4, hbe, h, hblock]

theorem writeFault_unmapped (h4 : addr.toNat % 4 = 0) (hbe : be = 15) (hlive : addr.toNat % 0x1000 < 0x800)
    (h : mapped addr.toNat = false) : writeFault path addr be b = some 4 := by
  simp [writeFault, h4, hbe, h, Nat.not_le.mpr hlive]

theorem writeFault_owner (h4 : addr.toNat % 4 = 0) (hbe : be = 15) (hlive : addr.toNat % 0x1000 < 0x800)
    (hmap : mapped addr.toNat = true) (h : ownerRefuses path b = true) : writeFault path addr be b = some 3 := by
  simp [writeFault, h4, hbe, hmap, h, Nat.not_le.mpr hlive]

end Refusals

/-! ### What a refusal leaves -/

/-- An error bit touches the RC bits and the record of the first error alone. -/
theorem regErr_eq (i : Nat) (addr : Word) (b : Block) :
    regErr i addr b = { b with regs := { b.regs with
      rc := (rcSet 0x18 i b).regs.rc, errAddr := (regErr i addr b).regs.errAddr
      errArmed := (regErr i addr b).regs.errArmed } } := by
  unfold regErr
  dsimp only
  split <;> rfl

theorem rcGet_regErr {i : Nat} (addr : Word) (b : Block) (hi : i < 32) : (rcGet 0x18 (regErr i addr b)).getLsbD i = true := by
  rw [regErr_eq]
  calc (rcGet 0x18 (rcSet 0x18 i b)).getLsbD i
    _ = (bset (rcGet 0x18 b) i).getLsbD i := by rw [rcGet_rcSet_same]
    _ = true := bset_getLsbD_same _ hi

/-- The raise of a refusal whose reaction is LOG is quiet (R44). -/
theorem accessFault_quiet {b : Block} (i : Nat) (path : Path) (addr : Word) (h : reactionOf b (fs .regAccess) = 0) :
    quietly (regErr i addr b) (accessFault i path addr b) := by
  refine raise_quiet _ _ _ ?_
  rw [reactionOf_congr (b := b) (by rw [regErr_eq]), h]
  exact Nat.zero_le _

/-- A write that a common check refuses is refused with ACCESS_ERROR. -/
theorem writeReg_refused {path : Path} {last : Option Bool} {addr data : Word} {be : BitVec 4} {s : State} {i : Nat}
    (hsafe : s.blk.sage.safe = false) (hgood : s.blk.regs.badPar = []) (h : writeFault path addr be s.blk = some i) :
    writeReg path last addr data be s = (some .accessError, s.upd (accessFault i path addr s.blk)) := by
  have hown : useReg 0x14 s.blk = s.blk := by simp [useReg, hgood]
  unfold writeReg
  simp only [hown, State.upd_self, safeRefuses, hsafe, h]
  simp

/-- What a refused write answers over an open path. -/
theorem exec_registerWrite_refused {path : Path} {addr data : Word} {be : BitVec 4} {s : State} {i : Nat}
    (hopen : pathOpen s.blk path = true) (hP0 : s.blk.pwr.state = 0) (hsafe : s.blk.sage.safe = false)
    (hgood : s.blk.regs.badPar = []) (hlog : reactionOf s.blk (fs .regAccess) = 0)
    (h : writeFault path addr be s.blk = some i) :
    exec (.registerWrite path addr data be) s
      = .next (s.upd (respond path true .accessError addr (accessFault i path addr s.blk))) := by
  have hstart : (accessFault i path addr s.blk).start = s.blk.start := by
    rw [(accessFault_quiet i path addr hlog).1, regErr_eq]
  have h5 : ¬ (accessFault i path addr s.blk).start.step < 5 := by
    rw [hstart]
    cases path <;> simp_all [pathOpen]
  show Host.Outcome.next (pathWriteAt none path addr data be s) = _
  unfold pathWriteAt
  rw [wakeBy_P0 _ _ hP0, writeReg_refused hsafe hgood h, hopen]
  exact congrArg Host.Outcome.next (if_neg h5)

/-- A refused write sets its bit of IDN_REG_ERR and leaves the registers, the units behind them and DRAM. -/
theorem registerWrite_refused {path : Path} {addr : Word} (data : Word) {be : BitVec 4} {s : State} {i : Nat}
    (hopen : pathOpen s.blk path = true) (hP0 : s.blk.pwr.state = 0) (hsafe : s.blk.sage.safe = false)
    (hgood : s.blk.regs.badPar = []) (hlog : reactionOf s.blk (fs .regAccess) = 0) (hi : i < 32)
    (h : writeFault path addr be s.blk = some i) :
    ∃ t, exec (.registerWrite path addr data be) s = .next t ∧ t.blk.resp = .accessError
      ∧ (rcGet 0x18 t.blk).getLsbD i = true ∧ t.blk.regs.live = s.blk.regs.live ∧ t.blk.regs.pend = s.blk.regs.pend
      ∧ t.blk.regs.owner = s.blk.regs.owner ∧ (∀ q : PortId, samePort s.blk.ports[q] t.blk.ports[q])
      ∧ t.blk.img = s.blk.img ∧ t.blk.hnd = s.blk.hnd ∧ t.mem = s.mem := by
  refine ⟨_, exec_registerWrite_refused hopen hP0 hsafe hgood hlog h, respond_resp _ _ _ _ _, ?_⟩
  obtain ⟨hrest, hports⟩ := accessFault_quiet i path addr hlog
  have hbit := rcGet_regErr addr s.blk hi
  rw [regErr_eq] at hports
  simp only [State.upd_blk, rcGet, respond_regs, respond_ports, respond_img, respond_hnd]
  refine ⟨?bit, ?live, ?pend, ?owner, hports, ?img, ?hnd, rfl⟩
  case bit => rw [hrest]; exact hbit
  all_goals rw [hrest, regErr_eq]

/-! ### Counters -/

theorem blockBase_baseOf {a base : Nat} (h : blockBase a = some base) : base = baseOf a := by
  grind [blockBase, baseOf]

/-- Registers lie at word addresses (R42). -/
theorem regAt_aligned {a : Nat} (h : (regAt a).isSome = true) : a % 4 = 0 := by
  unfold regAt at h
  split at h
  · cases h
  · next base hbase =>
    have hb := blockBase_baseOf hbase
    unfold baseOf at hb
    by_cases h4 : (a - base) % 4 = 0
    · omega
    · simp [h4] at h

theorem otpReg_not_counter (o : Nat) : otpReg o ≠ some .counter := by
  grind [otpReg]

/-- A counter is no sticky lock of OTP. -/
theorem counter_unlocked {a : Nat} (b : Block) (h : regAt a = some .counter) : lockedReg a b = false := by
  refine lockedReg_out b fun ⟨hlo, hhi⟩ => ?_
  have hblock : blockBase a = some otpBase := by
    have hbase : a / 0x1000 * 0x1000 = otpBase := by unfold otpBase; omega
    calc blockBase a
      _ = blockBase otpBase := by unfold blockBase; rw [hbase]; rfl
      _ = some otpBase := by decide
  have haligned : (a - 0x5000) % 4 = 0 := by
    have := regAt_aligned (a := a) (by rw [h]; rfl)
    omega
  have hreg : regAt a = otpReg (a - otpBase) := by
    simp [regAt, hblock, haligned, otpBase, sageBase, clkBase, pwrBase, thmBase]
  exact otpReg_not_counter _ (hreg ▸ h)

section Counter
variable {path : Path} {last : Option Bool} {a : Nat} {s : State}

theorem ctr_ctrClear (a : Nat) (b : Block) : ctr a (ctrClear a b) = 0 := by
  rw [ctr, ctrClear, mget_mset_same]

/-- A counter takes a write of zero at once, and no other value (R63). -/
theorem writeLive_counter (data : Word) (h : regAt a = some .counter) (hc : s.blk.start.chive = false) :
    writeLive path last a data s
      = if data = 0 then (some .ok, s.upd (ctrClear a s.blk)) else (some .badArg, s.upd (regErr 7 (BitVec.ofNat 32 a) s.blk)) := by
  simp [writeLive, h, Block.inChive, hc]

theorem exec_counterClearWrite {data : Word} {st : Status} {t : State} (hw : takesWrites path s) (h : regAt a = some .counter)
    (ha : a < 2 ^ 32) (hlive : a % 0x1000 < 0x800) (hwrite : writeLive path none a data s = (some st, t))
    (h5 : 5 ≤ t.blk.start.step) :
    exec (.counterClearWrite path (BitVec.ofNat 32 a) data) s = .next (answered path a st t) := by
  have haddr : (BitVec.ofNat 32 a).toNat = a := by rw [BitVec.toNat_ofNat]; exact Nat.mod_eq_of_lt ha
  have hsome : (regAt a).isSome = true := by rw [h]; rfl
  show Host.Outcome.next (counterWrite path (BitVec.ofNat 32 a) data s) = _
  rw [counterWrite, haddr, if_pos h,
    pathWrite_live hw ha (regAt_aligned hsome) hlive hsome (counter_unlocked _ h) hwrite h5]

end Counter

end Sys2Proof.Machine

open Sys2Proof Sys2Proof.Machine

/-- Settles O12: `registerWrite_refused` for each refusal of `writeFault`, and `writeLive_counter` for a counter. -/
theorem refusalsAndCounterClears : Obligations.RefusalsAndCounterClears := by
  refine ⟨fun path addr data be s hopen hP0 hsafe hgood hlog => ?refusals,
    fun path a data s hw hctr ha hlive hchive => ⟨fun h0 => ?clears, fun h0 => ?badValue⟩⟩
  case refusals =>
    have hrefused {i : Nat} (hi : i < 32) := registerWrite_refused (addr := addr) data (be := be) hopen hP0 hsafe hgood hlog hi
    exact ⟨fun h4 => hrefused (by decide) (writeFault_unaligned h4),
      fun h4 hbe => hrefused (by decide) (writeFault_narrow h4 hbe),
      fun h4 hbe hblock hhigh => hrefused (by decide) (writeFault_shadow h4 hbe hblock hhigh),
      fun h4 hbe hmap hlow => hrefused (by decide) (writeFault_unmapped h4 hbe hlow hmap),
      fun h4 hbe hmap hlow howner => hrefused (by decide) (writeFault_owner h4 hbe hlow hmap howner)⟩
  case clears =>
    have hwrite := (writeLive_counter (path := path) (last := none) data hctr hchive).trans (if_pos h0)
    have hcount := ctr_ctrClear a s.blk
    refine ⟨_, exec_counterClearWrite hw hctr ha hlive hwrite (takesWrites_step hw), answered_resp, ?_⟩
    simp only [ctr_answered, ctrSat_answered, answered_regs, answered_ports, answered_mem, State.upd_blk, State.upd_mem]
    exact ⟨hcount, by rw [ctrSat, hcount]; rfl, rfl, rfl, trivial⟩
  case badValue =>
    have hwrite := (writeLive_counter (path := path) (last := none) data hctr hchive).trans (if_neg h0)
    have hstep : 5 ≤ (regErr 7 (BitVec.ofNat 32 a) s.blk).start.step := by rw [regErr_eq]; exact takesWrites_step hw
    refine ⟨_, exec_counterClearWrite hw hctr ha hlive hwrite hstep, answered_resp, ?_⟩
    rw [answered_regs, answered_mem, State.upd_blk, regErr_eq]
    exact ⟨rfl, rfl, rfl⟩

end

section
/-! SUPPORT. IDN_REG_OWNER and the forced commit (R50, R55): the blocks that commit plainly, in turn, and one that is waited for. -/

namespace Sys2Proof.Machine

open Sys2Proof

/-! ### Writes of the IDN block -/

/-- A write to a register of the IDN block that is no counter goes to the block's function. -/
theorem writeLive_idn {path : Path} {o : Nat} {data : Word} {s : State} (hgood : s.blk.regs.badPar = []) (ho : o < 0x1000)
    (hreg : regAt (0 + o) ≠ some .counter) :
    writeLive path none (0 + o) data s = onBlock s (idnWrite path o data s.blk) := by
  have hbase : baseOf (0 + o) = 0 := baseOf_add (by decide) ho
  have hblock : writeBlock path (0 + o) data s.blk = idnWrite path o data s.blk := by
    have hoff : 0 + o - 0 = o := by omega
    unfold writeBlock
    simp only [hbase, hoff, if_true]
  rw [writeLive_block hgood (fun _ => by rw [hbase]; decide) hreg (by omega) (by omega) (by omega) (by rw [hbase]; decide)
    (by rw [hbase]; decide), hblock]

/-- A write of a register of the IDN block over an open path. -/
theorem put_idn {path : Path} {o : Nat} {data : Word} {st : Status} {b : Block} {s : State} (hw : takesWrites path s)
    (h4 : o % 4 = 0) (ho : o < 0x800) (hmap : (regAt (0 + o)).isSome = true) (hreg : regAt (0 + o) ≠ some .counter)
    (hwrite : idnWrite path o data s.blk = (st, b)) (hstart : b.start = s.blk.start) :
    put path 0 o data s = answered path (0 + o) st (s.upd b) := by
  obtain ⟨-, -, -, -, hgood⟩ := id hw
  exact put_live hw (by omega) (by omega) (by omega) hmap (lockedReg_out _ (by omega))
    ((writeLive_idn hgood (by omega) hreg).trans (by rw [hwrite]; rfl))
    (by rw [State.upd_blk, hstart]; exact takesWrites_step hw)

/-- IDN_REG_OWNER takes a path at once (R50). -/
theorem idnWrite_owner (path : Path) {data : Word} {b : Block} (hgood : b.regs.badPar = []) (h : wfield data 1 0 ≠ 3) :
    idnWrite path 0x14 data b
      = (.ok, { b with regs := { b.regs with owner := BitVec.ofNat 2 (wfield data 1 0) } }) := by
  have hkept : sdel 0x14 b.regs.badPar = b.regs.badPar := by rw [hgood]; rfl
  calc idnWrite path 0x14 data b
    _ = (.ok, { b with regs := { b.regs with
          owner := BitVec.ofNat 2 (wfield data 1 0), badPar := sdel 0x14 b.regs.badPar } }) := if_neg h
    _ = _ := by rw [hkept]

theorem idnWrite_owner_refused (path : Path) {data : Word} (b : Block) (h : wfield data 1 0 = 3) :
    idnWrite path 0x14 data b = (.badArg, b) := if_pos h

theorem idnWrite_commit (path : Path) (b : Block) : idnWrite path 0x10 1 b = (.ok, forcedCommit b) := rfl

/-! ### The blocks of a forced commit -/

theorem mem_sadd {j k : Nat} {l : List Nat} : j ∈ sadd k l ↔ j = k ∨ j ∈ l := by
  induction l with
  | nil => simp [sadd]
  | cons x t ih => grind [sadd]

theorem mem_foldl_sadd {j : Nat} {l r : List Nat} : j ∈ l.foldl (fun r n => sadd n r) r ↔ j ∈ l ∨ j ∈ r := by
  induction l generalizing r with
  | nil => simp
  | cons x t ih => rw [List.foldl_cons, ih, mem_sadd, List.mem_cons]; tauto

/-- The blocks of a forced commit are those in which a write waits. -/
theorem mem_pendBases {base : Nat} {b : Block} : base ∈ pendBases b ↔ ∃ w ∈ b.regs.pend, baseOf w.addr = base := by
  simp [pendBases, mem_foldl_sadd]

/-- A forced commit begins with every waiting write part of it (R55). -/
def forcedPend (l : List PendWr) : List PendWr := l.map fun w => { w with after := false }

theorem mem_forcedPend {w : PendWr} {l : List PendWr} (h : w ∈ l) : { w with after := false } ∈ forcedPend l :=
  List.mem_map_of_mem h

/-! ### Blocks that commit plainly -/

/-- What waits in `b` commits plainly: it is part of the forced commit, and its parity is right. -/
def CommitsPlainly (b : Block) : Prop := ∀ w ∈ b.regs.pend, w.good = true ∧ w.after = false

/-- The state in which the block at `base` has committed. -/
def plainCommitted (base : Nat) (b : Block) : Block :=
  applyWrites (b.regs.pend.filter fun w => baseOf w.addr == base)
    { b with regs := { b.regs with pend := b.regs.pend.filter fun w => baseOf w.addr != base } }

section Plain
variable {base : Nat} {b : Block}

theorem isChn_chn (c : ChanId) : isChn (chnBase c.val) = true := by revert c; decide

theorem commitAt_chn (h : isChn base = true) (b : Block) : commitAt base b = commitPlain base b := by
  have hrange : 0x40000 ≤ base ∧ base < 0x60000 := of_decide_eq_true h
  have hlnk : isLnk base = false := decide_eq_false (by omega)
  have heng : isEng base = false := decide_eq_false (by omega)
  unfold commitAt clkBase pwrBase srlBase savBase
  rw [if_neg (by omega), if_neg (by omega), if_neg (by omega), hlnk, heng]
  rfl

theorem commitForced_plain (hchn : isChn base = true) (h : CommitsPlainly b) : commitForced base b = plainCommitted base b := by
  have hlate : (b.regs.pend.filter fun w => w.after && baseOf w.addr == base) = [] := by
    rw [List.filter_eq_nil_iff]; intro w hw; simp [(h w hw).2]
  have hall : (b.regs.pend.filter fun w => !(w.after && baseOf w.addr == base)) = b.regs.pend := by
    rw [List.filter_eq_self]; intro w hw; simp [(h w hw).2]
  have hcommit : commitPlain base b = plainCommitted base b := by
    unfold commitPlain
    rw [takePend_good fun w hw => (h w hw).1]
    rfl
  unfold commitForced
  dsimp only
  rw [hlate, hall, commitAt_chn hchn]
  simp only [List.append_nil]
  exact hcommit

/-- A block that commits changes live values, their parity and what waits. -/
theorem plainCommitted_eq (base : Nat) (b : Block) :
    plainCommitted base b = { b with regs := { b.regs with
      live := (plainCommitted base b).regs.live, badPar := (plainCommitted base b).regs.badPar
      pend := b.regs.pend.filter fun w => baseOf w.addr != base } } :=
  applyWrites_eq _ _

theorem plainCommitted_pend (base : Nat) (b : Block) :
    (plainCommitted base b).regs.pend = b.regs.pend.filter fun w => baseOf w.addr != base := by
  rw [plainCommitted_eq]

theorem CommitsPlainly.committed (h : CommitsPlainly b) : CommitsPlainly (plainCommitted base b) := by
  intro w hw
  rw [plainCommitted_pend] at hw
  exact h w (List.mem_of_mem_filter hw)

/-- A register for which nothing waits keeps its value. -/
theorem rw_plainCommitted_none {a : Nat} (h : ∀ w ∈ b.regs.pend, w.addr ≠ a) : rw a (plainCommitted base b) = rw a b :=
  rw_applyWrites_none fun w hw => h w (List.mem_of_mem_filter hw)

/-- A register of the block takes the one value that waits for it. -/
theorem rw_plainCommitted_mem {w : PendWr} (hw : w ∈ b.regs.pend) (hbase : baseOf w.addr = base)
    (hone : ∀ v ∈ b.regs.pend, v.addr = w.addr → v = w) : rw w.addr (plainCommitted base b) = w.value :=
  rw_applyWrites_mem (List.mem_filter.mpr ⟨hw, by simpa using hbase⟩) fun v hv => hone v (List.mem_of_mem_filter hv)

end Plain

/-- No channel is in the middle of a DRAM command. -/
def NoneMidCommand (b : Block) : Prop := ∀ c : ChanId, midCommand b.chans[c] = false

section Run
variable {l : List Nat} {b : Block}

theorem forcedRun_cons {base : Nat} (hchn : isChn base = true) (hmid : NoneMidCommand b) (h : CommitsPlainly b) :
    forcedRun (base :: l) b = forcedRun l (plainCommitted base b) := by
  have hgo : ¬ (isChn base && midCommand b.chans[cid (chanOf base)]) = true := by rw [hmid, Bool.and_false]; decide
  rw [← commitForced_plain hchn h]
  exact if_neg hgo

/-- The block of a channel in the middle of a DRAM command is waited for, with all behind it (R55). -/
theorem forcedRun_waits {base : Nat} (hchn : isChn base = true) (hmid : midCommand b.chans[cid (chanOf base)] = true) :
    forcedRun (base :: l) b = { b with regs := { b.regs with forced := base :: l } } :=
  if_pos (by rw [hchn, hmid]; rfl)

theorem NoneMidCommand.committed {base : Nat} (h : NoneMidCommand b) : NoneMidCommand (plainCommitted base b) := by
  rw [plainCommitted_eq]; exact h

/-- A forced commit over blocks that commit plainly changes live values and their parity, and leaves pending what no block of it
holds. -/
theorem forcedRun_plain (hchn : ∀ base ∈ l, isChn base = true) (hmid : NoneMidCommand b) (h : CommitsPlainly b) :
    forcedRun l b = { b with regs := { b.regs with
      live := (forcedRun l b).regs.live, badPar := (forcedRun l b).regs.badPar, forced := []
      pend := forcedPend (b.regs.pend.filter fun w => !l.contains (baseOf w.addr)) } } := by
  induction l generalizing b with
  | nil => simp [forcedRun, forcedPend]
  | cons base t ih =>
    have hleft : (fun w : PendWr => !t.contains (baseOf w.addr) && baseOf w.addr != base)
        = fun w => !(base :: t).contains (baseOf w.addr) := by
      funext w; rw [List.contains_cons, Bool.not_or, Bool.and_comm]; rfl
    rw [forcedRun_cons (hchn base List.mem_cons_self) hmid h,
      ih (fun k hk => hchn k (List.mem_cons_of_mem _ hk)) hmid.committed h.committed, plainCommitted_pend, List.filter_filter,
      hleft, plainCommitted_eq]

/-- A register for which nothing waits keeps its value. -/
theorem rw_forcedRun_none {a : Nat} (hchn : ∀ base ∈ l, isChn base = true) (hmid : NoneMidCommand b) (h : CommitsPlainly b)
    (hnone : ∀ w ∈ b.regs.pend, w.addr ≠ a) : rw a (forcedRun l b) = rw a b := by
  induction l generalizing b with
  | nil => rfl
  | cons base t ih =>
    rw [forcedRun_cons (hchn base List.mem_cons_self) hmid h,
      ih (fun k hk => hchn k (List.mem_cons_of_mem _ hk)) hmid.committed h.committed fun w hw =>
        hnone w (List.mem_of_mem_filter (plainCommitted_pend base b ▸ hw)), rw_plainCommitted_none hnone]

/-- A register of a block of the forced commit takes the one value that waits for it. -/
theorem rw_forcedRun_mem {w : PendWr} (hchn : ∀ base ∈ l, isChn base = true) (hmid : NoneMidCommand b) (h : CommitsPlainly b)
    (hw : w ∈ b.regs.pend) (hbase : baseOf w.addr ∈ l) (hone : ∀ v ∈ b.regs.pend, v.addr = w.addr → v = w) :
    rw w.addr (forcedRun l b) = w.value := by
  induction l generalizing b with
  | nil => cases hbase
  | cons base t ih =>
    have htail : ∀ k ∈ t, isChn k = true := fun k hk => hchn k (List.mem_cons_of_mem _ hk)
    rw [forcedRun_cons (hchn base List.mem_cons_self) hmid h]
    by_cases hhere : baseOf w.addr = base
    · rw [rw_forcedRun_none htail hmid.committed h.committed, rw_plainCommitted_mem hw hhere hone]
      intro v hv e
      rw [plainCommitted_pend, List.mem_filter, e, hhere] at hv
      simp at hv
    · have hlater : w ∈ (plainCommitted base b).regs.pend := by
        rw [plainCommitted_pend]; exact List.mem_filter.mpr ⟨hw, by simpa using hhere⟩
      exact ih htail hmid.committed h.committed hlater ((List.mem_cons.mp hbase).resolve_left hhere) fun v hv =>
        hone v (List.mem_of_mem_filter (plainCommitted_pend base b ▸ hv))

end Run

/-! ### The forced commit -/

/-- A block at the start of a forced commit. -/
def commitBegun (b : Block) : Block := { b with regs := { b.regs with pend := forcedPend b.regs.pend } }

theorem forcedCommit_eq (b : Block) : forcedCommit b = forcedRun (pendBases b) (commitBegun b) := rfl

theorem pendBases_isChn {b : Block} (h : ∀ w ∈ b.regs.pend, isChn (baseOf w.addr) = true ∧ w.good = true) :
    ∀ base ∈ pendBases b, isChn base = true := by
  intro base hbase
  obtain ⟨w, hw, rfl⟩ := mem_pendBases.mp hbase
  exact (h w hw).1

theorem commitBegun_plain {b : Block} (h : ∀ w ∈ b.regs.pend, w.good = true) : CommitsPlainly (commitBegun b) := by
  intro w hw
  obtain ⟨v, hv, rfl⟩ := List.mem_map.mp hw
  exact ⟨h v hv, rfl⟩

/-- Where all that waits commits plainly, a forced commit leaves nothing pending (R55). -/
theorem forcedCommit_plain {b : Block} (h : ∀ w ∈ b.regs.pend, isChn (baseOf w.addr) = true ∧ w.good = true)
    (hmid : NoneMidCommand b) :
    forcedCommit b = { b with regs := { b.regs with
      live := (forcedCommit b).regs.live, badPar := (forcedCommit b).regs.badPar, forced := [], pend := [] } } := by
  have hnone : ((commitBegun b).regs.pend.filter fun w => !(pendBases b).contains (baseOf w.addr)) = [] := by
    rw [List.filter_eq_nil_iff]
    intro w hw
    obtain ⟨v, hv, rfl⟩ := List.mem_map.mp hw
    simpa using mem_pendBases.mpr ⟨v, hv, rfl⟩
  have hrun := forcedRun_plain (b := commitBegun b) (pendBases_isChn h) hmid (commitBegun_plain fun w hw => (h w hw).2)
  rw [hnone] at hrun
  exact hrun

/-- A forced commit makes the one value that waits for a register live. -/
theorem rw_forcedCommit {b : Block} {w : PendWr} (h : ∀ w ∈ b.regs.pend, isChn (baseOf w.addr) = true ∧ w.good = true)
    (hmid : NoneMidCommand b) (hw : w ∈ b.regs.pend) (hone : ∀ v ∈ b.regs.pend, v.addr = w.addr → v = w) :
    rw w.addr (forcedCommit b) = w.value := by
  refine rw_forcedRun_mem (b := commitBegun b) (w := { w with after := false }) (pendBases_isChn h) hmid
    (commitBegun_plain fun w hw => (h w hw).2) (mem_forcedPend hw) (mem_pendBases.mpr ⟨w, hw, rfl⟩) fun u hu e => ?_
  obtain ⟨v, hv, rfl⟩ := List.mem_map.mp hu
  rw [hone v hv e]

/-- A forced commit waits for a channel in the middle of a DRAM command (R55). -/
theorem forcedCommit_waits {b : Block} {w : PendWr} {c : ChanId} (hpend : b.regs.pend = [w])
    (hbase : baseOf w.addr = chnBase c.val) (hmid : midCommand b.chans[c] = true) :
    forcedCommit b = { b with regs := { b.regs with
      forced := [chnBase c.val], pend := [{ w with after := false }] } } := by
  have hbases : pendBases b = [chnBase c.val] := by
    rw [pendBases, hpend, List.map_singleton, hbase]; rfl
  have hc : cid (chanOf (chnBase c.val)) = c := by rw [chanOf_chn, cid_val]
  have hwait : midCommand (commitBegun b).chans[cid (chanOf (chnBase c.val))] = true := by simp only [hc]; exact hmid
  rw [forcedCommit_eq, hbases, forcedRun_waits (isChn_chn c) hwait, commitBegun, hpend]
  rfl

end Sys2Proof.Machine
end

section
/-! SUPPORT. Taking units out of service leaves Sage's record as it is: one lemma per operation, in the order of the model. -/

namespace Sys2Proof.Machine

open Sys2Proof

variable (b : Block)

/-! ### Records of ports -/

@[simp] theorem tagLost_sage (p : PortId) (tag : Nat) : (tagLost p tag b).sage = b.sage := rfl

@[simp] theorem sendCmpl_sage (p : PortId) (tag : Nat) (st : Status) (kind handle : Nat) :
    (sendCmpl p tag st kind handle b).sage = b.sage := by
  unfold sendCmpl
  split <;> rfl

@[simp] theorem releaseCred_sage (k : Option Cred) : (releaseCred k b).sage = b.sage := by cases k <;> rfl

theorem checkFences_sage (p : PortId) : (checkFences p b).sage = b.sage :=
  foldl_keep Block.sage _ (fun _ _ => sendCmpl_sage _ _ _ _ _ _) _ _

@[simp] theorem sendFlit_sage (p : PortId) : (sendFlit p b).sage = b.sage := by
  unfold sendFlit
  split
  · rw [checkFences_sage, modPort_sage]
  · rfl

@[simp] theorem payFlits_sage (p : PortId) (n : Nat) : (payFlits p n b).sage = b.sage := by
  induction n generalizing b with
  | zero => rfl
  | succ n ih =>
    unfold payFlits
    split
    · rw [ih, sendFlit_sage]
    · rfl

@[simp] theorem lastFlits_sage (p : PortId) : (lastFlits p b).sage = b.sage := by
  unfold lastFlits
  split
  · rw [sendFlit_sage, payFlits_sage]
  · rfl

/-! ### Ports -/

@[simp] theorem disablePort_sage (p : PortId) : (disablePort p b).sage = b.sage := rfl

@[simp] theorem detectPort_sage (p : PortId) : (detectPort p b).sage = b.sage := by
  unfold detectPort
  dsimp only
  split <;> rfl

@[simp] theorem safePorts_sage : (safePorts b).sage = b.sage := by
  refine forAll_keep b Block.sage _ fun p b => ?_
  split
  · exact detectPort_sage b p
  · split
    · rfl
    · exact disablePort_sage b p

@[simp] theorem sendLastEvent_sage (nme : Bool) (e : Ev) (p : PortId) : (sendLastEvent nme e p b).sage = b.sage := by
  unfold sendLastEvent
  split <;> rfl

/-! ### Pieces of operations -/

@[simp] theorem postCtx_sage (e k ev : Nat) (line : List Byte) : (postCtx e k ev line b).sage = b.sage :=
  postCtx_keep b Block.sage (fun b i g => modEng_sage b i g) e k ev line

@[simp] theorem postAborts_sage (e : Nat) : (postAborts e b).sage = b.sage :=
  foldl_keep Block.sage _ (fun _ _ => postCtx_sage _ _ _ _ _) _ _

@[simp] theorem postPiece_sage (id i ev : Nat) (line : List Byte) : (postPiece id i ev line b).sage = b.sage := by
  unfold postPiece
  split
  · rfl
  · split <;> rfl

@[simp] theorem answerPiece_sage (id i try_ : Nat) (a : Ans) : (answerPiece id i try_ a b).sage = b.sage := by
  unfold answerPiece
  split
  · split
    · rw [postPiece_sage]; rfl
    · rfl
  · rfl

/-! ### Accesses of a channel -/

@[simp] theorem failAcc_sage (e : Acc) : (failAcc e b).sage = b.sage := by
  unfold failAcc
  split
  case h_1 =>
    split
    · split
      · rfl
      · rw [sendCmpl_sage, modPort_sage]
    · rfl
  case h_4 =>
    split
    · exact answerPiece_sage _ _ _ _ _
    · rfl
  all_goals simp [modPiece, modDesc]

@[simp] theorem failXAcc_sage (g : XAcc) : (failXAcc g b).sage = b.sage := by
  have hlines : (g.lines.foldl (fun b e => failAcc e b) (releaseCred g.cred b)).sage = b.sage := by
    rw [foldl_keep Block.sage _ (fun b e => failAcc_sage b e), releaseCred_sage]
  unfold failXAcc
  dsimp only
  split
  · rw [sendCmpl_sage, hlines]
  · exact hlines

/-! ### Migrations -/

@[simp] theorem modEntry_sage (h l : Nat) (f : MapEntry → MapEntry) : (modEntry h l f b).sage = b.sage := by
  unfold modEntry
  split <;> rfl

@[simp] theorem retireSeg_sage (s : Nat) : (retireSeg s b).sage = b.sage := emit_sage _ _ _

@[simp] theorem freeSeg_sage (s : Nat) : (freeSeg s b).sage = b.sage := rfl

@[simp] theorem dropMig_sage (m : Mig) : (dropMig m b).sage = b.sage := by
  unfold dropMig
  dsimp only
  split
  · rw [retireSeg_sage, modChan_sage, modEntry_sage]
  · rw [freeSeg_sage, modChan_sage, modEntry_sage]

@[simp] theorem queueOrder_sage (o : Order) : (queueOrder o b).sage = b.sage := rfl

@[simp] theorem promoteN_sage (n : Nat) : (promoteN n b).sage = b.sage := by
  induction n generalizing b with
  | zero => rfl
  | succ n ih =>
    unfold promoteN
    split
    · rfl
    · split
      · rfl
      · dsimp only
        rw [ih]
        split <;> rfl

@[simp] theorem dropOrders_sage (o : Order → Bool) (w : Nat → Bool) : (dropOrders o w b).sage = b.sage := promoteN_sage _ _

@[simp] theorem enqueueOrder_sage (o : Order) : (enqueueOrder o b).sage = b.sage := by
  unfold enqueueOrder
  split
  · split
    · rfl
    · split <;> rfl
  · split <;> rfl

@[simp] theorem evacSegment_sage (h l : Nat) : (evacSegment h l b).sage = b.sage := by
  unfold evacSegment
  extract_lets c _ d
  have hd : d.sage = b.sage := by
    have hc : c.sage = b.sage := modEntry_sage b h l _
    rw [← hc]
    dsimp only [d]
    split <;> rfl
  rw [apply_ite Block.sage, enqueueOrder_sage, ite_self, hd]

@[simp] theorem renewEvac_sage (m : Mig) : (renewEvac m b).sage = b.sage := by
  unfold renewEvac
  split
  · rw [evacSegment_sage]
  · rfl

@[simp] theorem abortMig_sage (m : Mig) : (abortMig m b).sage = b.sage := by rw [abortMig, ctrAdd_sage, dropMig_sage]

@[simp] theorem abortCopy_sage (m : Mig) : (abortCopy m b).sage = b.sage := by
  unfold abortCopy
  rw [abortMig_sage]
  split
  · exact postCtx_sage _ _ _ _ _
  · rfl

@[simp] theorem offlineMigs_sage (c : Nat) : (offlineMigs c b).sage = b.sage := by
  refine foldl_keep Block.sage _ (fun b m => ?_) _ _
  by_cases hsrc : segChan m.src = c
  · simp only [hsrc, if_true]
    split <;> simp
  · simp only [hsrc, if_false]
    split
    · simp
    · split <;> simp

/-- A channel that goes OFFLINE leaves Sage's record as it is (R342): the fault is the caller's. -/
@[simp] theorem offlineChan_sage (c : Nat) : (offlineChan c b).sage = b.sage := by
  unfold offlineChan
  dsimp only
  rw [foldl_keep Block.sage _ (fun _ _ => sendCmpl_sage _ _ _ _ _ _), foldl_keep Block.sage _ (fun b g => failXAcc_sage b g),
    foldl_keep Block.sage _ (fun b e => failAcc_sage b e), postAborts_sage, modChan_sage, offlineMigs_sage, dropOrders_sage]

/-! ### The safe state -/

@[simp] theorem cutBist_sage (f : Nat → Bool) : (cutBist f b).sage = b.sage := by
  unfold cutBist
  split
  · split <;> rfl
  · rfl

@[simp] theorem allToSelfRefresh_sage : (allToSelfRefresh b).sage = b.sage := rfl

@[simp] theorem safeStage_sage : (safeStage b).sage = b.sage := by
  unfold safeStage
  split <;> rfl

@[simp] theorem stopBoot_sage : (stopBoot b).sage = b.sage := by
  unfold stopBoot
  split <;> rfl

end Sys2Proof.Machine
end

section
/-! SUPPORT. A fault that Sage has recorded stays recorded while its reaction takes units out of service and enters the safe state
(R456, R465, R469): the raises that these make are of other sources. -/

namespace Sys2Proof.Machine

open Sys2Proof

/-- From `b` to `t`, Sage keeps what it holds of source `src`: a raise stays pending, with its unit and detail, and the self-fault
stays as it is. -/
def FaultKept (src : Nat) (b t : Block) : Prop :=
  (b.sage.pend.getLsbD src = true → t.sage.pend.getLsbD src = true)
    ∧ mget t.sage.info src none = mget b.sage.info src none ∧ t.sage.selfFault = b.sage.selfFault

/-- The raises that taking a unit out of service makes are of other sources than `src` (R465). -/
def OwnSource (src : Nat) : Prop := src ≠ fs .lnkDegrade ∧ src ≠ fs .chnOffline

section Kept
variable {src : Nat} {b c t : Block}

theorem FaultKept.of_sage (h : t.sage = b.sage) : FaultKept src b t := by
  unfold FaultKept
  rw [h]
  exact ⟨id, rfl, rfl⟩

theorem FaultKept.refl (src : Nat) (b : Block) : FaultKept src b b := .of_sage rfl

theorem FaultKept.trans (h : FaultKept src b c) (k : FaultKept src c t) : FaultKept src b t := by
  obtain ⟨hpend, hinfo, hself⟩ := h
  obtain ⟨kpend, kinfo, kself⟩ := k
  exact ⟨kpend ∘ hpend, kinfo.trans hinfo, kself.trans hself⟩

theorem FaultKept.ite {p : Prop} [Decidable p] (h : FaultKept src b c) (k : FaultKept src b t) :
    FaultKept src b (if p then c else t) := by
  split <;> assumption

/-- Sage notes the unit and detail of another source. -/
theorem FaultKept.stored {s : Nat} (unit : Nat) (detail : Word) (hne : src ≠ s)
    (hpend : b.sage.pend.getLsbD src = true → t.sage.pend.getLsbD src = true)
    (hinfo : t.sage.info = mset b.sage.info s none (some { unit := BitVec.ofNat 8 unit, detail := detail }))
    (hself : t.sage.selfFault = b.sage.selfFault) : FaultKept src b t :=
  ⟨hpend, by rw [hinfo, mget_mset_other _ _ _ hne], hself⟩

theorem FaultKept.forAll {n : Nat} {f : Fin n → Block → Block} (hf : ∀ i b, FaultKept src b (f i b)) (b : Block) :
    FaultKept src b (forAll n f b) := by
  unfold Machine.forAll
  generalize List.finRange n = l
  induction l generalizing b with
  | nil => exact .refl src b
  | cons i l ih => exact (hf i b).trans (ih (f i b))

/-! ### Recording (R456) -/

theorem bset_getLsbD_mono {w i : Nat} {x : BitVec w} (j : Nat) (h : x.getLsbD i = true) : (bset x j).getLsbD i = true := by
  rw [bset, BitVec.getLsbD_or, h, Bool.true_or]

/-- The latch step leaves what Sage holds of each source. -/
theorem latchStep_sources (s unit : Nat) (detail : Word) (b : Block) :
    (latchStep s unit detail b).sage.pend = b.sage.pend ∧ (latchStep s unit detail b).sage.info = b.sage.info
      ∧ (latchStep s unit detail b).sage.selfFault = b.sage.selfFault := by
  unfold latchStep
  split
  · exact ⟨rfl, rfl, rfl⟩
  · dsimp only
    split <;> exact ⟨rfl, rfl, rfl⟩

/-- A raise of another source leaves what Sage holds of this one. -/
theorem record_kept {s : Nat} (unit : Nat) (detail : Word) (hne : src ≠ s) (b : Block) :
    FaultKept src b (record s unit detail b).1 := by
  unfold record
  dsimp only
  split
  · split
    · split <;> exact .stored unit detail hne id rfl rfl
    · exact .refl src b
  · obtain ⟨lpend, linfo, lself⟩ := latchStep_sources s unit detail (ctrAdd (sageBase + 0x1C) 1 b)
    have hlatched : FaultKept src b (latchStep s unit detail (ctrAdd (sageBase + 0x1C) 1 b)) :=
      ⟨fun h => by rw [lpend]; exact h, by rw [linfo]; rfl, by rw [lself]; rfl⟩
    split
    · exact hlatched.trans ⟨id, rfl, rfl⟩
    · exact hlatched.trans (.stored unit detail hne (bset_getLsbD_mono s) rfl rfl)

/-- Sage holds a raise of `src` with a detail word. -/
def FaultHeld (src : Nat) (detail : Word) (b : Block) : Prop :=
  b.sage.pend.getLsbD src = true ∧ (mget b.sage.info src none).map PendInfo.detail = some detail

theorem FaultHeld.kept {detail : Word} (h : FaultHeld src detail b) (k : FaultKept src b t) : FaultHeld src detail t :=
  ⟨k.1 h.1, by rw [k.2.1]; exact h.2⟩

/-- A new raise is recorded and reaches its reaction (R456). -/
theorem record_fresh {unit : Nat} {detail : Word} (hsrc : src < 256) (h : freshSource src b) :
    (record src unit detail b).2 = true ∧ FaultHeld src detail (record src unit detail b).1
      ∧ (record src unit detail b).1.sage.selfFault = b.sage.selfFault := by
  obtain ⟨hpend, htick⟩ := h
  obtain ⟨lpend, -, lself⟩ := latchStep_sources src unit detail (ctrAdd (sageBase + 0x1C) 1 b)
  have hnew : (latchStep src unit detail (ctrAdd (sageBase + 0x1C) 1 b)).sage.pend.getLsbD src = false := by
    rw [lpend]; exact hpend
  unfold record
  simp only [htick, if_false, List.find?_nil, hnew, Bool.false_eq_true]
  exact ⟨trivial, ⟨bset_getLsbD_same _ hsrc, by rw [mget_mset_same]; rfl⟩, lself⟩

/-! ### Reactions (R460 to R469) -/

theorem portsDown_kept {before : Vector Port 16} {f : Nat → PortId → Block → Block}
    (hf : ∀ code p b, FaultKept src b (f code p b)) (b : Block) : FaultKept src b (portsDown before f b) :=
  .forAll (fun p b => .ite (.ite (hf _ p b) (.refl src b)) (.ite (.refl src b) (hf _ p b))) b

theorem enterSafe_kept (s : Nat) (detail : Word) (byEsc self : Bool) (hown : OwnSource src) (b : Block) :
    FaultKept src b (enterSafe s detail byEsc self b) := by
  unfold enterSafe
  extract_lets e _ _ _ entered sent before down
  have hentered : FaultKept src b entered := ⟨id, rfl, rfl⟩
  have hsent : FaultKept src entered sent := .forAll (fun p b => .of_sage (sendLastEvent_sage b true e p)) entered
  have hsafe : FaultKept src sent (safePorts (cutBist (fun _ => true) sent)) :=
    .of_sage ((safePorts_sage _).trans (cutBist_sage sent _))
  have hdown : FaultKept src (safePorts (cutBist (fun _ => true) sent)) down :=
    portsDown_kept (fun code p b => record_kept _ _ hown.1 b) _
  clear_value down
  have hstopped : FaultKept src down (stopBoot (safeStage (allToSelfRefresh { down with engs := down.engs.map holdEngine }))) :=
    .of_sage ((stopBoot_sage _).trans ((safeStage_sage _).trans (allToSelfRefresh_sage _)))
  exact .ite (.refl src b) ((((hentered.trans hsent).trans hsafe).trans hdown).trans hstopped)

theorem startTimer_kept (s : Nat) (second : Bool) (b : Block) : FaultKept src b (startTimer s second b) := ⟨id, rfl, rfl⟩

@[simp] theorem emitAll_sage (own : List OwnEv) (b : Block) : (own.foldl (fun b o => emit o.mask o.ev b) b).sage = b.sage :=
  foldl_keep Block.sage _ (fun _ _ => emit_sage _ _ _) _ _

@[simp] theorem report_sage (s : Nat) (detail : Word) (own : List OwnEv) (b : Block) : (report s detail own b).sage = b.sage := by
  unfold report
  split
  · exact emit_sage _ _ _
  · exact emitAll_sage own b

@[simp] theorem isolated_sage (s unit : Nat) (b : Block) : (isolated s unit b).sage = b.sage := emit_sage _ _ _

theorem startTimers_kept {s : Nat} {second : Bool} {p : Prop} [Decidable p] (h : FaultKept src b c) :
    FaultKept src b (if p then startTimer s second c else c) := .ite (h.trans (startTimer_kept s second c)) h

theorem raiseLeaf_kept {s : Nat} (unit : Nat) (detail : Word) (own : List OwnEv) (hne : src ≠ s) (hown : OwnSource src)
    (b : Block) : FaultKept src b (raiseLeaf s unit detail own b) := by
  have hrec := record_kept unit detail hne b
  unfold raiseLeaf
  generalize record s unit detail b = x at hrec
  obtain ⟨c, new⟩ := x
  cases new
  · exact hrec.trans (.of_sage (emitAll_sage own c))
  · change FaultKept src b (if c.sage.safe = true then c else _)
    extract_lets r reported told first second
    have hreported : FaultKept src b reported := hrec.trans (.of_sage (report_sage s detail own c))
    have htold : FaultKept src b told := .ite (hreported.trans (.of_sage (isolated_sage _ _ _))) hreported
    have hsecond : FaultKept src b second := startTimers_kept (startTimers_kept htold)
    exact .ite hrec (.ite (hsecond.trans (enterSafe_kept _ _ _ _ hown _)) hsecond)

theorem isolate_kept (s unit : Nat) (hown : OwnSource src) (b : Block) : FaultKept src b (isolate s unit b) := by
  have htold : FaultKept src b (isolated s unit b) := .of_sage (isolated_sage s unit b)
  unfold isolate
  dsimp only
  generalize isolated s unit b = c at htold
  split
  · have hport : FaultKept src c (disablePort (pid unit) (lastFlits (pid unit) c)) :=
      .of_sage ((disablePort_sage _ _).trans (lastFlits_sage _ _))
    have hchan : FaultKept src c (offlineChan (unit - 0x10) c) := .of_sage (offlineChan_sage c _)
    have hengine : FaultKept src c (emit allMask { code := 0x0E01, lo := word [(unit - 0x30, 0)] }
        (isolateEngine (eid (unit - 0x30)) c)) := .of_sage (emit_sage _ _ _)
    exact htold.trans (.ite (.refl src c) (.ite (.ite (.refl src c) (hport.trans (raiseLeaf_kept _ _ _ hown.1 hown _)))
      (.ite (.ite (.refl src c) (hchan.trans (raiseLeaf_kept _ _ _ hown.2 hown _))) (.ite hengine (.refl src c)))))
  · exact htold

theorem react_kept (s unit : Nat) (detail : Word) (own : List OwnEv) (inj : Bool) (hown : OwnSource src) (b : Block) :
    FaultKept src b (react s unit detail own inj b) := by
  have hnoted : FaultKept src b (noteRef s b) := .ite ⟨id, rfl, rfl⟩ (.refl src b)
  have hreported : FaultKept src b (reportReact s detail own inj (noteRef s b)) :=
    hnoted.trans (.ite (.of_sage (report_sage s detail own _)) (.refl src _))
  unfold react
  extract_lets r reported isolated
  have hisolated : FaultKept src b isolated := hreported.trans (isolate_kept s unit hown _)
  exact .ite (.refl src b) (.ite (startTimers_kept hreported)
    (.ite (startTimers_kept hisolated) (.ite (hisolated.trans (enterSafe_kept _ _ _ _ hown _)) hreported)))

/-- A new raise of a source of its own is held, whatever its reaction is. -/
theorem raise_fresh {unit : Nat} {detail : Word} (own : List OwnEv) (hsrc : src < 256) (hown : OwnSource src)
    (h : freshSource src b) :
    FaultHeld src detail (raise src unit detail own b) ∧ (raise src unit detail own b).sage.selfFault = b.sage.selfFault := by
  obtain ⟨hnew, hheld, hself⟩ := record_fresh (unit := unit) (detail := detail) hsrc h
  unfold raise
  generalize record src unit detail b = x at hnew hheld hself
  obtain ⟨c, new⟩ := x
  obtain rfl : new = true := hnew
  have hkept := react_kept src unit detail own false hown c
  exact ⟨hheld.kept hkept, hkept.2.2.trans hself⟩

end Kept

/-! ### The parity sweep (R57) -/

/-- A stack in which an upset has flipped the register at `a`, and no other. -/
def withUpset (a : Nat) (b : Block) : Block := { b with regs := { b.regs with badPar := [a] } }

/-- A sweep that finds one upset raises it (R57). -/
theorem paritySweep_one {a : Word} {b : Block} (h5 : 5 ≤ b.start.step) (hen : b.sage.enable = true)
    (hrw : rwMask a.toNat ≠ 0) (hgood : b.regs.badPar = []) :
    paritySweep [a] [] b = parityFault a.toNat (withUpset a.toNat b) := by
  have hupset : upsetLive a b = withUpset a.toNat b := by
    unfold upsetLive
    rw [if_neg hrw, hgood]
    rfl
  have hstep : ¬ (withUpset a.toNat b).start.step < 5 := Nat.not_lt.mpr h5
  have hfound : ((withUpset a.toNat b).regs.badPar.filter fun k => (withUpset a.toNat b).sage.enable || baseOf k == sageBase)
      = [a.toNat] := by
    simp [withUpset, hen]
  unfold paritySweep
  simp only [List.foldl_cons, List.foldl_nil, hupset]
  rw [if_neg hstep, hfound]
  rfl

/-- A stack whose Sage has failed its self-check (R471). -/
def selfFaulted (b : Block) : Block := { b with sage := { b.sage with selfFault := true } }

theorem parityFault_sage {a : Nat} {b : Block} (hbase : baseOf a = sageBase) (h5 : 5 ≤ b.start.step) :
    parityFault a b = raise (fs .sageSelf) 0x57 0 [] (selfFaulted b) :=
  (if_pos hbase).trans (if_neg (Nat.not_lt.mpr h5))

theorem parityFault_other {a : Nat} {b : Block} (hbase : baseOf a ≠ sageBase) :
    parityFault a b = raise (fs .cfgParity) (parityUnit a) (BitVec.ofNat 32 a) [] b := if_neg hbase

theorem ownSource_cfgParity : OwnSource (fs .cfgParity) := ⟨by decide, by decide⟩

theorem ownSource_sageSelf : OwnSource (fs .sageSelf) := ⟨by decide, by decide⟩

/-- A sweep that finds an upset raises FS_CFG_PARITY with the address (R57). -/
theorem paritySweep_config {a : Word} {b : Block} (h5 : 5 ≤ b.start.step) (hen : b.sage.enable = true)
    (hrw : rwMask a.toNat ≠ 0) (hgood : b.regs.badPar = []) (hbase : baseOf a.toNat ≠ sageBase)
    (hfresh : freshSource (fs .cfgParity) b) : FaultHeld (fs .cfgParity) a (paritySweep [a] [] b) := by
  have haddr : BitVec.ofNat 32 a.toNat = a := by rw [BitVec.ofNat_toNat, BitVec.setWidth_eq]
  rw [paritySweep_one h5 hen hrw hgood, parityFault_other hbase, haddr]
  exact (raise_fresh (b := withUpset a.toNat b) [] (by decide) ownSource_cfgParity hfresh).1

/-- A sweep that finds an upset of one of Sage's own registers raises FS_SAGE_SELF (R471). -/
theorem paritySweep_sage {a : Word} {b : Block} (h5 : 5 ≤ b.start.step) (hen : b.sage.enable = true)
    (hrw : rwMask a.toNat ≠ 0) (hgood : b.regs.badPar = []) (hbase : baseOf a.toNat = sageBase)
    (hfresh : freshSource (fs .sageSelf) b) :
    FaultHeld (fs .sageSelf) 0 (paritySweep [a] [] b) ∧ (paritySweep [a] [] b).sage.selfFault = true := by
  rw [paritySweep_one h5 hen hrw hgood, parityFault_sage (b := withUpset a.toNat b) hbase h5]
  exact raise_fresh (b := selfFaulted (withUpset a.toNat b)) [] (by decide) ownSource_sageSelf hfresh

end Sys2Proof.Machine

open Sys2Proof Sys2Proof.Machine

/-- Settles O13: what the IDN block answers (`put_idn`), the raise of a sweep, which stays recorded whatever its reaction is
(`raise_fresh`), and the two ends of a forced commit (`forcedCommit_plain`, `forcedCommit_waits`). -/
theorem ownerSweepAndForcedCommit : Obligations.OwnerSweepAndForcedCommit := by
  refine ⟨fun path data s hw => ⟨fun h => ?owner, fun h => ?ownerRefused⟩,
    fun a s h5 hen _ hrw hgood htick => ⟨fun hbase hpend => ?sweep, fun hbase hpend => ?sweepSage⟩,
    fun path s hw hplain hmid => ?commit, fun path c w s hw hpend hbase hmid => ?commitWaits⟩
  case owner =>
    obtain ⟨-, -, -, -, hgood⟩ := id hw
    refine ⟨_, congrArg Host.Outcome.next (put_idn hw (by decide) (by decide) (by decide) (by decide)
      (idnWrite_owner path hgood h) rfl), answered_resp, ?_⟩
    rw [answered_regs, answered_ports, answered_mem]
    exact ⟨rfl, rfl, rfl⟩
  case ownerRefused =>
    refine ⟨_, congrArg Host.Outcome.next (put_idn hw (by decide) (by decide) (by decide) (by decide)
      (idnWrite_owner_refused path s.blk h) rfl), answered_resp, ?_⟩
    rw [answered_regs, answered_mem]
    exact ⟨rfl, rfl⟩
  case sweep =>
    obtain ⟨hheld, hdetail⟩ := paritySweep_config h5 hen hrw hgood hbase ⟨hpend, htick⟩
    exact ⟨_, rfl, hheld, hdetail, rfl⟩
  case sweepSage =>
    obtain ⟨⟨hheld, -⟩, hself⟩ := paritySweep_sage h5 hen hrw hgood hbase ⟨hpend, htick⟩
    exact ⟨_, rfl, hheld, hself, rfl⟩
  case commit =>
    have hcommit := forcedCommit_plain hplain hmid
    refine ⟨_, congrArg Host.Outcome.next (put_idn hw (by decide) (by decide) (by decide) (by decide)
      (idnWrite_commit path s.blk) (by rw [hcommit])), answered_resp, ?_⟩
    simp only [answered_regs, answered_ports, answered_mem, rw_answered, State.upd_blk, State.upd_mem]
    exact ⟨by rw [hcommit], fun w hin hone => rw_forcedCommit hplain hmid hin hone, by rw [hcommit], trivial⟩
  case commitWaits =>
    have hcommit := forcedCommit_waits hpend hbase hmid
    refine ⟨_, congrArg Host.Outcome.next (put_idn hw (by decide) (by decide) (by decide) (by decide)
      (idnWrite_commit path s.blk) (by rw [hcommit])), answered_resp, ?_⟩
    rw [answered_regs, answered_ports, answered_mem, State.upd_blk, State.upd_mem, hcommit]
    exact ⟨rfl, rfl, rfl, rfl, rfl⟩

end

section
/-! SUPPORT. Resets (R74 to R78, R83, R85, R86): what each of them is on the units of the stack, and what cleared registers and a
stack with PWROK low show. -/

namespace Sys2Proof.Machine

open Sys2Proof

variable {b : Block}

/-! ### Cleared units -/

@[simp] theorem resetUnits_start (b : Block) : (resetUnits b).start =
    { pwrok := b.start.pwrok, resetN := b.start.resetN, brown := b.start.brown, straps := b.start.straps
      attempts := b.start.attempts, reason := b.start.reason, lastFail := b.start.lastFail } := rfl
@[simp] theorem resetUnits_time (b : Block) : (resetUnits b).time = 0 := rfl
@[simp] theorem resetUnits_regs (b : Block) : (resetUnits b).regs = {} := rfl
@[simp] theorem resetUnits_hnd (b : Block) : (resetUnits b).hnd = {} := rfl
@[simp] theorem resetUnits_srl (b : Block) : (resetUnits b).srl = {} := rfl

@[simp] theorem clearAlwaysOn_start (b : Block) :
    (clearAlwaysOn b).start = { b.start with attempts := 0, reason := 0, lastFail := 0 } := rfl
@[simp] theorem clearAlwaysOn_regs (b : Block) : (clearAlwaysOn b).regs = b.regs := rfl
@[simp] theorem clearAlwaysOn_srl (b : Block) : (clearAlwaysOn b).srl = b.srl := rfl

/-- Cleared registers count nothing. -/
theorem ctr_cleared (h : b.regs = {}) (a : Nat) : ctr a b = 0 := by
  rw [ctr, h]; rfl

/-- A field of cleared registers reads the reset value of its table. -/
theorem rw_cleared (h : b.regs = {}) (a : Nat) : rw a b = rwReset a := by
  rw [rw, h]; rfl

/-! ### PWROK (R73, R77, R78) -/

@[simp] theorem pwrokFall_pwrok (b : Block) : (pwrokFall b).start.pwrok = false := rfl
@[simp] theorem pwrokFall_regs (b : Block) : (pwrokFall b).regs = {} := rfl

theorem pwrokRise_low (h : b.start.pwrok = false) :
    pwrokRise b = { b with start := { b.start with pwrok := true, brown := false } } :=
  if_neg (by simp [h])

/-- PWROK low releases every three-state and open-drain output (R73). -/
theorem outputs_released (h : b.start.pwrok = false) :
    tdoDriven b = false ∧ sclLow b = false ∧ sdaLow b = false ∧ alertLow b = false ∧ thermtripLow b = false := by
  simp [tdoDriven, sclLow, sdaLow, alertLow, thermtripLow, h]

/-! ### RESET_N and brown-outs (R76, R85, R86) -/

theorem resetFall_short {n : Nat} (h : n < 100) : resetFall n b = b := if_pos h

theorem resetFall_long {n : Nat} (h : 100 ≤ n) :
    resetFall n b = { resetUnits b with start := { (resetUnits b).start with resetN := false } } :=
  if_neg (Nat.not_lt.mpr h)

theorem resetRise_starts (v : BitVec 3) (hpwrok : b.start.pwrok = true) (hbrown : b.start.brown = false)
    (hlow : b.start.resetN = false) :
    resetRise v b = { resetUnits b with start := { (resetUnits b).start with resetN := true, straps := v, step := 2 } } :=
  if_neg (by simp [hpwrok, hbrown, hlow])

theorem brownOut_long {n : Nat} (r : Rail) (h : 1000 < n) :
    brownOut r n b = { clearAlwaysOn (resetUnits b) with
      start := { (clearAlwaysOn (resetUnits b)).start with resetN := false, brown := b.start.brown || r != .vio } } :=
  if_neg (Nat.not_le.mpr h)

end Sys2Proof.Machine

open Sys2Proof Sys2Proof.Machine

/-- Settles O4: with the registers cleared every counter is 0 (`ctr_cleared`) and every field reads the reset value of its table
(`rw_cleared`), the other units are those of an empty block, and PWROK low releases the outputs (`outputs_released`). That DRAM
without power is listed empty is the model's choice (log entries 5 and 102). -/
theorem powerOnReset : Obligations.PowerOnReset := by
  refine ⟨⟨?canonical, rfl, rfl⟩, fun s => ?fall, fun s hlow => ?rise⟩
  case canonical => exact (by decide : Memory.wf [] = true)
  case fall =>
    obtain ⟨htdo, hscl, hsda, halert, htrip⟩ := outputs_released (pwrokFall_pwrok s.blk)
    refine ⟨_, rfl, pwrokFall_pwrok s.blk, rfl, rfl, rfl, rfl, rfl, rfl, rfl, rfl, rfl, rfl, ctr_cleared (pwrokFall_regs s.blk), rfl,
      htdo, hscl, hsda, halert, htrip, fun r hr => (rw_cleared (pwrokFall_regs s.blk) r.1).trans ?_⟩
    revert r
    decide
  case rise => exact congrArg (fun x => Host.Outcome.next (s.upd x)) (pwrokRise_low hlow)

/-- Settles O7: a pulse that counts and a brown-out are a reset of the units without and with the always-on record
(`resetFall_long`, `brownOut_long`), and the rising edge begins the start (`resetRise_starts`). -/
theorem resetAndBrownOut : Obligations.ResetAndBrownOut := by
  refine ⟨fun n s hn => ?short, fun n s hn => ⟨_, rfl, ?long⟩, fun r n s hn => ⟨_, rfl, ?brown⟩,
    fun v s hpwrok hbrown hlow => ⟨_, rfl, ?rise⟩⟩
  case short => exact congrArg (fun x => Host.Outcome.next (s.upd x)) (resetFall_short hn)
  case long => simp [resetFall_long hn]
  case brown => simp [brownOut_long r hn]
  case rise => simp [resetRise_starts v hpwrok hbrown hlow]

end

section
/-! SUPPORT. The end of a start and its restart (R96, R97, R105): what a failed start records, which steps and limits end one, what
a restart keeps, and the write that restarts the stack, which leaves no response. -/

namespace Sys2Proof.Machine

open Sys2Proof

variable {b : Block} {s : State}

/-! ### A flit sent -/

section Flit
variable {α : Type} (g : Block → α) (hport : ∀ (p : PortId) (f : Port → Port) (b : Block), g (modPort p f b) = g b)
  (hctr : ∀ (a n : Nat) (b : Block), g (ctrAdd a n b) = g b)
include hport hctr

/-- A CMPL record changes its port and the count of lost records alone. -/
theorem sendCmpl_keep (p : PortId) (tag : Nat) (st : Status) (kind handle : Nat) (b : Block) :
    g (sendCmpl p tag st kind handle b) = g b := by
  unfold sendCmpl
  split
  · exact hport ..
  · exact (hctr ..).trans (hport ..)

/-- A flit changes its port and the count of lost records alone. -/
theorem sendFlit_keep (p : PortId) (b : Block) : g (sendFlit p b) = g b := by
  unfold sendFlit
  split
  · exact (foldl_keep g _ (fun _ _ => sendCmpl_keep g hport hctr ..) _ _).trans ((hport ..).trans (hport ..))
  · rfl

end Flit

@[simp] theorem sendFlit_start (p : PortId) (b : Block) : (sendFlit p b).start = b.start :=
  sendFlit_keep Block.start (fun _ _ _ => rfl) (fun _ _ _ => rfl) p b

@[simp] theorem sendFlit_pend (p : PortId) (b : Block) : (sendFlit p b).regs.pend = b.regs.pend :=
  sendFlit_keep (fun b => b.regs.pend) (fun _ _ _ => rfl) (fun _ _ _ => rfl) p b

/-! ### A failed start (R96, R97) -/

@[simp] theorem stopBoot_start (b : Block) : (stopBoot b).start = b.start := by unfold stopBoot; split <;> rfl
@[simp] theorem stopBoot_regs (b : Block) : (stopBoot b).regs = b.regs := by unfold stopBoot; split <;> rfl

@[simp] theorem endLink_start (p : PortId) (b : Block) : (endLink p b).start = b.start := rfl
@[simp] theorem endLink_pend (p : PortId) (b : Block) : (endLink p b).regs.pend = b.regs.pend := rfl

@[simp] theorem recordFail_start (reason : BitVec 4) (b : Block) : (recordFail reason b).start = { b.start with
    reason := reason, lastFail := b.start.stage, attempts := if b.start.attempts = 3 then 3 else b.start.attempts + 1 } := by
  simp [recordFail]

@[simp] theorem recordFail_pend (reason : BitVec 4) (b : Block) : (recordFail reason b).regs.pend = b.regs.pend := by
  simp [recordFail]

@[simp] theorem startFail_start (reason : BitVec 4) (b : Block) :
    (startFail reason b).start = { (recordFail reason b).start with failed := true } := by
  simp [startFail]

@[simp] theorem startFail_pend (reason : BitVec 4) (b : Block) : (startFail reason b).regs.pend = b.regs.pend := by
  simp [startFail]

/-- The attempt counter stops at 3 (R97). -/
theorem attempts_counted (n : BitVec 2) : (if n = 3 then 3 else n + 1 : BitVec 2).toNat = min 3 (n.toNat + 1) := by
  revert n
  decide

/-- `startFail` is the failed start of R97, whatever the step has done to the other units before it. -/
theorem startFailed_startFail (reason : BitVec 4) (h : b.start = s.blk.start) :
    startFailed reason s (s.upd (startFail reason b)) := by
  unfold startFailed
  rw [State.upd_blk, startFail_start, recordFail_start, h]
  exact ⟨rfl, rfl, rfl, attempts_counted _, rfl, rfl⟩

/-! ### The limits of a start (R96) -/

section Limits
variable (hstart : b.starting = true)
include hstart

theorem stepLimit_detect (h : b.start.step = 7) : stepLimit b = startFail 3 b := by
  simp [stepLimit, hstart, h]

theorem stepLimit_noImage (h : b.start.step = 8) (hcount : b.img.count < 64) : stepLimit b = startFail 1 b := by
  simp [stepLimit, hstart, h, hcount]

theorem stepLimit_apply (h : b.start.step = 9 ∨ b.start.step = 10 ∨ b.start.step = 11) : stepLimit b = startFail 6 b := by
  obtain h | h | h := h <;> simp [stepLimit, hstart, h]

theorem stepLimit_coreDies (h : b.start.step = 12 ∨ b.start.step = 13 ∨ b.start.step = 14) : stepLimit b = startFail 4 b := by
  obtain h | h | h := h <;> simp [stepLimit, hstart, h]

end Limits

theorem exec_readyLimitExpiry (hstart : s.blk.starting = true) :
    exec .readyLimitExpiry s = .next (s.upd (startFail 6 s.blk)) :=
  congrArg (fun x => Host.Outcome.next (s.upd x)) (if_pos hstart)

@[simp] theorem discardPend_start (b : Block) : (discardPend b).start = b.start := rfl
@[simp] theorem twpEnd_start (b : Block) : (twpEnd b).start = b.start := by
  unfold twpEnd
  dsimp only
  split <;> rfl

/-- The supervisor runs from step 5 on; its watchdog resets it in a start, with every pending write discarded (R56, R472). -/
theorem exec_supervisorWatchdogExpiry_starting (pc : Word) (hstart : s.blk.starting = true) (h5 : 5 ≤ s.blk.start.step) :
    exec (.supervisorWatchdogExpiry pc) s = .next (s.upd (startFail 6 (twpEnd (discardPend s.blk)))) :=
  congrArg (fun x => Host.Outcome.next (s.upd x)) ((if_pos hstart).trans (if_neg (Nat.not_lt.mpr h5)))

/-! ### Timed steps (R86) -/

@[simp] theorem toStep_start (n : Nat) (g : BitVec 4) (b : Block) :
    (toStep n g b).start = { b.start with step := n, stage := g } := rfl

/-- Only step 6, where nothing traps, has checks of its own before it ends (R445). -/
theorem exec_startStepDone {obs : StepObs} (h : obs.trap = true ∨ s.blk.start.step ≠ 6) :
    exec (.startStepDone obs) s = .next (s.upd (stepDone obs s.blk)) := by
  have hchecks : ¬ (s.blk.starting = true ∧ s.blk.start.step = 6 ∧ (!obs.trap) = true) := by
    rintro ⟨-, hstep, htrap⟩
    obtain h | h := h
    · simp [h] at htrap
    · exact h hstep
  exact congrArg (fun x => Host.Outcome.next (s.upd (stepDone obs x))) (if_neg hchecks)

section Steps
variable {obs : StepObs} (hstart : b.starting = true)
include hstart

theorem stepDone_trap (htrap : obs.trap = true) (h6 : 6 ≤ b.start.step) : stepDone obs b = startFail 5 b := by
  simp [stepDone, hstart, htrap, h6]

theorem stepDone_operatingPoint (htrap : obs.trap = false) (h : b.start.step = 11) :
    stepDone obs b = toStep 12 6 (startOpSet b) := by
  simp [stepDone, hstart, htrap, h]

theorem stepDone_coreDies (htrap : obs.trap = false) (h : b.start.step = 12) : stepDone obs b = toStep 13 7 b := by
  simp [stepDone, hstart, htrap, h]

theorem stepDone_tsvs (htrap : obs.trap = false) (h : b.start.step = 13) :
    stepDone obs b = toStep 14 8 (calibrated obs b) := by
  simp [stepDone, hstart, htrap, h]

end Steps

/-- The operating point of step 11 (R23): one point, its VDDL and TSV rate, and the quadrant PLLs locked. -/
theorem startOpSet_clk (b : Block) : (startOpSet b).clk = { b.clk with
    op := BitVec.ofNat 2 (startOp b), rateOps := Vector.replicate 4 (BitVec.ofNat 2 (startOp b))
    vddl := opVddl b (BitVec.ofNat 2 (startOp b)), tsvOps := Vector.replicate 4 (BitVec.ofNat 2 (startOp b))
    linkLock := 0xF, tsvLock := 0xF } := rfl

@[simp] theorem takeSpares_start (l : List (Nat × Nat)) (b : Block) : (takeSpares l b).start = b.start :=
  foldl_keep Block.start _ (fun b _ => modChan_start b _ _) l b

@[simp] theorem calibrated_start (obs : StepObs) (b : Block) :
    (calibrated obs b).start = { b.start with calFail := obs.failedChannels } := by
  simp [calibrated]

/-! ### Restarts (R97, R105) -/

theorem exec_internalRestart (hfailed : s.blk.start.failed = true) (hsage : s.blk.sage.safe = false)
    (hthm : s.blk.thm.safe = false) : exec .internalRestart s = .next (s.upd (beginStart s.blk)) :=
  congrArg (fun x => Host.Outcome.next (s.upd x)) (if_pos (by simp [hfailed, hsage, hthm]))

/-- A commanded restart is a new start with the counter cleared and the staged image kept where it is to be used (R105). -/
theorem doRestart_eq (u : Bool) (b : Block) : doRestart u b = { beginStart b with
    start := { (beginStart b).start with attempts := 0, useStaged := u }
    img := { staged := if u = true then b.img.staged else none, stagedOk := u && b.img.stagedOk } } := by
  cases u <;> rfl

/-- SUP_RESTART.go takes effect at once where no OTP pulse runs and its image is there (R45, R105). -/
theorem restartWrite_go {data : Word} (hwait : b.start.restartWait = none) (hgo : data.getLsbD 0 = true)
    (hthm : b.thm.safe = false) (hstaged : data.getLsbD 1 = true → b.img.stagedOk = true) (hpulse : otpPulsing b = false) :
    restartWrite data b = (.ok, doRestart (data.getLsbD 1) b) := by
  have himage : (data.getLsbD 1 && !b.img.stagedOk) = false := by
    cases hu : data.getLsbD 1
    · rfl
    · simp [hstaged hu]
  simp only [restartWrite, hwait, hgo, hthm, himage, hpulse, Option.isSome_none, Bool.not_true, Bool.or_self,
    Bool.false_eq_true, if_false]

/-- A write of SUP_RESTART goes to its function. -/
theorem writeLive_restart {path : Path} {data : Word} (hgood : s.blk.regs.badPar = []) :
    writeLive path none (supBase + 0x704) data s = onBlock s (restartWrite data s.blk) :=
  writeLive_block hgood (fun _ => by decide) (by decide) (by decide) (by decide) (by decide) (by decide) (by decide)

/-- A write that restarts the stack leaves no response behind. -/
theorem put_restarts {path : Path} {base o : Nat} {data : Word} {st : Option Status} {t : State} (hw : takesWrites path s)
    (ha : base + o < 2 ^ 32) (h4 : (base + o) % 4 = 0) (hl : (base + o) % 0x1000 < 0x800) (hm : (regAt (base + o)).isSome = true)
    (hk : lockedReg (base + o) s.blk = false) (h : writeLive path none (base + o) data s = (st, t))
    (h5 : t.blk.start.step < 5) : put path base o data s = t := by
  obtain ⟨hopen, hP0, hsafe, howner, hgood⟩ := hw
  unfold put pathWrite pathWriteAt
  rw [wakeBy_P0 _ _ hP0, writeReg_live hsafe howner hgood ha h4 hl hm hk, h]
  simp [hopen, h5]

/-- The two flags of RESTART_COMMAND as they lie in its word. -/
theorem restartWord_bits (u : Bool) :
    (word [(1, 0), (b2n u, 1)]).getLsbD 0 = true ∧ (word [(1, 0), (b2n u, 1)]).getLsbD 1 = u := by
  revert u
  decide

/-- SUP_RESTART.go over an open path. -/
theorem exec_restartCommand {path : Path} {u : Bool} (hw : takesWrites path s) (hthm : s.blk.thm.safe = false)
    (hstaged : u = true → s.blk.img.stagedOk = true) (hwait : s.blk.start.restartWait = none)
    (hpulse : otpPulsing s.blk = false) : exec (.restartCommand path u) s = .next (s.upd (doRestart u s.blk)) := by
  obtain ⟨hgo, huse⟩ := restartWord_bits u
  obtain ⟨-, -, -, -, hgood⟩ := id hw
  have hwrite := writeLive_restart (path := path) (data := word [(1, 0), (b2n u, 1)]) hgood
  rw [restartWrite_go hwait hgo hthm (by rwa [huse]) hpulse, huse] at hwrite
  refine congrArg Host.Outcome.next (put_restarts hw (by decide) (by decide) (by decide) (by decide)
    (lockedReg_out _ (by decide)) hwrite ?_)
  rw [State.upd_blk, doRestart_eq]
  exact (by decide : 2 < 5)

end Sys2Proof.Machine

open Sys2Proof Sys2Proof.Machine

/-- Settles O8: a trap fails the start (`stepDone_trap`), and each of the three steps ends in the next one with its own effect
(`startOpSet_clk`, `calibrated_start`). -/
theorem startStepsAdvance : Obligations.StartStepsAdvance := by
  refine ⟨fun obs s hstart htrap h6 => ?trap,
    fun obs s hstart htrap => ⟨fun h => ?operatingPoint, fun h => ?coreDies, fun h => ?tsvs⟩⟩
  case trap =>
    rw [exec_startStepDone (.inl htrap), stepDone_trap hstart htrap h6]
    exact ⟨_, rfl, startFailed_startFail 5 rfl⟩
  case operatingPoint =>
    rw [exec_startStepDone (.inr (by omega)), stepDone_operatingPoint hstart htrap h]
    refine ⟨_, rfl, rfl, ?_⟩
    have hclk : (toStep 12 6 (startOpSet s.blk)).clk = _ := startOpSet_clk s.blk
    rw [State.upd_blk, hclk]
    exact ⟨BitVec.toNat_ofNat _ _, fun q => by simp, rfl, rfl, rfl, rfl⟩
  case coreDies =>
    rw [exec_startStepDone (.inr (by omega)), stepDone_coreDies hstart htrap h]
    rfl
  case tsvs =>
    rw [exec_startStepDone (.inr (by omega)), stepDone_tsvs hstart htrap h]
    exact ⟨_, rfl, rfl, by simp⟩

/-- Settles O9: each limit and the watchdog fail the start with its reason (`startFailed_startFail`), an internal restart begins a
new start with the record kept (`exec_internalRestart`), and SUP_RESTART.go one with the counter cleared (`doRestart_eq`). -/
theorem startFailuresAndRestarts : Obligations.StartFailuresAndRestarts := by
  refine ⟨⟨fun s hstart => ?limits, fun s hfailed hsage hthm => ?restart⟩, fun path u s hw hthm hstaged hwait hpulse => ?command⟩
  case limits =>
    have hlimit {reason : BitVec 4} (h : stepLimit s.blk = startFail reason s.blk) :
        ∃ t, exec .startStepLimitExpiry s = .next t ∧ startFailed reason s t :=
      ⟨_, congrArg (fun x => Host.Outcome.next (s.upd x)) h, startFailed_startFail reason rfl⟩
    refine ⟨fun h => hlimit (stepLimit_detect hstart h), fun h hcount => hlimit (stepLimit_noImage hstart h hcount),
      fun h => hlimit (stepLimit_apply hstart h), fun h => hlimit (stepLimit_coreDies hstart h),
      ⟨_, exec_readyLimitExpiry hstart, startFailed_startFail 6 rfl⟩,
      fun pc h5 => ⟨_, exec_supervisorWatchdogExpiry_starting pc hstart h5, startFailed_startFail 6 ?_, ?_⟩⟩
    · rw [twpEnd_start, discardPend_start]
    · rw [State.upd_blk, startFail_pend, twpEnd_regs, discardPend_pend]
  case restart => exact ⟨_, exec_internalRestart hfailed hsage hthm, rfl, rfl, rfl, rfl, rfl, rfl, rfl⟩
  case command =>
    refine ⟨_, exec_restartCommand hw hthm hstaged hwait hpulse, rfl, rfl, ?_⟩
    rw [State.upd_blk, doRestart_eq]
    exact ⟨rfl, rfl, rfl, rfl, rfl, fun hu => by simp [hu, hstaged hu], fun hu => by simp [hu]⟩

end

section
/-! SUPPORT. Image loads (R13, R124, R127 to R133): what a write of IDN_IMG_CTRL and of the data window answers, and the end of the
checks. -/

namespace Sys2Proof.Machine

open Sys2Proof

@[simp] theorem answered_img (path : Path) (a : Nat) (st : Status) (t : State) : (answered path a st t).blk.img = t.blk.img :=
  respond_img _ _ _ _ _
@[simp] theorem answered_start (path : Path) (a : Nat) (st : Status) (t : State) :
    (answered path a st t).blk.start = t.blk.start := respond_start _ _ _ _ _

/-! ### IDN_IMG_CTRL (R128, R131) -/

section Control
variable {b : Block} {w : Word}

/-- The fields of the word that IMAGE_LOAD_START writes. -/
theorem startWord_fields (g : BitVec 2) : let w := word [(1, 0), (g.toNat, 2)]
    w.getLsbD 0 = true ∧ w.getLsbD 1 = false ∧ wfield w 3 2 = g.toNat := by
  revert g
  decide

/-- The fields of the word that IMAGE_LOAD_ABORT writes: the target is the one held. -/
theorem abortWord_fields (b : Block) : let w := 2 ||| heldTarget b
    w.getLsbD 0 = false ∧ w.getLsbD 1 = true ∧ wfield w 3 2 = wfield (rw 0x40 b) 3 2 := by
  unfold heldTarget
  generalize rw 0x40 b = v
  refine ⟨by simp, by simp, ?_⟩
  have htarget : (2 ||| v.toNat &&& 12) >>> 2 = v.toNat >>> 2 % 2 ^ 2 := by
    rw [Nat.shiftRight_or_distrib, Nat.shiftRight_and_distrib, ← Nat.and_two_pow_sub_one_eq_mod]
    exact Nat.zero_or _
  calc wfield (2 ||| v &&& 0xC) 3 2
    _ = (2 ||| v.toNat &&& 12) >>> 2 % 2 ^ 2 := rfl
    _ = v.toNat >>> 2 % 2 ^ 2 := by rw [htarget, Nat.mod_mod]

theorem imageStart_opens {n : Nat} (hfree : loading b.img = false) (hallowed : targetAllowed b n = true) :
    imageStart n b = (.ok, openLoad n b) := by
  simp [imageStart, hfree, hallowed]

/-- A start opens a load, and IDN_IMG_CTRL keeps its target. -/
theorem imgCtrl_start (hstart : w.getLsbD 0 = true) (habort : w.getLsbD 1 = false) (htarget : wfield w 3 2 ≠ 3)
    (hfree : loading b.img = false) (hallowed : targetAllowed b (wfield w 3 2) = true) :
    imgCtrl w b = (.ok, setLive 0x40 (w &&& 0xC) (openLoad (wfield w 3 2) b)) := by
  simp only [imgCtrl, hstart, habort, htarget, imageStart_opens hfree hallowed, Bool.false_eq_true, and_false, or_self, if_false,
    if_true, true_or]

/-- An abort is answered with the status of the load's abort, and IDN_IMG_CTRL keeps its target. -/
theorem imgCtrl_abort {st : Status} {t : Block} (hstart : w.getLsbD 0 = false) (habort : w.getLsbD 1 = true)
    (htarget : wfield w 3 2 ≠ 3) (h : imageAbort b = (st, t)) (hst : st = .ok ∨ st = .tooLate) :
    imgCtrl w b = (st, setLive 0x40 (w &&& 0xC) t) := by
  simp only [imgCtrl, hstart, habort, htarget, h, hst, Bool.false_eq_true, false_and, or_self, if_false, if_true]

/-- An open load none of whose groups has committed is discarded (R131). -/
theorem imageAbort_discards (hopen : loading b.img = true)
    (hnone : ¬ (b.img.state = .pendingCommit ∧ b.img.liveSome = true)) : imageAbort b = (.ok, dropLoad b) := by
  have hdone : b.img.state ≠ .done := fun h => by simp [loading, h] at hopen
  have hbegun : liveBegun b.img = false := by
    rw [liveBegun, Bool.and_assoc, Bool.and_eq_false_iff]
    right
    simpa [hdone, and_comm] using hnone
  simp [imageAbort, hbegun, hdone, hopen]

/-- A load that is done, or of which a live group has committed, is not discarded (R13, R133). -/
theorem imageAbort_tooLate (h : b.img.state = .done ∨
    (b.img.target = 2 ∧ b.img.liveSome = true ∧ b.img.state = .pendingCommit)) : imageAbort b = (.tooLate, b) := by
  rcases h with hdone | ⟨htarget, hsome, hpending⟩
  · simp [imageAbort, hdone]
  · simp [imageAbort, liveBegun, htarget, hsome, hpending]

/-- A discarded STAGE or LIVE load leaves the start as it is (R131). -/
theorem dropLoad_notBoot (h : b.img.target ≠ 0) : dropLoad b = { b with img := { b.img with
    state := .aborted, data := [], liveWait := []
    staged := if b.img.target = 1 then none else b.img.staged, stagedOk := b.img.stagedOk && b.img.target != 1 } } := by
  have hboot : decide (b.img.target = 0) = false := decide_eq_false h
  simp only [dropLoad, hboot, Bool.false_and, Bool.false_eq_true, if_false]

end Control

theorem idnWrite_imgCtrl (path : Path) (data : Word) (b : Block) : idnWrite path 0x40 data b = imgCtrl data b := rfl

/-! ### The data window (R127, R130) -/

section Window
variable {b : Block}

/-- A load with four more bytes (R127). -/
def appended (data : Word) (b : Block) : Block :=
  { b with img := { b.img with data := b.img.data ++ bytesOf 4 data, count := (b.img.data ++ bytesOf 4 data).length } }

/-- A load that its path has claimed (R127). -/
def claimed (path : Path) (b : Block) : Block := { b with img := { b.img with path := pathCode path } }

theorem bytesOf_length {n : Nat} (k : Nat) (x : BitVec n) : (bytesOf k x).length = k := by simp [bytesOf]

theorem beginVerify_img (b : Block) : (beginVerify b).img = { b.img with state := .verifying } := by
  unfold beginVerify
  dsimp only
  split <;> rfl

theorem beginVerify_regs (b : Block) : (beginVerify b).regs = b.regs := by
  unfold beginVerify
  dsimp only
  split <;> rfl

theorem beginVerify_ports (b : Block) : (beginVerify b).ports = b.ports := by
  unfold beginVerify
  dsimp only
  split <;> rfl

/-- The checks of a BOOT image are step 9 of the start (R86). -/
theorem beginVerify_step (h : 5 ≤ b.start.step) : 5 ≤ (beginVerify b).start.step := by
  unfold beginVerify
  dsimp only
  split
  · exact (by decide : 5 ≤ 9)
  · exact h

/-- Past the header, four bytes are appended, and the last of header.length begins the checks (R130). -/
theorem takeBytes_pastHeader (data : Word) (h : 64 ≤ b.img.data.length) : takeBytes data b =
    if hdrLength (b.img.data ++ bytesOf 4 data) ≤ b.img.data.length + 4 then beginVerify (appended data b)
    else appended data b := by
  have hlength : (b.img.data ++ bytesOf 4 data).length = b.img.data.length + 4 := by rw [List.length_append, bytesOf_length]
  have hpast : b.img.data.length + 4 ≠ 64 := by omega
  have hheader : b.img.data.length + 4 ≥ 64 := by omega
  unfold takeBytes appended
  simp only [hlength, hpast, hheader, false_and, true_and, if_false, ge_iff_le]

/-- The data window takes a word over the path of its load (R127). -/
theorem imageData_takes {path : Path} (data : Word) (hopen : b.img.state = .receiving)
    (hpath : b.img.path = 0 ∨ b.img.path = pathCode path) :
    imageData path data b = (.ok, takeBytes data (claimed path b)) := by
  have hmine : (loading b.img && b.img.path != 0 && b.img.path != pathCode path) = false := by
    rcases hpath with h | h <;> simp [h]
  unfold imageData
  dsimp only
  rw [hmine, if_neg Bool.false_ne_true, if_pos hopen]
  rfl

/-- The eight offsets of the data window are registers, and none is a counter (R129). -/
theorem dataWindow_regs : ∀ k : Fin 8, (regAt (0 + (0x60 + 4 * k.val))).isSome = true
    ∧ regAt (0 + (0x60 + 4 * k.val)) ≠ some .counter := by decide

theorem idnWrite_data (path : Path) (k : Fin 8) (data : Word) (b : Block) :
    idnWrite path (0x60 + 4 * k.val) data b = imageData path data b := by
  have hk := k.isLt
  unfold idnWrite
  repeat rw [if_neg (by omega)]
  rw [if_pos (by omega)]

/-- A word of an image over an open path. -/
theorem put_data {path : Path} {k : Fin 8} {data : Word} {st : Status} {t : Block} {s : State} (hw : takesWrites path s)
    (h : imageData path data s.blk = (st, t)) (h5 : 5 ≤ t.start.step) :
    put path 0 (0x60 + 4 * k.val) data s = answered path (0 + (0x60 + 4 * k.val)) st (s.upd t) := by
  have hk := k.isLt
  obtain ⟨hmap, hreg⟩ := dataWindow_regs k
  obtain ⟨-, -, -, -, hgood⟩ := id hw
  refine put_live hw (by omega) (by omega) (by omega) hmap (lockedReg_out _ (by omega)) ?_ h5
  rw [writeLive_idn hgood (by omega) hreg, idnWrite_data, h]
  rfl

end Window

/-! ### The end of the checks (R124) -/

section Verify
variable {b : Block}

/-- A failed load that is not the start's leaves the image in force. -/
theorem loadFail_notBoot (f : ImgFail) (h : b.img.target ≠ 0) : loadFail f b = { b with img := { b.img with
    state := .failed, failCheck := BitVec.ofNat 4 f.check, failSection := BitVec.ofNat 8 f.sec
    errOff := BitVec.ofNat 32 f.off } } := by
  have hboot : (b.img.target == 0) = false := beq_eq_false_iff_ne.mpr h
  simp only [loadFail, hboot, Bool.false_and, Bool.false_eq_true, if_false]

theorem verifyDone_fails {f : ImgFail} (hstate : b.img.state = .verifying)
    (h : imgCheck b (b.img.target == 2) b.img.data = some f) : verifyDone b = loadFail f b := by
  simp only [verifyDone, hstate, h, ne_eq, not_true_eq_false, if_false]

theorem verifyDone_passes (hstate : b.img.state = .verifying) (h : imgCheck b (b.img.target == 2) b.img.data = none) :
    verifyDone b = loadPass b := by
  simp only [verifyDone, hstate, h, ne_eq, not_true_eq_false, if_false]

theorem loadPass_stage (h : b.img.target = 1) :
    loadPass b = { b with img := { b.img with state := .done, staged := some b.img.data, stagedOk := true } } := by
  simp [loadPass, h]

theorem loadPass_live (h : b.img.target = 2) : loadPass b = { b with img := { b.img with
    state := .pendingCommit, liveWait := liveSections b.img.data, liveVer := hdrVersion b.img.data
    liveBuild := hdrBuild b.img.data, liveSome := false } } := by
  simp [loadPass, h]

theorem exec_imageVerifyDone {t : Block} {s : State} (h : verifyDone s.blk = t) : exec .imageVerifyDone s = .next (s.upd t) :=
  congrArg (fun x => Host.Outcome.next (s.upd x)) h

end Verify

/-! ### The commands of a load -/

section Commands
variable {path : Path} {s : State}

/-- A write of IDN_IMG_CTRL over an open path. -/
theorem put_imgCtrl {data : Word} {st : Status} {t : Block} (hw : takesWrites path s) (h : imgCtrl data s.blk = (st, t))
    (hstart : t.start = s.blk.start) : put path 0 0x40 data s = answered path (0 + 0x40) st (s.upd t) :=
  put_idn hw (by decide) (by decide) (by decide) (by decide) h hstart

theorem exec_imageLoadStart {g : BitVec 2} (hw : takesWrites path s) (hg : g ≠ 3) (hfree : loading s.blk.img = false)
    (hallowed : targetAllowed s.blk g.toNat = true) : exec (.imageLoadStart path g) s = .next (answered path (0 + 0x40) .ok
      (s.upd (setLive 0x40 (word [(1, 0), (g.toNat, 2)] &&& 0xC) (openLoad g.toNat s.blk)))) := by
  obtain ⟨hstart, habort, htarget⟩ := startWord_fields g
  have hg3 : g.toNat ≠ 3 := fun h => hg (BitVec.eq_of_toNat_eq h)
  have hctrl := imgCtrl_start (b := s.blk) hstart habort (by rwa [htarget]) hfree (by rwa [htarget])
  rw [htarget] at hctrl
  exact congrArg Host.Outcome.next (put_imgCtrl hw hctrl rfl)

theorem exec_imageLoadAbort {st : Status} {t : Block} (hw : takesWrites path s) (htarget : wfield (rw 0x40 s.blk) 3 2 ≠ 3)
    (h : imageAbort s.blk = (st, t)) (hst : st = .ok ∨ st = .tooLate) (hkept : t.start = s.blk.start) :
    exec (.imageLoadAbort path) s = .next (answered path (0 + 0x40) st
      (s.upd (setLive 0x40 ((2 ||| heldTarget s.blk) &&& 0xC) t))) := by
  obtain ⟨hstart, habort, hheld⟩ := abortWord_fields s.blk
  exact congrArg Host.Outcome.next (put_imgCtrl hw (imgCtrl_abort hstart habort (by rwa [hheld]) h hst) hkept)

theorem exec_imageDataWrite {k : Fin 8} {w : Word} (hw : takesWrites path s) (hopen : s.blk.img.state = .receiving)
    (hpath : s.blk.img.path = 0 ∨ s.blk.img.path = pathCode path) (hdata : 64 ≤ s.blk.img.data.length) :
    exec (.imageDataWrite path k w) s = .next (answered path (0 + (0x60 + 4 * k.val)) .ok (s.upd
      (if hdrLength (s.blk.img.data ++ bytesOf 4 w) ≤ s.blk.img.data.length + 4
       then beginVerify (appended w (claimed path s.blk)) else appended w (claimed path s.blk)))) := by
  have htake := imageData_takes w hopen hpath
  rw [takeBytes_pastHeader w (b := claimed path s.blk) hdata] at htake
  refine congrArg Host.Outcome.next (put_data hw htake ?_)
  have h5 : 5 ≤ (appended w (claimed path s.blk)).start.step := takesWrites_step hw
  split
  · exact beginVerify_step h5
  · exact h5

end Commands

end Sys2Proof.Machine

open Sys2Proof Sys2Proof.Machine

/-- Settles O10: a write of IDN_IMG_CTRL opens or discards the load (`exec_imageLoadStart`, `exec_imageLoadAbort`), the data window
appends to it (`exec_imageDataWrite`), and the checks end it or pass it on (`loadFail_notBoot`, `loadPass_stage`,
`loadPass_live`). -/
theorem imageLoads : Obligations.ImageLoads := by
  refine ⟨⟨fun path g s hw hg hfree hallowed => ?start, fun path k w s hw hopen hpath hdata => ?data,
    fun path s hw hopen hnone htarget hheld => ?abort, fun path s hw hlate hheld => ?late⟩,
    fun s hstate htarget => ⟨fun f hfail => ?fails, fun hpass hstage => ?staged, fun hpass hlive => ?live⟩⟩
  case start =>
    refine ⟨_, exec_imageLoadStart hw hg hfree hallowed, answered_resp, ?_⟩
    rw [answered_img, answered_start, answered_ports, answered_mem]
    exact ⟨rfl, (BitVec.ofNat_toNat 2 g).trans (BitVec.setWidth_eq g), rfl, rfl, rfl, rfl, rfl, rfl, rfl, rfl⟩
  case data =>
    refine ⟨_, exec_imageDataWrite hw hopen hpath hdata, answered_resp, ?_⟩
    have hcount : (s.blk.img.data ++ bytesOf 4 w).length = s.blk.img.data.length + 4 := by
      rw [List.length_append, bytesOf_length]
    rw [answered_img, answered_regs, answered_ports, answered_mem, State.upd_blk]
    split
    · rw [beginVerify_img, beginVerify_regs, beginVerify_ports]
      exact ⟨rfl, rfl, hcount, rfl, rfl, rfl, rfl⟩
    · exact ⟨rfl, rfl, hcount, hopen, rfl, rfl, rfl⟩
  case abort =>
    refine ⟨_, exec_imageLoadAbort hw hheld (imageAbort_discards hopen hnone) (.inl rfl) (by rw [dropLoad_notBoot htarget]),
      answered_resp, ?_⟩
    rw [answered_img, answered_start, answered_mem, State.upd_blk, setLive_img, setLive_start, dropLoad_notBoot htarget]
    exact ⟨rfl, rfl, rfl, rfl, rfl, rfl, rfl⟩
  case late =>
    refine ⟨_, exec_imageLoadAbort hw hheld (imageAbort_tooLate hlate) (.inr rfl) rfl, answered_resp, ?_⟩
    rw [answered_img, answered_mem]
    exact ⟨rfl, rfl⟩
  case fails => exact exec_imageVerifyDone ((verifyDone_fails hstate hfail).trans (loadFail_notBoot f htarget))
  case staged => exact exec_imageVerifyDone ((verifyDone_passes hstate hpass).trans (loadPass_stage hstage))
  case live =>
    exact ⟨_, exec_imageVerifyDone ((verifyDone_passes hstate hpass).trans (loadPass_live hlive)), rfl, rfl, rfl, rfl, rfl, rfl⟩

end

section
/-! SUPPORT. Bank machines (R137 to R139, R303, R304): what an event that a machine takes does to it, and a machine that stops on an
entry that is not valid. -/

namespace Sys2Proof.Machine

open Sys2Proof

/-! ### An event that a machine takes -/

/-- A bank after a transition (R137): the entry's next state, and the timer as the entry leaves it. -/
def transit (e : Word) (y : Bank) : Bank :=
  { y with state := entNext e, timed := if entStop e then false else if entTimer e ≠ 0 then true else y.timed }

/-- A bank whose timer has run down. -/
def timerEnded (y : Bank) : Bank := { y with timed := false }

section Takes
variable {c : ChanId} {k ev act : Nat} {s : State}

/-- The entry of an event depends on the state of its bank's machine alone, of all that a channel holds. -/
theorem bankEntry_modBank {f : Bank → Bank} (hstate : ∀ y, (f y).state = y.state) (b : Block) :
    bankEntry (modChan c (fun x => x.modBank k f) b) c.val k ev = bankEntry b c.val k ev := by
  unfold bankEntry
  simp only [cid_val, modChan_same, Chan.bank_modBank_same, hstate]
  rfl

theorem bankGuardOk_unguarded (b : Block) (c k : Nat) : bankGuardOk b c k 0 = true := rfl

/-- A transition (R139): the entry's action runs, and then the machine is in the entry's next state. -/
theorem bankEvent_takes (t : Sel) (h : bankTakes c k ev act s) :
    bankEvent c.val k ev t s = ((bankAct c.val k act t s).upd (modChan c
      (fun x => noteCmd k act (x.modBank k (transit (bankEntry s.blk c.val k ev)))) (bankAct c.val k act t s).blk), true) := by
  obtain ⟨hgoes, -, honline, hvalid, hguard, hfault, hact⟩ := h
  unfold bankEvent
  simp only [cid_val, hgoes, honline, hvalid, hguard, hfault, hact, bankGuardOk_unguarded, beq_iff_eq, Bool.false_or,
    Bool.and_eq_true, false_and, Bool.not_true, Bool.false_eq_true, if_false]
  rfl

/-- Action 0 with nothing selected leaves the channel (R303). -/
theorem bankAct_none (c k : Nat) (s : State) : bankAct c k 0 {} s = s :=
  congrArg s.upd (modChan_fixed rfl)

/-- Action 0 issues no command (R24). -/
theorem noteCmd_none (k : Nat) (x : Chan) : noteCmd k 0 x = x := if_pos rfl

/-- A machine that held nothing has nothing to examine again after its transition (R139). -/
theorem fire_noneHeld {t : Sel} {u : State} (h : bankEvent c.val k ev t s = (u, true))
    (hheld : (u.blk.chans[c].bank k).heldEv = []) : fire c.val k ev t s = (u, true) := by
  unfold fire
  simp only [h, cid_val, hheld, if_true]
  rfl

theorem fire_notTaken {t : Sel} {u : State} (h : bankEvent c.val k ev t s = (u, false)) : fire c.val k ev t s = (u, false) := by
  unfold fire
  rw [h]
  rfl

end Takes

/-! ### The end of a bank's timer -/

section Timer
variable {c : ChanId} {k : Nat} {s : State}

/-- The stack as the timer of a bank runs down, before the machine takes event 31. -/
def ranDown (c : ChanId) (k : Nat) (s : State) : State := s.upd (modChan c (fun x => x.modBank k timerEnded) s.blk)

theorem bankTimer_timed (h : (s.blk.chans[c].bank k).timed = true) :
    bankTimer c.val k s = (fire c.val k 31 {} (ranDown c k s)).1 := by
  unfold bankTimer
  simp only [cid_val, h, Bool.not_true, Bool.false_eq_true, if_false]
  rfl

theorem ranDown_chan (c : ChanId) (k : Nat) (s : State) : (ranDown c k s).blk.chans[c] = s.blk.chans[c].modBank k timerEnded :=
  modChan_same _ _ _

theorem ranDown_bank (c : ChanId) (k : Nat) (s : State) :
    (ranDown c k s).blk.chans[c].bank k = timerEnded (s.blk.chans[c].bank k) := by
  rw [ranDown_chan, Chan.bank_modBank_same]

theorem bankEntry_ranDown (c : ChanId) (k ev : Nat) (s : State) :
    bankEntry (ranDown c k s).blk c.val k ev = bankEntry s.blk c.val k ev :=
  bankEntry_modBank (f := timerEnded) (fun _ => rfl) s.blk

theorem bankTakes_ranDown {ev act : Nat} (h : bankTakes c k ev act s) : bankTakes c k ev act (ranDown c k s) := by
  unfold bankTakes
  rw [bankEntry_ranDown, ranDown_bank, ranDown_chan]
  exact h

/-- Event 31 with an entry of no action: the machine makes its transition, and nothing else changes (R303). -/
theorem bankTimer_takes (htimed : (s.blk.chans[c].bank k).timed = true) (h : bankTakes c k 31 0 s) :
    bankTimer c.val k s
      = s.upd (modChan c (fun x => (x.modBank k timerEnded).modBank k (transit (bankEntry s.blk c.val k 31))) s.blk) := by
  obtain ⟨-, hheld, -⟩ := id h
  have hevent := bankEvent_takes {} (bankTakes_ranDown h)
  simp only [bankAct_none, bankEntry_ranDown, noteCmd_none] at hevent
  rw [bankTimer_timed htimed, fire_noneHeld hevent]
  · exact congrArg s.upd (modChan_modChan (fun x => x.modBank k (transit (bankEntry s.blk c.val k 31))) _)
  · rw [State.upd_blk, modChan_same, Chan.bank_modBank_same, ranDown_bank]
    exact hheld

end Timer

/-! ### An entry that is not valid -/

section Invalid
variable {c : ChanId} {k ev : Nat} {s : State} {b t : Block}

theorem quietly_chans (h : quietly b t) : t.chans = b.chans := by rw [h.1]

theorem quietly_rcGet (h : quietly b t) (a : Nat) : rcGet a t = rcGet a b := by
  unfold rcGet
  rw [h.1]

/-- An entry that is not valid is FS_CHN_TABLE (R304). -/
theorem bankEvent_invalid (t : Sel) (hgoes : (s.blk.chans[c].bank k).stopped = false) (honline : s.blk.chans[c].st ≠ .offline)
    (hinvalid : entValid (bankEntry s.blk c.val k ev) = false) :
    bankEvent c.val k ev t s = (s.upd (tableFault c.val k s.blk), false) := by
  unfold bankEvent
  simp [cid_val, hgoes, honline, hinvalid, -Fin.getElem_fin]

/-- A bank that issues no further command until its fault is cleared (R304). -/
def stopBank (y : Bank) : Bank := { y with stopped := true }

/-- FS_CHN_TABLE, while its reaction takes no unit out of service: the bank stops, and CHN_SCH_EVT shows it (R304, R320). -/
theorem tableFault_quiet (c : ChanId) (k : Nat) (h : reactionOf b (fs .chnTable) ≤ 2) :
    quietly (modChan c (fun x => x.modBank k stopBank) (rcSet (chnBase c.val + 0x20) 2 b)) (tableFault c.val k b) := by
  unfold tableFault
  rw [cid_val]
  exact raise_quiet _ _ _ h

theorem tableFault_stops (h : reactionOf b (fs .chnTable) ≤ 2) :
    (tableFault c.val k b).chans[c].bank k = stopBank (b.chans[c].bank k) := by
  rw [quietly_chans (tableFault_quiet c k h), modChan_same, Chan.bank_modBank_same]
  rfl

theorem tableFault_other {d : ChanId} (h : reactionOf b (fs .chnTable) ≤ 2) (hd : d ≠ c) :
    (tableFault c.val k b).chans[d] = b.chans[d] := by
  rw [quietly_chans (tableFault_quiet c k h), modChan_other _ _ hd]
  rfl

theorem tableFault_shown (h : reactionOf b (fs .chnTable) ≤ 2) :
    (rcGet (chnBase c.val + 0x20) (tableFault c.val k b)).getLsbD 2 = true := by
  rw [quietly_rcGet (tableFault_quiet c k h)]
  change (rcGet (chnBase c.val + 0x20) (rcSet (chnBase c.val + 0x20) 2 b)).getLsbD 2 = true
  rw [rcGet_rcSet_same, bset_getLsbD_same _ (by decide)]

/-- The end of a timer for which the machine's table holds no valid entry. -/
theorem bankTimer_invalid (htimed : (s.blk.chans[c].bank k).timed = true)
    (hgoes : (s.blk.chans[c].bank k).stopped = false) (honline : s.blk.chans[c].st ≠ .offline)
    (hinvalid : entValid (bankEntry s.blk c.val k 31) = false) :
    bankTimer c.val k s = s.upd (tableFault c.val k (ranDown c k s).blk) := by
  have hevent := bankEvent_invalid (s := ranDown c k s) {} (by rw [ranDown_bank]; exact hgoes)
    (by rw [ranDown_chan]; exact honline) (by rw [bankEntry_ranDown]; exact hinvalid)
  rw [bankTimer_timed htimed, fire_notTaken hevent]
  rfl

end Invalid

end Sys2Proof.Machine

open Sys2Proof Sys2Proof.Machine

/-- Settles O29: a taken event 31 is the machine's transition and no more (`bankTimer_takes`); an entry that is not valid is
FS_CHN_TABLE, which stops the bank (`bankTimer_invalid`, `tableFault_quiet`). -/
theorem bankMachines : Obligations.BankMachines := by
  refine fun c k s htimed => ⟨fun htakes hnoTimer => ?taken, fun hgoes honline hinvalid hreact => ?stopped⟩
  case taken =>
    refine ⟨_, congrArg Host.Outcome.next (bankTimer_takes htimed htakes), ⟨rfl, fun d hd => modChan_other _ _ hd, rfl, rfl⟩, ?_⟩
    rw [State.upd_blk, modChan_same, Chan.bank_modBank_same, Chan.bank_modBank_same]
    refine ⟨rfl, ?_, rfl, rfl, rfl⟩
    simp [transit, timerEnded, hnoTimer]
  case stopped =>
    have hreact' : reactionOf (ranDown c k.val s).blk (fs .chnTable) ≤ 2 := hreact
    refine ⟨_, congrArg Host.Outcome.next (bankTimer_invalid htimed hgoes honline hinvalid), rfl, ?_, tableFault_shown hreact',
      fun d hd => (tableFault_other hreact' hd).trans (modChan_other _ _ hd)⟩
    rw [State.upd_blk, tableFault_stops hreact']
    rfl

end

section
/-! SUPPORT. The lanes of a port: one lane changed, marks of failed lanes, and what DETECT senses, with a termination that takes
its factory trim (R156, R446). -/

namespace Sys2Proof.Machine

open Sys2Proof

variable {b t : Block} {p : PortId}

/-- A command that changes the block alone answers by what the block becomes. -/
theorem next_upd_congr {s : State} (h : b = t) : (Host.Outcome.next (s.upd b) : Res) = .next (s.upd t) := by rw [h]

/-! ### One lane changed, and marks of lanes -/

@[simp] theorem modLane_same (i : Fin 21) (f : Lane → Lane) (x : Port) : (modLane i f x).lanes[i] = f x.lanes[i] := by
  simp [modLane]

theorem modLane_other {i j : Fin 21} (f : Lane → Lane) (x : Port) (h : j ≠ i) : (modLane i f x).lanes[j] = x.lanes[j] := by
  simp only [modLane, Fin.getElem_fin]
  exact Vector.getElem_set_ne _ _ fun e => h (Fin.ext e.symm)

theorem bset_getLsbD_iff {w : Nat} (x : BitVec w) (i j : Fin w) :
    (bset x i.val).getLsbD j.val = true ↔ x.getLsbD j.val = true ∨ i = j := by
  rw [bset, BitVec.getLsbD_or, BitVec.getLsbD_ofNat, Nat.one_shiftLeft, Nat.testBit_two_pow]
  simp [Fin.ext_iff]

/-! ### A raise that takes no unit out of service -/

theorem react_safe {src : Nat} (unit : Nat) (detail : Word) (own : List OwnEv) (inj : Bool) (h : reactionOf b src ≤ 2) :
    (react src unit detail own inj b).sage.safe = b.sage.safe := by
  have hnoted : (noteRef src b).sage.safe = b.sage.safe := by unfold noteRef; split <;> rfl
  have hreported : (reportReact src detail own inj (noteRef src b)).sage.safe = b.sage.safe := by
    unfold reportReact
    split
    · rw [report_sage, hnoted]
    · exact hnoted
  have h3 : reactionOf b src ≠ 3 := by omega
  have h4 : reactionOf b src ≠ 4 := by omega
  unfold react
  dsimp only
  rw [if_neg h3, if_neg h4]
  repeat' split
  exacts [rfl, hreported, hreported, hreported]

/-- A raise up to ALERT does not bring the safe state (R460). -/
theorem raise_safe {src : Nat} (unit : Nat) (detail : Word) (own : List OwnEv) (h : reactionOf b src ≤ 2) :
    (raise src unit detail own b).sage.safe = b.sage.safe := by
  obtain ⟨-, hreact, hsafe, -⟩ := record_quiet src unit detail b
  unfold raise
  generalize record src unit detail b = x at hreact hsafe
  obtain ⟨c, new⟩ := x
  cases new
  · dsimp only
    split
    · have hamend : ∀ (f : BitVec 128 → Bool) g (c : Block), (amendEvents f g c).sage = c.sage := fun _ _ _ => rfl
      rw [amendRaise, foldl_keep Block.sage _ (fun _ _ => hamend _ _ _), hamend]
      exact hsafe
    · exact hsafe
  · exact (react_safe unit detail own false (by rw [reactionOf_congr hreact]; exact h)).trans hsafe

/-! ### A termination on its factory trim (R446) -/

/-- The calibration of a port's termination, which takes its factory trim when it fails: what that leaves, and its mark. -/
structure TermSensed (p : PortId) (calFail : Bool) (b t : Block) : Prop where
  chans : t.chans = b.chans
  start : t.start = b.start
  clk : t.clk = b.clk
  thm : t.thm = b.thm
  safe : t.sage.safe = b.sage.safe
  ports : ∀ q : PortId, samePort b.ports[q] t.ports[q]
  marked : calFail = true → t.cal.degTerm.getLsbD p.val = true
  calibrated : calFail = false → t = b

theorem degradeTerm_marks (h : reactionOf b (fs .calDegrade) ≤ 2) : TermSensed p true b (degradeTerm p b) := by
  unfold degradeTerm
  split
  case isTrue hmarked => exact ⟨rfl, rfl, rfl, rfl, rfl, fun _ => rfl, fun _ => hmarked, nofun⟩
  case isFalse =>
    let c : Block := { b with cal := { b.cal with degTerm := bset b.cal.degTerm p.val } }
    have hshown : ∃ r, (if reports (fs .calDegrade) c then rcSet (calBase + 0xC) 0 c else c) = { c with regs := r } := by
      split <;> exact ⟨_, rfl⟩
    obtain ⟨r, hr⟩ := hshown
    unfold degradeEvent
    dsimp only
    rw [hr]
    obtain ⟨heq, hports⟩ := raise_quiet (b := { c with regs := r }) 0x58 (word [(1, 0), (p.val, 8)])
      [{ mask := allMask, ev := { code := 0x0F01, lo := word [(1, 0), (p.val, 8)] } }] h
    refine ⟨?_, ?_, ?_, ?_, raise_safe _ _ _ h, hports, fun _ => ?_, nofun⟩ <;> rw [heq]
    exact bset_getLsbD_same _ p.isLt

/-- The rate of a port is that of its quadrant's operating point and of what holds the boot rate (R147). -/
theorem portRate_congr (hstart : t.start = b.start) (hclk : t.clk = b.clk) (hthm : t.thm = b.thm)
    (hsafe : t.sage.safe = b.sage.safe) : portRate p t = portRate p b := by
  unfold portRate linkOnRef bootRate
  rw [hstart, hclk, hthm, hsafe]

theorem linkReady_congr (hclk : t.clk = b.clk) : linkReady p t = linkReady p b := by rw [linkReady, hclk]; rfl

/-! ### DETECT (R156) -/

/-- The state in which DETECT senses: a termination that cannot be calibrated has its factory trim. -/
def termSensed (p : PortId) (calFail : Bool) (b : Block) : Block := if calFail then degradeTerm p b else b

theorem termSensed_spec {calFail : Bool} (h : calFail = true → reactionOf b (fs .calDegrade) ≤ 2) :
    TermSensed p calFail b (termSensed p calFail b) := by
  cases calFail
  · exact ⟨rfl, rfl, rfl, rfl, rfl, fun _ => rfl, nofun, fun _ => rfl⟩
  · exact degradeTerm_marks (h rfl)

theorem senseDetect_stays {term : BitVec 21} (h : ones term < 10 ∨ linkReady p b = false) : senseDetect p term b = b := by
  rcases h with h | h <;> simp [senseDetect, h]

/-- The lanes without termination are failed, and the port trains. -/
def startTraining (rate : Nat) (term : BitVec 21) (x : Port) : Port := portTrain rate { x with failTx := x.failTx ||| ~~~term }

theorem senseDetect_trains {term : BitVec 21} (hst : b.ports[p].st = .detect) (hones : 10 ≤ ones term)
    (hready : linkReady p b = true) : senseDetect p term b = modPort p (startTraining (portRate p b) term) b :=
  if_neg (by rw [hst, hready, decide_eq_false (Nat.not_lt.mpr hones)]; decide)

theorem exec_linkDetectSense {s : State} (term : BitVec 21) (calFail : Bool) (hst : s.blk.ports[p].st = .detect) :
    exec (.linkDetectSense p term calFail) s = .next (s.upd (senseDetect p term (termSensed p calFail s.blk))) :=
  next_upd_congr (if_neg (by rw [hst]; decide))

end Sys2Proof.Machine

open Sys2Proof Sys2Proof.Machine

/-- Settles O14: a termination on its factory trim leaves the ports and the rate (`termSensed_spec`), and then the port stays
(`senseDetect_stays`) or trains (`senseDetect_trains`). -/
theorem detectSensesLanes : Obligations.DetectSensesLanes := by
  intro p term calFail s hst hcal rest
  have hsensed := termSensed_spec (p := p) hcal
  have hsense := exec_linkDetectSense term calFail hst
  generalize termSensed p calFail s.blk = b at hsensed hsense
  have hport := hsensed.ports p
  have hready := linkReady_congr (p := p) hsensed.clk
  have hrest : ∀ f, rest (s.upd (modPort p f b)) := fun f => by
    refine ⟨rfl, rfl, hsensed.chans, fun q hq => ?_, fun hc => ?_, hsensed.marked⟩
    · rw [State.upd_blk, modPort_other _ _ hq]
      exact hsensed.ports q
    · rw [hsensed.calibrated hc]
      exact onlyPort_modPort p f s
  refine ⟨fun hfew => ?stays, fun hones hlink => ?trains⟩
  case stays =>
    rw [senseDetect_stays (by rwa [hready])] at hsense
    refine ⟨_, hsense, ?_, ?_, hport⟩
    · rw [← modPort_fixed (p := p) (f := id) (b := b) rfl]
      exact hrest id
    · rw [State.upd_blk, hport, hst]
  case trains =>
    rw [senseDetect_trains (by rw [hport, hst]) hones (by rwa [hready]),
      portRate_congr hsensed.start hsensed.clk hsensed.thm hsensed.safe] at hsense
    refine ⟨_, hsense, hrest _, ?_⟩
    rw [State.upd_blk, modPort_same, hport]
    refine ⟨rfl, rfl, fun i hi => ?_, rfl, rfl, fun i => ?_⟩
    · simp [startTraining, portTrain, freshExchange, hi]
    · simp [startTraining, portTrain, freshExchange, untrainLane]
end

section
/-! SUPPORT. TRAIN and LOCK (R153, R157, R158): what ends TRAIN and what it leaves, what a TRAIN block and a measured lane do to
their lane, and the MARKER blocks of a lane while another has not locked. -/

namespace Sys2Proof.Machine

open Sys2Proof

variable {b : Block} {p : PortId} {s : State} {x : Port}

/-! ### The end of TRAIN (R157) -/

/-- LOCK after TRAIN, with the settings of every lane stored for the rate. -/
def trainDone (x : Port) : Port :=
  { x with st := .lock, stored := sadd x.rate.toNat x.stored, lanes := (x.lanes.map (saveTaps x.rate.toNat)).map unlockLane }

/-- TRAIN goes on until every unfailed lane is equalized in both directions. -/
def trainChecked (x : Port) : Port := if allEqualized x then trainDone x else x

theorem training_train (h : x.st = .train) : x.training = true := by
  rw [Port.training, h]
  rfl

theorem checkTrain_enough (hst : b.ports[p].st = .train) (hrx : 10 ≤ goodLanes b.ports[p].failRx)
    (htx : 10 ≤ goodLanes b.ports[p].failTx) : checkTrain p b = modPort p trainChecked b := by
  have henough : ¬ ((b.ports[p].st == .train || b.ports[p].recFull)
      && (decide (goodLanes b.ports[p].failRx < 10) || decide (goodLanes b.ports[p].failTx < 10))) = true := by
    rw [decide_eq_false (Nat.not_lt.mpr hrx), decide_eq_false (Nat.not_lt.mpr htx), Bool.or_self, Bool.and_false]
    decide
  refine (if_neg (by rw [training_train hst]; decide)).trans ((if_neg henough).trans ?_)
  by_cases hall : allEqualized b.ports[p] = true
  · refine (if_neg (by rw [hall]; decide)).trans (modPort_congr ?_)
    rw [trainChecked, if_pos hall, hst]
    rfl
  · exact (if_pos (by simpa using hall)).trans (modPort_fixed (if_neg hall)).symm

theorem checkTrain_few (hst : b.ports[p].st = .train) (hrx : goodLanes b.ports[p].failRx < 10) :
    checkTrain p b = modPort p portDetect b := by
  refine (if_neg (by rw [training_train hst]; decide)).trans ((if_pos ?_).trans (if_pos (by rw [hst]; decide)))
  rw [decide_eq_true hrx, hst]
  rfl

theorem trainChecked_keep {α : Type} (g : Port → α) (hg : ∀ x st stored lanes, g { x with st, stored, lanes } = g x)
    (x : Port) : g (trainChecked x) = g x := by
  unfold trainChecked
  split
  · exact hg ..
  · rfl

/-- The end of TRAIN touches what a lane stores and its run of MARKER blocks alone. -/
theorem trainChecked_lane (x : Port) (j : Fin 21) :
    ∃ saved run next arrival, (trainChecked x).lanes[j] = { x.lanes[j] with saved, run, next, arrival } := by
  unfold trainChecked
  split
  · exact ⟨_, _, _, _, by simp only [trainDone, Fin.getElem_fin, Vector.getElem_map]; rfl⟩
  · exact ⟨_, _, _, _, rfl⟩

theorem allEqualized_iff : allEqualized x = true ↔ ∀ j : Fin 21,
    (x.failRx.getLsbD j.val = true ∨ x.lanes[j].eqDone = true)
    ∧ (x.failTx.getLsbD j.val = true ∨ x.lanes[j].farEq = true) := by
  simp [allEqualized]

theorem allEqualized_trainChecked (x : Port) : allEqualized (trainChecked x) = allEqualized x := by
  unfold trainChecked
  split
  · simp [allEqualized, trainDone, unlockLane, saveTaps]
  · rfl

theorem trainChecked_st (h : x.st = .train) : (trainChecked x).st = if allEqualized x then .lock else .train := by
  unfold trainChecked
  split
  · rfl
  · exact h

/-- What TRAIN keeps and LOCK begins with (R153, R157). -/
def Trained (p : PortId) (s t : State) : Prop :=
  onlyPort p s t ∧ (t.blk.ports[p].st = .train ∨ t.blk.ports[p].st = .lock)
    ∧ (t.blk.ports[p].st = .lock ↔ ∀ j : Fin 21,
        (t.blk.ports[p].failRx.getLsbD j.val = true ∨ t.blk.ports[p].lanes[j].eqDone = true)
        ∧ (t.blk.ports[p].failTx.getLsbD j.val = true ∨ t.blk.ports[p].lanes[j].farEq = true))
    ∧ t.blk.ports[p].failTx = s.blk.ports[p].failTx
    ∧ (t.blk.ports[p].st = .lock → s.blk.ports[p].rate.toNat ∈ t.blk.ports[p].stored
        ∧ ∀ j : Fin 21, t.blk.ports[p].lanes[j].saved.head?
          = some (s.blk.ports[p].rate.toNat, t.blk.ports[p].lanes[j].preset, t.blk.ports[p].lanes[j].pre,
            t.blk.ports[p].lanes[j].post))

/-- One port in TRAIN takes a change, which may end TRAIN. -/
def trainOn (p : PortId) (f : Port → Port) (s : State) : State := s.upd (modPort p (fun x => trainChecked (f x)) s.blk)

theorem trainOn_failRx (p : PortId) (f : Port → Port) (s : State) :
    (trainOn p f s).blk.ports[p].failRx = (f s.blk.ports[p]).failRx := by
  rw [trainOn, State.upd_blk, modPort_same]
  exact trainChecked_keep Port.failRx (fun _ _ _ _ => rfl) _

theorem trainOn_lane (p : PortId) (f : Port → Port) (s : State) (j : Fin 21) : ∃ saved run next arrival,
    (trainOn p f s).blk.ports[p].lanes[j] = { (f s.blk.ports[p]).lanes[j] with saved, run, next, arrival } := by
  rw [trainOn, State.upd_blk, modPort_same]
  exact trainChecked_lane _ j

theorem trainOn_trained {f : Port → Port} (hst : (f s.blk.ports[p]).st = .train)
    (htx : (f s.blk.ports[p]).failTx = s.blk.ports[p].failTx) (hrate : (f s.blk.ports[p]).rate = s.blk.ports[p].rate) :
    Trained p s (trainOn p f s) := by
  unfold Trained trainOn
  rw [State.upd_blk, modPort_same, ← htx, ← hrate]
  generalize f s.blk.ports[p] = y at hst
  refine ⟨onlyPort_modPort _ _ _, ?_, ?_, trainChecked_keep Port.failTx (fun _ _ _ _ => rfl) y, fun hlock => ?_⟩
  · rw [trainChecked_st hst]
    split
    · exact .inr rfl
    · exact .inl rfl
  · rw [trainChecked_st hst, ← allEqualized_iff, allEqualized_trainChecked]
    split <;> simp [*]
  · have hall : allEqualized y = true := by
      by_contra hnot
      rw [trainChecked_st hst, if_neg hnot] at hlock
      cases hlock
    rw [trainChecked, if_pos hall]
    exact ⟨mem_sadd.mpr (.inl rfl), fun j => by simp [trainDone, unlockLane, saveTaps]⟩

theorem checkTrain_modPort {f : Port → Port} (hst : (f b.ports[p]).st = .train) (hrx : 10 ≤ goodLanes (f b.ports[p]).failRx)
    (htx : 10 ≤ goodLanes (f b.ports[p]).failTx) :
    checkTrain p (modPort p f b) = modPort p (fun x => trainChecked (f x)) b := by
  rw [checkTrain_enough (by rwa [modPort_same]) (by rwa [modPort_same]) (by rwa [modPort_same]), modPort_modPort]

/-! ### TRAIN blocks and measured lanes (R153, R157) -/

/-- A TRAIN block that reports no failed receiver is its lane's requests. -/
theorem trainBlock_takes {k : BitVec 144} (hst : b.ports[p].st = .train) (hblock : blockIs 1 k = true)
    (hlane : blockLane k ≤ 20) (hfar : byteOf k 8 / 2 % 2 = 0) :
    trainBlock p k b = checkTrain p (modPort p (modLane (laneIx (laneMap b p true (blockLane k))) (takeTrain k)) b) := by
  refine (if_neg ?_).trans (congrArg (checkTrain p) (modPort_congr (if_neg ?_)))
  · rw [training_train hst, hblock, decide_eq_false (Nat.not_lt.mpr hlane)]
    decide
  · rw [modLane_same]
    simp [takeTrain, hfar]

/-- Without coefficient steps a lane's taps are those of a new preset, or hold (R153). -/
theorem takeTrain_taps {k : BitVec 144} (hsteps : byteOf k 7 % 16 = 0) (l : Lane) :
    ((takeTrain k l).pre, (takeTrain k l).post)
      = if byteOf k 6 % 16 ≠ l.preset ∧ byteOf k 6 % 16 ≤ 9 then presetTaps (byteOf k 6 % 16) else (l.pre, l.post) := by
  have hpre : byteOf k 7 % 4 = 0 := by omega
  have hpost : byteOf k 7 / 4 % 4 = 0 := by omega
  simp [takeTrain, tapStep, hpre, hpost]

/-- What a receiver asks for is all that it changes; an equalized one asks to hold (R152). -/
theorem askAgain_eq (p : PortId) (now : Nat) (q : LaneQ) (l : Lane) : ∃ askPreset askPre askPost,
    askAgain p now q l = { l with askPreset, askPre, askPost } ∧ (l.eqDone = true → askPre = 0 ∧ askPost = 0) := by
  unfold askAgain
  split
  · exact ⟨_, _, _, rfl, fun _ => ⟨rfl, rfl⟩⟩
  case isFalse hopen => exact ⟨_, _, _, rfl, fun hdone => absurd hdone hopen⟩

/-- A lane with its measured quality, equalized where that is enough (R157). -/
def measured (q : LaneQ) (l : Lane) : Lane :=
  { l with
    residual := q.residual, height := q.height, width := q.width
    eqDone := l.eqDone || decide (77 ≤ q.width.toNat ∧ 12 ≤ q.height.toNat) }

/-- A lane measured in training. -/
def equalized (p : PortId) (now : Nat) (q : LaneQ) (l : Lane) : Lane := askAgain p now q (measured q l)

theorem laneEqualized_training {q : LaneQ} (hst : b.ports[p].st = .train) :
    laneEqualized p q b = checkTrain p (modPort p (modLane q.lane (equalized p b.now q)) b) := by
  refine (if_neg (by rw [training_train hst]; decide)).trans (congrArg (checkTrain p) (modPort_congr ?_))
  simp [modLane, noteQuality, equalized, measured, Bool.decide_and]

/-- A lane that is not equalized in time. -/
def gaveUp (i : Fin 21) (x : Port) : Port :=
  { modLane i (fun l => { l with laneFail := true }) x with failRx := bset x.failRx i.val }

theorem gaveUp_laneFail (i : Fin 21) (x : Port) : (gaveUp i x).lanes[i].laneFail = true :=
  congrArg Lane.laneFail (modLane_same i (fun l => { l with laneFail := true }) x)

theorem laneTimeout_training {i : Fin 21} (hst : b.ports[p].st = .train) (heq : b.ports[p].lanes[i].eqDone = false) :
    laneTimeout p i b = checkTrain p (modPort p (gaveUp i) b) :=
  if_neg (by rw [training_train hst, heq]; decide)

/-! ### MARKER blocks (R158) -/

/-- An unfailed lane that has not locked holds the port in LOCK. -/
theorem lockedArrivals_none {j : Fin 21} (hgood : x.failRx.getLsbD j.val = false) (hlane : x.lanes[j].arrival = none) :
    lockedArrivals x = none := by
  have hmem : j ∈ (List.finRange 21).filter fun i => !x.failRx.getLsbD i.val :=
    List.mem_filter.mpr ⟨List.mem_finRange j, by rw [hgood]; rfl⟩
  unfold lockedArrivals
  generalize (List.finRange 21).filter (fun i => !x.failRx.getLsbD i.val) = l at hmem
  induction l with
  | nil => cases hmem
  | cons i l ih =>
    rw [List.mapM_cons]
    rcases List.mem_cons.mp hmem with rfl | hmem
    · rw [hlane]
      rfl
    · rw [ih hmem]
      cases (x.lanes[i].arrival.map fun a => (i, a)) <;> rfl

theorem markerBlock_takes {k : BitVec 144} {at_ : Nat} {far : Bool} {j : Fin 21} (hst : b.ports[p].st = .lock)
    (hblock : blockIs 2 k = true) (hlane : blockLane k ≤ 20) (hj : j ≠ laneIx (laneMap b p false (blockLane k)))
    (hgood : b.ports[p].failRx.getLsbD j.val = false) (hopen : b.ports[p].lanes[j].arrival = none) :
    markerBlock p k at_ far b = modPort p (modLane (laneIx (laneMap b p false (blockLane k)))
      (takeMarker (byteOf k 6 + 256 * byteOf k 7) at_)) b := by
  have hlocking : b.ports[p].locking = true := by
    rw [Port.locking, hst]
    rfl
  have hnone : lockedArrivals (modPort p (modLane (laneIx (laneMap b p false (blockLane k)))
      (takeMarker (byteOf k 6 + 256 * byteOf k 7) at_)) b).ports[p] = none := by
    rw [modPort_same]
    exact lockedArrivals_none hgood (by rw [modLane_other _ _ hj, hopen])
  refine (if_neg ?_).trans ?_
  · rw [hlocking, hblock, decide_eq_false (Nat.not_lt.mpr hlane)]
    decide
  · dsimp only
    rw [hnone]

theorem takeMarker_arrival (count at_ : Nat) (l : Lane) :
    (takeMarker count at_ l).arrival.isSome = true ↔ (takeMarker count at_ l).run = 8 := by
  unfold takeMarker
  extract_lets inRow run
  change Option.isSome (if run = 8 then _ else _) = true ↔ run = 8
  split <;> simp [*]

/-- The block that follows the last by 16 blocks with the next count adds to the run of its lane. -/
theorem takeMarker_run (count at_ : Nat) (l : Lane) : (takeMarker count at_ l).run
    = if 0 < l.run ∧ count = l.next ∧ at_ = l.lastAt + 16 * 144 then min 8 (l.run + 1) else 1 := by
  simp [takeMarker, and_assoc]

end Sys2Proof.Machine

open Sys2Proof Sys2Proof.Machine

/-- Settles O15: each of the commands in TRAIN is one change of its lane, after which TRAIN may have ended (`trainOn_trained`);
in LOCK a MARKER block changes its lane alone (`markerBlock_takes`). -/
theorem trainAndLock : Obligations.TrainAndLock := by
  refine ⟨?train, ?lock⟩
  case train =>
    intro p s hst hrx htx x trained
    refine ⟨?block, fun q => ?measured, fun i heq hgood => ?late, fun i heq hfew => ?few⟩
    case block =>
      intro k hblock hlane hfar hsteps i
      have hstep := (trainBlock_takes hst hblock hlane hfar).trans (checkTrain_modPort hst hrx htx)
      refine ⟨trainOn p _ s, next_upd_congr hstep, trainOn_trained hst rfl rfl, trainOn_failRx _ _ _, ?_⟩
      obtain ⟨_, _, _, _, hkept⟩ := trainOn_lane p (modLane i (takeTrain k)) s i
      rw [hkept, modLane_same]
      exact ⟨rfl, rfl, takeTrain_taps hsteps _⟩
    case measured =>
      have hstep := (laneEqualized_training (q := q) hst).trans (checkTrain_modPort hst hrx htx)
      refine ⟨trainOn p _ s, next_upd_congr hstep, trainOn_trained hst rfl rfl, trainOn_failRx _ _ _, ?_⟩
      obtain ⟨_, _, _, _, hkept⟩ := trainOn_lane p (modLane q.lane (equalized p s.blk.now q)) s q.lane
      obtain ⟨_, _, _, hasks, hholds⟩ := askAgain_eq p s.blk.now q (measured q x.lanes[q.lane])
      rw [hkept, modLane_same, equalized, hasks]
      exact ⟨rfl, rfl, rfl, rfl, hholds⟩
    case late =>
      have hstep := (laneTimeout_training hst heq).trans (checkTrain_modPort hst hgood htx)
      refine ⟨trainOn p _ s, next_upd_congr hstep, trainOn_trained hst rfl rfl, trainOn_failRx _ _ _, ?_⟩
      obtain ⟨_, _, _, _, hkept⟩ := trainOn_lane p (gaveUp i) s i
      rw [hkept]
      exact gaveUp_laneFail i x
    case few =>
      have hfail : (modPort p (gaveUp i) s.blk).ports[p] = gaveUp i x := modPort_same ..
      have hstep := (laneTimeout_training hst heq).trans
        (checkTrain_few (by rw [hfail]; exact hst) (by rw [hfail]; exact hfew))
      rw [modPort_modPort] at hstep
      refine ⟨_, next_upd_congr hstep, onlyPort_modPort _ _ _, ?_⟩
      rw [State.upd_blk, modPort_same]
      exact ⟨rfl, rfl⟩
  case lock =>
    intro p k at_ far j s hst hblock hlane i x count hj hgood hopen
    refine ⟨_, next_upd_congr (markerBlock_takes hst hblock hlane hj hgood hopen), onlyPort_modPort _ _ _, ?_⟩
    rw [State.upd_blk, modPort_same, modLane_same]
    exact ⟨hst, rfl, fun _ h => modLane_other _ _ h, takeMarker_run _ _ _, rfl, takeMarker_arrival _ _ _⟩
end

section
/-! SUPPORT. EXCHANGE (R154, R159, R161): an EXCH block while the exchange goes on, and the one that ends it for a port that
keeps its width and takes no spare. -/

namespace Sys2Proof.Machine

open Sys2Proof

variable {b : Block} {p : PortId} {k : BitVec 144} {sent : Nat}

theorem exchanging_exchange {x : Port} (h : x.st = .exchange) : x.exchanging = true := by
  rw [Port.exchanging, h]
  rfl

/-- The spare field is the low five bits of its byte (R154). -/
theorem takeExch_farSpare (h : byteOf k 7 % 32 = 31) (x : Port) : (takeExch k x).farSpare = 31 := by
  refine BitVec.eq_of_toNat_eq ?_
  change (BitVec.ofNat 5 (byteOf k 7)).toNat = 31
  rw [BitVec.toNat_ofNat, h]

/-- An exchange that lacks something takes the block and goes on. -/
theorem exchBlock_goesOn (hst : b.ports[p].st = .exchange) (hblock : blockIs 3 k = true)
    (hlacks : sent < 16 ∨ b.ports[p].exAcked + byteOf k 7 / 128 < 4 ∨ exchOk k = false ∨ linkReady p b = false) :
    exchBlock p k sent b = modPort p (takeExch k) b := by
  refine (if_neg (by rw [exchanging_exchange hst, hblock]; decide)).trans (if_neg ?_)
  rw [modPort_same]
  have hready : linkReady p (modPort p (takeExch k) b) = linkReady p b := rfl
  rw [hready]
  rcases hlacks with h | h | h | h
  all_goals simp [takeExch, h, Nat.not_le.mpr, -Fin.getElem_fin]

/-- The block that ends an exchange, with the ack of the stack's own. -/
theorem exchBlock_ends (hst : b.ports[p].st = .exchange) (hblock : blockIs 3 k = true) (hsent : 16 ≤ sent)
    (hacked : 4 ≤ b.ports[p].exAcked + byteOf k 7 / 128)
    (hsame : 4 ≤ if exchBody k = b.ports[p].exLast then b.ports[p].exSame + 1 else 1) (hok : exchOk k = true)
    (hready : linkReady p b = true) :
    exchBlock p k sent b = becomeActive p k (modPort p (takeExch k) b) := by
  refine (if_neg (by rw [exchanging_exchange hst, hblock]; decide)).trans (if_pos ?_)
  rw [modPort_same]
  have hready' : linkReady p (modPort p (takeExch k) b) = true := hready
  simp [takeExch, hready', hsent, hacked, hsame, hok, -Fin.getElem_fin]

/-- No spare newly in use and no narrowing is no port change (R164). -/
theorem mapEvents_none {dir : Nat} {oldW newW : BitVec 2} {oldS : BitVec 5} {lanes : BitVec 21} (h : newW ≠ 1) :
    mapEvents p dir oldW newW oldS 31 lanes b = b :=
  (if_neg fun hw => h hw.1).trans (if_neg fun hs => hs.1 rfl)

theorem resumeEvent_none (h : b.thm.owe.getLsbD p.val = false) : resumeEvent p b = b := if_neg (by rw [h]; decide)

theorem startActive_none (h : b.starting = false) : startActive p b = b := if_pos (by rw [h]; rfl)

/-- A port of full width without a spare is ACTIVE, with no event. -/
theorem becomeActive_full (hwidth : byteOf k 7 / 32 % 4 = 2) (hspare : b.ports[p].farSpare = 31) (hstart : b.starting = false)
    (howe : b.thm.owe.getLsbD p.val = false) : becomeActive p k b = modPort p (portActive 2) b := by
  have hw : BitVec.ofNat 2 (byteOf k 7 / 32 % 4) = 2 := by rw [hwidth]; rfl
  unfold becomeActive
  dsimp only
  rw [hw, hspare, if_neg fun h => absurd h.1 (by decide), mapEvents_none (by decide),
    resumeEvent_none (b := modPort p (portActive 2) b) howe, startActive_none (b := modPort p (portActive 2) b) hstart]

end Sys2Proof.Machine

open Sys2Proof Sys2Proof.Machine

/-- Settles O16: a block is taken (`exchBlock_goesOn`), and the last one makes the port ACTIVE (`exchBlock_ends`,
`becomeActive_full`). -/
theorem exchangeReachesActive : Obligations.ExchangeReachesActive := by
  intro p k sent s hst hblock x same acked caps
  refine ⟨fun hlacks => ?goesOn, fun hsent hacked hsame hok hready hwidth hspare hstart howe => ?active⟩
  case goesOn =>
    refine ⟨_, next_upd_congr (exchBlock_goesOn hst hblock hlacks), onlyPort_modPort _ _ _, ?_⟩
    rw [State.upd_blk, modPort_same]
    exact ⟨hst, ⟨rfl, rfl, rfl, rfl, rfl, rfl, rfl⟩, rfl⟩
  case active =>
    have hfar : (modPort p (takeExch k) s.blk).ports[p].farSpare = 31 := by
      rw [modPort_same]
      exact takeExch_farSpare hspare _
    have hstep := (exchBlock_ends hst hblock hsent hacked hsame hok hready).trans (becomeActive_full hwidth hfar hstart howe)
    rw [modPort_modPort] at hstep
    refine ⟨_, next_upd_congr hstep, onlyPort_modPort _ _ _, ?_⟩
    rw [State.upd_blk, modPort_same]
    exact ⟨rfl, ⟨rfl, rfl, rfl, rfl, rfl, rfl, rfl⟩, rfl, takeExch_farSpare hspare x, rfl, rfl, rfl, rfl, rfl, rfl, rfl⟩
end

section
/-! SUPPORT. Training limits and RECOVER (R160, R163, R166, R167): what a link's end leaves of its port, the lanes that a limit
and a lane check fail, and the entry into RECOVER at an unchanged rate. -/

namespace Sys2Proof.Machine

open Sys2Proof

variable {b t : Block} {p : PortId} {s : State} {x : Port}

/-! ### Event bits and counters -/

theorem rcGet_rcSet_mono (a i : Nat) {j : Nat} (h : (rcGet a b).getLsbD j = true) :
    (rcGet a (rcSet a i b)).getLsbD j = true := by
  rw [rcGet_rcSet_same]
  exact bset_getLsbD_mono i h

theorem rcGet_rcSet_bit (a : Nat) {i : Nat} (b : Block) (h : i < 32) : (rcGet a (rcSet a i b)).getLsbD i = true := by
  rw [rcGet_rcSet_same]
  exact bset_getLsbD_same _ h

/-- A counter counts up to its largest value (R63). -/
theorem ctr_ctrAdd (a n : Nat) (b : Block) : (ctr a (ctrAdd a n b)).toNat = min ctrMax ((ctr a b).toNat + n) := by
  have hvalue : ctr a (ctrAdd a n b) = BitVec.ofNat 32 (min ctrMax ((ctr a b).toNat + n)) := mget_mset_same _ _ _ _
  rw [hvalue, BitVec.toNat_ofNat]
  exact Nat.mod_eq_of_lt (lt_of_le_of_lt (Nat.min_le_left _ _) (by decide))

/-! ### The end of a link -/

/-- The end of a link starts its port's link layer afresh (R165), without the tags that go with the collector's records. -/
theorem endLink_port (p : PortId) (b : Block) : ∃ tags, (endLink p b).ports[p] = newLink { b.ports[p] with tags } := by
  let mine := b.ops.coll.filter fun r => r.1 == p
  let drop := fun (x : Port) (r : PortId × BitVec 128) => dropTag (field r.2.toNat 17 8 + 1024 * x.gen) x
  have hdrop : mine.foldl drop b.ports[p] = { b.ports[p] with tags := (mine.foldl drop b.ports[p]).tags } :=
    congrArg (fun y : Port => { y with tags := (mine.foldl drop b.ports[p]).tags })
      (foldl_keep (fun y : Port => { y with tags := [] }) drop (fun _ _ => rfl) mine b.ports[p])
  refine ⟨(mine.foldl drop b.ports[p]).tags, ?_⟩
  rw [← hdrop]
  unfold endLink dropCollector
  rw [ctrAdd_ports, modPort_same, modPort_same]

/-- What neither the link layer nor the tags hold, the end of a link keeps. -/
theorem endLink_keep {α : Type} (g : Port → α) (hg : ∀ x tags, g (newLink { x with tags }) = g x) (p : PortId) (b : Block) :
    g (endLink p b).ports[p] = g b.ports[p] := by
  obtain ⟨tags, htags⟩ := endLink_port p b
  rw [htags, hg]

theorem endLink_other {q : PortId} (hq : q ≠ p) : (endLink p b).ports[q] = b.ports[q] := by
  unfold endLink dropCollector
  rw [ctrAdd_ports, modPort_other _ _ hq, modPort_other _ _ hq]

/-! ### Lanes that are failed -/

/-- A fold that marks lanes fails those that one of its turns marks. -/
theorem foldl_failRx {β : Type} {f : Port → β → Port} {marks : Vector Lane 21 → β → Fin 21 → Prop}
    (hlanes : ∀ x e, (f x e).lanes = x.lanes)
    (hf : ∀ x e (i : Fin 21), (f x e).failRx.getLsbD i.val = true ↔ x.failRx.getLsbD i.val = true ∨ marks x.lanes e i)
    (l : List β) (x : Port) (i : Fin 21) :
    (l.foldl f x).failRx.getLsbD i.val = true ↔ x.failRx.getLsbD i.val = true ∨ ∃ e ∈ l, marks x.lanes e i := by
  induction l generalizing x with
  | nil => simp
  | cons e l ih =>
    rw [List.foldl_cons, ih, hf, hlanes, or_assoc]
    simp

/-- A lane that has not locked is failed. -/
def failOpen (x : Port) (i : Fin 21) : Port :=
  if x.lanes[i].run < 8 ∧ !x.failRx.getLsbD i.val then { x with failRx := bset x.failRx i.val } else x

theorem failOpen_keep {α : Type} (g : Port → α) (hg : ∀ (x : Port) v, g { x with failRx := v } = g x) (x : Port)
    (i : Fin 21) : g (failOpen x i) = g x := by
  unfold failOpen
  split
  · exact hg x _
  · rfl

theorem failOpen_failRx (x : Port) (e i : Fin 21) : (failOpen x e).failRx.getLsbD i.val = true
    ↔ x.failRx.getLsbD i.val = true ∨ (x.lanes[e].run < 8 ∧ e = i) := by
  unfold failOpen
  split
  case isTrue h => rw [bset_getLsbD_iff, and_iff_right h.1]
  case isFalse h =>
    refine ⟨.inl, fun hi => hi.elim id fun ⟨hrun, he⟩ => ?_⟩
    by_contra hno
    exact h ⟨hrun, by rw [he, Bool.eq_false_iff.mpr hno]; rfl⟩

theorem failUnlocked_keep {α : Type} (g : Port → α) (hg : ∀ (x : Port) v, g { x with failRx := v } = g x) (x : Port) :
    g (failUnlocked x) = g x := by
  unfold failUnlocked
  split
  · rfl
  · exact foldl_keep g failOpen (failOpen_keep g hg) _ _

/-- In LOCK the lanes that have not locked are failed (R158). -/
theorem failUnlocked_failRx (hst : x.st ≠ .recover) (i : Fin 21) : (failUnlocked x).failRx.getLsbD i.val = true
    ↔ x.failRx.getLsbD i.val = true ∨ (x.st = .lock ∧ x.lanes[i].run < 8) := by
  have hlocking : x.locking = true ↔ x.st = .lock := by simp [Port.locking, hst]
  by_cases hlock : x.st = .lock
  · have hfold : failUnlocked x = (List.finRange 21).foldl failOpen x := if_neg (by rw [hlocking.mpr hlock]; decide)
    rw [hfold, foldl_failRx (marks := fun lanes e i => lanes[e].run < 8 ∧ e = i)
      (failOpen_keep Port.lanes fun _ _ => rfl) failOpen_failRx]
    simp [hlock]
  · have hsame : failUnlocked x = x := if_pos (by rw [Bool.eq_false_iff.mpr fun h => hlock (hlocking.mp h)]; rfl)
    simp [hsame, hlock]

/-! ### Training limits (R160) -/

/-- A limit counts an attempt and fails what did not lock. -/
def limitEnded (x : Port) : Port := { failUnlocked x with attempts := min 3 (x.attempts + 1) }

/-- A port that trains without a link. -/
def TrainsNew (x : Port) : Prop := x.st = .train ∨ x.st = .lock ∨ x.st = .exchange

theorem TrainsNew.ended (h : TrainsNew x) : TrainsNew (limitEnded x) := by
  have hst : (limitEnded x).st = x.st := failUnlocked_keep Port.st (fun _ _ => rfl) x
  rwa [TrainsNew, hst]

theorem TrainsNew.linkless (h : TrainsNew x) :
    x.linked = false ∧ x.transmits = false ∧ x.st ≠ .disabled ∧ x.st ≠ .recover := by
  rcases h with h | h | h <;> simp [Port.linked, Port.transmits, h]

theorem trainingLimit_goes (h : TrainsNew b.ports[p]) : trainingLimit p b
    = if min 3 (b.ports[p].attempts + 1) = 3 then portDisable p (modPort p limitEnded b)
      else portRestart p (modPort p limitEnded b) := by
  refine (if_neg ?_).trans ?_
  · rcases h with h | h | h <;> simp [h, -Fin.getElem_fin]
  · rw [modPort_same]
    rfl

theorem portRestart_new (h : TrainsNew b.ports[p]) : portRestart p b = modPort p portDetect (endLink p b) := by
  obtain ⟨hlinked, -⟩ := h.linkless
  unfold portRestart detectPort
  dsimp only
  rw [hlinked]
  rfl

theorem portDisable_new (h : TrainsNew b.ports[p]) : portDisable p b = portChange 0x0303 p 2 0 (disablePort p b) := by
  obtain ⟨-, htransmits, hst, -⟩ := h.linkless
  have hflits : lastFlits p b = b := if_neg (by rw [htransmits]; decide)
  refine (if_neg (by simpa using hst)).trans ?_
  rw [hflits]

/-- What a limit leaves of its port, in whatever state, and of the others. -/
structure LimitLeaves (p : PortId) (b t : Block) : Prop where
  attempts : t.ports[p].attempts = min 3 (b.ports[p].attempts + 1)
  failTx : t.ports[p].failTx = b.ports[p].failTx
  failRx : t.ports[p].failRx = (failUnlocked b.ports[p]).failRx
  others : ∀ q, q ≠ p → samePort b.ports[q] t.ports[q]

theorem limitEnded_keep {α : Type} (g : Port → α) (hg : ∀ (x : Port) failRx attempts, g { x with failRx, attempts } = g x)
    (x : Port) : g (limitEnded x) = g x :=
  (hg (failUnlocked x) (failUnlocked x).failRx _).trans (failUnlocked_keep g (fun y v => hg y v y.attempts) x)

/-- After a limit the link ends: what neither the link layer nor the tags hold is as the limit left it. -/
theorem limitLink_keep {α : Type} (g : Port → α) (hg : ∀ x tags, g (newLink { x with tags }) = g x) (p : PortId) (b : Block) :
    g (endLink p (modPort p limitEnded b)).ports[p] = g (limitEnded b.ports[p]) := by
  rw [endLink_keep g hg, modPort_same]

/-- A port that keeps its attempts and marks after its link's end is as the limit leaves it. -/
theorem LimitLeaves.of_link {x : Port} (hx : x = (endLink p (modPort p limitEnded b)).ports[p])
    (hport : t.ports[p].attempts = x.attempts ∧ t.ports[p].failTx = x.failTx ∧ t.ports[p].failRx = x.failRx)
    (hothers : ∀ q, q ≠ p → samePort b.ports[q] t.ports[q]) : LimitLeaves p b t := by
  obtain ⟨hattempts, htx, hrx⟩ := hport
  subst hx
  exact ⟨hattempts.trans (limitLink_keep Port.attempts (fun _ _ => rfl) p b),
    htx.trans ((limitLink_keep Port.failTx (fun _ _ => rfl) p b).trans (limitEnded_keep Port.failTx (fun _ _ _ => rfl) _)),
    hrx.trans (limitLink_keep Port.failRx (fun _ _ => rfl) p b), hothers⟩

/-- Before the third attempt the port is back in DETECT, with no event. -/
theorem trainingLimit_retries (h : TrainsNew b.ports[p]) (hfew : b.ports[p].attempts < 2) :
    LimitLeaves p b (trainingLimit p b) ∧ (trainingLimit p b).ports[p].st = .detect
      ∧ (trainingLimit p b).sage = b.sage := by
  have hended : TrainsNew (modPort p limitEnded b).ports[p] := by rw [modPort_same]; exact h.ended
  rw [trainingLimit_goes h, if_neg (by omega), portRestart_new hended]
  refine ⟨.of_link rfl ?_ fun q hq => ?_, ?_, rfl⟩
  · rw [modPort_same]
    exact ⟨rfl, rfl, rfl⟩
  · rw [modPort_other _ _ hq, endLink_other hq, modPort_other _ _ hq]
    rfl
  · rw [modPort_same]
    rfl

/-- The third attempt disables the port (R163). -/
theorem trainingLimit_disables (h : TrainsNew b.ports[p]) (hthird : 2 ≤ b.ports[p].attempts)
    (hreact : reactionOf b (fs .lnkDegrade) ≤ 2) : LimitLeaves p b (trainingLimit p b)
      ∧ (trainingLimit p b).ports[p].st = .disabled
      ∧ (rcGet (lnkBase p.val + 0x0C) (trainingLimit p b)).getLsbD 6 = true := by
  have hended : TrainsNew (modPort p limitEnded b).ports[p] := by rw [modPort_same]; exact h.ended
  have hreact' : reactionOf (disablePort p (modPort p limitEnded b)) (fs .lnkDegrade) ≤ 2 := by
    rwa [reactionOf_congr (b := b) (congrArg Sage.react ((disablePort_sage _ p).trans (modPort_sage _ p _)))]
  have hquiet := portChange_quiet 0x0303 p 2 0 hreact'
  rw [trainingLimit_goes h, if_pos (by omega), portDisable_new hended]
  generalize portChange 0x0303 p 2 0 (disablePort p (modPort p limitEnded b)) = t at hquiet
  have hport : samePort (portDisabled (endLink p (modPort p limitEnded b)).ports[p]) t.ports[p] := by
    have := hquiet.2 p
    rwa [disablePort, rcSet_ports, modPort_same] at this
  refine ⟨.of_link rfl ?_ fun q hq => ?_, ?_, ?_⟩
  · rw [hport]
    exact ⟨rfl, rfl, rfl⟩
  · have := hquiet.2 q
    rwa [disablePort, rcSet_ports, modPort_other _ _ hq, endLink_other hq, modPort_other _ _ hq] at this
  · rw [hport]
    rfl
  · rw [quietly_rcGet hquiet]
    exact rcGet_rcSet_bit _ _ (by decide)

/-! ### RECOVER (R166, R167) -/

/-- A port has entered RECOVER at the rate it had: its event and its count are all that changes beside it. -/
structure EntersRecover (p : PortId) (b t : Block) : Prop where
  port : t.ports[p] = portRecover (portRate p b) false b.ports[p]
  others : ∀ q, q ≠ p → t.ports[q] = b.ports[q]
  entered : (rcGet (lnkBase p.val + 0x0C) t).getLsbD 2 = true
  shown : ∀ i, (rcGet (lnkBase p.val + 0x0C) b).getLsbD i = true → (rcGet (lnkBase p.val + 0x0C) t).getLsbD i = true
  counted : (ctr (lnkBase p.val + 0x24) t).toNat = min ctrMax ((ctr (lnkBase p.val + 0x24) b).toNat + 1)
  pend : t.regs.pend = b.regs.pend
  start : t.start = b.start
  sage : t.sage = b.sage

theorem recoverPort_enters (hrate : b.ports[p].rate = BitVec.ofNat 4 (portRate p b)) : EntersRecover p b (recoverPort p b) := by
  have hport : (enterRecover false p b).ports[p] = portRecover (portRate p b) false b.ports[p] := by
    unfold enterRecover
    rw [ctrAdd_ports, rcSet_ports, modPort_same]
  have hsame : recoverPort p b = enterRecover false p b := if_pos (by rw [hport]; exact hrate.symm)
  rw [hsame]
  refine ⟨hport, fun q hq => modPort_other _ _ hq, ?_, fun i hi => ?_, ctr_ctrAdd _ _ _, rfl, rfl, rfl⟩
  · exact rcGet_rcSet_bit _ (modPort p _ b) (by decide)
  · exact rcGet_rcSet_mono (b := modPort p _ b) _ _ hi

/-- A trigger that holds puts an ACTIVE or idle port into RECOVER; RECOVER blocks of the far end also set
LNK_EVT.far_recover (R166). -/
theorem recoverBy_running {trig : RecoverTrigger} (htrig : triggerHolds p trig b = true)
    (hst : b.ports[p].st = .active ∨ b.ports[p].st = .idle) :
    recoverBy p trig b = recoverPort p (if byFarEnd trig then rcSet (lnkBase p.val + 0x0C) 0 b else b) := by
  have hruns : (b.ports[p].st == .recover) = false ∧ (b.ports[p].st == .active || b.ports[p].st == .idle) = true := by
    rcases hst with h | h <;> rw [h] <;> exact ⟨rfl, rfl⟩
  obtain ⟨hnew, hruns⟩ := hruns
  refine (if_neg (by rw [htrig]; decide)).trans ((if_neg (by rw [hnew]; decide)).trans
    ((if_neg (by rw [hruns]; decide)).trans ?_))
  split <;> rfl

theorem recoverBy_bitLock (lane : Fin 21) (hst : b.ports[p].st = .active ∨ b.ports[p].st = .idle) :
    recoverBy p (.bitLockLoss lane) b = recoverPort p b :=
  (recoverBy_running rfl hst).trans (congrArg (recoverPort p) (if_neg Bool.false_ne_true))

theorem recoverBy_farEnd {blks : List (BitVec 144)} (hfour : lastFour 5 blks = true)
    (hst : b.ports[p].st = .active ∨ b.ports[p].st = .idle) :
    recoverBy p (.farRecover blks) b = recoverPort p (rcSet (lnkBase p.val + 0x0C) 0 b) :=
  (recoverBy_running (trig := .farRecover blks) hfour hst).trans (congrArg (recoverPort p) (if_pos rfl))

/-- RECOVER blocks of the far end are what a port that sends its own waits for. -/
theorem recoverBy_blocks {blks : List (BitVec 144)} (hst : b.ports[p].st = .recover) (hstep : b.ports[p].rstep = .blocks)
    (hfour : lastFour 5 blks = true) :
    recoverBy p (.farRecover blks) b = modPort p (fun x => { x with rstep := .train }) b := by
  have htrig : triggerHolds p (.farRecover blks) b = true := hfour
  refine (if_neg (by rw [htrig]; decide)).trans ((if_pos (by rw [hst]; decide)).trans ?_)
  exact modPort_congr (if_pos ⟨hst, hstep⟩)

theorem recoverEntered_calibrated (b : Block) : recoverEntered p false b = b := if_neg (by rw [Bool.false_and]; decide)

/-- Without a failed termination RECOVER is the trigger's (R446). -/
theorem exec_recoverEntry (trig : RecoverTrigger) :
    exec (.recoverEntry p trig false) s = .next (s.upd (recoverBy p trig s.blk)) :=
  next_upd_congr (recoverEntered_calibrated _)

/-- A lane that counted too many errors is failed. -/
def failCounted (x : Port) (e : Fin 21 × Nat) : Port := { x with failRx := bset x.failRx e.1.val }

/-- The lanes with more errors than the limit are failed, and LOCK follows (R167). -/
def laneChecked (errors : List (Fin 21 × Nat)) (limit : Nat) (x : Port) : Port :=
  let x := (errors.filter fun e => e.2 > limit).foldl failCounted x
  { x with rstep := .lock, lanes := x.lanes.map unlockLane }

theorem laneCheck_ends {errors : List (Fin 21 × Nat)} (hst : b.ports[p].st = .recover)
    (hstep : b.ports[p].rstep = .laneCheck) :
    laneCheck p errors b = modPort p (laneChecked errors (rwf (lnkBase p.val + 4) 7 4 b)) b :=
  if_neg (by rw [hst, hstep]; decide)

theorem laneChecked_failRx (errors : List (Fin 21 × Nat)) (limit : Nat) (x : Port) (i : Fin 21) :
    (laneChecked errors limit x).failRx.getLsbD i.val = true
      ↔ x.failRx.getLsbD i.val = true ∨ ∃ e ∈ errors, e.1 = i ∧ limit < e.2 := by
  refine (foldl_failRx (f := failCounted) (marks := fun _ e i => e.1 = i) (fun _ _ => rfl)
    (fun x e i => bset_getLsbD_iff x.failRx e.1 i) _ x i).trans ?_
  simp [and_assoc, and_comm]

theorem laneChecked_keep {α : Type} (g : Port → α) (hg : ∀ x failRx rstep lanes, g { x with failRx, rstep, lanes } = g x)
    (errors : List (Fin 21 × Nat)) (limit : Nat) (x : Port) : g (laneChecked errors limit x) = g x := by
  let y := (errors.filter fun e => e.2 > limit).foldl failCounted x
  calc g (laneChecked errors limit x)
    _ = g y := hg y y.failRx .lock _
    _ = g x := foldl_keep g failCounted (fun x e => hg x _ x.rstep x.lanes) _ x

end Sys2Proof.Machine

open Sys2Proof Sys2Proof.Machine

/-- Settles O17: a limit leaves DETECT (`trainingLimit_retries`) or DISABLED (`trainingLimit_disables`), a trigger that holds is
the entry into RECOVER (`recoverBy_running`, `recoverPort_enters`), and the lane check fails what counted too many
(`laneChecked_failRx`). -/
theorem trainingLimitsAndRecover : Obligations.TrainingLimitsAndRecover := by
  refine ⟨fun p s hreact hst => ?limit, fun p s => ⟨fun lane hst hrate => ?bitLock, fun blks hst hrate hfour => ?farEnd,
    fun blks hst hstep hfour => ?blocks, fun errors hst hstep => ?laneCheck⟩⟩
  case limit =>
    have hnew : TrainsNew s.blk.ports[p] := hst
    obtain ⟨-, -, -, hrecover⟩ := hnew.linkless
    have hends : LimitLeaves p s.blk (trainingLimit p s.blk) := by
      rcases Nat.lt_or_ge s.blk.ports[p].attempts 2 with hfew | hthird
      · exact (trainingLimit_retries hnew hfew).1
      · exact (trainingLimit_disables hnew hthird hreact).1
    exact ⟨_, rfl, rfl, rfl, hends.attempts, fun hfew => (trainingLimit_retries hnew hfew).2,
      fun hthird => (trainingLimit_disables hnew hthird hreact).2, hends.failTx,
      fun i => by rw [State.upd_blk, hends.failRx]; exact failUnlocked_failRx hrecover i, hends.others⟩
  case bitLock =>
    have henters := recoverPort_enters hrate
    refine ⟨_, (exec_recoverEntry _).trans (next_upd_congr (recoverBy_bitLock lane hst)), rfl, rfl, ?_⟩
    rw [State.upd_blk, henters.port]
    exact ⟨rfl, rfl, hrate.symm, rfl, rfl, rfl, rfl, rfl, rfl, henters.entered, henters.counted, henters.sage,
      henters.others⟩
  case farEnd =>
    have henters := recoverPort_enters (b := rcSet (lnkBase p.val + 0x0C) 0 s.blk) hrate
    refine ⟨_, (exec_recoverEntry _).trans (next_upd_congr (recoverBy_farEnd hfour hst)), rfl, rfl, ?_⟩
    rw [State.upd_blk, henters.port]
    exact ⟨rfl, rfl, henters.shown 0 (rcGet_rcSet_bit _ _ (by decide)), henters.entered, henters.others⟩
  case blocks => exact (exec_recoverEntry _).trans (next_upd_congr (recoverBy_blocks hst hstep hfour))
  case laneCheck =>
    refine ⟨_, next_upd_congr (laneCheck_ends hst hstep), onlyPort_modPort _ _ _, ?_⟩
    rw [State.upd_blk, modPort_same]
    exact ⟨(laneChecked_keep Port.st (fun _ _ _ _ => rfl) ..).trans hst, rfl,
      laneChecked_keep Port.failTx (fun _ _ _ _ => rfl) .., laneChecked_failRx _ _ _⟩
end

section
/-! SUPPORT. The commands of LNK_CTRL (R160, R166): what a write of LNK_CTRL does, and what each of its command bits makes of
the port. -/

namespace Sys2Proof.Machine

open Sys2Proof

variable {path : Path} {p : PortId} {data v : Word} {b : Block} {s : State}

/-! ### A write of LNK_CTRL -/

/-- LNK_CTRL of a port that is not ACTIVE is live at once (R53); with disable as 0 that is all. -/
theorem buffer_lnkCtrl (hst : b.ports[p].st ≠ .active) (hpend : pendingAt (lnkBase p.val) b = false)
    (hkeeps : v.getLsbD 0 = false) : buffer (lnkBase p.val + 0) v b = setLive (lnkBase p.val + 0) v b := by
  obtain ⟨-, hclk, hpwr, -⟩ := lnkBase_cases p
  have hbase := baseOf_lnk p (o := 0) (by decide)
  have hnow : atOnceNow (lnkBase p.val) (bufferWrite (lnkBase p.val + 0) v b) = true := by
    rw [atOnceNow_lnk, bufferWrite_ports]
    simpa using hst
  have htake := takePend_bufferWrite (a := lnkBase p.val + 0) v (by rwa [hbase])
  rw [hbase] at htake
  unfold buffer commitNow
  rw [hbase, hnow, if_neg (by decide), if_neg (by simp [hclk, hpwr]), commitAt_lnk]
  unfold commitLnk
  rw [htake]
  exact if_neg fun h => Bool.false_ne_true (hkeeps.symm.trans h.2)

theorem isEng_lnk (p : PortId) : isEng (lnkBase p.val) = false := by revert p; decide

theorem lnkCtrl_reg (p : PortId) : regAt (lnkBase p.val + 0) = some (.rw 1 0) := regAt_lnk p (by decide) (by decide)

/-- A write of LNK_CTRL over an open path. -/
theorem put_lnkCtrl {st : Status} {t : Block} (hw : takesWrites path s) (hwrite : lnkWrite p 0 data s.blk = (st, t))
    (hstart : t.start = s.blk.start) :
    put path (lnkBase p.val) 0 data s = answered path (lnkBase p.val + 0) st (s.upd t) := by
  obtain ⟨-, -, -, -, hgood⟩ := id hw
  have hp := p.isLt
  have hsum : lnkBase p.val = 0x10000 + p.val * 0x1000 := rfl
  have hreg := lnkCtrl_reg p
  have hbase := baseOf_lnk p (o := 0) (by decide)
  obtain ⟨-, -, -, hsrl, -, -⟩ := lnkBase_cases p
  refine put_live hw (by omega) (by omega) (by omega) (by rw [hreg]; rfl) (lockedReg_out _ (by omega)) ?_ ?_
  · rw [writeLive_block hgood (fun _ => by rw [hbase]; exact ⟨hsrl, isEng_lnk p⟩) (by rw [hreg]; simp) (by omega)
      (by omega) (by omega) (by omega) (by omega), writeBlock_lnk path p (by decide), hwrite]
    rfl
  · rw [State.upd_blk, hstart]
    exact takesWrites_step hw

/-- What a command of LNK_CTRL writes: no bit but disable is kept. -/
theorem bufferOk_lnkCtrl (hst : b.ports[p].st ≠ .active) (hpend : pendingAt (lnkBase p.val) b = false)
    (hkeeps : data.getLsbD 0 = false) :
    bufferOk true (lnkBase p.val + 0) data b = (.ok, setLive (lnkBase p.val + 0) (data &&& 1) b) := by
  have hmask : rwMask (lnkBase p.val + 0) = 1 := by rw [rwMask, lnkCtrl_reg]
  have hlow : (data &&& 1).getLsbD 0 = false := by rw [BitVec.getLsbD_and, hkeeps, Bool.false_and]
  unfold bufferOk
  rw [hmask, buffer_lnkCtrl hst hpend hlow]
  rfl

/-! ### retrain (R166) -/

theorem lnkWrite_retrain (hretrain : data.getLsbD 1 = true) (hreenable : data.getLsbD 2 = false)
    (hst : b.ports[p].st = .active) : lnkWrite p 0 data b = bufferOk true (lnkBase p.val + 0) data (recoverPort p b) := by
  simp [lnkWrite, hretrain, hreenable, hst, -Fin.getElem_fin, -BitVec.getLsbD_eq_getElem]

theorem lnkWrite_retrain_refused (hretrain : data.getLsbD 1 = true) (hactive : b.ports[p].st ≠ .active)
    (hidle : b.ports[p].st ≠ .idle) : lnkWrite p 0 data b = (.badArg, b) := by
  simp [lnkWrite, hretrain, hactive, hidle, -Fin.getElem_fin, -BitVec.getLsbD_eq_getElem]

/-- With no write waiting, LNK_CTRL.disable is kept as it reads. -/
theorem heldDisable_none (hpend : pendingAt (lnkBase p.val) b = false) (hlive : (rw (lnkBase p.val) b).getLsbD 0 = false) :
    heldDisable p b = 0 := by
  have hbase : ∀ w ∈ b.regs.pend, baseOf w.addr ≠ lnkBase p.val := by simpa [pendingAt] using hpend
  have hnone : b.regs.pend.find? (fun w => w.addr == lnkBase p.val) = none := by
    rw [List.find?_eq_none]
    intro w hw he
    exact hbase w hw (by rw [eq_of_beq he]; exact baseOf_lnk p (o := 0) (by decide))
  have hshadow : shadow (lnkBase p.val) b = rw (lnkBase p.val) b := by
    unfold shadow
    rw [hnone]
    exact if_neg (by unfold lnkBase; omega)
  exact (congrArg (· &&& 1) hshadow).trans ((BitVec.and_one_eq_setWidth_ofBool_getLsbD).trans (by rw [hlive]; rfl))

theorem exec_lnkRetrain (hpend : pendingAt (lnkBase p.val) s.blk = false)
    (hlive : (rw (lnkBase p.val) s.blk).getLsbD 0 = false) :
    exec (.lnkRetrain path p) s = .next (put path (lnkBase p.val) 0 2 s) := by
  change Host.Outcome.next (put path (lnkBase p.val) 0 (2 ||| heldDisable p s.blk) s) = _
  rw [heldDisable_none hpend hlive]
  rfl

/-! ### reenable (R160) -/

/-- A port re-enabled: marks and attempts cleared, in DETECT. -/
def reenabled (x : Port) : Port := portDetect { x with failRx := 0, failTx := 0, attempts := 0 }

theorem reenablePort_goes (h : p.val = 0 ∨ (b.start.chive = false ∧ b.thm.safe = false)) :
    reenablePort p b = modPort p reenabled b := by
  have hstay : (p.val ≠ 0 && (b.start.chive || b.thm.safe)) = false := by
    rcases h with h | ⟨hchive, hsafe⟩
    · simp [h]
    · simp [hchive, hsafe]
  unfold reenablePort
  rw [hstay]
  rfl

theorem lnkWrite_reenable (hretrain : data.getLsbD 1 = false) (hreenable : data.getLsbD 2 = true)
    (hst : b.ports[p].st = .disabled) (hbst : bstOnPort b p = false) :
    lnkWrite p 0 data b = bufferOk true (lnkBase p.val + 0) data (reenablePort p b) := by
  simp [lnkWrite, hretrain, hreenable, hst, hbst, -Fin.getElem_fin, -BitVec.getLsbD_eq_getElem]

theorem lnkWrite_reenable_refused (hretrain : data.getLsbD 1 = false) (hreenable : data.getLsbD 2 = true)
    (hst : b.ports[p].st ≠ .disabled) : lnkWrite p 0 data b = (.badArg, b) := by
  simp [lnkWrite, hretrain, hreenable, hst, -Fin.getElem_fin, -BitVec.getLsbD_eq_getElem]

end Sys2Proof.Machine

open Sys2Proof Sys2Proof.Machine

/-- Settles O18: an accepted command is RECOVER (`recoverPort_enters`) or DETECT (`reenablePort_goes`) with a write of LNK_CTRL
that is live at once (`bufferOk_lnkCtrl`); a refused one is its answer alone. -/
theorem linkCommands : Obligations.LinkCommands := by
  intro path p s hw
  refine ⟨fun hst hrate hpend hlive => ?retrains, fun hactive hidle => ?retrainRefused,
    fun hst hbst hgoes hpend => ?reenables, fun hst => ?reenableRefused⟩
  case retrains =>
    have henters := recoverPort_enters hrate
    have hrecover : (recoverPort p s.blk).ports[p].st = .recover := by rw [henters.port]; rfl
    have hwrite := (lnkWrite_retrain (data := 2) (by decide) (by decide) hst).trans
      (bufferOk_lnkCtrl (by rw [hrecover]; decide) (by rw [pendingAt, henters.pend]; exact hpend) (by decide))
    have hput := put_lnkCtrl hw hwrite henters.start
    refine ⟨_, (exec_lnkRetrain hpend hlive).trans (congrArg Host.Outcome.next hput), answered_resp, ?_, ?_, rfl⟩
    · rw [answered_ports]
      exact hrecover
    · rw [ctr_answered]
      exact henters.counted
  case retrainRefused =>
    have hbit : ((2 : Word) ||| heldDisable p s.blk).getLsbD 1 = true := by rw [BitVec.getLsbD_or]; exact Bool.true_or _
    have hput := put_lnkCtrl hw (lnkWrite_retrain_refused hbit hactive hidle) rfl
    exact ⟨_, congrArg Host.Outcome.next hput, answered_resp, answered_ports, answered_regs, rfl⟩
  case reenables =>
    have hgone := reenablePort_goes hgoes
    have hdetect : (reenablePort p s.blk).ports[p] = reenabled s.blk.ports[p] := by rw [hgone, modPort_same]
    have hwrite := (lnkWrite_reenable (data := 4) (by decide) (by decide) hst hbst).trans
      (bufferOk_lnkCtrl (by rw [hdetect]; exact nofun) hpend (by decide))
    have hput := put_lnkCtrl hw hwrite (by rw [hgone]; rfl)
    refine ⟨_, congrArg Host.Outcome.next hput, answered_resp, ?_⟩
    rw [answered_ports]
    exact ⟨congrArg Port.st hdetect, congrArg Port.failRx hdetect, congrArg Port.failTx hdetect,
      congrArg Port.attempts hdetect, fun q hq => by rw [State.upd_blk, hgone]; exact modPort_other _ _ hq, rfl⟩
  case reenableRefused =>
    have hput := put_lnkCtrl (data := 4) hw (lnkWrite_reenable_refused (by decide) (by decide) hst) rfl
    exact ⟨_, congrArg Host.Outcome.next hput, answered_resp, answered_ports, answered_regs, rfl⟩
end

section
/-! SUPPORT. Electrical idle and PATTERN (R171 to R173, R175): a direction that idles and wakes, a burst that no marker flit
follows, and the entry into PATTERN with its lane errors. -/

namespace Sys2Proof.Machine

open Sys2Proof

variable {p : PortId} {b : Block}

/-! ### Electrical idle (R171 to R173) -/

theorem idleEntry_active {k : BitVec 144} (hst : b.ports[p].st = .active) (hblock : blockIs 4 k = true) :
    idleEntry p k b = modPort p (fun x => { x with st := .idle, idleRx := true }) b :=
  if_neg (by rw [hst, hblock]; decide)

/-- A receive direction that a burst has woken. -/
def wokenRx (x : Port) : Port :=
  idleState { x with idleRx := false, waitMarker := true, rxFlits := 0, rxMarkers := 0, rxScr := scrSeeds }

theorem fastExit_rx (hst : b.ports[p].st = .idle) (hidle : b.ports[p].idleRx = true) :
    fastExit p .rx b = modPort p wokenRx b :=
  (if_neg (by rw [hst]; decide)).trans (if_neg (by rw [hidle]; decide))

theorem fastExitFailed_active (hwaits : b.ports[p].waitMarker = true) (hst : b.ports[p].st = .active) :
    fastExitFailed p b = recoverPort p (rcSet (lnkBase p.val + 0x0C) 1 b) :=
  if_neg (by rw [hwaits, hst]; decide)

/-! ### PATTERN (R175) -/

/-- PATTERN with a pattern, the far end's or the port's own. -/
def inPattern (c : BitVec 2) (far : Bool) (x : Port) : Port := { x with st := .pattern, pattern := c, patFar := far }

/-- Lane errors are counted, and nothing else changes. -/
theorem countLaneErrors_keep {α : Type} (g : Block → α) (hg : ∀ a n b, g (ctrAdd a n b) = g b) (p : PortId)
    (errors : List (Fin 21 × Nat)) (b : Block) : g (countLaneErrors p errors b) = g b :=
  foldl_keep g _ (fun _ _ => hg _ _ _) errors b

theorem enterPattern_commit (errors : List (Fin 21 × Nat)) (hst : b.ports[p].st = .active)
    (henable : rwf (lnkBase p.val + 0x1C) 0 0 b = 1) : enterPattern p .commit errors b
      = countLaneErrors p errors (modPort p (inPattern (BitVec.ofNat 2 (rwf (lnkBase p.val + 0x1C) 3 2 b)) false) b) := by
  unfold enterPattern
  dsimp only
  rw [if_pos ⟨henable, hst⟩]
  rfl

theorem enterPattern_far {blks : List (BitVec 144)} {k : BitVec 144} (hst : b.ports[p].st = .active)
    (hfour : lastFour 6 blks = true) (hlast : blks.getLast? = some k) :
    enterPattern p (.far blks) [] b = modPort p (inPattern (BitVec.ofNat 2 (byteOf k 6)) true) b := by
  unfold enterPattern
  dsimp only
  rw [if_pos ⟨hst, hfour⟩, hlast]
  rfl

theorem leavePattern_off (hst : b.ports[p].st = .pattern) (henable : rwf (lnkBase p.val + 0x1C) 0 0 b = 0) :
    leavePattern p b = recoverPort p b := if_pos ⟨hst, henable⟩

end Sys2Proof.Machine

open Sys2Proof Sys2Proof.Machine

/-- Settles O19: a direction idles (`idleEntry_active`) and wakes (`fastExit_rx`), a burst that fails and a pattern that ends are
the entry into RECOVER (`recoverPort_enters`), and PATTERN counts the lanes' errors alone (`countLaneErrors_keep`). -/
theorem idleAndPattern : Obligations.IdleAndPattern := by
  refine ⟨fun p s => ⟨fun k hst hblock => ?idles, fun hst hidle => ?wakes, fun hwaits hst hrate => ?fails⟩, fun p s =>
    ⟨fun errors hst henable => ?own, fun blks k hst hfour hlast => ?far, fun hst henable hrate => ?leaves⟩⟩
  case idles => exact next_upd_congr (idleEntry_active hst hblock)
  case wakes =>
    refine ⟨_, next_upd_congr (fastExit_rx hst hidle), onlyPort_modPort _ _ _, ?_⟩
    rw [State.upd_blk, modPort_same]
    exact ⟨rfl, rfl, rfl, rfl, rfl, rfl, rfl⟩
  case fails =>
    have henters := recoverPort_enters (b := rcSet (lnkBase p.val + 0x0C) 1 s.blk) hrate
    refine ⟨_, next_upd_congr (fastExitFailed_active hwaits hst), ?_⟩
    rw [State.upd_blk, henters.port]
    exact ⟨rfl, henters.shown 1 (rcGet_rcSet_bit _ _ (by decide)), henters.entered, henters.sage, rfl, henters.others⟩
  case own =>
    have hports := countLaneErrors_keep Block.ports (fun _ _ _ => rfl) p errors
    refine ⟨_, next_upd_congr (enterPattern_commit errors hst henable), ?_, fun q hq => ?_, ?_, ?_, rfl⟩
    · rw [State.upd_blk, hports, modPort_same]
      rfl
    · rw [State.upd_blk, hports, modPort_other _ _ hq]
    · rintro e rfl
      exact ctr_ctrAdd _ _ _
    · exact countLaneErrors_keep Block.sage (fun _ _ _ => rfl) p errors _
  case far => exact next_upd_congr (enterPattern_far hst hfour hlast)
  case leaves =>
    have henters := recoverPort_enters hrate
    refine ⟨_, next_upd_congr (leavePattern_off hst henable), ?_⟩
    rw [State.upd_blk, henters.port]
    exact ⟨rfl, rfl, henters.counted, rfl, henters.others⟩
end

section
/-! SUPPORT. Write headers, undefined opcodes and fences (R186, R189, R190, R210): what a request that waits alone leaves of its
port. -/

namespace Sys2Proof.Machine

open Sys2Proof

variable {p : PortId} {b : Block} {e mask m : BitVec 64} {gen arr : Nat} {s : State} {h : Hdr}

/-! ### Headers of writes (R189, R190) -/

/-- A header of the link in force is checked as any request: R411 speaks of links that have ended. -/
theorem writeCheck_own (h : Hdr) (arr : Nat) (hgen : b.ports[p].gen = gen) : writeCheck b p h gen arr = requestCheck b p h := by
  have hlives : outlived b p gen arr = false := by simp only [outlived, hgen, bne_self_eq_false, Bool.and_false, Bool.false_and]
  rw [writeCheck, hlives]
  rfl

/-- The pending write of a header whose check answers `st`. -/
def Hdr.pend (h : Hdr) (mask : Option (BitVec 64)) (tag arr : Nat) (st : Status) : WPend :=
  { tag := tag, handle := h.handle, line := h.line, count := h.count, mask := mask, cls := h.cls, hint := h.hint
    refused := if st = .ok then none else some st, arr := arr }

/-- A port whose one request was the header of the pending write `w`: a refused one gives its REQ units back (R190). -/
def headerPort (h : Hdr) (st : Status) (w : WPend) (x : Port) : Port :=
  { x with rxq := [], ret := if st = .ok then x.ret else x.ret.set 0 (x.ret[0] + h.reqUnits), writes := [w] }

theorem takeWriteHdr_own (h : Hdr) (mask : Option (BitVec 64)) (tag arr : Nat) (hwrites : b.ports[p].writes = []) :
    takeWriteHdr p h mask tag b.ports[p].gen arr (modPort p (fun x => { x with rxq := [] }) b)
      = modPort p (headerPort h (requestCheck b p h) (h.pend mask tag arr (requestCheck b p h))) b := by
  have hgen : (modPort p (fun x => { x with rxq := [] }) b).ports[p].gen = b.ports[p].gen := by rw [modPort_same]
  unfold takeWriteHdr
  dsimp only
  rw [writeCheck_own h arr hgen, requestCheck_modPort]
  by_cases hst : requestCheck b p h = .ok
  · rw [if_pos hst, if_neg (by decide), modPort_modPort]
    exact modPort_congr (by simp [headerPort, Hdr.pend, hst, hwrites, -Fin.getElem_fin])
  · rw [if_neg hst, if_pos Option.isSome_some, returnCredit_own 0 _ hgen, modPort_modPort, modPort_modPort]
    refine modPort_congr ?_
    simp only [headerPort, Hdr.pend, hst, hwrites, if_false, List.nil_append]
    rfl

/-- A header that waits alone is taken at once. -/
theorem runEntry_header {ok : Hdr → Bool} (wm : Option (BitVec 64)) (hw : waitsAlone p (.req e m s.blk.ports[p].gen arr) s)
    (hok : ok (hdrOf e) = true) (hmine : isEntry e mask (.req e m s.blk.ports[p].gen arr) = true) (hop : (hdrOf e).op ≠ 1) :
    runEntry p e mask ok (fun h tag gen arr s => s.upd (takeWriteHdr p h wm tag gen arr s.blk)) s
      = s.upd (modPort p (headerPort (hdrOf e) (requestCheck s.blk p (hdrOf e)) ((hdrOf e).pend wm
          ((hdrOf e).tag + 1024 * s.blk.ports[p].gen) arr (requestCheck s.blk p (hdrOf e)))) s.blk) := by
  have hwrites : s.blk.ports[p].writes = [] := by
    obtain ⟨-, -, -, hwrites, -⟩ := hw
    exact hwrites
  rw [runEntry_alone _ hw hok hmine fun hread => absurd hread hop, State.upd_upd, State.upd_blk,
    takeWriteHdr_own _ _ _ _ hwrites]

theorem exec_write (hw : waitsAlone p (.req e m s.blk.ports[p].gen arr) s) (hop : (hdrOf e).op = 2) :
    exec (.write p e) s
      = .next (s.upd (modPort p (headerPort (hdrOf e) (requestCheck s.blk p (hdrOf e)) ((hdrOf e).pend none
          ((hdrOf e).tag + 1024 * s.blk.ports[p].gen) arr (requestCheck s.blk p (hdrOf e)))) s.blk)) := by
  have hrow : exec (.write p e) s = .next (writeRow p e (wakeEntry p e 0 (fun h => h.op == 2) s)) := rfl
  rw [hrow, wakeEntry_P0 _ hw.1]
  exact congrArg Host.Outcome.next
    (runEntry_header none hw (by simp [hop]) (isEntry_unmasked (by simp [hop]) _ _ _ _) (by simp [hop]))

theorem exec_writeMasked (hw : waitsAlone p (.req e mask s.blk.ports[p].gen arr) s) (hop : (hdrOf e).op = 3) :
    exec (.writeMasked p e mask) s
      = .next (s.upd (modPort p (headerPort (hdrOf e) (requestCheck s.blk p (hdrOf e)) ((hdrOf e).pend (some mask)
          ((hdrOf e).tag + 1024 * s.blk.ports[p].gen) arr (requestCheck s.blk p (hdrOf e)))) s.blk)) := by
  have hrow : exec (.writeMasked p e mask) s = .next (maskedRow p e mask (wakeEntry p e mask (fun h => h.op == 3) s)) := rfl
  rw [hrow, wakeEntry_P0 _ hw.1]
  exact congrArg Host.Outcome.next
    (runEntry_header (some mask) hw (by simp [hop]) (by simp [isEntry]) (by simp [hop]))

/-! ### Requests that are answered at once -/

/-- A request of the link in force that is answered at once gives its REQ unit back and leaves one CMPL record. -/
theorem sendCmpl_credited {tag : Nat} (st : Status) (kind handle : Nat) (ht : tag < 1024) (hup : b.ports[p].st ≠ .disabled) :
    sendCmpl p (tag + 1024 * b.ports[p].gen) st kind handle
        (returnCredit p 0 1 b.ports[p].gen (modPort p (fun x => { x with rxq := [] }) b))
      = modPort p (answeredPort (cmplRecord (tag + 1024 * b.ports[p].gen) st kind handle b.time)) b := by
  rw [returnCredit_own 0 1 (by rw [modPort_same]), modPort_modPort,
    sendCmpl_sent _ _ _ (by rw [modPort_same]; exact sends_own ht hup), modPort_modPort]
  rfl

/-- What the handle and the port of a request with an undefined opcode are refused for comes before BAD_ARG (R12, R220). -/
theorem undefinedStatus_eq (b : Block) (p : PortId) (g : Nat) :
    undefinedStatus b p g = if handleCheck b p g = .ok then .badArg else handleCheck b p g := by
  unfold undefinedStatus
  split
  · next hok => rw [if_pos hok]
  · next hno => rw [if_neg hno]

theorem exec_undefinedOpcodeRequest (hw : waitsAlone p (.req e m s.blk.ports[p].gen arr) s) (hop : 5 ≤ (hdrOf e).op) :
    exec (.undefinedOpcodeRequest p e) s = .next (s.upd (modPort p (answeredPort
      (cmplRecord ((hdrOf e).tag + 1024 * s.blk.ports[p].gen) (undefinedStatus s.blk p (hdrOf e).handle) 3 (hdrOf e).handle
        s.blk.time)) s.blk)) := by
  obtain ⟨hP0, -, -, -, hup⟩ := id hw
  have hrow : exec (.undefinedOpcodeRequest p e) s
      = .next (undefinedRow p e (wakeEntry p e 0 (fun h => h.op ≥ 5) s)) := rfl
  rw [hrow, wakeEntry_P0 _ hP0, undefinedRow, runEntry_alone _ hw (by simp [hop]) (isEntry_unmasked (by omega) _ _ _ _)
    fun hread => by omega]
  exact next_upd_congr (sendCmpl_credited _ _ _ (hdrOf_tag_lt e) hup)

/-! ### Fences (R210) -/

/-- The tags of a fence's scope that arrived before it and have not ended. -/
def tagsBefore (x : Port) (h : Hdr) (ord : Nat) : List Nat :=
  (x.tags.filter fun t =>
    decide (t.2.ord < ord) && t.2.done.isNone && (h.len == 1 || (t.2.kind != .reg && t.2.handle == h.handle))).map (·.1)

/-- The fence that a request starts. -/
def Hdr.fence (h : Hdr) (tag : Nat) (x : Port) : Fence :=
  { tag := tag, handle := h.handle, all := h.len == 1, ord := x.ordOf tag, waits := tagsBefore x h (x.ordOf tag) }

/-- A port whose one request was the fence `f`, which waits. -/
def fencePort (f : Fence) (x : Port) : Port := { x with rxq := [], ret := x.ret.set 0 (x.ret[0] + 1), fences := [f] }

/-- A fence that its handle and its port allow is looked at as soon as it waits. -/
theorem startFence_own (tag : Nat) (hcheck : handleCheck b p h.handle = .ok) (hlen : h.len ≤ 1) (hfences : b.ports[p].fences = []) :
    startFence p h tag b.ports[p].gen (modPort p (fun x => { x with rxq := [] }) b)
      = checkFences p (haltFences p (modPort p (fencePort (h.fence tag b.ports[p])) b)) := by
  have hcredit : returnCredit p 0 1 b.ports[p].gen (modPort p (fun x => { x with rxq := [] }) b)
      = modPort p (fun x => { x with rxq := [], ret := x.ret.set 0 (x.ret[0] + 1) }) b := by
    rw [returnCredit_own 0 1 (by rw [modPort_same]), modPort_modPort]
    rfl
  have hallowed : handleCheck (modPort p (fun x => { x with rxq := [], ret := x.ret.set 0 (x.ret[0] + 1) }) b) p h.handle = .ok :=
    hcheck
  unfold startFence
  dsimp only
  rw [hcredit, hallowed]
  dsimp only
  rw [if_neg (by omega), modPort_same, modPort_modPort]
  refine congrArg (fun c => checkFences p (haltFences p c)) (modPort_congr ?_)
  simp only [fencePort, hfences, List.nil_append]
  rfl

/-- A fence none of whose descriptors sits in a halted queue is as it was. -/
theorem haltFences_own {f : Fence} (hhalt : ∀ t ∈ f.waits, descHalted b p t = false) :
    haltFences p (modPort p (fencePort f) b) = modPort p (fencePort f) b := by
  refine modPort_fixed ?_
  have hnone : (f.waits.any fun t => descHalted b p t) = false := by simpa using hhalt
  have hkept : haltFence (modPort p (fencePort f) b) p f = f := if_neg (Bool.eq_false_iff.mp hnone)
  rw [modPort_same]
  simp only [fencePort, List.map_cons, List.map_nil, hkept]

/-- The tags that a fence of a port still waits for. -/
def Fence.still (f : Fence) (x : Port) : List Nat := f.waits.filter fun t => x.tags.any fun u => u.1 == t && u.2.done.isNone

theorem checkFences_waits {f : Fence} (hf : b.ports[p].fences = [f]) (hstill : f.still b.ports[p] ≠ []) :
    checkFences p b = b := by
  have hkept : (f.still b.ports[p] == []) = false := beq_eq_false_iff_ne.mpr hstill
  have hall : b.ports[p].fences.filter (fun f => !(f.still b.ports[p] == [])) = b.ports[p].fences := by
    rw [hf]
    exact List.filter_cons_of_pos (by rw [hkept]; rfl)
  unfold Fence.still at hkept hall
  simp only [checkFences, hf, List.filter_cons, hkept, List.filter_nil]
  exact modPort_fixed (by rw [hall])

theorem checkFences_done {f : Fence} (hf : b.ports[p].fences = [f]) (hstill : f.still b.ports[p] = []) :
    checkFences p b = sendCmpl p f.tag f.status 3 f.handle (modPort p (fun x => { x with fences := [] }) b) := by
  unfold Fence.still at hstill
  simp only [checkFences, hf, List.filter_cons, hstill, List.filter_nil]
  exact congrArg _ (modPort_congr (by simp [hf, hstill, -Fin.getElem_fin]))

theorem exec_fence (hw : waitsAlone p (.req e m s.blk.ports[p].gen arr) s) (hop : (hdrOf e).op = 4) (hlen : (hdrOf e).len ≤ 1)
    (hcheck : handleCheck s.blk p (hdrOf e).handle = .ok)
    {f : Fence} (hf : (hdrOf e).fence ((hdrOf e).tag + 1024 * s.blk.ports[p].gen) s.blk.ports[p] = f)
    (hhalt : ∀ t ∈ f.waits, descHalted s.blk p t = false) :
    exec (.fence p e) s = .next (s.upd (checkFences p (modPort p (fencePort f) s.blk))) := by
  obtain ⟨hP0, -, hfences, -, -⟩ := id hw
  have hrow : exec (.fence p e) s = .next (fenceRow p e (wakeEntry p e 0 (fun h => h.op == 4) s)) := rfl
  rw [hrow, wakeEntry_P0 _ hP0, fenceRow, runEntry_alone _ hw (by simp [hop]) (isEntry_unmasked (by omega) _ _ _ _)
    fun hread => by omega]
  refine next_upd_congr ?_
  rw [State.upd_blk, startFence_own _ hcheck hlen hfences, hf, haltFences_own hhalt]

end Sys2Proof.Machine

open Sys2Proof Sys2Proof.Machine

/-- Settles O24: a header that waits alone becomes a pending write (`exec_write`, `exec_writeMasked`). -/
theorem writeHeadersWait : Obligations.WriteHeadersWait := by
  refine fun p e mask arr s hw => ⟨fun hop => ?full, fun hop => ?masked⟩
  case full =>
    have hcount : (hdrOf e).count = 2 ^ (hdrOf e).len := if_neg (by omega)
    have hunits : (hdrOf e).reqUnits = 1 := if_neg (by omega)
    refine ⟨_, exec_write hw hop, ⟨onlyPort_modPort _ _ _, ?_⟩, ?_⟩ <;> rw [State.upd_blk, modPort_same]
    · exact ⟨rfl, by rw [← hcount]; rfl, rfl⟩
    · rw [← hunits]; rfl
  case masked =>
    have hcount : (hdrOf e).count = 1 := if_pos hop
    have hunits : (hdrOf e).reqUnits = 2 := if_pos hop
    refine ⟨_, exec_writeMasked hw hop, ⟨onlyPort_modPort _ _ _, ?_⟩, ?_⟩ <;> rw [State.upd_blk, modPort_same]
    · exact ⟨rfl, by rw [← hcount]; rfl, rfl⟩
    · rw [← hunits]; rfl

/-- Settles O26: an undefined opcode is answered at once (`exec_undefinedOpcodeRequest`), and a fence is done or waits by the tags
before it (`checkFences_done`, `checkFences_waits`). -/
theorem fencesAndUndefined : Obligations.FencesAndUndefined := by
  intro p e mask arr u s hw
  obtain ⟨-, -, -, -, hup⟩ := id hw
  refine ⟨fun hop => ?undefined, fun hop hlen hcheck htags => ?alone, fun n v hop hlen hcheck htags hn hord hdone hdescs => ?waits⟩
  case undefined =>
    refine ⟨_, exec_undefinedOpcodeRequest hw hop, onlyPort_modPort _ _ _, ?_⟩
    rw [State.upd_blk, modPort_same, undefinedStatus_eq]
    exact ⟨rfl, rfl, rfl⟩
  case alone =>
    have hwaits : ((hdrOf e).fence ((hdrOf e).tag + 1024 * s.blk.ports[p].gen) s.blk.ports[p]).waits = [] := by
      simp [Hdr.fence, tagsBefore, Port.ordOf, mfind, htags, -Fin.getElem_fin]
    have hfence := exec_fence hw hop hlen hcheck rfl (by rw [hwaits]; nofun)
    rw [checkFences_done (by rw [modPort_same]; rfl) (by rw [Fence.still, hwaits]; rfl), modPort_modPort,
      sendCmpl_sent _ _ _ (by rw [modPort_same]; exact sends_own (hdrOf_tag_lt e) hup), modPort_modPort] at hfence
    refine ⟨_, hfence, onlyPort_modPort _ _ _, ?_⟩
    rw [State.upd_blk, modPort_same]
    exact ⟨rfl, rfl, rfl, rfl⟩
  case waits =>
    have hwaits : (hdrOf e).fence ((hdrOf e).tag + 1024 * s.blk.ports[p].gen) s.blk.ports[p]
        = { tag := (hdrOf e).tag + 1024 * s.blk.ports[p].gen, handle := (hdrOf e).handle, all := true, ord := u.ord
            waits := [n] } := by
      simp [Hdr.fence, tagsBefore, Port.ordOf, mfind, htags, hn, hlen, hord, hdone, -Fin.getElem_fin]
    have hfence := exec_fence hw hop hlen.le hcheck hwaits fun t _ => by simp [descHalted, hdescs]
    rw [checkFences_waits (by rw [modPort_same]; rfl)
      (by rw [modPort_same]; simp [Fence.still, fencePort, htags, hdone, -Fin.getElem_fin])] at hfence
    refine ⟨_, hfence, onlyPort_modPort _ _ _, ?_⟩
    rw [State.upd_blk, modPort_same]
    exact ⟨rfl, rfl, rfl⟩
end

section
/-! SUPPORT. One flit time of the transmitter (R197, R198, R205) and the nak and replay timers (R206): what a flit takes from its
port, and what each expiry leaves. -/

namespace Sys2Proof.Machine

open Sys2Proof

variable {p : PortId} {b : Block} {s : State} {x y : Port} {k : Nat} {t : TxFlit} {nme : Bool} {r : BitVec 64}

/-! ### A commit with nothing pending -/

theorem useRegs_good (base : Nat) (h : b.regs.badPar = []) : useRegs base b = b := by simp [useRegs, h]

theorem takePend_none {base : Nat} (h : pendingAt base b = false) : takePend base b = ([], b) := by
  have hbase : ∀ w ∈ b.regs.pend, baseOf w.addr ≠ base := by simpa [pendingAt] using h
  have hnone : (b.regs.pend.filter fun w => baseOf w.addr == base) = [] := by simpa [List.filter_eq_nil_iff] using hbase
  have hall : (b.regs.pend.filter fun w => baseOf w.addr != base) = b.regs.pend := by
    simpa [List.filter_eq_self] using hbase
  simp [takePend, hnone, hall]

theorem commitLnk_none (h : pendingAt (lnkBase p.val) b = false) : commitLnk p b = b := by
  rw [commitLnk, takePend_none h]
  rfl

/-! ### Slots -/

theorem fillSlot_cmpl_none (h : x.txCmpl = []) : fillSlot 0 k t x = none := by simp [fillSlot, canSend, h]

theorem fillSlot_reg_none (h : x.txReg = []) : fillSlot 1 k t x = none := by simp [fillSlot, canSend, h]

theorem fillSlot_ev_none (h : x.txEv = []) : fillSlot 2 k t x = none := by simp [fillSlot, canSend, h]

theorem fillSlot_data_none (h : x.txData = []) : fillSlot 3 k t x = none := by simp [fillSlot, h]

/-- A port whose one completion has left in a flit: a credit is spent (R198), and its tag ends with that flit (R197). -/
def cmplSent (r : BitVec 64) (x : Port) : Port :=
  { endTag (x.itag (r.toNat % 1024)) x with txCmpl := [], far := x.far.set 0 (x.far[0] - 1) }

theorem fillSlot_cmpl_one (hr : x.txCmpl = [r]) (hfar : 0 < x.far[0]) :
    fillSlot 0 k t x = some (putSlot t k 3 r.toNat 1, cmplSent r x) := by
  have hn : canSend x.far[0] 8 1 = 1 := by unfold canSend; omega
  simp [fillSlot, hr, hn, packRecs, cmplSent, endTag]

/-- Nothing but completions waits to be sent. -/
structure OnlyCmpl (x : Port) : Prop where
  reg : x.txReg = []
  ev : x.txEv = []
  data : x.txData = []

theorem fillSlots_none (h : OnlyCmpl x) (hcmpl : x.txCmpl = []) : fillSlots t x = (t, x) := by
  obtain ⟨hreg, hev, hdata⟩ := h
  simp [fillSlots, fillSlot_cmpl_none hcmpl, fillSlot_reg_none hreg, fillSlot_ev_none hev, fillSlot_data_none hdata]

theorem fillSlots_one (h : OnlyCmpl x) (hr : x.txCmpl = [r]) (hfar : 0 < x.far[0]) :
    fillSlots t x = (putSlot t 0 3 r.toNat 1, cmplSent r x) := by
  obtain ⟨hreg, hev, hdata⟩ : OnlyCmpl (cmplSent r x) := ⟨h.reg, h.ev, h.data⟩
  simp [fillSlots, fillSlot_cmpl_one hr hfar, fillSlot_reg_none hreg, fillSlot_ev_none hev, fillSlot_data_none hdata]

/-- The flit that carries the one completion. -/
def cmplFlit (r : BitVec 64) (x : Port) : TxFlit :=
  { putSlot {} 0 3 r.toNat 1 with credits := (takeCredits (cmplSent r x)).1 }

theorem cmplFlit_types (r : BitVec 64) (x : Port) : (cmplFlit r x).types = 3 := rfl

theorem cmplFlit_slots (r : BitVec 64) (x : Port) : (cmplFlit r x).slots = BitVec.ofNat 2560 r.toNat := BitVec.zero_or

theorem buildFlit_none (h : OnlyCmpl x) (hcmpl : x.txCmpl = []) (hret : x.ret = Vector.replicate 4 0) : buildFlit x = none := by
  have hcredits : (takeCredits x).1 = 0 := by rw [takeCredits, hret]; rfl
  unfold buildFlit
  rw [fillSlots_none h hcmpl]
  exact if_pos ⟨rfl, hcredits⟩

theorem buildFlit_one (h : OnlyCmpl x) (hr : x.txCmpl = [r]) (hfar : 0 < x.far[0]) :
    buildFlit x = some (cmplFlit r x, (takeCredits (cmplSent r x)).2) := by
  unfold buildFlit
  rw [fillSlots_one h hr hfar]
  exact if_neg fun htypes => absurd htypes.1 (by decide : (3 : BitVec 20) ≠ 0)

theorem endTag_done (tag : Nat) (x : Port) : ∀ u ∈ (endTag tag x).tags, u.1 = tag → u.2.done = some x.nextSeq := by
  intro u hu htag
  obtain ⟨v, -, rfl⟩ := List.mem_map.mp hu
  by_cases hv : v.1 = tag <;> simp_all

/-! ### The transmitter (R205) -/

section Emitted
variable (t : TxFlit) (seq : BitVec 16) (nme : Bool) (x : Port)

@[simp] theorem emitFlit_nextSeq : (emitFlit t seq nme x).nextSeq = x.nextSeq := rfl
@[simp] theorem emitFlit_replayPtr : (emitFlit t seq nme x).replayPtr = x.replayPtr := rfl
@[simp] theorem emitFlit_rb : (emitFlit t seq nme x).rb = x.rb := rfl
@[simp] theorem emitFlit_txCmpl : (emitFlit t seq nme x).txCmpl = x.txCmpl := rfl
@[simp] theorem emitFlit_far : (emitFlit t seq nme x).far = x.far := rfl
@[simp] theorem emitFlit_tags : (emitFlit t seq nme x).tags = x.tags := rfl

end Emitted

theorem txFlit_replays (h : x.replayPtr ≠ x.nextSeq) : txFlit nme x
    = emitFlit (mget x.rb (x.replayPtr.toNat % 64) {}) x.replayPtr nme { x with replayPtr := x.replayPtr + 1 } := if_pos h

theorem txFlit_full (h : x.replayPtr = x.nextSeq) (hfull : (x.nextSeq - x.oldest).toNat = 64) :
    txFlit nme x = emitFlit {} x.nextSeq nme x := (if_neg (not_not.mpr h)).trans (if_pos hfull)

/-- A port that keeps the flit `t` for replay under its next sequence number (R205). -/
def sequenced (t : TxFlit) (x : Port) : Port :=
  { x with rb := mset x.rb (x.nextSeq.toNat % 64) {} t, nextSeq := x.nextSeq + 1, replayPtr := x.nextSeq + 1 }

theorem txFlit_null (h : x.replayPtr = x.nextSeq) (hroom : (x.nextSeq - x.oldest).toNat ≠ 64) (hnone : buildFlit x = none) :
    txFlit nme x = emitFlit {} x.nextSeq nme x := by
  unfold txFlit
  rw [if_neg (not_not.mpr h), if_neg hroom, hnone]

theorem txFlit_sequenced (h : x.replayPtr = x.nextSeq) (hroom : (x.nextSeq - x.oldest).toNat ≠ 64)
    (hnew : buildFlit x = some (t, y)) : txFlit nme x = emitFlit t y.nextSeq nme (sequenced t y) := by
  unfold txFlit
  rw [if_neg (not_not.mpr h), if_neg hroom, hnew]
  rfl

/-- Two ports hold the same fences, flit counts, oldest flit and expected number. -/
def SameCounts (x y : Port) : Prop :=
  y.fences = x.fences ∧ y.txFlits = x.txFlits ∧ y.txMarkers = x.txMarkers ∧ y.oldest = x.oldest ∧ y.expected = x.expected

/-- A port that keeps the flit of its one completion for replay. -/
def cmplKept (r : BitVec 64) (x : Port) : Port := sequenced (cmplFlit r x) (takeCredits (cmplSent r x)).2

theorem cmplKept_counts (r : BitVec 64) (x : Port) : SameCounts x (cmplKept r x) := by
  simp only [SameCounts, cmplKept, sequenced, takeCredits, cmplSent, endTag, and_self]

theorem txFlit_cmpl (h : x.replayPtr = x.nextSeq) (hroom : (x.nextSeq - x.oldest).toNat ≠ 64) (honly : OnlyCmpl x)
    (hr : x.txCmpl = [r]) (hfar : 0 < x.far[0]) : txFlit nme x = emitFlit (cmplFlit r x) x.nextSeq nme (cmplKept r x) := by
  have hseq : (takeCredits (cmplSent r x)).2.nextSeq = x.nextSeq := by simp only [takeCredits, cmplSent, endTag]
  rw [txFlit_sequenced h hroom (buildFlit_one honly hr hfar), hseq, cmplKept]

/-- What the host sees of the completion's flit (R197, R198, R205). -/
theorem cmplKept_seen (r : BitVec 64) (x : Port) : let y := cmplKept r x
    y.nextSeq = x.nextSeq + 1 ∧ y.replayPtr = x.nextSeq + 1 ∧ y.txCmpl = [] ∧ y.far = x.far.set 0 (x.far[0] - 1)
      ∧ (∀ u ∈ y.tags, u.1 = x.itag (r.toNat % 1024) → u.2.done = some x.nextSeq)
      ∧ mget y.rb (x.nextSeq.toNat % 64) {} = cmplFlit r x := by
  have hdone := endTag_done (x.itag (r.toNat % 1024)) x
  simp only [cmplKept, sequenced, takeCredits, cmplSent, mget_mset_same, endTag] at hdone ⊢
  exact ⟨trivial, trivial, trivial, trivial, hdone, trivial⟩

/-- A port that sends flits, with no fence and no write of its block waiting, has sent the flit that its transmitter makes. -/
theorem exec_flitTransmit (hst : s.blk.ports[p].st = .active) (hidle : s.blk.ports[p].idleTx = false)
    (hfences : s.blk.ports[p].fences = []) (hpend : pendingAt (lnkBase p.val) s.blk = false) (hgood : s.blk.regs.badPar = [])
    (hkept : (txFlit (nmeOut s.blk) s.blk.ports[p]).fences = s.blk.ports[p].fences) :
    exec (.flitTransmit p) s = .next (s.upd (modPort p (txFlit (nmeOut s.blk)) s.blk)) := by
  have htransmits : s.blk.ports[p].transmits = true := by simp [Port.transmits, hst, hidle, -Fin.getElem_fin]
  refine next_upd_congr ?_
  unfold flitTime
  dsimp only
  rw [useRegs_good _ hgood, commitLnk_none hpend, ite_self, sendFlit, if_pos htransmits]
  exact checkFences_none (by rw [modPort_same, hkept, hfences])

/-- What every flit leaves of its port, and of the others. -/
theorem flit_sent {seq : BitVec 16} (hst : s.blk.ports[p].st = .active) (hidle : s.blk.ports[p].idleTx = false)
    (hfences : s.blk.ports[p].fences = []) (hpend : pendingAt (lnkBase p.val) s.blk = false) (hgood : s.blk.regs.badPar = [])
    (hflit : txFlit (nmeOut s.blk) s.blk.ports[p] = emitFlit t seq (nmeOut s.blk) y) (hsame : SameCounts s.blk.ports[p] y) :
    ∃ u : State, (exec (.flitTransmit p) s = .next u ∧ onlyPort p s u
        ∧ u.blk.ports[p].txFlits = s.blk.ports[p].txFlits + 1
        ∧ u.blk.ports[p].txMarkers = s.blk.ports[p].txMarkers + (if s.blk.ports[p].txFlits % 4096 = 0 then 1 else 0)
        ∧ u.blk.ports[p].nakOut = false ∧ u.blk.ports[p].oldest = s.blk.ports[p].oldest
        ∧ u.blk.ports[p].expected = s.blk.ports[p].expected)
      ∧ u.blk.ports[p] = emitFlit t seq (nmeOut s.blk) y := by
  obtain ⟨hfence, hflits, hmarkers, holdest, hexpected⟩ := hsame
  have hexec := exec_flitTransmit hst hidle hfences hpend hgood (by rw [hflit]; exact hfence)
  refine ⟨_, ⟨hexec, onlyPort_modPort _ _ _, ?_⟩, ?_⟩ <;> rw [State.upd_blk, modPort_same, hflit]
  have hmarker : b2n (y.txFlits % 4096 == 0) = if s.blk.ports[p].txFlits % 4096 = 0 then 1 else 0 := by
    rw [hflits, b2n]
    simp only [beq_iff_eq]
  refine ⟨?_, ?_, rfl, holdest, hexpected⟩
  · rw [← hflits]
    rfl
  · rw [← hmarker, ← hmarkers]
    rfl

/-! ### The timers (R206) -/

theorem nakTimer_runs (hst : b.ports[p].st = .active) (hidle : b.ports[p].idleRx = false) (hdiscard : b.ports[p].discard = false)
    (hnak : b.ports[p].nakState = true) : nakTimer p b = if b.ports[p].naks ≥ 4 then recoverPort p b
      else modPort p (fun x => { x with naks := x.naks + 1, nakOut := true }) b :=
  if_neg (by simp [Port.receives, hst, hidle, hdiscard, hnak, -Fin.getElem_fin])

theorem replayTimer_runs (hst : b.ports[p].st = .active) (hidle : b.ports[p].idleTx = false)
    (howed : b.ports[p].oldest ≠ b.ports[p].nextSeq) : replayTimer p b = if b.ports[p].timeouts ≥ 1 then recoverPort p b
      else modPort p (fun x => { x with timeouts := x.timeouts + 1, replayPtr := x.oldest }) b :=
  if_neg (by simp [Port.transmits, hst, hidle, howed, -Fin.getElem_fin])

end Sys2Proof.Machine

open Sys2Proof Sys2Proof.Machine

/-- Settles O20: each flit time is one case of the transmitter (`flit_sent`), and each expiry one of its timer (`nakTimer_runs`,
`replayTimer_runs`). -/
theorem flitTimesAndTimers : Obligations.FlitTimesAndTimers := by
  refine ⟨fun p s hst hidle hfences hpend hgood => ?flits, fun p s hst hidleRx hidleTx hdiscard => ?timers⟩
  case flits =>
    refine ⟨fun hreplay => ?replays, fun hptr hfull => ?full, fun hptr hroom hcmpl hreg hev hdata hret => ?idle,
      fun r hptr hroom hcmpl hreg hev hdata hfar => ?completes⟩
    case replays =>
      obtain ⟨t, hsent, hport⟩ := flit_sent hst hidle hfences hpend hgood (txFlit_replays hreplay) ⟨rfl, rfl, rfl, rfl, rfl⟩
      refine ⟨t, hsent, ?_⟩
      rw [hport]
      exact ⟨rfl, rfl, rfl, rfl, rfl⟩
    case full =>
      obtain ⟨t, hsent, hport⟩ := flit_sent hst hidle hfences hpend hgood (txFlit_full hptr hfull) ⟨rfl, rfl, rfl, rfl, rfl⟩
      refine ⟨t, hsent, ?_⟩
      rw [hport]
      exact ⟨rfl, rfl, rfl, rfl⟩
    case idle =>
      obtain ⟨t, hsent, hport⟩ := flit_sent hst hidle hfences hpend hgood
        (txFlit_null hptr hroom (buildFlit_none ⟨hreg, hev, hdata⟩ hcmpl hret)) ⟨rfl, rfl, rfl, rfl, rfl⟩
      refine ⟨t, hsent, ?_⟩
      rw [hport]
      exact ⟨rfl, rfl⟩
    case completes =>
      obtain ⟨t, hsent, hport⟩ := flit_sent hst hidle hfences hpend hgood
        (txFlit_cmpl hptr hroom ⟨hreg, hev, hdata⟩ hcmpl hfar) (cmplKept_counts _ _)
      refine ⟨t, hsent, ?_⟩
      obtain ⟨hseq, hptr, htx, hfar, htags, hrb⟩ := cmplKept_seen r s.blk.ports[p]
      rw [hport, emitFlit_nextSeq, emitFlit_replayPtr, emitFlit_txCmpl, emitFlit_far, emitFlit_tags, emitFlit_rb, hrb]
      exact ⟨hseq, hptr, htx, hfar, htags, cmplFlit_types _ _, cmplFlit_slots _ _⟩
  case timers =>
    refine ⟨fun hnak hfew => ?nakAgain, fun hnak hfour hrate => ?nakRecovers, fun howed hfirst => ?replayAgain,
      fun howed hsecond hrate => ?replayRecovers⟩
    case nakAgain => exact next_upd_congr ((nakTimer_runs hst hidleRx hdiscard hnak).trans (if_neg (by omega)))
    case nakRecovers =>
      refine ⟨_, next_upd_congr ((nakTimer_runs hst hidleRx hdiscard hnak).trans (if_pos hfour)), ?_, rfl⟩
      rw [State.upd_blk, (recoverPort_enters hrate).port]
      rfl
    case replayAgain =>
      refine next_upd_congr ((replayTimer_runs hst hidleTx howed).trans ((if_neg (by omega)).trans (modPort_congr ?_)))
      rw [hfirst]
    case replayRecovers =>
      refine ⟨_, next_upd_congr ((replayTimer_runs hst hidleTx howed).trans (if_pos hsecond)), ?_, rfl⟩
      rw [State.upd_blk, (recoverPort_enters hrate).port]
      rfl
end

section
/-! SUPPORT. The receiver between marker flits (R197, R203, R205): a flit whose CRC is wrong, one ahead of the expected one, and
one in sequence whose slots are empty. -/

namespace Sys2Proof.Machine

open Sys2Proof

variable {p : PortId} {b : Block} {x y : Port} {f wire : BitVec 2880} {now : Nat} {ack : BitVec 16}

/-! ### What the lanes bring -/

/-- The flit that a port's lanes bring outside markers. -/
def flitHeard (wire : BitVec 2880) (x : Port) : BitVec 2880 :=
  BitVec.ofNat 2880 (natOfBytes (scrFlit (lanesOf x.widthRx) x.rxScr (bytesOf 360 wire)).2)

/-- A port whose lanes have brought a flit outside markers. -/
def heard (wire : BitVec 2880) (x : Port) : Port :=
  { x with
    rxScr := (scrFlit (lanesOf x.widthRx) x.rxScr (bytesOf 360 wire)).1, rxFifo := through 8 (flitHeard wire x) x.rxFifo
    rxFlits := x.rxFlits + 1 }

/-! ### A flit that is not whole -/

/-- A replay is asked for, unless a nak is out already (R205). -/
theorem startNak_asks (x : Port) :
    (startNak x).nakState = true ∧ (startNak x).nakOut = (!x.nakState || x.nakOut) := by
  unfold startNak
  split
  case isTrue h => simp [h]
  case isFalse h => simp [h]

theorem startNak_keep {α : Type} (g : Port → α)
    (hg : ∀ (x : Port) nakState nakOut naks, g { x with nakState, nakOut, naks } = g x) (x : Port) : g (startNak x) = g x := by
  unfold startNak
  split
  · rfl
  · exact hg x ..

/-- A port that has heard a flit whose CRC is wrong. -/
def badHeard (wire : BitVec 2880) (x : Port) : Port := startNak { heard wire x with crcInPeriod := x.crcInPeriod + 1 }

/-- A flit whose CRC is wrong asks for replay, and takes nothing from the flit (R203, R205). -/
theorem badHeard_seen (wire : BitVec 2880) (x : Port) : let y := badHeard wire x
    y.crcInPeriod = x.crcInPeriod + 1 ∧ y.nakState = true ∧ y.nakOut = (!x.nakState || x.nakOut) ∧ y.expected = x.expected
      ∧ y.lastGood = x.lastGood ∧ y.rxq = x.rxq ∧ y.rxFlits = x.rxFlits + 1 := by
  obtain ⟨hnak, hout⟩ := startNak_asks { heard wire x with crcInPeriod := x.crcInPeriod + 1 }
  have hkeep {α : Type} (g : Port → α) hg : g (badHeard wire x) = g { heard wire x with crcInPeriod := x.crcInPeriod + 1 } :=
    startNak_keep g hg _
  exact ⟨hkeep Port.crcInPeriod fun _ _ _ _ => rfl, hnak, hout, hkeep Port.expected fun _ _ _ _ => rfl,
    hkeep Port.lastGood fun _ _ _ _ => rfl, hkeep Port.rxq fun _ _ _ _ => rfl, hkeep Port.rxFlits fun _ _ _ _ => rfl⟩

/-! ### What a good flit acknowledges -/

/-- The replay that a flit asks for (R205). -/
def replayAsked (f : BitVec 2880) (x : Port) : Port := if fNak f then replayFrom (fAck f + 1) x else x

/-- What a flit outside markers acknowledges, asks to replay and says of the host's quiet time (R197, R202, R205). -/
def ackTaken (f : BitVec 2880) (now : Nat) (x : Port) : Port :=
  let x := replayAsked f (txRelease (fAck f) x)
  if x.features.getLsbD 2 then { x with quiet := fQuiet f, quietAt := now } else x

theorem txRelease_eq (ack : BitVec 16) (x : Port) : txRelease ack x = { x with
    oldest := (txRelease ack x).oldest, rb := (txRelease ack x).rb, timeouts := (txRelease ack x).timeouts
    tags := (txRelease ack x).tags, replayPtr := (txRelease ack x).replayPtr } := by
  unfold txRelease
  dsimp only
  split <;> rfl

theorem replayAsked_eq (f : BitVec 2880) (x : Port) :
    replayAsked f x = { x with replayPtr := (replayAsked f x).replayPtr } := by
  unfold replayAsked replayFrom
  split
  · split <;> rfl
  · rfl

theorem ackTaken_eq (f : BitVec 2880) (now : Nat) (x : Port) : ackTaken f now x = { replayAsked f (txRelease (fAck f) x) with
    quiet := (ackTaken f now x).quiet, quietAt := (ackTaken f now x).quietAt } := by
  unfold ackTaken
  dsimp only
  split <;> rfl

/-- What neither the replay buffer, the tags nor the quiet time hold, an acknowledgement keeps. -/
theorem ackTaken_keep {α : Type} (g : Port → α)
    (hg : ∀ (x : Port) oldest rb timeouts tags replayPtr quiet quietAt,
      g { x with oldest, rb, timeouts, tags, replayPtr, quiet, quietAt } = g x) (f : BitVec 2880) (now : Nat) (x : Port) :
    g (ackTaken f now x) = g x := by
  rw [ackTaken_eq, replayAsked_eq, txRelease_eq]
  exact hg x ..

theorem ackTaken_tags (f : BitVec 2880) (now : Nat) (x : Port) : (ackTaken f now x).tags = (txRelease (fAck f) x).tags := by
  rw [ackTaken_eq, replayAsked_eq]

/-- A tag whose final record went out in an acknowledged flit is free again (R197). -/
theorem txRelease_frees (hack : (ack + 1 - x.oldest).toNat ≤ (x.nextSeq - x.oldest).toNat) :
    ∀ u ∈ (txRelease ack x).tags, ∀ q, u.2.done = some q → (ack + 1 - x.oldest).toNat ≤ (q - x.oldest).toNat := by
  intro u hu q hq
  by_cases hnone : (ack + 1 - x.oldest).toNat = 0
  · omega
  · unfold txRelease at hu
    dsimp only at hu
    rw [if_neg (by omega)] at hu
    have hleft := (List.mem_filter.mp hu).2
    simpa [hq] using hleft

/-! ### What a good flit brings -/

theorem acceptSlots_empty {l : List Nat} (h : ∀ k ∈ l, fType f k = 0) : acceptSlots f now l x = (x, none) := by
  induction l with
  | nil => rfl
  | cons k l ih =>
    have hslot : acceptSlot f now k x = (x, none) := by simp [acceptSlot, h k]
    rw [acceptSlots, hslot]
    exact ih fun j hj => h j (List.mem_cons_of_mem _ hj)

/-- A port that has heard a whole flit ahead of the expected one. -/
def aheadHeard (f : BitVec 2880) (now : Nat) (x : Port) : Port := startNak (ackTaken f now x)

/-- A flit ahead of the expected one asks for replay, and brings nothing (R205). -/
theorem aheadHeard_seen (f : BitVec 2880) (now : Nat) (x : Port) : let y := aheadHeard f now x
    y.nakState = true ∧ y.nakOut = (!x.nakState || x.nakOut) ∧ y.expected = x.expected ∧ y.rxq = x.rxq ∧ y.far = x.far := by
  obtain ⟨hnak, hout⟩ := startNak_asks (ackTaken f now x)
  have hack {α : Type} (g : Port → α) hg := ackTaken_keep g hg f now x
  have hkeep {α : Type} (g : Port → α) hg : g (aheadHeard f now x) = g (ackTaken f now x) := startNak_keep g hg _
  rw [hack Port.nakState fun _ _ _ _ _ _ _ _ => rfl, hack Port.nakOut fun _ _ _ _ _ _ _ _ => rfl] at hout
  exact ⟨hnak, hout, (hkeep Port.expected fun _ _ _ _ => rfl).trans (hack Port.expected fun _ _ _ _ _ _ _ _ => rfl),
    (hkeep Port.rxq fun _ _ _ _ => rfl).trans (hack Port.rxq fun _ _ _ _ _ _ _ _ => rfl),
    (hkeep Port.far fun _ _ _ _ => rfl).trans (hack Port.far fun _ _ _ _ _ _ _ _ => rfl)⟩

/-- A port that has taken flit `expected`, which brings credits only (R200, R205). -/
def nextHeard (f : BitVec 2880) (now : Nat) (x : Port) : Port :=
  let x := ackTaken f now x
  takeReturns f { x with
    lastGood := x.expected, expected := x.expected + 1, rxSeqd := x.rxSeqd + 1, nakState := false, naks := 0 }

/-- A flit in sequence advances the expected number, and what it acknowledges and returns is taken (R197, R200, R205). -/
theorem nextHeard_seen (f : BitVec 2880) (now : Nat) (x : Port) : let y := nextHeard f now x
    y.expected = x.expected + 1 ∧ y.lastGood = x.expected ∧ y.nakState = false ∧ y.rxq = x.rxq ∧ y.rxSeqd = x.rxSeqd + 1
      ∧ y.tags = (txRelease (fAck f) x).tags ∧ ∀ k : Fin 4, y.far[k] = x.far[k] + fCredit f k.val := by
  have hack {α : Type} (g : Port → α) hg := ackTaken_keep g hg f now x
  have hexpected := hack Port.expected fun _ _ _ _ _ _ _ _ => rfl
  have hseqd := hack Port.rxSeqd fun _ _ _ _ _ _ _ _ => rfl
  have hfar := hack Port.far fun _ _ _ _ _ _ _ _ => rfl
  refine ⟨congrArg (· + 1) hexpected, hexpected, rfl, hack Port.rxq fun _ _ _ _ _ _ _ _ => rfl,
    congrArg (· + 1) hseqd, ackTaken_tags f now x, fun k => ?_⟩
  simp [nextHeard, takeReturns, hfar]

theorem goodFlit_ahead (hnew : fSeq f ≠ x.expected) (hahead : (fSeq f - x.expected).toNat < 32768) :
    goodFlit f now false x = (aheadHeard f now x, none) := by
  have hexpected : (ackTaken f now x).expected = x.expected := ackTaken_keep Port.expected (fun _ _ _ _ _ _ _ _ => rfl) f now x
  have hne : fSeq f - x.expected ≠ 0 := sub_ne_zero.mpr hnew
  have hpos : 0 < (fSeq f - x.expected).toNat := Nat.pos_of_ne_zero fun h => hne (BitVec.eq_of_toNat_eq h)
  have hother : ¬ (!isNull f && fSeq f == (ackTaken f now x).expected) = true := by simp [hexpected, hnew]
  have hseq : seqAhead (fSeq f) (ackTaken f now x).expected = true := by
    rw [seqAhead, hexpected]
    exact decide_eq_true ⟨hpos, hahead⟩
  exact (if_neg hother).trans (if_pos hseq)

theorem goodFlit_inSequence (hnull : isNull f = false) (hseq : fSeq f = x.expected) (hempty : ∀ k, k < 5 → fType f k = 0) :
    goodFlit f now false x = (nextHeard f now x, none) := by
  have hexpected : (ackTaken f now x).expected = x.expected := ackTaken_keep Port.expected (fun _ _ _ _ _ _ _ _ => rfl) f now x
  have hmine : (!isNull f && fSeq f == (ackTaken f now x).expected) = true := by simp [hexpected, hnull, hseq]
  refine (if_pos hmine).trans (acceptSlots_empty fun k hk => hempty k ?_)
  simp only [List.mem_cons, List.not_mem_nil, or_false] at hk
  omega

/-! ### A flit arrives -/

/-- A port that listens between marker flits. -/
structure Listens (x : Port) : Prop where
  active : x.st = .active
  awake : x.idleRx = false
  keeps : x.discard = false
  between : x.rxFlits % 4096 ≠ 0

theorem Listens.receives (h : Listens x) : x.receives = true := by
  obtain ⟨hst, hidle, hdiscard, -⟩ := h
  simp [Port.receives, hst, hidle, hdiscard]

theorem noteSpare_none (p : PortId) (b : Block) : noteSpare p 0 b = b := if_neg fun h => h.1 rfl

theorem noteEarly_none (left : Nat) (b : Block) : noteEarly left 0 b = b := if_pos (.inr (.inr rfl))

/-- Between markers, with nothing observed of the lanes, a flit whose CRC is wrong is counted, and asks for replay. -/
theorem rxFlit_bad (h : Listens b.ports[p])
    (hbad : flitCrc (flitHeard wire b.ports[p]) ≠ fCrc (flitHeard wire b.ports[p])) : rxFlit p wire {} b
      = ctrAdd (lnkBase p.val + 0x20) 1 (modPort p (badHeard wire) b) := by
  have hmarker : (b.ports[p].rxFlits % 4096 == 0) = false := beq_eq_false_iff_ne.mpr h.between
  unfold rxFlit
  simp only [h.receives, hmarker, Bool.not_true, Bool.false_eq_true, if_false, Bool.false_and, noteSpare_none, modPort_modPort]
  exact (if_pos hbad).trans (congrArg (ctrAdd _ 1) (modPort_congr rfl))

/-- One that is whole is taken. -/
theorem rxFlit_good (h : Listens b.ports[p])
    (hcrc : flitCrc (flitHeard wire b.ports[p]) = fCrc (flitHeard wire b.ports[p]))
    (htaken : goodFlit (flitHeard wire b.ports[p]) b.now false (heard wire b.ports[p]) = (y, none))
    (hrxq : y.rxq = b.ports[p].rxq) : rxFlit p wire {} b = modPort p (fun _ => y) b := by
  have hmarker : (b.ports[p].rxFlits % 4096 == 0) = false := beq_eq_false_iff_ne.mpr h.between
  unfold rxFlit
  simp only [h.receives, hmarker, Bool.not_true, Bool.false_eq_true, if_false, Bool.false_and, noteSpare_none, modPort_same]
  refine (if_neg (not_not.mpr hcrc)).trans ?_
  generalize hr : goodFlit _ _ false _ = r
  obtain rfl : r = (y, none) := hr.symm.trans htaken
  have hasks : ∀ x : Port, x.rxq = b.ports[p].rxq → askCount y - askCount x = 0 := fun x hx => by
    rw [askCount, askCount, hrxq, hx, Nat.sub_self]
  dsimp only
  rw [hasks, noteEarly_none, modPort_modPort]
  rfl

end Sys2Proof.Machine

open Sys2Proof Sys2Proof.Machine

/-- Settles O21: a flit whose CRC is wrong is counted (`rxFlit_bad`), and a whole one is taken (`rxFlit_good`) as one ahead of the
expected one (`goodFlit_ahead`) or in sequence (`goodFlit_inSequence`). -/
theorem flitsArrive : Obligations.FlitsArrive := by
  intro p wire s hst hidle hdiscard hbetween hgood
  have hlistens : Listens s.blk.ports[p] := ⟨hst, hidle, hdiscard, hbetween⟩
  have hrow : exec (.flitReceive p wire {}) s = .next (s.upd (rxFlit p wire {} s.blk)) :=
    next_upd_congr (by rw [useRegs_good _ hgood])
  refine ⟨fun hbad => ?bad, fun hcrc hnull hnew hahead => ?ahead, fun hcrc hnull hseq hempty => ?inSequence⟩
  case bad =>
    refine ⟨_, hrow.trans (next_upd_congr (rxFlit_bad hlistens hbad)), rfl, ctr_ctrAdd _ _ _, ?_⟩
    obtain ⟨hcount, hnak, hout, hexpected, hlast, hrxq, hflits⟩ := badHeard_seen wire s.blk.ports[p]
    rw [State.upd_blk, ctrAdd_ports, modPort_same]
    exact ⟨hcount, hnak, hout, hexpected, hlast, hrxq, hflits, fun q hq => modPort_other _ _ hq⟩
  case ahead =>
    obtain ⟨hnak, hout, hexpected, hrxq, hfar⟩ :=
      aheadHeard_seen (flitHeard wire s.blk.ports[p]) s.blk.now (heard wire s.blk.ports[p])
    have htaken := rxFlit_good hlistens hcrc (goodFlit_ahead hnew hahead) hrxq
    refine ⟨_, hrow.trans (next_upd_congr htaken), onlyPort_modPort _ _ _, ?_⟩
    rw [State.upd_blk, modPort_same]
    exact ⟨hnak, hout, hexpected, hrxq, hfar⟩
  case inSequence =>
    obtain ⟨hexpected, hlast, hnak, hrxq, hseqd, htags, hfar⟩ :=
      nextHeard_seen (flitHeard wire s.blk.ports[p]) s.blk.now (heard wire s.blk.ports[p])
    have htaken := rxFlit_good hlistens hcrc (goodFlit_inSequence hnull hseq hempty) hrxq
    refine ⟨_, hrow.trans (next_upd_congr htaken), onlyPort_modPort _ _ _, ?_⟩
    rw [State.upd_blk, modPort_same]
    refine ⟨hexpected, hlast, hnak, hrxq, hseqd, fun hack => ?_, hfar⟩
    rw [htags]
    exact txRelease_frees (x := heard wire s.blk.ports[p]) hack
end

section
/-! SUPPORT. Register records (R193, R194, R209): a record that waits alone is executed at once and answered on its own port; the
read of a channel's queue settings, and the writes that are refused. -/

namespace Sys2Proof.Machine

open Sys2Proof

variable {p : PortId} {r : BitVec 128} {s : State}

/-! ### A record that waits alone -/

/-- A port whose one record is executed gives its unit of pool 2 back (R194). -/
def recordTaken (x : Port) : Port := { x with rxq := [], ret := x.ret.set 2 (x.ret[2] + 1) }

theorem exec_registerRecord (hw : waitsAlone p (.reg r s.blk.ports[p].gen) s) (h5 : 5 ≤ s.blk.start.step) (htype : recType r ≠ 0) :
    exec (.registerRecord p r) s = .next (runRec p r s.blk.ports[p].gen (s.upd (modPort p recordTaken s.blk))) := by
  obtain ⟨hP0, hrxq, hfences, -, -⟩ := hw
  have htake : takeItem (isReg r) [] s.blk.ports[p].rxq = some ([], .reg r s.blk.ports[p].gen, []) := by
    rw [hrxq, takeItem, if_pos (by simp [isReg])]
  have harrive : arrive p (isReg r) (acceptReg r) s.blk = s.blk := by simp only [arrive, htake]
  have hfree : fenced s.blk.ports[p] [] (field r.toNat 21 12 + 1024 * s.blk.ports[p].gen) none = false := by
    rw [fenced, hfences]
    rfl
  have htaken : returnCredit p 2 1 s.blk.ports[p].gen (modPort p (fun x => { x with rxq := [] }) s.blk)
      = modPort p recordTaken s.blk := by
    rw [returnCredit_own 2 1 (by rw [modPort_same]), modPort_modPort]
    rfl
  have hrow : regRecord p r s = runRec p r s.blk.ports[p].gen
      (wakeBy (.link p) (recAddr r) (s.upd (returnCredit p 2 1 s.blk.ports[p].gen
        (modPort p (fun x => { x with rxq := [] }) s.blk)))) := by
    unfold regRecord
    rw [if_neg (by omega)]
    simp only [harrive, htake, hfree]
    rfl
  have hexec : exec (.registerRecord p r) s = .next (regRecord p r s) := rfl
  rw [hexec, hrow, htaken, wakeBy_P0 (s := s.upd (modPort p recordTaken s.blk)) _ _ hP0]

/-- A port that sends the response `a`. -/
def responseSent (a : BitVec 128) (x : Port) : Port := { x with txReg := x.txReg ++ [a] }

/-- A port whose one record has been executed and answered with `a`. -/
def recordAnswered (a : BitVec 128) (x : Port) : Port := responseSent a (recordTaken x)

/-- A response of the link in force goes out at once, where none of its port waits for a unit (R209). -/
theorem finishRec_known {ty gen : Nat} (st : Status) (hi : Option Status) (d0 d1 : Word) (h5 : 5 ≤ s.blk.start.step)
    (hdefers : s.blk.defers = []) (hgen : s.blk.ports[p].gen = gen) (hup : s.blk.ports[p].st ≠ .disabled) :
    finishRec p ty (some st) hi r d0 d1 gen s
      = s.upd { modPort p (responseSent (recResponse ty (some st) hi r d0 d1)) s.blk with resp := st } := by
  have hanswering : answering p gen { s.blk with resp := st } = false := by rw [answering, hdefers]; rfl
  have hreply : reply p (recResponse ty (some st) hi r d0 d1) gen { s.blk with resp := st }
      = { modPort p (responseSent (recResponse ty (some st) hi r d0 d1)) s.blk with resp := st } :=
    (if_neg (Bool.eq_false_iff.mp hanswering)).trans (if_pos ⟨hgen, hup⟩)
  exact (if_neg (Nat.not_lt.mpr h5)).trans (congrArg s.upd hreply)

/-! ### Queue settings of a channel (R290) -/

theorem queueSettings_toNat (c : ChanId) : (BitVec.ofNat 32 (chnBase c.val + 4)).toNat = chnBase c.val + 4 := by
  revert c
  decide

/-- The queue settings have no bits that a read clears (R45). -/
theorem rcMask_queueSettings (c : ChanId) : rcMask (chnBase c.val + 4) = 0 := by
  revert c
  decide

theorem liveView_queueSettings (c : ChanId) (b : Block) : liveView (chnBase c.val + 4) b = rw (chnBase c.val + 4) b := by
  have hreg : regAt (chnBase c.val + 4) = some (.rw 0x007F007F 0x00300010) := regAt_chn c (by decide) (by decide)
  have hbase : baseOf (chnBase c.val + 4) = chnBase c.val := baseOf_add (chnBase_mod _) (by decide)
  have hchan : (chnBase c.val - 0x40000) / 0x1000 = c.val := chanOf_chn c
  have hlow : 0x40000 ≤ chnBase c.val := by unfold chnBase; omega
  have hhigh : chnBase c.val < 0x60000 := by have := c.isLt; unfold chnBase; omega
  unfold liveView
  simp only [hreg, hbase, Nat.add_sub_cancel_left]
  unfold sageBase clkBase pwrBase thmBase otpBase bstBase twpBase calBase hndBase srlBase savBase
  repeat rw [if_neg (by omega)]
  rw [if_pos hhigh, hchan]
  rfl

/-- A read of a channel's queue settings shows the live value, and changes nothing (R44). -/
theorem readReg_queueSettings (path : Path) (c : ChanId) (b : Block) :
    readReg path (BitVec.ofNat 32 (chnBase c.val + 4)) b = (.ok, rw (chnBase c.val + 4) b, b) := by
  have hlow : (chnBase c.val + 4) % 0x1000 = 4 := by have := chnBase_mod c.val; omega
  have h4 : (chnBase c.val + 4) % 4 = 0 := by omega
  have hmapped : mapped (chnBase c.val + 4) = true := by
    rw [mapped, liveOf, hlow, if_neg (by decide), regAt_chn c (by decide) (by decide)]
    rfl
  have hbase : chnBase c.val ≥ 0x40000 := by unfold chnBase; omega
  have hclears : readClears (chnBase c.val + 4) b = b := by
    unfold readClears
    rw [if_neg (by omega), if_neg (by omega), if_pos (rcMask_queueSettings c)]
  unfold readReg
  simp only [queueSettings_toNat, h4, hmapped, hlow, liveView_queueSettings, hclears]
  rfl

theorem recRead32_queueSettings {c : ChanId} (gen : Nat) (h : recAddr r = BitVec.ofNat 32 (chnBase c.val + 4)) :
    recRead32 p r gen s = finishRec p 9 (some .ok) none r (rw (chnBase c.val + 4) s.blk) 0 gen s := by
  rw [recRead32, h, readReg_queueSettings]
  rfl

/-! ### Refused writes -/

/-- `writeReg_refused` asks for right parity everywhere; of all registers the check of a write uses IDN_REG_OWNER alone (R57). -/
theorem writeReg_refusedGood {path : Path} {last : Option Bool} {addr data : Word} {be : BitVec 4} {i : Nat}
    (hsafe : s.blk.sage.safe = false) (hgood : s.blk.regs.badPar.contains 0x14 = false)
    (h : writeFault path addr be s.blk = some i) :
    writeReg path last addr data be s = (some .accessError, s.upd (accessFault i path addr s.blk)) := by
  have hown : useReg 0x14 s.blk = s.blk := if_neg (Bool.eq_false_iff.mp hgood)
  unfold writeReg
  simp only [hown, State.upd_self, safeRefuses, hsafe, h]
  simp

theorem recWrite64_unaligned (gen : Nat) (h : (recAddr r).toNat % 8 ≠ 0) :
    recWrite64 p r gen s = recUnaligned p 10 r (recLo r) (recHi r) gen s := if_pos h

/-- A record whose access is refused is answered with ACCESS_ERROR on its port, and changes no register (R44, R194). -/
structure RecordRefused (p : PortId) (i : Nat) (a : BitVec 128) (s t : State) : Prop where
  mem : t.mem = s.mem
  txReg : t.blk.ports[p].txReg = s.blk.ports[p].txReg ++ [a]
  rxq : t.blk.ports[p].rxq = []
  ret : t.blk.ports[p].ret = s.blk.ports[p].ret.set 2 (s.blk.ports[p].ret[2] + 1)
  live : t.blk.regs.live = s.blk.regs.live
  pend : t.blk.regs.pend = s.blk.regs.pend
  hnd : t.blk.hnd = s.blk.hnd
  shown : (rcGet 0x18 t.blk).getLsbD i = true

theorem finishRec_refused {i ty : Nat} (hi : Option Status) (d0 d1 : Word) (hlt : i < 32) (h5 : 5 ≤ s.blk.start.step)
    (hdefers : s.blk.defers = []) (hup : s.blk.ports[p].st ≠ .disabled) (hlog : reactionOf s.blk (fs .regAccess) = 0) :
    RecordRefused p i (recResponse ty (some .accessError) hi r d0 d1) s
      (finishRec p ty (some .accessError) hi r d0 d1 s.blk.ports[p].gen
        (s.upd (accessFault i (.link p) (recAddr r) (modPort p recordTaken s.blk)))) := by
  have hlog' : reactionOf (modPort p recordTaken s.blk) (fs .regAccess) = 0 := hlog
  obtain ⟨hrest, hports⟩ := accessFault_quiet i (.link p) (recAddr r) hlog'
  have hbit := rcGet_regErr (recAddr r) (modPort p recordTaken s.blk) hlt
  generalize accessFault i (.link p) (recAddr r) (modPort p recordTaken s.blk) = c at hrest hports
  have hport : samePort (recordTaken s.blk.ports[p]) c.ports[p] := by
    have := hports p
    rwa [regErr_eq, modPort_same] at this
  have hkept : c.start = s.blk.start ∧ c.defers = s.blk.defers ∧ c.regs.live = s.blk.regs.live ∧ c.regs.pend = s.blk.regs.pend
      ∧ c.hnd = s.blk.hnd ∧ rcGet 0x18 c = rcGet 0x18 (regErr i (recAddr r) (modPort p recordTaken s.blk)) := by
    rw [hrest]
    refine ⟨?_, ?_, ?_, ?_, ?_, rfl⟩ <;> rw [regErr_eq] <;> rfl
  obtain ⟨hstart, hdef, hlive, hpend, hhnd, hrc⟩ := hkept
  rw [finishRec_known _ _ _ _ (by rwa [State.upd_blk, hstart]) (by rwa [State.upd_blk, hdef]) (by rw [State.upd_blk, hport]; rfl)
    (by rw [State.upd_blk, hport]; exact hup)]
  have hafter : (modPort p (responseSent (recResponse ty (some .accessError) hi r d0 d1)) c).ports[p]
      = responseSent (recResponse ty (some .accessError) hi r d0 d1) c.ports[p] := modPort_same _ _ _
  rw [hport] at hafter
  exact ⟨rfl, congrArg Port.txReg hafter, congrArg Port.rxq hafter, congrArg Port.ret hafter, hlive, hpend, hhnd,
    (congrArg (fun w : Word => w.getLsbD i) hrc).trans hbit⟩

end Sys2Proof.Machine

open Sys2Proof Sys2Proof.Machine

/-- Settles O27: a record that waits alone is executed (`exec_registerRecord`) and answered (`finishRec_known`), with the live value
(`readReg_queueSettings`) or as a refused access (`finishRec_refused`). -/
theorem registerRecords : Obligations.RegisterRecords := by
  intro p r s hw h5 hP0 hdefers
  obtain ⟨-, -, -, -, hup⟩ := id hw
  refine ⟨fun c htype haddr => ?read, fun htype hen h4 hsafe hgood hlog => ?narrow, fun htype h8 hsafe hlog => ?unaligned⟩
  case read =>
    have hrun := exec_registerRecord hw h5 (by omega)
    have hread : runRec p r s.blk.ports[p].gen (s.upd (modPort p recordTaken s.blk)) = _ := if_pos htype
    rw [hread, recRead32_queueSettings _ haddr, finishRec_known (s := s.upd (modPort p recordTaken s.blk)) _ _ _ _ h5 hdefers
      (by rw [State.upd_blk, modPort_same]; rfl) (by rw [State.upd_blk, modPort_same]; exact hup), State.upd_blk,
      modPort_modPort, State.upd_upd] at hrun
    have hport := modPort_same s.blk p (recordAnswered (recResponse 9 (some .ok) none r (rw (chnBase c.val + 4) s.blk) 0))
    have honly := onlyPort_modPort p (recordAnswered (recResponse 9 (some .ok) none r (rw (chnBase c.val + 4) s.blk) 0)) s
    refine ⟨_, ?_, hrun, rfl, congrArg Port.txReg hport, congrArg Port.rxq hport, congrArg Port.ret hport, rfl, rfl, rfl⟩
    exact honly
  case narrow =>
    have hrun := exec_registerRecord hw h5 (by omega)
    have hwrite : runRec p r s.blk.ports[p].gen (s.upd (modPort p recordTaken s.blk)) = _ :=
      (if_neg (by omega)).trans (if_pos htype)
    have hbe : BitVec.ofNat 4 (recEn r) ≠ 15 := fun h => hen (by simpa using congrArg BitVec.toNat h)
    rw [hwrite, recWrite32,
      writeReg_refusedGood (s := s.upd (modPort p recordTaken s.blk)) hsafe hgood (writeFault_narrow h4 hbe)] at hrun
    obtain ⟨hmem, htx, hrxq, hret, hlive, hpend, hhnd, hshown⟩ :=
      finishRec_refused (i := 0) (ty := 10) (r := r) none (recLo r) (recHi r) (by decide) h5 hdefers hup hlog
    exact ⟨_, ⟨hrun, hmem, htx, hrxq, hret, hlive, hpend, hhnd⟩, hshown⟩
  case unaligned =>
    have hrun := exec_registerRecord hw h5 (by omega)
    have hwrite : runRec p r s.blk.ports[p].gen (s.upd (modPort p recordTaken s.blk)) = _ :=
      (if_neg (by omega)).trans ((if_neg (by omega)).trans ((if_neg (by omega)).trans (if_pos htype)))
    rw [hwrite, recWrite64_unaligned _ h8, recUnaligned] at hrun
    obtain ⟨hmem, htx, hrxq, hret, hlive, hpend, hhnd, hshown⟩ :=
      finishRec_refused (i := 1) (ty := 10) (r := r) (some .accessError) (recLo r) (recHi r) (by decide) h5 hdefers hup hlog
    exact ⟨_, ⟨hrun, hmem, htx, hrxq, hret, hlive, hpend, hhnd⟩, hshown⟩
end

section
/-! SUPPORT. Lists keyed by number without a default, the handle table and the segment map: what a lookup gives after a store or a
deletion. -/

namespace Sys2Proof.Machine

open Sys2Proof

variable {b : Block}

/-! ### Lookups -/

section Lookup
variable {α : Type}

@[simp] theorem mfind_mput_same (m : SMap α) (k : Nat) (v : α) : mfind (mput m k v) k = some v := by
  induction m with
  | nil => simp [mput, mfind]
  | cons e t ih => simp only [mput]; split <;> [skip; split] <;> simp_all [mfind]

@[simp] theorem mfind_mdel_same (m : SMap α) (k : Nat) : mfind (mdel m k) k = none := by
  simp [mfind, mdel, List.find?_filter]

theorem mfind_mdel_other (m : SMap α) {k j : Nat} (h : j ≠ k) : mfind (mdel m k) j = mfind m j := by
  have hkeys : (fun e : Nat × α => decide ((e.1 != k) = true ∧ (e.1 == j) = true)) = fun e => e.1 == j := by
    funext e
    by_cases he : e.1 = j <;> simp [he, h]
  unfold mfind mdel
  rw [List.find?_filter, hkeys]

end Lookup

/-! ### The handle table -/

@[simp] theorem handleOf_setHandle_same (h : Nat) (x : Handle) (b : Block) : handleOf (setHandle h x b) h = some x :=
  mfind_mput_same _ _ _

theorem modHandle_of {h : Nat} {x : Handle} (f : Handle → Handle) (hx : handleOf b h = some x) :
    modHandle h f b = setHandle h (f x) b := by
  unfold modHandle
  rw [hx]

/-- A handle that serves requests, other than handle 0, is ACTIVE in the table (R214). -/
theorem handleSize_active {h n : Nat} (h0 : h ≠ 0) (hsize : handleSize b h = some n) :
    ∃ x, handleOf b h = some x ∧ x.st = .active ∧ x.size = n := by
  unfold handleSize at hsize
  rw [if_neg h0] at hsize
  cases hx : handleOf b h with
  | none => simp [hx] at hsize
  | some x =>
    simp only [hx, Option.ite_none_right_eq_some, Option.some.injEq] at hsize
    exact ⟨x, rfl, hsize⟩

/-- A handle of the table serves requests exactly while it is ACTIVE (R214). -/
theorem handleSize_of {h : Nat} {x : Handle} (h0 : h ≠ 0) (hx : handleOf b h = some x) :
    handleSize b h = if x.st = .active then some x.size else none := by
  unfold handleSize
  rw [if_neg h0, hx]

/-! ### The segment map -/

/-- A key of the map names one handle and one logical segment. -/
theorem mapKey_fields {h l : Nat} (hl : l < 2 ^ 21) : mapKey h l / 2 ^ 21 = h ∧ mapKey h l % 2 ^ 21 = l := by
  unfold mapKey
  omega

theorem mapKey_div_mod (k : Nat) : mapKey (k / 2 ^ 21) (k % 2 ^ 21) = k := by
  unfold mapKey
  omega

end Sys2Proof.Machine
end

section
/-! SUPPORT. The end of a drain (R235): what the release of a physical and of a logical segment leaves of the map and of the handle
block, and which segments a drain releases. -/

namespace Sys2Proof.Machine

open Sys2Proof

variable {b : Block} {r : HndRun}

/-! ### What a release leaves alone -/

@[simp] theorem retireSeg_hnd (s : Nat) (b : Block) : (retireSeg s b).hnd = b.hnd := emit_hnd _ _ _

@[simp] theorem retireSeg_map (s : Nat) (b : Block) : (retireSeg s b).srl.map = b.srl.map := by
  unfold retireSeg
  rw [emit_srl]
  rfl

@[simp] theorem freeSeg_hnd (s : Nat) (b : Block) : (freeSeg s b).hnd = b.hnd := rfl

@[simp] theorem freeSeg_map (s : Nat) (b : Block) : (freeSeg s b).srl.map = b.srl.map := rfl

@[simp] theorem releaseSeg_hnd (s : Nat) (retire : Bool) (b : Block) : (releaseSeg s retire b).hnd = b.hnd := by
  unfold releaseSeg
  split
  · exact retireSeg_hnd _ _
  · exact freeSeg_hnd _ _

@[simp] theorem releaseSeg_map (s : Nat) (retire : Bool) (b : Block) : (releaseSeg s retire b).srl.map = b.srl.map := by
  unfold releaseSeg
  split
  · exact retireSeg_map _ _
  · exact freeSeg_map _ _

@[simp] theorem releaseLseg_hnd (h l : Nat) (b : Block) : (releaseLseg h l b).hnd = b.hnd := by
  unfold releaseLseg
  split
  · rfl
  · dsimp only
    split
    · rfl
    · rw [releaseSeg_hnd]
      rfl

/-- Places that come free let evacuations into the queue; they change Sorrel's queues alone (R249). -/
theorem promoteN_eq (n : Nat) (b : Block) :
    ∃ queue evacWait, promoteN n b = { b with srl := { b.srl with queue, evacWait } } := by
  induction n generalizing b with
  | zero => exact ⟨_, _, rfl⟩
  | succ n ih =>
    unfold promoteN
    split
    · exact ⟨_, _, rfl⟩
    · split
      · exact ⟨_, _, rfl⟩
      · dsimp only
        split
        all_goals
          obtain ⟨queue, evacWait, hrest⟩ := ih _
          exact ⟨queue, evacWait, hrest⟩

@[simp] theorem promoteEvac_hnd (b : Block) : (promoteEvac b).hnd = b.hnd := by
  obtain ⟨queue, evacWait, h⟩ := promoteN_eq b.srl.evacWait.length b
  rw [promoteEvac, h]

@[simp] theorem promoteEvac_map (b : Block) : (promoteEvac b).srl.map = b.srl.map := by
  obtain ⟨queue, evacWait, h⟩ := promoteN_eq b.srl.evacWait.length b
  rw [promoteEvac, h]

/-! ### The entries that are gone -/

/-- A released logical segment has no entry, and every other entry is as before. -/
theorem mapEntry_releaseLseg (h l k j : Nat) (b : Block) :
    mapEntry (releaseLseg h l b) k j = if mapKey k j = mapKey h l then none else mapEntry b k j := by
  cases he : mapEntry b h l with
  | none =>
    have hsame : releaseLseg h l b = b := by rw [releaseLseg, he]
    rw [hsame]
    split
    · next hkey => rwa [mapEntry, hkey]
    · rfl
  | some e =>
    have hmap : (releaseLseg h l b).srl.map = mdel b.srl.map (mapKey h l) := by
      unfold releaseLseg
      simp only [he]
      split
      · rfl
      · exact releaseSeg_map _ _ _
    rw [mapEntry, hmap]
    split
    · next hkey => rw [hkey, mfind_mdel_same]
    · next hkey => exact mfind_mdel_other _ hkey

/-- Segments released in turn: theirs are the entries that are gone. -/
theorem mapEntry_releaseAll (h k j : Nat) (ls : List Nat) (b : Block) :
    mapEntry (ls.foldl (fun b l => releaseLseg h l b) b) k j
      = if mapKey k j ∈ ls.map (mapKey h) then none else mapEntry b k j := by
  induction ls generalizing b with
  | nil => rfl
  | cons l ls ih =>
    rw [List.foldl_cons, ih, mapEntry_releaseLseg]
    by_cases hfirst : mapKey k j = mapKey h l <;> simp [hfirst]

/-- The segments of a handle from a segment on are those of its entries in the map. -/
theorem mapKey_mem_segsFrom {h first k j : Nat} (hj : j < 2 ^ 21) :
    mapKey k j ∈ (segsFrom b h first).map (mapKey h) ↔ k = h ∧ first ≤ j ∧ mapEntry b k j ≠ none := by
  have hentry : mapEntry b k j ≠ none ↔ ∃ e ∈ b.srl.map, e.1 = mapKey k j := by
    simp [mapEntry, mfind, List.find?_eq_none]
  obtain ⟨hhandle, hseg⟩ := mapKey_fields (h := k) hj
  rw [hentry]
  simp only [segsFrom, List.map_map, List.mem_map, List.mem_filter, Bool.and_eq_true, beq_iff_eq, decide_eq_true_eq,
    Function.comp_apply]
  constructor
  · rintro ⟨e, ⟨hmem, rfl, hfirst⟩, hkey⟩
    rw [mapKey_div_mod] at hkey
    rw [hkey] at hfirst ⊢
    exact ⟨hhandle.symm, by omega, e, hmem, hkey⟩
  · rintro ⟨rfl, hfirst, e, hmem, hkey⟩
    refine ⟨e, ⟨hmem, ?_, ?_⟩, ?_⟩
    · rw [hkey, hhandle]
    · rw [hkey, hseg]
      exact hfirst
    · rw [hkey, hseg]

/-! ### The drain -/

/-- The block after the release of what a command drains (R235). -/
def released (r : HndRun) (b : Block) : Block :=
  promoteEvac ((segsFrom b r.handle r.first).foldl (fun b l => releaseLseg r.handle l b) b)

@[simp] theorem released_hnd (r : HndRun) (b : Block) : (released r b).hnd = b.hnd :=
  (promoteEvac_hnd _).trans (foldl_keep Block.hnd _ (fun _ _ => releaseLseg_hnd _ _ _) _ _)

/-- The entries of the affected range are gone, and no other (R235). -/
theorem mapEntry_released {k j : Nat} (hj : j < 2 ^ 21) :
    mapEntry (released r b) k j = if k = r.handle ∧ r.first ≤ j then none else mapEntry b k j := by
  have hall : mapEntry (released r b) k j
      = if mapKey k j ∈ (segsFrom b r.handle r.first).map (mapKey r.handle) then none else mapEntry b k j := by
    rw [← mapEntry_releaseAll, mapEntry, released, promoteEvac_map]
    rfl
  rw [hall]
  by_cases hmine : k = r.handle ∧ r.first ≤ j
  · rw [if_pos hmine]
    split
    · rfl
    · next hnot => exact not_not.mp fun hsome => hnot ((mapKey_mem_segsFrom hj).mpr ⟨hmine.1, hmine.2, hsome⟩)
  · rw [if_neg hmine, if_neg fun hmem => hmine (((mapKey_mem_segsFrom hj).mp hmem).imp_right And.left)]

theorem drainEnd_waits (hrun : b.hnd.run = some r) (hwaits : drainWaits b r = true) : drainEnd b = b := by
  simp [drainEnd, hrun, hwaits]

theorem drainEnd_ends (hrun : b.hnd.run = some r) (hdrain : r.draining = true) (hsafe : b.sage.safe = false)
    (hwaits : drainWaits b r = false) : drainEnd b = setRun { r with draining := false } (released r b) := by
  simp [drainEnd, hrun, hdrain, hsafe, hwaits, released]

end Sys2Proof.Machine

open Sys2Proof Sys2Proof.Machine

/-- Settles O41: a drain that waits changes nothing (`drainEnd_waits`), and one that ends releases the entries of its range
(`drainEnd_ends`, `mapEntry_released`). -/
theorem drainsRelease : Obligations.DrainsRelease := by
  intro r s hrun hdrain hsafe
  refine ⟨fun hwaits => ?waits, fun hwaits _ => ?ends⟩
  case waits => exact congrArg (fun x => Host.Outcome.next (s.upd x)) (drainEnd_waits hrun hwaits)
  case ends =>
    have hend := drainEnd_ends hrun hdrain hsafe hwaits
    refine ⟨s.upd (drainEnd s.blk), rfl, rfl, rfl, ?_⟩
    rw [State.upd_blk, hend]
    have htable : (released r s.blk).hnd.table = s.blk.hnd.table := by rw [released_hnd]
    refine ⟨rfl, htable, fun l hfirst hl => ?_, fun h l hl hother => ?_⟩
    · exact (mapEntry_released hl).trans (if_pos ⟨rfl, hfirst⟩)
    · exact (mapEntry_released hl).trans (if_neg (by omega))

end

section
/-! SUPPORT. The end of a handle command (R230): what it changes of the handle, its result, and its event. -/

namespace Sys2Proof.Machine

open Sys2Proof

variable {b : Block} {r : HndRun} {x : Handle}

/-! ### What the command changes (R231, R236) -/

/-- The end changes the table, what has been released of Savory's budget and the queue halts alone. -/
theorem finishChange_eq (r : HndRun) (b : Block) : ∃ table released halts, finishChange r b
    = { b with hnd := { b.hnd with table }, sav := { b.sav with released }, ops := { b.ops with halts } } := by
  unfold finishChange modHandle
  split
  · exact ⟨_, _, _, rfl⟩
  · split
    · split <;> exact ⟨_, _, _, rfl⟩
    · split
      · split <;> exact ⟨_, _, _, rfl⟩
      · split
        · split <;> exact ⟨_, _, _, rfl⟩
        · exact ⟨_, _, _, rfl⟩

theorem finishChange_refused (h : r.status ≠ .ok) : finishChange r b = b := if_pos h

theorem finishChange_create (hok : r.status = .ok) (hop : r.op = 1) (hx : handleOf b r.handle = some x) :
    finishChange r b = setHandle r.handle { x with st := .active } b := by
  simp [finishChange, hok, hop, modHandle_of _ hx]

theorem finishChange_grow (hok : r.status = .ok) (hop : r.op = 2) (hx : handleOf b r.handle = some x) :
    finishChange r b = setHandle r.handle { x with size := r.size.toNat } b := by
  simp [finishChange, hok, hop, modHandle_of _ hx]

/-- A destroyed handle leaves the table, and its reservation waits for the class epoch (R236). -/
theorem finishChange_destroy (hok : r.status = .ok) (hop : r.op = 4) (hx : handleOf b r.handle = some x) :
    handleOf (finishChange r b) r.handle = none
      ∧ (finishChange r b).sav.released = b.sav.released ++ [(x.resv, BitVec.ofNat 4 (attrQmask x.attr))] := by
  have hchange : finishChange r b = { b with
      hnd := { b.hnd with table := mdel b.hnd.table r.handle }
      sav := { b.sav with released := b.sav.released ++ [(x.resv, BitVec.ofNat 4 (attrQmask x.attr))] }
      ops := { b.ops with halts := mdel b.ops.halts r.handle } } := by
    simp [finishChange, hok, hop, hx]
  rw [hchange]
  exact ⟨mfind_mdel_same _ _, rfl⟩

/-! ### The result and the event (R230) -/

/-- The result of a command is there, and the next one may start. -/
def resulted (r : HndRun) (b : Block) : Block :=
  { b with hnd := { loadInfo r.info b.hnd with
    resOp := r.op, resHandle := BitVec.ofNat 12 r.handle, resStatus := r.status, seq := b.hnd.seq + 1, run := none } }

/-- The issuing port gets event 0x0801; the two-wire port has none. -/
def announced (r : HndRun) (b : Block) : Block :=
  match r.path with
  | .link p => emit (bset 0 p.val) { code := 0x0801, lo := hndResult b, hi := r.size } b
  | .twp => b

theorem hndFinish_drains (hrun : b.hnd.run = some r) (hsafe : b.sage.safe = false) (hdrain : r.draining = true) :
    hndFinish b = b := by
  simp [hndFinish, hrun, hsafe, hdrain]

theorem hndFinish_ends (hrun : b.hnd.run = some r) (hsafe : b.sage.safe = false) (hdrain : r.draining = false) :
    hndFinish b = announced r (resulted r (finishChange r b)) := by
  unfold hndFinish
  simp only [hrun, hsafe, hdrain, Bool.false_and, Bool.false_eq_true, if_false]
  rfl

@[simp] theorem loadInfo_table (i : Option HndInfo) (x : Hnd) : (loadInfo i x).table = x.table := by
  cases i <;> rfl

theorem announced_twp (h : r.path = .twp) : announced r b = b := by
  unfold announced
  rw [h]

/-- The event is all that a port sees of the end of a command. -/
theorem announced_quietly (r : HndRun) (b : Block) : quietly b (announced r b) := by
  unfold announced
  split
  · exact quietly_emit _ _ _
  · exact quietly_refl b

@[simp] theorem announced_hnd (r : HndRun) (b : Block) : (announced r b).hnd = b.hnd := by
  rw [(announced_quietly r b).1]

@[simp] theorem announced_srl (r : HndRun) (b : Block) : (announced r b).srl = b.srl := by
  rw [(announced_quietly r b).1]

@[simp] theorem announced_sav (r : HndRun) (b : Block) : (announced r b).sav = b.sav := by
  rw [(announced_quietly r b).1]

@[simp] theorem handleOf_announced_resulted (r : HndRun) (b : Block) (h : Nat) :
    handleOf (announced r (resulted r b)) h = handleOf b h := by
  simp [handleOf, resulted]

end Sys2Proof.Machine

open Sys2Proof Sys2Proof.Machine

/-- Settles O40: a command that does not drain changes its handle (`finishChange_eq` and its cases), loads its result and sends its
event (`hndFinish_ends`, `announced_quietly`). -/
theorem handleCommandsFinish : Obligations.HandleCommandsFinish := by
  intro r s hrun hsafe
  refine ⟨fun hdrain => ?drains, fun hdrain => ?ends⟩
  case drains => exact congrArg (fun x => Host.Outcome.next (s.upd x)) (hndFinish_drains hrun hsafe hdrain)
  case ends =>
    refine ⟨s.upd (hndFinish s.blk), rfl, rfl, rfl, ?_⟩
    rw [State.upd_blk, hndFinish_ends hrun hsafe hdrain]
    obtain ⟨table, released, halts, hchange⟩ := finishChange_eq r s.blk
    have hports : (finishChange r s.blk).ports = s.blk.ports := by rw [hchange]
    have hseq : (finishChange r s.blk).hnd.seq = s.blk.hnd.seq := by rw [hchange]
    have hsrl : (finishChange r s.blk).srl = s.blk.srl := by rw [hchange]
    simp only [announced_hnd, announced_srl, announced_sav, handleOf_announced_resulted]
    refine ⟨rfl, congrArg (· + 1) hseq, rfl, rfl, rfl, hsrl, fun htwp => ?_, fun q => ?_, fun hrefused => ?_,
      fun x hok hx => ⟨fun hop => ?_, fun hop => ?_, fun hop => ?_⟩, fun i hinfo => ?_⟩
    · rw [announced_twp htwp]
      exact hports
    · have hquiet := (announced_quietly r (resulted r (finishChange r s.blk))).2 q
      exact hports ▸ hquiet
    · rw [finishChange_refused hrefused]
      exact ⟨loadInfo_table _ _, rfl⟩
    · rw [finishChange_create hok hop hx, handleOf_setHandle_same]
    · rw [finishChange_grow hok hop hx, handleOf_setHandle_same]
    · exact finishChange_destroy hok hop hx
    · simp only [resulted, hinfo, loadInfo, and_self]

end

section
/-! SUPPORT. The start of a handle command (R226, R229, R231): the go of HND_CMD over an open path, what its checks decide, and what
each command takes or changes at once. -/

namespace Sys2Proof.Machine

open Sys2Proof

variable {path : Path} {a : HndArgs} {b t : Block} {s : State} {r : HndRun}

/-! ### A write of HND_CMD -/

@[simp] theorem answered_hnd (path : Path) (k : Nat) (st : Status) (t : State) : (answered path k st t).blk.hnd = t.blk.hnd :=
  respond_hnd _ _ _ _ _
@[simp] theorem answered_srl (path : Path) (k : Nat) (st : Status) (t : State) : (answered path k st t).blk.srl = t.blk.srl :=
  respond_srl _ _ _ _ _
@[simp] theorem answered_sav (path : Path) (k : Nat) (st : Status) (t : State) : (answered path k st t).blk.sav = t.blk.sav :=
  respond_sav _ _ _ _ _

theorem put_hndCmd {data : Word} {st : Status} (hw : takesWrites path s) (hwrite : hndWrite path 0 data s.blk = (st, t))
    (hstart : t.start = s.blk.start) : put path hndBase 0 data s = answered path hndBase st (s.upd t) := by
  obtain ⟨-, -, -, -, hgood⟩ := id hw
  have hblock : writeBlock path (hndBase + 0) data s.blk = hndWrite path 0 data s.blk := rfl
  have hlive := writeLive_block (path := path) (last := none) (a := hndBase + 0) (data := data) hgood (fun _ => by decide) (by decide)
    (by decide) (by decide) (by decide) (by decide) (by decide)
  rw [hblock, hwrite] at hlive
  exact put_live hw (by decide) (by decide) (by decide) (by decide) (lockedReg_out _ (by decide)) hlive
    (by rw [State.upd_blk, hstart]; exact takesWrites_step hw)

/-- The word of a go has the go bit and the code. -/
theorem goWord_fields (op : BitVec 3) : (goWord op.toNat).getLsbD 0 = true ∧ wfield (goWord op.toNat) 3 1 = op.toNat := by
  revert op
  decide

/-- A go while a command runs is refused (R227). -/
theorem hndWrite_busy (op : BitVec 3) (hrun : b.hnd.run = some r) : hndWrite path 0 (goWord op.toNat) b = (.badArg, b) := by
  simp [hndWrite, (goWord_fields op).1, hrun, -BitVec.getLsbD_eq_getElem]

/-- HND_CMD keeps the code of a go. -/
def goKept (op : Nat) (b : Block) : Block := setLive hndBase (goWord op &&& rwMask hndBase) b

theorem hndWrite_go (op : BitVec 3) (hrun : b.hnd.run = none) :
    hndWrite path 0 (goWord op.toNat) b = (.ok, goKept op.toNat (hndGo op.toNat path b)) := by
  obtain ⟨hgo, hop⟩ := goWord_fields op
  simp [hndWrite, hgo, hop, hrun, goWrite, storeNow, goKept, -BitVec.getLsbD_eq_getElem]

/-! ### The checks (R229) -/

section Serves
variable (hchive : b.start.chive = false) (hserves : refusing b = false)
include hchive hserves

theorem hndCheck_noCommand (hop : hndNoCommand a.op = true) : hndCheck b a = .badArg := by
  simp [hndCheck, hchive, hserves, hop]

theorem hndCheck_create (hop : a.op = 1) : hndCheck b a = createCheck b a := by
  simp [hndCheck, hchive, hserves, hop, hndNoCommand]

theorem hndCheck_change (hop : a.op = 2 ∨ a.op = 3 ∨ a.op = 4) : hndCheck b a = changeCheck b a := by
  rcases hop with hop | hop | hop <;> simp [hndCheck, hchive, hserves, hop, hndNoCommand]

theorem hndCheck_query (hop : a.op = 5) : hndCheck b a = queryCheck b a.h := by
  simp [hndCheck, hchive, hserves, hop, hndNoCommand]

end Serves

theorem hndGo_started {op : Nat} (h : hndCheck b (hndArgs op b) = .ok) : hndGo op path b = startedRun (hndArgs op b) path b := by
  simp only [hndGo, h]

theorem hndGo_refused {op : Nat} (h : hndCheck b (hndArgs op b) ≠ .ok) :
    hndGo op path b = refusedRun (hndArgs op b) path (hndCheck b (hndArgs op b)) b := by
  unfold hndGo
  dsimp only
  split
  · next hok => exact absurd hok h
  · rfl

/-- A handle that may be changed is ACTIVE and not handle 0 (R214, R225). -/
theorem changeCheck_active (h : changeCheck b a = .ok) : a.h ≠ 0 ∧ ∃ x, handleOf b a.h = some x ∧ x.st = .active := by
  unfold changeCheck at h
  split at h
  · cases h
  · next n hsize =>
    split at h
    · cases h
    · next h0 =>
      obtain ⟨x, hx, hactive, -⟩ := handleSize_active h0 hsize
      exact ⟨h0, x, hx, hactive⟩

theorem freeHandle_ne_zero {h : Nat} (hfree : freeHandle b = some h) : h ≠ 0 := by
  have hmem := List.mem_of_find?_eq_some hfree
  rw [List.range_succ_eq_map, List.drop_one, List.tail_cons, List.mem_map] at hmem
  obtain ⟨k, -, rfl⟩ := hmem
  exact Nat.succ_ne_zero k

theorem createCheck_free (h : createCheck b a = .ok) : ∃ k, freeHandle b = some k := by
  cases hfree : freeHandle b with
  | none => simp [createCheck, hfree] at h
  | some k => exact ⟨k, rfl⟩

/-! ### Placement (R231, R245) -/

/-- Segments that are placed take entries and protection bits. -/
theorem placeMany_eq (l : List Nat) (attr : Word) (h k n : Nat) (b : Block) :
    ∃ map prot, placeMany l attr h k n b = { b with srl := { b.srl with map, prot } } := by
  induction n generalizing b k with
  | zero => exact ⟨_, _, rfl⟩
  | succ n ih =>
    have hone : ∃ map prot, placeOne l attr h k b = { b with srl := { b.srl with map, prot } } := by
      unfold placeOne
      split <;> exact ⟨_, _, rfl⟩
    obtain ⟨map, prot, hone⟩ := hone
    obtain ⟨map', prot', hrest⟩ := ih (k + 1) (placeOne l attr h k b)
    exact ⟨map', prot', by rw [placeMany, hrest, hone]⟩

/-- A reservation changes Savory's budgets alone. -/
theorem modResv_eq (f : Nat → Nat) (w : Word) (q : Nat) (b : Block) : ∃ sav, modResv f w q b = { b with sav } := by
  have hrest : { modResv f w q b with sav := b.sav } = b := by
    unfold modResv
    split
    · rfl
    · refine forAll_keep b (fun c : Block => { c with sav := b.sav }) _ fun i c => ?_
      split <;> rfl
  exact ⟨(modResv f w q b).sav, congrArg (fun c : Block => { c with sav := (modResv f w q b).sav }) hrest⟩

/-- A CREATE takes its number, its reservation and its segments. -/
theorem createStart_eq (a : HndArgs) (h : Nat) (b : Block) : ∃ srl sav, createStart a h b
    = { setHandle h { st := .creating, size := a.size, attr := a.attr, resv := a.resv } b with srl, sav } := by
  obtain ⟨sav, hresv⟩ := modResv_eq (· + resvShare a.resv (attrQmask a.attr)) a.resv (attrQmask a.attr) b
  obtain ⟨map, prot, hplace⟩ := placeMany_eq (eligible b (attrQmask a.attr)) a.attr h 0 a.size (setHandle h
    { st := .creating, size := a.size, attr := a.attr, resv := a.resv }
    (modResv (· + resvShare a.resv (attrQmask a.attr)) a.resv (attrQmask a.attr) b))
  exact ⟨{ b.srl with map, prot }, sav, hplace.trans (by rw [hresv]; rfl)⟩

/-- A GROW takes its segments. -/
theorem growStart_eq (a : HndArgs) (b : Block) : ∃ srl, growStart a b = { b with srl } := by
  obtain ⟨map, prot, hplace⟩ := placeMany_eq (eligible b (attrQmask (attrOf b a.h))) (attrOf b a.h) a.h
    ((handleSize b a.h).getD 0) (a.size - (handleSize b a.h).getD 0) b
  exact ⟨_, hplace⟩

/-! ### The instant of change of a drain (R231, R232) -/

/-- The drain is told to engines. -/
theorem postDrain_eq (touch : Desc → Bool) (b : Block) : ∃ engs, postDrain touch b = { b with engs } := by
  have hpiece : ∀ id i (c : Block), { postPiece id i 30 [] c with engs := b.engs } = { c with engs := b.engs } := by
    intro id i c
    unfold postPiece
    split
    · rfl
    · split <;> rfl
  have hrest : { postDrain touch b with engs := b.engs } = b := by
    refine foldl_keep (fun c : Block => { c with engs := b.engs }) _ (fun c d => ?_) _ b
    split
    · refine foldl_keep (fun c : Block => { c with engs := b.engs }) _ (fun c x => ?_) _ c
      split
      · exact hpiece _ _ _
      · rfl
    · rfl
  exact ⟨(postDrain touch b).engs, congrArg (fun c : Block => { c with engs := (postDrain touch b).engs }) hrest⟩

/-- Where nothing migrates, orders alone leave Sorrel (R234). -/
theorem cutMigs_eq (h first : Nat) (hmigs : b.srl.migs = []) :
    ∃ queue evacWait, cutMigs h first b = { b with srl := { b.srl with queue, evacWait } } := by
  unfold cutMigs
  extract_lets mine c
  obtain ⟨queue, evacWait, hc⟩ : ∃ queue evacWait, c = { b with srl := { b.srl with queue, evacWait } } := promoteN_eq _ _
  have hnone : c.srl.migs = [] := by rw [hc]; exact hmigs
  rw [hnone]
  exact ⟨queue, evacWait, hc⟩

/-- What SHRINK and DESTROY do to their handle at the instant of change. -/
def drainBegins (touch : Desc → Bool) (f : Handle → Handle) (h first : Nat) (gone : Bool) (b : Block) : Block :=
  let b := modHandle h f (postDrain touch b)
  cutMigs h first { b with ops := { b.ops with descs := b.ops.descs.map (cutSecond h first gone) } }

theorem shrinkStart_drainBegins (a : HndArgs) (b : Block) : shrinkStart a b
    = drainBegins (fun d => descHandle d.words == a.h && descTouches b a.h a.size d) (fun x => { x with size := a.size }) a.h a.size
        false b := rfl

/-- A queue that is not halted goes on while its handle drains (R233). -/
theorem destroyStart_drainBegins (a : HndArgs) (hhalts : b.ops.halts = []) : destroyStart a b
    = drainBegins (fun d => descHandle d.words == a.h) (fun x => { x with st := .draining }) a.h 0 true b := by
  have hruns : (mfind b.ops.halts a.h).isSome = false := by rw [hhalts]; rfl
  unfold destroyStart
  rw [hruns]
  rfl

/-- The handle changes at once, and its segments stay mapped until they are drained. -/
theorem drainBegins_eq {touch : Desc → Bool} {f : Handle → Handle} {h first : Nat} {gone : Bool} {x : Handle}
    (hmigs : b.srl.migs = []) (hx : handleOf b h = some x) : ∃ queue evacWait engs ops, drainBegins touch f h first gone b
      = { setHandle h (f x) b with srl := { b.srl with queue, evacWait }, engs, ops } := by
  obtain ⟨engs, hpost⟩ := postDrain_eq touch b
  have hmod : modHandle h f (postDrain touch b) = { setHandle h (f x) b with engs } := by
    rw [hpost]
    exact modHandle_of f hx
  unfold drainBegins
  rw [hmod]
  obtain ⟨queue, evacWait, hcut⟩ := cutMigs_eq (b := { setHandle h (f x) b with
    engs, ops := { b.ops with descs := b.ops.descs.map (cutSecond h first gone) } }) h first hmigs
  exact ⟨queue, evacWait, engs, _, hcut⟩

/-! ### The command that runs (R226, R229) -/

/-- A refused command changes nothing but the free values that are drawn. -/
theorem refusedRun_eq (a : HndArgs) (path : Path) (st : Status) (b : Block) : ∃ handle size fresh, refusedRun a path st b
    = setRun { op := BitVec.ofNat 3 a.op, path, handle, status := st, size } { b with fresh } := by
  unfold refusedRun
  dsimp only
  split
  · exact ⟨_, _, _, rfl⟩
  · unfold sizeNow
    split
    · exact ⟨_, _, b.fresh, rfl⟩
    · split <;> exact ⟨_, _, _, rfl⟩

theorem startedRun_create {h : Nat} (hop : a.op = 1) (hfree : freeHandle b = some h) : ∃ srl sav, startedRun a path b
    = setRun { op := 1, path, handle := h, size := BitVec.ofNat 32 a.size }
        { setHandle h { st := .creating, size := a.size, attr := a.attr, resv := a.resv } b with srl, sav } := by
  obtain ⟨srl, sav, hstart⟩ := createStart_eq a h b
  exact ⟨srl, sav, by simp [startedRun, hop, hfree, hstart]⟩

theorem startedRun_grow (hop : a.op = 2) : ∃ srl, startedRun a path b
    = setRun { op := 2, path, handle := a.h, size := BitVec.ofNat 32 a.size } { b with srl } := by
  obtain ⟨srl, hstart⟩ := growStart_eq a b
  exact ⟨srl, by simp [startedRun, hop, hstart]⟩

theorem startedRun_shrink {x : Handle} (hop : a.op = 3) (hmigs : b.srl.migs = []) (hx : handleOf b a.h = some x) :
    ∃ queue evacWait engs ops, startedRun a path b
      = setRun { op := 3, path, handle := a.h, size := BitVec.ofNat 32 a.size, first := a.size, mark := b.ops.nextId, draining := true }
          { setHandle a.h { x with size := a.size } b with srl := { b.srl with queue, evacWait }, engs, ops } := by
  obtain ⟨queue, evacWait, engs, ops, hstart⟩ := drainBegins_eq (first := a.size) (gone := false)
    (touch := fun d => descHandle d.words == a.h && descTouches b a.h a.size d) (f := fun x => { x with size := a.size }) hmigs hx
  exact ⟨queue, evacWait, engs, ops, by simp [startedRun, hop, shrinkStart_drainBegins, hstart]⟩

theorem startedRun_destroy {x : Handle} (hop : a.op = 4) (hmigs : b.srl.migs = []) (hhalts : b.ops.halts = [])
    (hx : handleOf b a.h = some x) : ∃ queue evacWait engs ops, startedRun a path b
      = setRun { op := 4, path, handle := a.h, mark := b.ops.nextId, draining := true }
          { setHandle a.h { x with st := .draining } b with srl := { b.srl with queue, evacWait }, engs, ops } := by
  obtain ⟨queue, evacWait, engs, ops, hstart⟩ := drainBegins_eq (first := 0) (gone := true)
    (touch := fun d => descHandle d.words == a.h) (f := fun x => { x with st := .draining }) hmigs hx
  exact ⟨queue, evacWait, engs, ops, by simp [startedRun, hop, destroyStart_drainBegins a hhalts, hstart]⟩

theorem startedRun_query (hop : a.op = 5) : ∃ size fresh, startedRun a path b
    = setRun { op := 5, path, handle := a.h, size, info := some (queryInfo b a.h) } { b with fresh } := by
  have hnow : ∃ size fresh, sizeNow b a.h = (size, { b with fresh }) := by
    unfold sizeNow
    split
    · exact ⟨_, b.fresh, rfl⟩
    · split <;> exact ⟨_, _, rfl⟩
  obtain ⟨size, fresh, hnow⟩ := hnow
  exact ⟨size, fresh, by simp [startedRun, hop, hnow]⟩

/-! ### The answer -/

/-- Command `r` runs in the block `t`, and its start has left every port, the start and the count of commands as in `b`. -/
structure Running (r : HndRun) (b t : Block) : Prop where
  run : t.hnd.run = some r
  seq : t.hnd.seq = b.hnd.seq
  ports : t.ports = b.ports
  start : t.start = b.start

/-- A go while no command runs is answered with OK, and its command runs; what holds of every state with the handle block, Sorrel
and Savory of the start holds after it. -/
theorem go_answered {c : Instr} {op : BitVec 3} {k : State → HndRun → Prop} (hw : takesWrites path s) (hnone : s.blk.hnd.run = none)
    (hexec : exec c s = .next (put path hndBase 0 (goWord op.toNat) s)) (hgo : hndGo op.toNat path s.blk = t)
    (hr : Running r s.blk t) (hop : r.op = op) (hpath : r.path = path)
    (hk : ∀ u : State, u.blk.hnd = t.hnd → u.blk.srl = t.srl → u.blk.sav = t.sav → k u r) :
    ∃ u r, exec c s = .next u ∧ u.blk.resp = .ok ∧ u.mem = s.mem ∧ u.blk.ports = s.blk.ports ∧ u.blk.hnd.seq = s.blk.hnd.seq
      ∧ u.blk.hnd.run = some r ∧ r.op.toNat = op.toNat ∧ r.path = path ∧ k u r := by
  have hput := put_hndCmd hw (hndWrite_go op hnone) (by rw [hgo]; exact hr.start)
  rw [hgo] at hput
  have hhnd : (answered path hndBase .ok (s.upd (goKept op.toNat t))).blk.hnd = t.hnd := answered_hnd _ _ _ _
  refine ⟨_, r, hexec.trans (congrArg Host.Outcome.next hput), answered_resp, rfl, answered_ports.trans hr.ports, ?_, ?_,
    congrArg BitVec.toNat hop, hpath, hk _ hhnd (answered_srl _ _ _ _) (answered_sav _ _ _ _)⟩
  · rw [hhnd, hr.seq]
  · rw [hhnd, hr.run]

/-- A go while a command runs is refused, and the command runs on (R227). -/
theorem put_hndCmd_busy (op : BitVec 3) (hw : takesWrites path s) (hrun : s.blk.hnd.run = some r) :
    put path hndBase 0 (goWord op.toNat) s = answered path hndBase .badArg s :=
  put_hndCmd hw (hndWrite_busy op hrun) rfl

theorem handleOf_congr {c : Block} (h : b.hnd = c.hnd) (k : Nat) : handleOf b k = handleOf c k := by
  rw [handleOf, h, handleOf]

end Sys2Proof.Machine

open Sys2Proof Sys2Proof.Machine

/-- Settles O39: a go is a write of HND_CMD (`go_answered`), what its checks decide is `hndGo_started` or `hndGo_refused`, and each
command's start is its equation (`startedRun_create` to `startedRun_query`, `refusedRun_eq`). -/
theorem handleCommandsStart : Obligations.HandleCommandsStart := by
  intro path s hw hchive hserves hnone hmigs hhalts a started
  refine ⟨fun hok => ?create, fun hrefused => ?createRefused, fun hok => ?grow, fun hok => ?shrink, fun hok => ?destroy,
    fun hok => ?query, fun op hno => ?noCommand, fun r c hc => ?busy⟩
  case create =>
    have hcheck := hndCheck_create (a := a 1) hchive hserves rfl
    obtain ⟨h, hfree⟩ := createCheck_free hok
    obtain ⟨srl, sav, hstart⟩ := startedRun_create (a := a 1) (path := path) rfl hfree
    refine go_answered (op := 1) hw hnone rfl ((hndGo_started (hcheck.trans hok)).trans hstart) ⟨rfl, rfl, rfl, rfl⟩ rfl rfl
      fun u hhnd _ _ => ?_
    have hx := (handleOf_congr hhnd h).trans (handleOf_setHandle_same h
      { st := .creating, size := (a 1).size, attr := (a 1).attr, resv := (a 1).resv } s.blk)
    exact ⟨rfl, hfree, hx, (handleSize_of (freeHandle_ne_zero hfree) hx).trans (if_neg nofun), rfl⟩
  case createRefused =>
    have hcheck := hndCheck_create (a := a 1) hchive hserves rfl
    obtain ⟨handle, size, fresh, hstart⟩ := refusedRun_eq (a 1) path (hndCheck s.blk (a 1)) s.blk
    exact go_answered (op := 1) hw hnone rfl ((hndGo_refused (hcheck.trans_ne hrefused)).trans hstart) ⟨rfl, rfl, rfl, rfl⟩ rfl rfl
      fun u hhnd hsrl hsav => ⟨hcheck, (congrArg Hnd.table hhnd :), hsrl, hsav⟩
  case grow =>
    have hcheck := hndCheck_change (a := a 2) hchive hserves (.inl rfl)
    obtain ⟨srl, hstart⟩ := startedRun_grow (a := a 2) (b := s.blk) (path := path) rfl
    exact go_answered (op := 2) hw hnone rfl ((hndGo_started (hcheck.trans hok)).trans hstart) ⟨rfl, rfl, rfl, rfl⟩ rfl rfl
      fun u hhnd _ _ => ⟨rfl, rfl, (congrArg Hnd.table hhnd :), rfl, rfl⟩
  case shrink =>
    have hcheck := hndCheck_change (a := a 3) hchive hserves (.inr (.inl rfl))
    obtain ⟨h0, x, hx, hactive⟩ := changeCheck_active hok
    obtain ⟨queue, evacWait, engs, ops, hstart⟩ := startedRun_shrink (path := path) rfl hmigs hx
    refine go_answered (op := 3) hw hnone rfl ((hndGo_started (hcheck.trans hok)).trans hstart) ⟨rfl, rfl, rfl, rfl⟩ rfl rfl
      fun u hhnd hsrl _ => ⟨rfl, rfl, ?_, rfl, rfl, (congrArg Sorrel.map hsrl :)⟩
    have hcut := (handleOf_congr hhnd (a 3).h).trans (handleOf_setHandle_same (a 3).h { x with size := (a 3).size } s.blk)
    exact (handleSize_of h0 hcut).trans (if_pos hactive)
  case destroy =>
    have hcheck := hndCheck_change (a := a 4) hchive hserves (.inr (.inr rfl))
    obtain ⟨h0, x, hx, -⟩ := changeCheck_active hok
    obtain ⟨queue, evacWait, engs, ops, hstart⟩ := startedRun_destroy (path := path) rfl hmigs hhalts hx
    refine go_answered (op := 4) hw hnone rfl ((hndGo_started (hcheck.trans hok)).trans hstart) ⟨rfl, rfl, rfl, rfl⟩ rfl rfl
      fun u hhnd hsrl _ => ?_
    have hdrains := (handleOf_congr hhnd (a 4).h).trans (handleOf_setHandle_same (a 4).h { x with st := .draining } s.blk)
    exact ⟨rfl, rfl, (handleSize_of h0 hdrains).trans (if_neg nofun), congrArg (Option.map Handle.st) hdrains, rfl, rfl,
      (congrArg Sorrel.map hsrl :)⟩
  case query =>
    have hcheck := hndCheck_query (a := a 5) hchive hserves rfl
    obtain ⟨size, fresh, hstart⟩ := startedRun_query (a := a 5) (b := s.blk) (path := path) rfl
    exact go_answered (op := 5) hw hnone rfl ((hndGo_started (hcheck.trans hok)).trans hstart) ⟨rfl, rfl, rfl, rfl⟩ rfl rfl
      fun u hhnd hsrl _ => ⟨rfl, rfl, rfl, (congrArg Hnd.table hhnd :), hsrl⟩
  case noCommand =>
    have hcheck := hndCheck_noCommand (a := a op.toNat) hchive hserves hno
    have hcode : BitVec.ofNat 3 op.toNat = op := (BitVec.ofNat_toNat 3 op).trans (BitVec.setWidth_eq op)
    obtain ⟨handle, size, fresh, hstart⟩ := refusedRun_eq (a op.toNat) path (hndCheck s.blk (a op.toNat)) s.blk
    exact go_answered hw hnone (congrArg Host.Outcome.next (if_pos hno))
      ((hndGo_refused (hcheck.trans_ne nofun)).trans hstart) ⟨rfl, rfl, rfl, rfl⟩ hcode rfl
      fun u hhnd hsrl _ => ⟨hcheck, (congrArg Hnd.table hhnd :), hsrl⟩
  case busy =>
    have hgo : ∃ op : BitVec 3, ∀ u, exec c u = .next (put path hndBase 0 (goWord op.toNat) u) := by
      simp only [List.mem_cons, List.not_mem_nil, or_false] at hc
      rcases hc with rfl | rfl | rfl | rfl | rfl
      exacts [⟨1, fun _ => rfl⟩, ⟨2, fun _ => rfl⟩, ⟨3, fun _ => rfl⟩, ⟨4, fun _ => rfl⟩, ⟨5, fun _ => rfl⟩]
    obtain ⟨op, hexec⟩ := hgo
    have hput := put_hndCmd_busy (path := path) (r := r) (s := s.upd { s.blk with hnd := { s.blk.hnd with run := some r } }) op hw rfl
    exact ⟨_, (hexec _).trans (congrArg Host.Outcome.next hput), answered_resp, answered_hnd _ _ _ _, answered_srl _ _ _ _, rfl⟩

end

section
/-! SUPPORT. What Sorrel's operations leave alone: the orders that wait (R249), and the written and protection bits of a segment. -/

namespace Sys2Proof.Machine

open Sys2Proof

variable {b : Block}

/-! ### Orders that wait (R249) -/

/-- Orders that leave change Sorrel's queues alone. -/
theorem dropOrders_eq (o : Order → Bool) (w : Nat → Bool) (b : Block) :
    ∃ queue evacWait, dropOrders o w b = { b with srl := { b.srl with queue, evacWait } } :=
  promoteN_eq _ _

/-- Where no evacuation waits in the repair path, the orders that leave are all that changes. -/
theorem dropOrders_noneWait {o : Order → Bool} {w : Nat → Bool} (hwait : b.srl.evacWait = []) :
    dropOrders o w b = { b with srl := { b.srl with queue := b.srl.queue.filter fun x => !o x } } := by
  have hnone : { b.srl with queue := b.srl.queue.filter fun x => !o x, evacWait := [] }
      = { b.srl with queue := b.srl.queue.filter fun x => !o x } := by
    rw [← hwait]
  unfold dropOrders
  rw [hwait, List.filter_nil, hnone, promoteEvac]
  exact congrArg (fun n => promoteN n _) (congrArg List.length hwait)

theorem unqueue_noneWait {o : Order} (hwait : b.srl.evacWait = []) :
    unqueue o b = { b with srl := { b.srl with queue := b.srl.queue.filter (· != o) } } :=
  dropOrders_noneWait hwait

/-! ### Bits of a segment (R326, R329) -/

theorem isWritten_setWritten_same (g : Nat) (v : Bool) (b : Block) : isWritten (setWritten g v b) g = v := by
  cases v <;> simp [isWritten, setWritten, sdel, mem_sadd]

theorem isDouble_setProt_same (g : Nat) (v : Bool) (b : Block) : isDouble (setProt g v b) g = v := by
  cases v <;> simp [isDouble, setProt, sdel, mem_sadd]

/-- The record of a retirement (R259): events apart, Sorrel counts the segment as retired, with nothing written in it. -/
theorem retireSeg_srl (g : Nat) (b : Block) : (retireSeg g b).srl = { b.srl with
    retired := sadd g b.srl.retired, nRetired := b.srl.nRetired + 1, heat := mdel b.srl.heat g
    retireAt := sdel g b.srl.retireAt, written := sdel g b.srl.written } := by
  unfold retireSeg
  rw [emit_srl]
  rfl

end Sys2Proof.Machine
end

section
/-! SUPPORT. The Sorrel commands (R262 to R265): what each does in each case, and how it ends. -/

namespace Sys2Proof.Machine

open Sys2Proof

variable {b t : Block} {s : State} {h l : Nat}

/-! ### The end of a command (R263) -/

/-- The running command of a block has done its work in another: the count of commands and the handle table are as before. -/
structure SrlWorked (b t : Block) : Prop where
  seq : t.srl.seq = b.srl.seq
  runOp : t.srl.runOp = b.srl.runOp
  hnd : t.hnd = b.hnd

theorem SrlWorked.refl (b : Block) : SrlWorked b b := ⟨rfl, rfl, rfl⟩

theorem SrlWorked.retireSeg (g : Nat) (b : Block) : SrlWorked b (retireSeg g b) :=
  ⟨by rw [retireSeg_srl], by rw [retireSeg_srl], retireSeg_hnd _ _⟩

/-- A command that has done its work ends with its status, and Sorrel takes the next one. -/
theorem srl_ended {c : Instr} {st : Status} {k : State → Prop} (hexec : exec c s = .next (s.upd (srlDone st t)))
    (hworked : SrlWorked s.blk t) (hk : k (s.upd (srlDone st t))) :
    ∃ u, exec c s = .next u ∧ u.mem = s.mem ∧ u.pending = s.pending ∧ u.blk.srl.busy = false
      ∧ u.blk.srl.seq = s.blk.srl.seq + 1 ∧ u.blk.srl.resOp = s.blk.srl.runOp ∧ u.blk.srl.resStatus = st
      ∧ u.blk.hnd = s.blk.hnd ∧ k u :=
  ⟨_, hexec, rfl, rfl, rfl, congrArg (· + 1) hworked.seq, hworked.runOp, rfl, hworked.hnd, hk⟩

/-- Outside both safe states the command of the code that runs does its work. -/
theorem whenRuns_runs {op : BitVec 3} {f : Block → Block} (hbusy : s.blk.srl.busy = true) (hsafe : s.blk.sage.safe = false)
    (hthm : s.blk.thm.safe = false) (hop : s.blk.srl.runOp = op) (hwork : f s.blk = t) : whenRuns op f s = s.upd t := by
  simp [whenRuns, hbusy, hop, hsafe, hthm, hwork]

/-! ### SEG_QUERY and PHYS_QUERY (R262) -/

theorem segQuery_shows {e : MapEntry} (hok : srlHandle b b.srl.runHandle b.srl.runSeg false = .ok)
    (he : mapEntry b b.srl.runHandle b.srl.runSeg = some e) (hsound : e.quarantined = false) :
    segQuery b = srlDone .ok { b with srl := { b.srl with resEntry := entryWord b e } } := by
  simp [segQuery, hok, he, hsound]

theorem segQuery_refused (hno : srlHandle b b.srl.runHandle b.srl.runSeg false ≠ .ok) :
    segQuery b = srlDone (srlHandle b b.srl.runHandle b.srl.runSeg false) b := by
  unfold segQuery
  dsimp only
  split
  · next hok _ => exact absurd hok hno
  · next hok _ => exact absurd hok hno
  · rfl

theorem physQuery_refused (hno : segExists b.srl.runSeg = false) : physQuery b = srlDone .badArg b := by
  simp [physQuery, hno]

/-- A retired segment is of kind 5, and no handle's. -/
theorem physQuery_retired (hexists : segExists b.srl.runSeg = true) (hflat : inFlat b b.srl.runSeg = false)
    (hretired : b.srl.retired.contains b.srl.runSeg = true) :
    physQuery b = srlDone .ok { b with srl := { b.srl with resOwner := 0x00050000, resLseg := 0 } } := by
  have hkind : physKind b b.srl.runSeg = (5, 0, 0) := by
    simp only [physKind, hflat, hretired, if_true, Bool.false_eq_true, if_false]
  simp only [physQuery, hexists, hkind, Bool.not_true, Bool.false_eq_true, if_false]
  rfl

/-! ### MIGRATE (R264) -/

/-- The order of the running MIGRATE. -/
def hostOrder (b : Block) : Order :=
  { reason := .host, handle := b.srl.runHandle, lseg := b.srl.runSeg
    dest := if b.srl.runDest = 0x3F then none else some b.srl.runDest }

theorem migrateCmd_queues (hok : migrateCheck b b.srl.runHandle b.srl.runSeg b.srl.runDest = .ok) :
    migrateCmd b = srlDone .ok (queueOrder (hostOrder b) b) := by
  simp only [migrateCmd, hok, ne_eq, not_true_eq_false, if_false]
  rfl

theorem migrateCmd_refused (hno : migrateCheck b b.srl.runHandle b.srl.runSeg b.srl.runDest ≠ .ok) :
    migrateCmd b = srlDone (migrateCheck b b.srl.runHandle b.srl.runSeg b.srl.runDest) b :=
  if_pos hno

/-! ### ABORT (R258) -/

theorem abortCmd_unqueues {o : Order} (hok : srlHandle b b.srl.runHandle b.srl.runSeg false = .ok)
    (ho : orderOf b b.srl.runHandle b.srl.runSeg = some o) (hwait : b.srl.evacWait = []) :
    abortCmd b = srlDone .ok { b with srl := { b.srl with queue := b.srl.queue.filter (· != o) } } := by
  simp only [abortCmd, hok, ho, unqueue_noneWait hwait]

/-- A segment without a move has neither an order nor a migration at any stage. -/
theorem hasMove_false (hnone : hasMove b h l = false) : orderOf b h l = none ∧ migOf b h l = none
    ∧ b.srl.migs.find? (fun m => m.order.handle == h && m.order.lseg == l) = none := by
  simp only [hasMove, Bool.or_eq_false_iff, Option.isSome_eq_false_iff, Option.isNone_iff_eq_none, List.any_eq_false] at hnone
  obtain ⟨horder, hmigs⟩ := hnone
  refine ⟨horder, List.find?_eq_none.mpr fun m hm hmine => hmigs m hm ?_, List.find?_eq_none.mpr hmigs⟩
  rw [Bool.and_eq_true] at hmine
  exact hmine.1

theorem abortCmd_refused (hok : srlHandle b b.srl.runHandle b.srl.runSeg false = .ok)
    (hnone : hasMove b b.srl.runHandle b.srl.runSeg = false) : abortCmd b = srlDone .badArg b := by
  obtain ⟨horder, hmig, hfind⟩ := hasMove_false hnone
  simp only [abortCmd, hok, horder, hmig, hfind]

/-! ### RETIRE (R259) -/

theorem retireCmd_refused (hno : segExists b.srl.runSeg = false) : retireCmd b = srlDone .badArg b := by
  simp [retireCmd, hno]

/-- A segment that nothing owns and no migration reads from is retired at once. -/
theorem retireCmd_free (hexists : segExists b.srl.runSeg = true) (hflat : inFlat b b.srl.runSeg = false)
    (hretired : b.srl.retired.contains b.srl.runSeg = false) (hfree : ownerOf b b.srl.runSeg = .free)
    (hfrom : migFrom b b.srl.runSeg = none) : retireCmd b = srlDone .ok (retireSeg b.srl.runSeg b) := by
  simp only [retireCmd, hexists, hflat, hretired, orderRetire, hfree, hfrom, Bool.not_true, Bool.or_false, Bool.false_eq_true,
    if_false]

/-! ### A go without a command (R263) -/

/-- While a command runs, a go that commits is refused and counted. -/
theorem srlGo_busy (op : BitVec 3) (hready : b.ready = true) (hbusy : b.srl.busy = true) (hsafe : b.sage.safe = false)
    (hthm : b.thm.safe = false) : srlGo op b = srlFinish op .badArg b := by
  simp [srlGo, hready, hbusy, hsafe, hthm]

theorem srlInvalid_busy (op : BitVec 3) (hready : b.ready = true) (h5 : 5 ≤ b.start.step) (hbusy : b.srl.busy = true) :
    srlInvalid op b = srlGo op b := by
  have hchive : b.inChive = false := by
    simp only [Block.ready, Bool.and_eq_true, Bool.not_eq_true'] at hready
    simp [Block.inChive, hready.2]
  simp [srlInvalid, hchive, hbusy, Nat.not_lt.mpr h5]

end Sys2Proof.Machine

open Sys2Proof Sys2Proof.Machine

/-- Settles O42: the command that runs does its work (`whenRuns_runs`), what it does in each case is the equation of the command
(`segQuery_shows` to `retireCmd_free`), and it ends with its status (`srl_ended`); a go without a command is refused
(`srlInvalid_busy`). -/
theorem sorrelCommands : Obligations.SorrelCommands := by
  intro s h l ended hbusy hsafe hthm
  have runs : ∀ {op : BitVec 3} {f : Block → Block} {t : Block}, s.blk.srl.runOp = op → f s.blk = t →
      whenRuns op f s = s.upd t := whenRuns_runs hbusy hsafe hthm
  refine ⟨fun hop => ⟨fun e hok he hsound => ?entry, fun hno => ?noEntry⟩, fun hop => ⟨fun hno => ?noSegment,
    fun hexists hflat hretired => ?retired⟩, fun hop => ⟨fun hok => ?order, fun hno => ?noOrder⟩, fun hop hnone hwait =>
    ⟨fun o hok ho => ?aborted, fun hok hmove => ?noMove⟩, fun hop => ⟨fun hno => ?notRetired,
    fun hexists hflat hretired hfree hfrom => ?retires⟩, fun op _ hready _ _ h5 => ?noCommand⟩
  case entry =>
    exact srl_ended (congrArg Host.Outcome.next (runs hop (segQuery_shows hok he hsound))) ⟨rfl, rfl, rfl⟩ ⟨rfl, rfl⟩
  case noEntry =>
    exact srl_ended (congrArg Host.Outcome.next (runs hop (segQuery_refused hno))) (.refl _) rfl
  case noSegment =>
    exact srl_ended (congrArg Host.Outcome.next (runs hop (physQuery_refused hno))) (.refl _) rfl
  case retired =>
    exact srl_ended (congrArg Host.Outcome.next (runs hop (physQuery_retired hexists hflat hretired))) ⟨rfl, rfl, rfl⟩
      ⟨rfl, rfl⟩
  case order =>
    exact srl_ended (congrArg Host.Outcome.next (runs hop (migrateCmd_queues hok))) ⟨rfl, rfl, rfl⟩ rfl
  case noOrder =>
    exact srl_ended (congrArg Host.Outcome.next (runs hop (migrateCmd_refused hno))) (.refl _) rfl
  case aborted =>
    have hruns := congrArg settle (runs hop (abortCmd_unqueues hok ho hwait))
    exact srl_ended (congrArg Host.Outcome.next (hruns.trans (settle_none (s := s.upd _) hnone))) ⟨rfl, rfl, rfl⟩ ⟨rfl, rfl⟩
  case noMove =>
    have hruns := congrArg settle (runs hop (abortCmd_refused hok hmove))
    exact srl_ended (congrArg Host.Outcome.next (hruns.trans (settle_none (s := s.upd _) hnone))) (.refl _) rfl
  case notRetired =>
    exact srl_ended (congrArg Host.Outcome.next (runs hop (retireCmd_refused hno))) (.refl _) rfl
  case retires =>
    have hsrl := retireSeg_srl l s.blk
    refine srl_ended (congrArg Host.Outcome.next (runs hop (retireCmd_free hexists hflat hretired hfree hfrom)))
      (.retireSeg _ _) ⟨?_, congrArg Sorrel.nRetired hsrl, ?_⟩
    · exact (congrArg Sorrel.retired hsrl).symm ▸ mem_sadd.mpr (.inl rfl)
    · exact (congrArg (fun x : Sorrel => x.written.contains l) hsrl).trans (isWritten_setWritten_same l false s.blk)
  case noCommand =>
    exact ⟨_, congrArg (fun x => Host.Outcome.next (s.upd x))
      ((srlInvalid_busy op hready h5 hbusy).trans (srlGo_busy op hready hbusy hsafe hthm)), rfl, rfl⟩

end

section
/-! SUPPORT. The steps of a migration (R249 to R256): what each does to Sorrel, and which part of a channel it leaves alone. -/

namespace Sys2Proof.Machine

open Sys2Proof

variable {b t : Block} {s : State} {m : Mig} {o : Order} {e : MapEntry} {src dst : Nat}

/-! ### Migrations by their source -/

theorem migFrom_src (hmig : migFrom b src = some m) : m.src = src := by
  simpa using List.find?_some hmig

/-- A change of the migration that reads from a segment, which goes on reading from it. -/
theorem migFrom_modMig {f : Mig → Mig} (hf : ∀ x, (f x).src = x.src) (hmig : migFrom b src = some m) :
    migFrom (modMig src f b) src = some (f m) := by
  have hkeep : (fun x : Mig => x.src == src) ∘ (fun x => if x.src = src then f x else x) = fun x => x.src == src := by
    funext x
    by_cases hx : x.src = src <;> simp [hx, hf]
  have hfind : b.srl.migs.find? (fun x => x.src == src) = some m := hmig
  simp only [migFrom, modMig, List.find?_map, hkeep, hfind, Option.map_some, migFrom_src hmig, if_true]

/-- A migration that has left is not found. -/
theorem find?_filter_ne_src (l : List Mig) : (l.filter fun x => x.src != src).find? (fun x => x.src == src) = none := by
  simp [List.find?_filter]

/-! ### Entries of the map, and heat -/

theorem modEntry_of {h l : Nat} (f : MapEntry → MapEntry) (he : mapEntry b h l = some e) :
    modEntry h l f b = setEntry h l (f e) b := by
  rw [modEntry, he]

theorem heatOf_mput {heat : SMap Nat} {g n : Nat} (hheat : t.srl.heat = mput heat g n) : heatOf t g = n := by
  rw [heatOf, hheat, mfind_mput_same, Option.getD_some]

/-! ### What a change of one channel leaves of every channel -/

theorem modChan_keep {α : Type} (g : Chan → α) {c : ChanId} {f : Chan → Chan} (hf : g (f b.chans[c]) = g b.chans[c])
    (d : ChanId) : g (modChan c f b).chans[d] = g b.chans[d] := by
  by_cases hd : d = c
  · subst hd
    rw [modChan_same, hf]
  · rw [modChan_other _ f hd]

/-- A pacer that is run leaves the rest of its channel alone (R274). -/
theorem runPacer_chan (c : Nat) (b : Block) (k : ChanId) :
    ∃ pacer pacerAt, (runPacer c b).chans[k] = { b.chans[k] with pacer, pacerAt } := by
  unfold runPacer
  by_cases hk : k = cid c
  · subst hk
    exact ⟨_, _, modChan_same _ _ _⟩
  · exact ⟨b.chans[k].pacer, b.chans[k].pacerAt, modChan_other _ _ hk⟩

/-- An event for a context changes the engines alone (R382). -/
theorem postCtx_eq (k n ev : Nat) (line : List Byte) (b : Block) : ∃ engs, postCtx k n ev line b = { b with engs } := by
  unfold postCtx
  dsimp only
  split <;> split
  all_goals exact ⟨_, rfl⟩

/-! ### MIGRATION_START (R249, R251) -/

theorem queueOrdered_single (hqueue : b.srl.queue = [o]) : queueOrdered b = [o] := by
  unfold queueOrdered
  rw [hqueue]
  cases hreason : o.reason <;> simp [hreason, Reason.prio]

/-- The order that can start and finds a destination takes it. -/
theorem migStart_reserves (hqueue : b.srl.queue = [o]) (hcan : canStart b o = true)
    (he : mapEntry b o.handle o.lseg = some e) (hdest : destOf b o e.pseg = some dst) :
    migStart b = reserveDest o e.pseg dst b := by
  have hstart : startOrder b o = some (reserveDest o e.pseg dst b) := by
    simp [startOrder, hcan, he, hdest]
  simp [migStart, queueOrdered_single hqueue, hstart]

/-- The pacers of both channels of a migration are run as it starts. -/
def pacedBoth (src dst : Nat) (b : Block) : Block := runPacer (segChan src) (runPacer (segChan dst) b)

theorem pacedBoth_chan (src dst : Nat) (b : Block) (k : ChanId) :
    ∃ pacer pacerAt, (pacedBoth src dst b).chans[k] = { b.chans[k] with pacer, pacerAt } := by
  obtain ⟨_, _, hsecond⟩ := runPacer_chan (segChan src) (runPacer (segChan dst) b) k
  obtain ⟨_, _, hfirst⟩ := runPacer_chan (segChan dst) b k
  exact ⟨_, _, hsecond.trans (by rw [hfirst])⟩

/-- RESERVE takes the order out of the queue, makes its entry migrating and adds the migration (R252 step 1). -/
theorem reserveDest_eq (hwait : b.srl.evacWait = []) (he : mapEntry b o.handle o.lseg = some e) :
    ∃ prot, reserveDest o src dst b = { pacedBoth src dst b with srl := { b.srl with
      queue := b.srl.queue.filter (· != o), prot
      map := mput b.srl.map (mapKey o.handle o.lseg) { e with migrating := true }
      migs := b.srl.migs ++ [{ order := o, src := src, dst := dst, blank := !isWritten b src }] } } := by
  have hunqueue : unqueue o (runPacer (segChan src) (runPacer (segChan dst) b))
      = { pacedBoth src dst b with srl := { b.srl with queue := b.srl.queue.filter (· != o) } } := unqueue_noneWait hwait
  unfold reserveDest
  dsimp only
  rw [hunqueue, modEntry_of (e := e)]
  · exact ⟨(setProt dst (attrProt (attrOf b o.handle) == 1) b).srl.prot, rfl⟩
  · exact he

/-! ### COPY_DONE (R252 step 2, R255) -/

/-- A source that was unwritten as COPY began has nothing to copy: the COMMIT hold begins. -/
theorem copyDone_blank {errs : List LineErr} (hmig : migFrom s.blk src = some m) (hmay : copyMay s.blk m = true)
    (hblank : m.blank = true) (hdescs : s.blk.ops.descs = []) :
    copyDone src errs s = s.upd (modMig src (fun x => { x with stage := .hold }) s.blk) := by
  have hleft : copyLeft s.blk m = false := by simp [copyLeft, hblank]
  have hwriter : stoppedWriter s m = false := by simp [stoppedWriter, pieceWrites, hdescs]
  simp [copyDone, hmig, hmay, hleft, hwriter]

section Lines
variable {errs : List LineErr} (hmig : migFrom s.blk src = some m) (hmay : copyMay s.blk m = true) (hblank : m.blank = false)
  (hlines : m.copied < 1024)
include hmig hmay hblank hlines

/-- A copy with lines to read goes on with its next line. -/
theorem copyDone_next : copyDone src errs s = s.upd (copyNext src errs s.blk) := by
  have hleft : copyLeft s.blk m = true := by simp [copyLeft, hblank, hlines]
  simp [copyDone, hmig, hmay, hleft]

/-- One line of a copy is on its way at a time. -/
theorem copyDone_waits (hpending : maintPending s.blk.chans[cid (segChan src)] (AccSrc.copyReadOf src) = true) :
    copyDone src errs s = s := by
  have hnext : copyNext src errs s.blk = s.blk := by simp [copyNext, hmig, hpending, -Fin.getElem_fin]
  rw [copyDone_next hmig hmay hblank hlines, hnext, State.upd_self]

/-- The read of the next line waits for the source's pacer (R250). -/
theorem copyDone_reads (hread : maintPending s.blk.chans[cid (segChan src)] (AccSrc.copyReadOf src) = false)
    (hwrite : (s.blk.chans[cid (segChan m.dst)].maintWait.any fun w => AccSrc.copyWriteOf src w.src) = false) :
    copyDone src errs s = s.upd (awaitPacer (.copyRead src m.copied) (segChan src) (plaOf src m.copied) 0
      (errAt errs src m.copied) s.blk) := by
  rw [copyDone_next hmig hmay hblank hlines]
  simp only [copyNext, hmig, hmay, hblank, hread, hwrite, Nat.not_le.mpr hlines, decide_false, Bool.not_true, Bool.or_false,
    Bool.false_eq_true, if_false]

end Lines

/-! ### A line that DRAM returns (R252, R254) -/

section Returned
variable {c : Nat} {r : Acc} {g l : Nat} {err v : Stored}

/-- What DRAM gives for a read depends on the remap entries and spare rows of its channel alone. -/
theorem storedAt_modChan {f : Chan → Chan} (hf : ∀ x, (f x).remap = x.remap ∧ (f x).soft = x.soft ∧ (f x).hard = x.hard)
    (mem : List Host.Cell) (a : Nat) : storedAt (modChan (cid c) f b) mem c a = storedAt b mem c a := by
  obtain ⟨hremap, hsoft, hhard⟩ := hf b.chans[cid c]
  simp only [storedAt, remapOf, effPla, effRow, modChan_same, hremap, hsoft, hhard]

/-- The channel whose one read in flight DRAM has returned, with the line in its data path. -/
def lineRead (v : Stored) (x : Chan) : Chan := { x with inflight := [], rdFifo := through 16 v x.rdFifo }

/-- A line has been served for the unit that asked for it. -/
def servedTo (r : Acc) (v : Stored) (x : Chan) : Chan := { x with served := x.served ++ [(r, v)] }

/-- Every line that has been served has been taken. -/
def noneServed (x : Chan) : Chan := { x with served := [] }

theorem noneServed_servedTo {x : Chan} (hserved : x.served = []) : noneServed (servedTo r v x) = x := by
  unfold noneServed servedTo
  rw [← hserved]

/-- The one read in flight, of a copy, is served for its engine. -/
theorem readReturn_copy (hv : storedAt s.blk s.mem c r.pla ^^^ r.err ^^^ err = v) (hsrc : r.src = .copyRead g l)
    (hflight : s.blk.chans[cid c].inflight = [r]) (hxbar : s.blk.chans[cid c].xbar = []) :
    readReturn c err s = s.upd (modChan (cid c) (fun x => servedTo r v (lineRead v x)) s.blk) := by
  simp only [readReturn, hflight, hsrc, serveOwn, storedAt_modChan, implies_true, and_self, hv]
  rw [modChan_modChan, modChan_modChan, letIn_none (by rw [modChan_same]; exact hxbar)]
  rfl

/-- A line that DRAM returns for a copy is what the copy takes. -/
theorem returnRow_copy (hv : storedAt s.blk s.mem c r.pla ^^^ r.err ^^^ err = v) (hsrc : r.src = .copyRead g l)
    (hflight : s.blk.chans[cid c].inflight = [r]) (hxbar : s.blk.chans[cid c].xbar = [])
    (hserved : s.blk.chans[cid c].served = []) :
    returnRow c err s = s.upd (copyTook r g l v (modChan (cid c) (lineRead v) s.blk)) := by
  have hwaits : (servedTo r v (lineRead v s.blk.chans[cid c])).served = [(r, v)] := by
    rw [servedTo, show (lineRead v s.blk.chans[cid c]).served = [] from hserved]
    rfl
  have hclear : modChan (cid c) (fun x => { x with served := [] })
      (modChan (cid c) (fun x => servedTo r v (lineRead v x)) s.blk) = modChan (cid c) (lineRead v) s.blk := by
    rw [modChan_modChan]
    exact modChan_congr (noneServed_servedTo (x := lineRead v s.blk.chans[cid c]) hserved)
  rw [returnRow, readReturn_copy hv hsrc hflight hxbar]
  simp only [takeServed, State.upd_blk, modChan_same, hwaits, hclear, List.foldl_cons, List.foldl_nil, takeOne, hsrc]
  rfl

/-- A clean line goes to the destination with fresh check bytes, once the engine has heard of it (R383). -/
theorem copyTook_clean (hmig : migFrom b src = some m) (hstage : m.stage = .copy)
    (hclean : (decodeLine (isDouble b src) v).1 = .clean) : copyTook r src m.copied v b
      = copyPut m m.copied (encode (lineOf v)) (postCtx (segChan src) 1 1 (bytesOf 64 (lineOf v)) b) := by
  have hdouble : isDouble (postCtx (segChan src) 1 1 (bytesOf 64 (lineOf v)) b) src = isDouble b src :=
    postCtx_keep b (isDouble · src) (fun _ _ _ => rfl) _ _ _ _
  simp only [copyTook, hmig, hstage, ne_eq, not_true_eq_false, or_self, if_false, hdouble, hclean]

/-- The end of the DRAM command whose clean line goes on to the destination. -/
theorem exec_dramReadReturn_copy (hv : storedAt s.blk s.mem (segChan src) r.pla ^^^ r.err ^^^ err = v)
    (hmig : migFrom s.blk src = some m) (hstage : m.stage = .copy) (hsrc : r.src = .copyRead src m.copied)
    (hflight : s.blk.chans[cid (segChan src)].inflight = [r]) (hxbar : s.blk.chans[cid (segChan src)].xbar = [])
    (hserved : s.blk.chans[cid (segChan src)].served = []) (hforced : s.blk.regs.forced = [])
    (hclean : (decodeLine (isDouble s.blk src) v).1 = .clean) : ∃ engs, exec (.dramReadReturn (cid (segChan src)) err) s
      = .next (s.upd (copyPut m m.copied (encode (lineOf v)) { modChan (cid (segChan src)) (lineRead v) s.blk with engs })) := by
  have hc : (cid (segChan src)).val = segChan src := Nat.mod_mod _ _
  obtain ⟨engs, hpost⟩ := postCtx_eq (segChan src) 1 1 (bytesOf 64 (lineOf v)) (modChan (cid (segChan src)) (lineRead v) s.blk)
  have htook := (copyTook_clean (b := modChan (cid (segChan src)) (lineRead v) s.blk) (r := r) hmig hstage hclean).trans
    (congrArg (copyPut m m.copied (encode (lineOf v))) hpost)
  have hrow := (returnRow_copy hv hsrc hflight hxbar hserved).trans (congrArg s.upd htook)
  refine ⟨engs, ?_⟩
  calc exec (.dramReadReturn (cid (segChan src)) err) s
    _ = .next (goOn (returnRow (cid (segChan src)).val err s)) := rfl
    _ = .next (goOn (s.upd (copyPut m m.copied (encode (lineOf v))
          { modChan (cid (segChan src)) (lineRead v) s.blk with engs }))) := by rw [hc, hrow]
    _ = .next (s.upd (copyPut m m.copied (encode (lineOf v)) { modChan (cid (segChan src)) (lineRead v) s.blk with engs })) :=
      congrArg (fun b => Host.Outcome.next (s.upd b)) (forcedGo_none hforced)

end Returned

/-! ### Writes at the source (R254) -/

/-- Sorrel is as before, and so is what waits in every crossbar. -/
def SameXbar (s t : State) : Prop := t.blk.srl = s.blk.srl ∧ ∀ d : ChanId, t.blk.chans[d].xbar = s.blk.chans[d].xbar

theorem sameXbar_modChan {c : ChanId} {f : Chan → Chan} (hf : ∀ x, (f x).xbar = x.xbar) :
    SameXbar s (s.upd (modChan c f s.blk)) :=
  ⟨rfl, modChan_keep Chan.xbar (hf _)⟩

theorem sameXbar_mirrorSoft (c a : Nat) (v : Stored) (s : State) : SameXbar s (mirrorSoft c a v s) := by
  unfold mirrorSoft
  dsimp only
  split
  · exact ⟨rfl, fun _ => rfl⟩
  · split
    · exact ⟨rfl, fun _ => rfl⟩
    · split
      · exact ⟨rfl, fun _ => rfl⟩
      · exact sameXbar_modChan fun _ => rfl

theorem sameXbar_putLine (c a : Nat) (v : Stored) (s : State) : SameXbar s (putLine c a v s) := by
  unfold putLine
  dsimp only
  split
  · obtain ⟨hsrl, hxbar⟩ := sameXbar_mirrorSoft c a v (s.upd (modChan (cid c) (setRemap a v) s.blk))
    obtain ⟨hsrl', hxbar'⟩ := sameXbar_modChan (s := s) (c := cid c) (f := setRemap a v) fun _ => rfl
    exact ⟨hsrl.trans hsrl', fun d => (hxbar d).trans (hxbar' d)⟩
  · exact sameXbar_mirrorSoft c a v { s with mem := _ }

/-- A write applied at the source of a copy waits in the crossbar of the destination. -/
theorem storeLine_forwards {c : Nat} {w : Acc} (hforward : forwardTo s.blk (plaSeg c w.pla) = some m) :
    (storeLine c w s).blk.chans[cid (segChan m.dst)].xbar = s.blk.chans[cid (segChan m.dst)].xbar
      ++ [{ lines := [forwardAcc m w (putLine c w.pla w.data s).blk.now] }] := by
  obtain ⟨hsrl, hxbar⟩ := sameXbar_putLine c w.pla w.data s
  have hsame : forwardTo (putLine c w.pla w.data s).blk (plaSeg c w.pla) = some m := by
    rw [forwardTo, hsrl]
    exact hforward
  simp only [storeLine, noteForward, hsame, State.upd_blk, modChan_same, hxbar]

/-! ### COMMIT (R252 step 3, R256) -/

/-- The entry names the destination, which takes the source's written bit and its heat; the orders that had nothing left to move
leave. -/
theorem switchEntry_eq (he : mapEntry b m.order.handle m.order.lseg = some e) : ∃ queue evacWait, switchEntry m b
    = ctrAdd (srlBase + 0x44) 1 (modMig m.src (fun x => { x with stage := .release }) { b with srl := { b.srl with
        map := mput b.srl.map (mapKey m.order.handle m.order.lseg) { e with pseg := m.dst, migrating := false, retired := false }
        written := (setWritten m.dst (isWritten b m.src) b).srl.written
        heat := mput (mdel b.srl.heat m.src) m.dst (heatOf b m.src), queue, evacWait } }) := by
  unfold switchEntry
  dsimp only
  rw [modEntry_of _ he]
  obtain ⟨queue, evacWait, hdrop⟩ := dropOrders_eq _ _ _
  rw [hdrop]
  exact ⟨queue, evacWait, rfl⟩

/-- The handshake is accepted where no write waits at either side. -/
theorem mayCommit_of (hstage : m.stage = .hold) (hdescs : s.blk.ops.descs = [])
    (hwrites : writesWait s.blk.chans[cid (segChan m.src)] m.src = false)
    (hdest : destWaits s.blk.chans[cid (segChan m.dst)] m.dst = false) : mayCommit s m = true := by
  simp [mayCommit, pieceWrites, hstage, hdescs, hwrites, hdest, -Fin.getElem_fin]

/-- An accepted handshake switches the entry, and where nothing waits for the hold nothing else happens. -/
theorem commitMig_switches (hsafe : s.blk.sage.safe = false) (hthm : s.blk.thm.safe = false) (hmig : migFrom s.blk src = some m)
    (hmay : mayCommit s m = true) (hswitch : switchEntry m (postCtx (segChan src) 1 6 [] s.blk) = t)
    (hnone : noWaiters (s.upd t)) : commitMig src s = s.upd t := by
  have hsettle : commitMig src s = settle (s.upd t) := by
    simp only [commitMig, hsafe, hthm, hmig, hmay, hswitch, Bool.or_self, Bool.false_eq_true, if_false, if_true]
    rfl
  rw [hsettle, settle_none hnone]

/-! ### RELEASE (R252 step 4) -/

/-- The migration that reads from a segment has left. -/
def withoutMig (src : Nat) (b : Block) : Block :=
  { b with srl := { b.srl with migs := b.srl.migs.filter fun x => x.src != src } }

/-- The source of a migration that leaves is freed, and the event of a host's order is all that the ports see. -/
theorem releaseMig_frees (hsafe : b.sage.safe = false) (hthm : b.thm.safe = false) (hmig : migFrom b src = some m)
    (hstage : m.stage = .release) (hdescs : b.ops.descs = []) (hbusy : segBusy b.chans[cid (segChan src)] src = false)
    (hreason : m.order.reason ≠ .evac) (hretire : b.srl.retireAt.contains src = false) :
    quietly (freeSeg src (withoutMig src b)) (releaseMig src b) := by
  have hpiece : pieceAt b src = false := by simp [pieceAt, hdescs]
  have hevac : (m.order.reason == .evac) = false := by simpa using hreason
  have hfrees : releaseSeg src false (withoutMig src b) = freeSeg src (withoutMig src b) :=
    if_neg (by simpa [withoutMig] using hretire)
  unfold withoutMig at hfrees ⊢
  simp only [releaseMig, hmig, hstage, hbusy, hpiece, hsafe, hthm, hevac, hfrees, ne_eq, not_true_eq_false, Bool.false_eq_true,
    or_self, if_false]
  split
  · exact quietly_emit _ _ _
  · exact quietly_refl _

end Sys2Proof.Machine

open Sys2Proof Sys2Proof.Machine

/-- Settles O43: each step is the equation of its command: the start `migStart_reserves`, the copy `copyDone_blank` to
`copyDone_reads`, a line that returns `exec_dramReadReturn_copy`, a write at the source `storeLine_forwards`, the switch of
the entry `commitMig_switches` and the release `releaseMig_frees`. -/
theorem migrationSteps : Obligations.MigrationSteps := by
  intro o m e src dst s hsafe hthm c d
  refine ⟨fun hqueue hwait hcan he hdest => ?start, fun hmig hmay => ⟨fun hblank hdescs => ?blank, fun hblank hlines errs =>
    ⟨fun hpending => ?waits, fun hread hwrite => ?reads⟩⟩,
    fun r err hmig hstage hsrc hflight hxbar hserved hforced hclean => ?returned, fun w hforward => ?forward,
    fun hmig hstage hnone hwrites hdest he => ?commit, fun hmig hstage hdescs hbusy hreason hretire => ?release⟩
  case start =>
    obtain ⟨prot, hreserve⟩ := reserveDest_eq (src := e.pseg) (dst := dst) hwait he
    refine ⟨s.upd (migStart s.blk), rfl, rfl, rfl, ?_⟩
    rw [State.upd_blk, migStart_reserves hqueue hcan he hdest, hreserve]
    refine ⟨?_, rfl, mfind_mput_same _ _ _, rfl, rfl, fun k => ?_⟩
    · simp [hqueue]
    · obtain ⟨pacer, pacerAt, hchan⟩ := pacedBoth_chan e.pseg dst s.blk k
      rw [hchan]
  case blank =>
    exact ⟨_, congrArg Host.Outcome.next (copyDone_blank hmig hmay hblank hdescs), rfl, migFrom_modMig (fun _ => rfl) hmig, rfl,
      rfl⟩
  case waits => exact congrArg Host.Outcome.next (copyDone_waits hmig hmay hblank hlines hpending)
  case reads =>
    exact ⟨_, congrArg Host.Outcome.next (copyDone_reads hmig hmay hblank hlines hread hwrite), rfl, rfl, rfl, rfl⟩
  case returned =>
    obtain ⟨engs, hexec⟩ := exec_dramReadReturn_copy rfl hmig hstage hsrc hflight hxbar hserved hforced hclean
    obtain rfl := migFrom_src hmig
    refine ⟨_, maintAcc (.copy m.src m.copied) (segChan m.dst) (plaOf m.dst m.copied) s.blk.now _ 0, hexec, rfl,
      migFrom_modMig (fun _ => rfl) hmig, ?_, rfl, rfl, rfl, rfl, rfl⟩
    refine (awaitPacer_maintWait _ _ _ _ _ _).trans (congrArg (· ++ _) ?_)
    exact modChan_keep Chan.maintWait rfl d
  case forward => exact ⟨forwardAcc m w (putLine c.val w.pla w.data s).blk.now, rfl, rfl, rfl, rfl, storeLine_forwards hforward⟩
  case commit =>
    obtain rfl := migFrom_src hmig
    obtain ⟨engs, hpost⟩ := postCtx_eq (segChan m.src) 1 6 [] s.blk
    obtain ⟨queue, evacWait, hswitch⟩ := switchEntry_eq (b := { s.blk with engs }) he
    have hcommit := commitMig_switches hsafe hthm hmig (mayCommit_of hstage hnone.1 hwrites hdest)
      ((congrArg (switchEntry m) hpost).trans hswitch) hnone
    exact ⟨_, congrArg Host.Outcome.next hcommit, rfl, migFrom_modMig (fun _ => rfl) hmig, mfind_mput_same s.blk.srl.map _ _,
      isWritten_setWritten_same _ _ s.blk, heatOf_mput rfl, rfl, rfl, ctr_ctrAdd _ _ _⟩
  case release =>
    have hquiet := releaseMig_frees hsafe hthm hmig hstage hdescs hbusy hreason hretire
    have hsrl : (releaseMig src s.blk).srl = _ := congrArg Block.srl hquiet.1
    refine ⟨s.upd (releaseMig src s.blk), rfl, rfl, ?_⟩
    rw [State.upd_blk, migFrom, isWritten, isDouble, hsrl]
    exact ⟨find?_filter_ne_src _, isWritten_setWritten_same src false s.blk, isDouble_setProt_same src false s.blk, rfl, rfl,
      hquiet.2⟩

end

section
/-! SUPPORT. The class epoch (R282 to R284) and the heat-decay epoch (R243, R244): the grants of a quadrant stay within its
reservations, the events of an epoch leave Savory's budgets alone, and the halving leaves the heat of handles' segments. -/

namespace Sys2Proof.Machine

open Sys2Proof

variable {b : Block}

/-! ### Quadrants of Savory -/

theorem modSavQ_same (q : QuadId) (f : SavQ → SavQ) (b : Block) : (modSavQ q f b).sav.q[q] = f b.sav.q[q] := by
  simp [modSavQ]

theorem modSavQ_other {q i : QuadId} (f : SavQ → SavQ) (b : Block) (h : q ≠ i) : (modSavQ i f b).sav.q[q] = b.sav.q[q] := by
  simp only [modSavQ, Fin.getElem_fin]
  exact Vector.getElem_set_ne _ _ fun e => h (Fin.ext e.symm)

/-- What a change establishes of the quadrant it is made to holds of every quadrant once each has had its turn. -/
theorem forAll_modSavQ {P : SavQ → Prop} (f : QuadId → Block → SavQ → SavQ) (hf : ∀ i b x, P (f i b x)) (b : Block)
    (q : QuadId) : P (forAll 4 (fun i b => modSavQ i (f i b) b) b).sav.q[q] := by
  have hturns : ∀ (l : List QuadId) (b : Block), q ∈ l ∨ P b.sav.q[q] →
      P (l.foldl (fun b i => modSavQ i (f i b) b) b).sav.q[q] := by
    intro l
    induction l with
    | nil => exact fun b h => h.resolve_left List.not_mem_nil
    | cons i t ih =>
      intro b h
      refine ih _ ?_
      by_cases hi : q = i
      · subst hi
        rw [modSavQ_same]
        exact .inr (hf ..)
      · rw [modSavQ_other _ _ hi]
        exact h.imp_left fun h => (List.mem_cons.mp h).resolve_left hi
  exact hturns (List.finRange 4) b (.inl (List.mem_finRange q))

/-! ### Grants (R282, R283) -/

/-- A privileged class is granted no more than its reservation, whatever the classes before it have left. -/
theorem privGrant_le (priv : Nat → Bool) (resv : Nat → Nat) (l : List Nat) (left k : Nat) :
    (privGrant priv resv l left).1 k ≤ resv k := by
  induction l generalizing left with
  | nil => exact Nat.zero_le _
  | cons c t ih =>
    unfold privGrant
    by_cases hpriv : priv c = true
    · by_cases hk : k = c
      · simp [hpriv, hk]
      · simpa [hpriv, hk] using ih _
    · simpa [hpriv] using ih left

/-- The classes that are not privileged share what is left in proportion to their reservations once it falls short of their sum,
so each is granted no more than it has reserved. -/
theorem grantsOf_le (priv : Nat → Bool) (resv : Nat → Nat) (budget : Nat) {c : Nat} (hc : c < 8) :
    (grantsOf priv resv budget).getD c 0 ≤ resv c := by
  simp only [grantsOf, List.getD_eq_getElem?_getD, List.getElem?_map, List.getElem?_range hc, Option.map_some, Option.getD_some]
  split
  case isTrue hpriv => exact privGrant_le ..
  case isFalse hpriv =>
    split
    case isTrue hall => exact le_rfl
    case isFalse hshort =>
      refine Nat.div_le_of_le_mul ?_
      rw [Nat.mul_comm _ (resv c)]
      exact Nat.mul_le_mul_left _ (not_le.mp hshort).le

/-- The grants of a quadrant are within its reservations, its allowances are those of its grants, and it is overcommitted exactly
when its reservations exceed its budget. -/
def SavQ.Granted (x : SavQ) : Prop :=
  (∀ k : Fin 8, x.grant[k] ≤ x.resv[k] ∧ x.allow[k] = x.grant[k] * 1000 / 64) ∧ (x.overG = true ↔ x.budget < resvSum x)

theorem formGrants_granted (b : Block) (x : SavQ) : (formGrants b x).Granted := by
  refine ⟨fun k => ⟨?_, ?_⟩, decide_eq_true_iff⟩
  · have hle := grantsOf_le (privileged b) (fun c => x.resv[Fin.ofNat 8 c]) x.budget k.isLt
    simpa [formGrants] using hle
  · simp [formGrants]

/-! ### Step 5: the events of an epoch (R278, R288) -/

section Events
variable {α : Type} (g : Block → α) (hemit : ∀ m e b, g (emit m e b) = g b) (hrc : ∀ a i b, g (rcSet a i b) = g b)
include hemit hrc

theorem overOn_keep (old : SavQ) (q : QuadId) (b : Block) : g (overOn old q b) = g b := by
  unfold overOn
  dsimp only
  split
  · rfl
  · split
    · rw [hemit, hrc]
    · split
      · rw [hemit, hrc]
      · rfl

theorem overOff_keep (old : SavQ) (q : QuadId) (b : Block) : g (overOff old q b) = g b := by
  unfold overOff
  dsimp only
  split
  · rw [hemit, hrc]
  · rfl

theorem missEvent_keep (k : Fin 8) (b : Block) : g (missEvent k b) = g b := by
  unfold missEvent
  dsimp only
  split
  · rfl
  · rw [hemit, hrc]

/-- The events of an epoch leave what no event changes. -/
theorem epochEvents_keep (old : Vector SavQ 4) (b : Block) :
    g (forAll 8 missEvent (forAll 4 (fun q b => overOff old[q] q b) (forAll 4 (fun q b => overOn old[q] q b) b))) = g b := by
  rw [forAll_keep _ g _ (missEvent_keep g hemit hrc), forAll_keep _ g _ fun q => overOff_keep g hemit hrc old[q] q,
    forAll_keep _ g _ fun q => overOn_keep g hemit hrc old[q] q]

end Events

/-! ### Steps 2 to 5 (R284) -/

/-- What a change of one quadrant leaves, a change of reservations leaves. -/
theorem modResv_keep {α : Type} (g : Block → α) (hg : ∀ i f b, g (modSavQ i f b) = g b) (f : Nat → Nat) (w : Word) (q : Nat)
    (b : Block) : g (modResv f w q b) = g b := by
  unfold modResv
  split
  · rfl
  · refine forAll_keep b g _ fun i c => ?_
    split
    · exact hg ..
    · rfl

/-- What lies outside Savory, steps 2 and 3 leave. -/
theorem epochBudgets_keep {α : Type} (g : Block → α) (hg : ∀ (c : Block) sav, g { c with sav } = g c) (b : Block) :
    g (epochBudgets b) = g b := by
  have hquad : ∀ i f c, g (modSavQ i f c) = g c := fun _ _ c => hg c _
  unfold epochBudgets
  rw [forAll_keep _ g _ fun i c => hquad i _ c, hg, foldl_keep g _ fun c r => modResv_keep g hquad _ _ _ c]

/-- No reservation waits to leave after step 2 (R236). -/
theorem epochBudgets_released (b : Block) : (epochBudgets b).sav.released = [] :=
  forAll_keep _ (·.sav.released) _ fun _ _ => rfl

/-- What lies outside Savory and no event changes, steps 4 and 5 leave. -/
theorem epochGrants_keep {α : Type} (g : Block → α) (hsav : ∀ (c : Block) sav, g { c with sav } = g c)
    (hemit : ∀ m e b, g (emit m e b) = g b) (hrc : ∀ a i b, g (rcSet a i b) = g b) (b : Block) : g (epochGrants b) = g b := by
  unfold epochGrants
  have hquad : ∀ i f c, g (modSavQ i f c) = g c := fun _ _ c => hsav c _
  rw [hsav, epochEvents_keep g hemit hrc, forAll_keep _ g _ fun i c => hquad i _ c]

/-- Savory after steps 4 and 5: the grants that step 4 forms, and no miss counted. -/
theorem epochGrants_sav (b : Block) : (epochGrants b).sav
    = { (forAll 4 (fun q b => modSavQ q (formGrants b) b) b).sav with miss := Vector.replicate 8 (0, 0) } := by
  unfold epochGrants
  dsimp only
  rw [epochEvents_keep Block.sav (fun m e b => emit_sav b m e) (fun a i b => rcSet_sav b a i)]

theorem epochGrants_granted (b : Block) (q : QuadId) : (epochGrants b).sav.q[q].Granted := by
  rw [epochGrants_sav]
  exact forAll_modSavQ (fun _ => formGrants) (fun _ => formGrants_granted) b q

theorem epochGrants_released (b : Block) : (epochGrants b).sav.released = b.sav.released := by
  rw [epochGrants_sav]
  exact forAll_keep b (·.sav.released) _ fun _ _ => rfl

theorem epochGrants_miss (b : Block) : (epochGrants b).sav.miss = Vector.replicate 8 (0, 0) :=
  congrArg Savory.miss (epochGrants_sav b)

/-! ### CLASS_EPOCH -/

theorem commitLive_none (f : Nat → Bool) (h : b.img.liveWait = []) : commitLive f b = b := by simp [commitLive, h]

theorem commitSav_none (h : pendingAt savBase b = false) : commitSav b = b := by
  rw [commitSav, takePend_none h]
  rfl

theorem commitSrl_none (h : pendingAt srlBase b = false) : commitSrl b = b := by
  rw [commitSrl, takePend_none h]
  rfl

theorem classEpoch_stands (h : b.start.step < 5 ∨ b.sage.safe = true ∨ strobe 1000 b = false) : classEpoch b = b :=
  if_pos (by simpa [or_assoc] using h)

/-- Where nothing waits to commit and every register has its parity, an epoch is its steps 2 to 5. -/
theorem classEpoch_runs (hstep : 5 ≤ b.start.step) (hstrobe : strobe 1000 b = true) (hgood : b.regs.badPar = [])
    (hsafe : b.sage.safe = false) (hlive : b.img.liveWait = []) (hpend : b.regs.pend = []) :
    classEpoch b = epochGrants (epochBudgets b) := by
  have hnone : ∀ base, pendingAt base b = false := fun base => by simp [pendingAt, hpend]
  have hruns : ¬ (b.start.step < 5 || b.sage.safe || !strobe 1000 b) = true := by simp [hsafe, hstrobe, hstep]
  rw [classEpoch, if_neg hruns, useRegs_good _ hgood]
  dsimp only
  rw [if_neg (by simp [hsafe]), commitLive_none _ hlive, commitSav_none (hnone _), commitSrl_none (hnone _)]

/-! ### HEAT_DECAY_EPOCH (R243, R244) -/

theorem heatDecay_stands (h : b.sage.safe = true ∨ strobe 1000000 b = false) : heatDecay b = b :=
  if_pos (by obtain h | h := h <;> simp [h])

/-- Sorrel orders no move before the stack is READY. -/
theorem heatDecay_unready (hstep : 5 ≤ b.start.step) (hstrobe : strobe 1000000 b = true) (hgood : b.regs.badPar = [])
    (hsafe : b.sage.safe = false) (hthm : b.thm.safe = false) (hready : b.ready = false) : heatDecay b = decayHeat b := by
  have hruns : ¬ (b.start.step < 5 || b.sage.safe || b.thm.safe || !strobe 1000000 b) = true := by
    simp [hsafe, hthm, hstrobe, hstep]
  have hstill : (decayHeat b).ready = false := hready
  rw [heatDecay, if_neg hruns, useRegs_good _ hgood]
  simp [hsafe, hstill]

/-- A halved counter is kept unless it is 0. -/
theorem mem_decayHeat (b : Block) (k v : Nat) :
    (k, v) ∈ (decayHeat b).srl.heat ↔ ∃ w, (k, w) ∈ b.srl.heat ∧ v = w / 2 ∧ v ≠ 0 := by
  simp only [decayHeat, List.mem_filter, List.mem_map, Prod.mk.injEq, Prod.exists, bne_iff_ne]
  constructor
  · rintro ⟨⟨_, w, hw, rfl, rfl⟩, hne⟩
    exact ⟨w, hw, rfl, hne⟩
  · rintro ⟨w, hw, rfl, hne⟩
    exact ⟨⟨k, w, hw, rfl, rfl⟩, hne⟩

/-- A segment that no quarantine holds and the map names belongs to a handle. -/
theorem mapped_contains (m : SMap MapEntry) (p : Nat) :
    ((m.filter fun e => !e.2.quarantined).map fun e => e.2.pseg).contains p = m.any fun e => !e.2.quarantined && e.2.pseg == p := by
  rw [List.contains_eq_any_beq, List.any_map, List.any_filter]
  exact congrArg m.any (funext fun e => by rw [Function.comp, BEq.comm])

theorem decayHeat_chHeat (b : Block) (c : ChanId) : (decayHeat b).srl.chHeat[c]
    = (((decayHeat b).srl.heat.filter fun e => segChan e.1 == c.val
        && ((b.srl.map.any fun m => !m.2.quarantined && m.2.pseg == e.1) || inFlat b e.1)).map fun e => e.2).sum := by
  simp only [decayHeat, mapped_contains, Fin.getElem_fin, Vector.getElem_ofFn]

end Sys2Proof.Machine

open Sys2Proof Sys2Proof.Machine

/-- Settles O38: outside its strobe an epoch is `classEpoch_stands` and `heatDecay_stands`; at it, the class epoch is
`classEpoch_runs`, whose grants are `epochGrants_granted`, and the heat-decay epoch is `heatDecay_unready`, with the counters of
`mem_decayHeat` and the channel heat of `decayHeat_chHeat`. -/
theorem classAndHeatEpochs : Obligations.ClassAndHeatEpochs := by
  refine ⟨fun s => ⟨fun hstands => ?classStands, fun hstep hstrobe hgood hsafe hlive hpend => ?classRuns⟩,
    fun s => ⟨fun hstep hstrobe hgood hsafe hthm hready => ?heatRuns, fun hstands => ?heatStands⟩⟩
  case classStands => exact next_upd_congr (classEpoch_stands hstands)
  case classRuns =>
    refine ⟨s.upd (epochGrants (epochBudgets s.blk)),
      next_upd_congr (classEpoch_runs hstep hstrobe hgood hsafe hlive hpend), s.upd_mem _, s.upd_pending _,
      (epochGrants_released _).trans (epochBudgets_released _), epochGrants_granted _, epochGrants_miss _, ?_, ?_⟩
    · exact (epochGrants_keep Block.srl (fun _ _ => rfl) (fun m e b => emit_srl b m e) (fun _ _ _ => rfl) _).trans
        (epochBudgets_keep Block.srl (fun _ _ => rfl) _)
    · exact (epochGrants_keep Block.chans (fun _ _ => rfl) (fun m e b => emit_chans b m e) (fun _ _ _ => rfl) _).trans
        (epochBudgets_keep Block.chans (fun _ _ => rfl) _)
  case heatRuns =>
    exact ⟨s.upd (decayHeat s.blk),
      next_upd_congr (heatDecay_unready hstep hstrobe hgood hsafe hthm hready), rfl, rfl, rfl,
      mem_decayHeat s.blk, decayHeat_chHeat s.blk⟩
  case heatStands => exact next_upd_congr (heatDecay_stands hstands)

end


section
/-! SUPPORT. The first obligations about the queue and DRAM: what a step runs, what a command leaves behind it, and lines that read back. -/

namespace Sys2Proof.Machine

open Sys2Proof

/-- Bytes cut from a number at rising places are that number's low bytes. -/
theorem natOfBytes_bytesOf (l : List Byte) (n x : Nat) (hlen : l.length = n)
    (hbyte : ∀ i (h : i < l.length), l[i] = BitVec.ofNat 8 (x >>> (8 * i) % 256)) : natOfBytes l = x % 2 ^ (8 * n) := by
  induction l generalizing n x with
  | nil => subst hlen; simp [natOfBytes, Nat.mod_one]
  | cons v t ih =>
    subst hlen
    have hv : v.toNat = x % 256 := by
      have h := congrArg BitVec.toNat (hbyte 0 (Nat.zero_lt_succ _))
      simpa using h
    have ht : natOfBytes t = x / 256 % 2 ^ (8 * t.length) := ih t.length (x / 256) rfl fun i h => by
      have hi := hbyte (i + 1) (Nat.succ_lt_succ h)
      rw [List.getElem_cons_succ] at hi
      rw [hi, show 8 * (i + 1) = 8 + 8 * i by omega, Nat.shiftRight_add, Nat.shiftRight_eq_div_pow x 8]
    rw [natOfBytes, hv, ht, List.length_cons, show 8 * (t.length + 1) = 8 + 8 * t.length by omega, Nat.pow_add,
      Nat.mod_mul (x := x) (a := 2 ^ 8)]

theorem dramGet_dramSet (m : List Host.Cell) (c a : Nat) (v : Stored) : dramGet (dramSet m c a v) c a = v := by
  have hbytes : (List.range 72).map (fun i => memGet (dramSet m c a v) (lineAddr c a + i)) = bytesOf 72 v := by
    refine List.ext_getElem (by simp [bytesOf]) fun i hi _ => ?_
    have hi72 : i < (bytesOf 72 v).length := by simpa [bytesOf] using hi
    rw [List.getElem_map, List.getElem_range]
    exact memGet_memSetBytes_same m _ _ hi72
  rw [dramGet, hbytes, natOfBytes_bytesOf (bytesOf 72 v) 72 v.toNat (by simp [bytesOf]) (fun i h => by simp [bytesOf]),
    Nat.mod_eq_of_lt v.isLt, BitVec.ofNat_toNat, BitVec.setWidth_eq]

end Sys2Proof.Machine

open Sys2Proof Sys2Proof.Machine

/-- Settles O1: `step` takes the first of a queue that is not empty. -/
theorem stepRunsFrontCommand : Obligations.StepRunsFrontCommand := by
  intro c rest s hqueue
  rw [step]
  split
  next hempty => exact absurd (hqueue.symm.trans hempty) (List.cons_ne_nil c rest)
  next d tail hfront =>
    obtain ⟨rfl, rfl⟩ := List.cons.inj (hqueue.symm.trans hfront)
    rfl

/-- Settles O5: no command touches the queue behind it (`exec_evolves`). -/
theorem commandsKeepQueue : Obligations.CommandsKeepQueue :=
  fun c s t hexec => (exec_evolves c s t hexec).1

/-- Settles O6: a line's bytes read back (`dramGet_dramSet`), and an address outside them is left alone. -/
theorem storedLineReadsBack : Obligations.StoredLineReadsBack := by
  refine fun m c a v _ => ⟨dramGet_dramSet m c a v, fun k hk => memGet_memSetBytes_other m _ _ ?_⟩
  rwa [bytesOf_length]

end

section
/-! SUPPORT. Cycles of the scheduler (R296, R297): what it picks, a channel that issues nothing, and the read of a remap entry. -/

namespace Sys2Proof.Machine

open Sys2Proof

/-! ### The pick (R297) -/

section Pick
variable {b : Block} {c : Nat}

/-- An access that is not better than another has no higher effective priority. -/
theorem effPrio_le_of_not_better {p q : Acc} (h : better b c p q = false) : effPrio b p ≤ effPrio b q := by
  unfold better at h
  by_cases hne : effPrio b p = effPrio b q
  · exact hne.le
  · simpa [hne] using h

/-- A better access has no lower effective priority. -/
theorem effPrio_le_of_better {p q : Acc} (h : better b c p q = true) : effPrio b q ≤ effPrio b p := by
  unfold better at h
  by_cases hne : effPrio b p = effPrio b q
  · exact hne.ge
  · exact (by simpa [hne] using h : effPrio b q < effPrio b p).le

theorem foldl_better_max (l : List Acc) (a : Acc) :
    let r := l.foldl (fun a y => if better b c y a then y else a) a
    (r = a ∨ r ∈ l) ∧ effPrio b a ≤ effPrio b r ∧ ∀ q ∈ l, effPrio b q ≤ effPrio b r := by
  induction l generalizing a with
  | nil => exact ⟨.inl rfl, le_rfl, fun _ h => absurd h List.not_mem_nil⟩
  | cons y t ih =>
    obtain ⟨hmem, hge, hall⟩ := ih (if better b c y a then y else a)
    dsimp only at hmem hge hall ⊢
    rw [List.foldl_cons]
    cases hbetter : better b c y a with
    | true =>
      simp only [hbetter, if_true] at hmem hge hall ⊢
      refine ⟨.inr ?_, (effPrio_le_of_better hbetter).trans hge, fun q hq => ?_⟩
      · exact List.mem_cons.mpr hmem
      · exact (List.mem_cons.mp hq).elim (fun h => h ▸ hge) (hall q)
    | false =>
      simp only [hbetter, Bool.false_eq_true, if_false] at hmem hge hall ⊢
      refine ⟨hmem.imp_right (List.mem_cons_of_mem _), hge, fun q hq => ?_⟩
      exact (List.mem_cons.mp hq).elim (fun h => h ▸ (effPrio_le_of_not_better hbetter).trans hge) (hall q)

/-- The best of a queue is issuable, and nothing issuable in it has a higher effective priority. -/
theorem bestOf_max {l : List Acc} {e : Acc} (h : bestOf b c l = some e) :
    e ∈ l ∧ issuable b c e = true ∧ ∀ q ∈ l, issuable b c q = true → effPrio b q ≤ effPrio b e := by
  unfold bestOf at h
  have hmem : ∀ q, q ∈ l.filter (issuable b c) ↔ q ∈ l ∧ issuable b c q = true := fun q => List.mem_filter
  revert h hmem
  generalize l.filter (issuable b c) = m
  intro h hmem
  cases m with
  | nil => cases h
  | cons a t =>
    obtain ⟨hin, hge, hall⟩ := foldl_better_max (b := b) (c := c) t a
    rw [Option.some.inj h] at hin hge hall
    obtain ⟨hl, hissue⟩ := (hmem e).mp (List.mem_cons.mpr hin)
    refine ⟨hl, hissue, fun q hq hq' => ?_⟩
    exact (List.mem_cons.mp ((hmem q).mpr ⟨hq, hq'⟩)).elim (fun h => h ▸ hge) (hall q)

/-- What the scheduler picks is the best of the read queue, of the write queue, or of its urgent writes. -/
theorem pickAcc_cases {e : Acc} (h : pickAcc b c = some e) : bestOf b c b.chans[cid c].rq = some e
    ∨ bestOf b c b.chans[cid c].wq = some e ∨ bestOf b c (b.chans[cid c].wq.filter (·.urgent)) = some e := by
  unfold pickAcc at h
  dsimp only at h
  split at h <;> (try split at h) <;> (try split at h) <;> simp_all

end Pick

/-! ### A cycle beside an engine at rest -/

section Cycle
variable {c : ChanId} {s : State}

theorem takeServed_none {n : Nat} (h : s.blk.chans[cid n].served = []) : takeServed n s = s := by
  rw [takeServed, h]

theorem pieceWork_rest {k : Fin 6} (h : ∀ d i : Nat, s.blk.engs[c].ctx[k].work ≠ .piece d i) : pieceWork c.val s k = s := by
  unfold pieceWork
  simp only [show eid c.val = c from cid_val c]

/-- An engine with nothing to do does nothing in a cycle of its channel (R381). -/
theorem engineWork_rest (h : unitsRest c s) : engineWork c.val s = s := by
  obtain ⟨-, hsoft, hcopy, hpieces⟩ := h
  have hnext : softNext c.val [] s.blk = s.blk := by simp only [softNext, cid_val, hsoft]
  have hwork : ∀ l : List (Fin 6), l.foldl (pieceWork c.val) s = s := fun l => foldl_fix _ l s fun k _ => pieceWork_rest (hpieces k)
  simp only [engineWork, hnext, State.upd_self, hcopy, hwork, ite_self]

/-- The channel one cycle of the command clock later. -/
def oneCycle (x : Chan) : Chan := { x with cycle := x.cycle + 1 }

theorem cycleRow_rest {raw : Bool} (h : unitsRest c s) : cycleRow c.val raw s = takeServed c.val (schedule c.val raw s) := by
  obtain ⟨hserved, -⟩ := id h
  have hnone : takeServed c.val s = s := takeServed_none (by simp only [cid_val]; exact hserved)
  rw [cycleRow, hnone, engineWork_rest h]

/-- A channel that issues no command only counts the cycle (R297). -/
theorem schedule_idle {raw : Bool} (hsr : s.blk.chans[c].srWant = false) (habort : s.blk.chans[c].abort = false)
    (hpd : (s.blk.chans[c].st == .powerdown && !s.blk.chans[c].held && !s.blk.chans[c].stall) = false)
    (hstill : chanRuns (oneCycle s.blk.chans[c]) = false) : schedule c.val raw s = s.upd (modChan c oneCycle s.blk) := by
  simp only [schedule, cid_val, State.upd_blk, modChan_same, if_neg (ne_true_of_eq_false hsr),
    if_neg (ne_true_of_eq_false habort), if_neg (ne_true_of_eq_false hpd)]
  exact if_pos (congrArg (!·) hstill)

/-- A channel that is held, stalled or in the wait after an exit issues no command (R297). -/
theorem cycle_still {raw : Bool} (hsr : s.blk.chans[c].srWant = false) (habort : s.blk.chans[c].abort = false)
    (hrest : unitsRest c s) (hstill : s.blk.chans[c].held = true ∨ s.blk.chans[c].stall = true
      ∨ (s.blk.chans[c].st ≠ .powerdown ∧ s.blk.chans[c].cycle + 1 < s.blk.chans[c].blockTil)) :
    cycleRow c.val raw s = s.upd (modChan c oneCycle s.blk) := by
  obtain ⟨hserved, -⟩ := id hrest
  have hidle := schedule_idle (raw := raw) hsr habort
    (by obtain h | h | ⟨h, -⟩ := hstill <;> simp [h, -Fin.getElem_fin])
    (by obtain h | h | ⟨-, h⟩ := hstill <;> simp [chanRuns, oneCycle, h, Nat.not_le.mpr, -Fin.getElem_fin])
  rw [cycleRow_rest hrest, hidle, takeServed_none]
  simp only [cid_val, State.upd_blk, modChan_same]
  exact hserved

/-- The end of a cycle of the scheduler, with no forced commit in progress and registers of right parity. -/
theorem exec_schedulerCycle {raw : Bool} {t : State} (hgood : s.blk.regs.badPar = []) (hrow : cycleRow c.val raw s = t)
    (hforced : t.blk.regs.forced = []) : exec (.schedulerCycle c raw) s = .next t := by
  change Host.Outcome.next (goOn (cycleRow c.val raw (checked (chnBase c.val) s))) = _
  rw [checked_good hgood, hrow, goOn, forcedGo_none hforced]
  rfl

end Cycle

/-! ### The read of a line in a remap entry (R336) -/

section Remapped
variable {c : ChanId} {b t : Block} {s : State} {e : Acc} {r : Remap}

/-- A channel with one read to issue, of a line in a remap entry, and nothing else to do. -/
def OneRemapped (e : Acc) (x : Chan) : Prop :=
  x.banks = [] ∧ x.fills = [] ∧ x.xbar = [] ∧ x.wq = [] ∧ x.inflight = [] ∧ x.rq = [e] ∧ (remapOf x e.pla).isSome = true

/-- A bank of which nothing is stored does not need the scheduler. -/
theorem bank_of_none {x : Chan} (h : x.banks = []) (k : Nat) : x.bank k = {} := by rw [Chan.bank, h]; rfl

theorem gapBank_none (h : b.chans[c].banks = []) : gapBank b c.val = none := by
  simp [gapBank, cid_val, bank_of_none h, -Fin.getElem_fin]

theorem nrfBank_none (h : b.chans[c].banks = []) : nrfBank b c.val = none := by
  simp [nrfBank, cid_val, bank_of_none h, -Fin.getElem_fin]

theorem needOf_remapped {x : Chan} (h : OneRemapped e x) : needOf x e = .remap := by
  obtain ⟨-, -, -, -, -, -, hremap⟩ := h
  exact if_pos hremap

/-- R294 and R296 allow the one read. -/
theorem issuable_remapped (h : OneRemapped e b.chans[c]) (hread : e.isRead = true) (hheld : e.held = none)
    (hrebuild : b.srl.rebuild = []) : issuable b c.val e = true := by
  have hneed := needOf_remapped h
  obtain ⟨-, -, -, hwq, hflight, hrq, -⟩ := h
  have horder : orderOk b.chans[c] e = true := by simp [orderOk, hread, hheld, hrq, hflight, hwq, -Fin.getElem_fin]
  simp [issuable, readyFor, cid_val, hneed, horder, hrebuild, -Fin.getElem_fin]

theorem pickAcc_remapped (h : OneRemapped e b.chans[c]) (hread : e.isRead = true) (hheld : e.held = none)
    (hrebuild : b.srl.rebuild = []) : pickAcc b c.val = some e := by
  have hissue := issuable_remapped h hread hheld hrebuild
  obtain ⟨-, -, -, hwq, -, hrq, -⟩ := h
  simp [pickAcc, bestOf, bestBy, cid_val, hwq, hrq, hissue, -Fin.getElem_fin]

/-- The one read goes out, and touches no bank. -/
theorem cycleCommand_remapped {raw : Bool} (h : OneRemapped e s.blk.chans[c]) (hread : e.isRead = true) (hheld : e.held = none)
    (hrebuild : s.blk.srl.rebuild = []) : cycleCommand c.val raw s = s.upd (readColumn c.val e s.blk) := by
  have hpick := pickAcc_remapped h hread hheld hrebuild
  have hneed := needOf_remapped h
  obtain ⟨hbanks, hfills, -⟩ := h
  simp [cycleCommand, gapBank_none hbanks, nrfBank_none hbanks, cid_val, hfills, hpick, issueAcc, hneed, hread, -Fin.getElem_fin]

/-- From `b` to `t`, ports and registers stay, and of the channels only counts of lines of channel `c` have changed. -/
def Counted (c : ChanId) (b t : Block) : Prop :=
  t.regs = b.regs ∧ t.ports = b.ports ∧ (∀ d, d ≠ c → t.chans[d] = b.chans[d])
    ∧ t.chans[c] = { b.chans[c] with lines := t.chans[c].lines, nWq := t.chans[c].nWq }

theorem Tallied.counted (h : Tallied c b t) : Counted c b t := ⟨h.regs, h.ports, h.2.1, h.2.2⟩

theorem Counted.eng (id i : Nat) (h : Counted c b t) : Counted c b (countEngLine id i t) := by
  unfold countEngLine
  split
  · exact h
  · exact h

/-- A line that is served counts (R243, R276, R396). -/
theorem countServed_counted (c : ChanId) (e : Acc) (b : Block) : Counted c b (countServed c.val e b) := by
  have hserve : ∀ q, Counted c b (serveLine c.val e.cls e.pseg q b) := fun q => by
    have h := (tallied_serveLine c.val e.cls e.pseg q b).counted
    rwa [cid_val] at h
  have hsame : Counted c b b := (Tallied.refl c b).counted
  unfold countServed
  split
  · exact hserve _
  · exact hserve _
  · exact hserve _
  · exact (hserve none).eng _ _
  · exact (hserve none).eng _ _
  · exact (hserve none).eng _ _
  · split
    · exact hsame
    · exact hserve none
  · exact hsame

/-- The channel as its one read has gone out (R320). -/
def readIssued (e : Acc) (x : Chan) : Chan :=
  { dropEntry e x with
    inflight := x.inflight ++ [e], nMiss := if e.miss then x.nMiss + 1 else x.nMiss, nHit := if e.miss then x.nHit else x.nHit + 1 }

theorem readColumn_counted (c : ChanId) (e : Acc) (b : Block) : Counted c (modChan c (readIssued e) b) (readColumn c.val e b) := by
  have hissued : modChan (cid c.val) (fun x => if e.miss then { x with nMiss := x.nMiss + 1 } else { x with nHit := x.nHit + 1 })
      (modChan (cid c.val) (fun x => { dropEntry e x with inflight := x.inflight ++ [e] }) b) = modChan c (readIssued e) b := by
    rw [cid_val, modChan_modChan]
    refine modChan_congr ?_
    cases h : e.miss <;> simp [readIssued, h, dropEntry]
  unfold readColumn countColumn
  rw [hissued]
  have hsame : Counted c (modChan c (readIssued e) b) (modChan c (readIssued e) b) := (Tallied.refl c _).counted
  split
  · exact countServed_counted c e _
  · exact countServed_counted c e _
  · exact hsame

/-- The channel with its pacer run on (R274). -/
def pacerAtTime (pacer now : Nat) (x : Chan) : Chan := { x with pacer := pacer, pacerAt := now }

/-- What a running channel does before it issues, with nothing to release: the cycle counts, the pacer runs on, and the watermarks
are read (R274, R299). -/
def begun (pacer now : Nat) (draining : Bool) (x : Chan) : Chan :=
  { x with cycle := x.cycle + 1, pacer := pacer, pacerAt := now, draining := draining, pdWant := false }

theorem runPacer_eq (n : Nat) (b : Block) : ∃ p, runPacer n b = modChan (cid n) (pacerAtTime p b.now) b := ⟨_, rfl⟩

/-- Nothing waits for the pacer (R274). -/
theorem releaseMaint_none (h : b.chans[c].maintWait = []) : ∃ p, releaseMaint c.val b = modChan c (pacerAtTime p b.now) b := by
  obtain ⟨p, hp⟩ := runPacer_eq c.val b
  rw [cid_val] at hp
  refine ⟨p, ?_⟩
  rw [releaseMaint, hp]
  simp only [cid_val, modChan_same, pacerAtTime, h]

/-- No access has reached the age limit (R273). -/
theorem promote_none (h : ∀ e ∈ b.chans[c].rq ++ b.chans[c].wq, aged b e = false) : promote c.val b = b := by
  have hnone : (b.chans[c].rq ++ b.chans[c].wq).filter (fun e => !e.promoted && aged b e) = [] := by
    rw [List.filter_eq_nil_iff]
    exact fun e he => by simp [h e he]
  have hmark : ∀ l : List Acc, (∀ e ∈ l, aged b e = false) →
      l.map (fun e => if aged b e then { e with promoted := true } else e) = l := fun l hl =>
    List.map_congr_left (g := id) (fun e he => by simp [hl e he]) |>.trans (List.map_id l)
  unfold promote
  simp only [cid_val, hnone, List.foldl_nil]
  refine modChan_fixed ?_
  rw [hmark _ fun e he => h e (List.mem_append_left _ he), hmark _ fun e he => h e (List.mem_append_right _ he)]

/-- The channel at the end of a cycle, with the time since which it is idle (R318). -/
def idleSince (n : Nat) (w : Bool) (x : Chan) : Chan := { x with idleAt := n, wokenRef := w }

/-- With an access queued and no divisor to switch to, a running channel issues by R297. -/
theorem runCycle_queued {raw : Bool} (hsr : s.blk.chans[c].srWant = false) (hdiv : s.blk.chans[c].divNext = none)
    (hqueued : s.blk.chans[c].rq ≠ []) :
    runCycle c.val raw s = cycleCommand c.val raw (s.upd (modChan c (fun x => { x with pdWant := false }) s.blk)) := by
  have hready : srReady s.blk c.val = false := by simp [srReady, cid_val, hsr, -Fin.getElem_fin]
  have hpd : pdGoes s.blk.chans[c] = false := by simp [pdGoes, hqueued, -Fin.getElem_fin]
  simp only [runCycle, hready, cid_val, hdiv, hpd, Bool.false_eq_true, if_false]

/-- A running channel with an access queued, nothing to release, nothing past the age limit and no divisor to switch to (R296). -/
def Issues (b : Block) (c : ChanId) : Prop :=
  b.chans[c].srWant = false ∧ b.chans[c].abort = false ∧ b.chans[c].st = .run ∧ chanRuns (oneCycle b.chans[c]) = true
    ∧ b.chans[c].maintWait = [] ∧ b.chans[c].divNext = none ∧ b.chans[c].rq ≠ []
    ∧ ∀ e ∈ b.chans[c].rq ++ b.chans[c].wq, aged b e = false

/-- The watermarks are read (R299). -/
def drainRead (c : ChanId) (b : Block) : Block := modChan c (fun x => { x with draining := drainMode b c.val }) b

/-- The end of a cycle: what fits enters its queue, and the time of R318 runs on while nothing is queued and no bank is busy. -/
def cycleEnd (c : ChanId) (b : Block) : Block :=
  if quiet b.chans[c] && !banksBusy b.chans[c] then b
  else modChan c (fun x => { x with idleAt := b.now, wokenRef := x.wokenRef && quiet x }) b

theorem cycleEnd_eq (c : ChanId) (b : Block) : ∃ n w, cycleEnd c b = modChan c (idleSince n w) b := by
  unfold cycleEnd
  split
  · exact ⟨_, _, (modChan_fixed (f := idleSince b.chans[c].idleAt b.chans[c].wokenRef) rfl).symm⟩
  · exact ⟨_, _, modChan_congr (g := idleSince b.now (b.chans[c].wokenRef && quiet b.chans[c])) rfl⟩

theorem schedule_running {raw : Bool} (h : Issues s.blk c) : schedule c.val raw s
    = let t := runCycle c.val raw (s.upd (drainRead c (promote c.val (releaseMaint c.val (modChan c oneCycle s.blk)))))
      t.upd (cycleEnd c (letIn c.val t.blk)) := by
  obtain ⟨hsr, habort, hst, hruns, -⟩ := h
  have hpd : ¬ (s.blk.chans[c].st == .powerdown && !s.blk.chans[c].held && !s.blk.chans[c].stall) = true := by
    simp [hst, -Fin.getElem_fin]
  have hstill : ¬ (!chanRuns (oneCycle s.blk.chans[c])) = true := by rw [hruns]; decide
  simp only [schedule, cid_val, State.upd_blk, modChan_same, if_neg (ne_true_of_eq_false hsr), if_neg (ne_true_of_eq_false habort),
    if_neg hpd]
  exact if_neg hstill

/-- The cycle of such a channel is the command that R297 picks, and no more. -/
theorem schedule_issues {raw : Bool} {f : Block → Block} (h : Issues s.blk c)
    (hcommand : ∀ p d, let u := s.upd (modChan c (begun p s.blk.now d) s.blk)
      cycleCommand c.val raw u = u.upd (f u.blk) ∧ (f u.blk).chans[c].xbar = []) :
    ∃ p d n w, schedule c.val raw s
      = s.upd (modChan c (idleSince n w) (f (modChan c (begun p s.blk.now d) s.blk))) := by
  have hrow := schedule_running (raw := raw) h
  obtain ⟨hsr, -, -, -, hmaint, hdiv, hqueued, hage⟩ := h
  obtain ⟨p, hp⟩ := releaseMaint_none (c := c) (b := modChan c oneCycle s.blk) (by rw [modChan_same]; exact hmaint)
  have hprom : promote c.val (modChan c (pacerAtTime p s.blk.now) (modChan c oneCycle s.blk))
      = modChan c (pacerAtTime p s.blk.now) (modChan c oneCycle s.blk) :=
    promote_none (by rw [modChan_same, modChan_same]; exact hage)
  rw [hp, show (modChan c oneCycle s.blk).now = s.blk.now from rfl, hprom] at hrow
  obtain ⟨d, hd⟩ : ∃ d, drainRead c (modChan c (pacerAtTime p s.blk.now) (modChan c oneCycle s.blk))
      = modChan c (fun x => { x with cycle := x.cycle + 1, pacer := p, pacerAt := s.blk.now, draining := d }) s.blk := by
    refine ⟨drainMode (modChan c (pacerAtTime p s.blk.now) (modChan c oneCycle s.blk)) c.val, ?_⟩
    rw [drainRead, modChan_modChan, modChan_modChan]
    rfl
  obtain ⟨hgo, hxbar⟩ := hcommand p d
  have hrun : runCycle c.val raw (s.upd (drainRead c (modChan c (pacerAtTime p s.blk.now) (modChan c oneCycle s.blk))))
      = s.upd (f (modChan c (begun p s.blk.now d) s.blk)) := by
    rw [hd, runCycle_queued]
    · simp only [State.upd_blk, State.upd_upd, modChan_modChan]
      exact hgo
    all_goals simp only [State.upd_blk, modChan_same]
    · exact hsr
    · exact hdiv
    · exact hqueued
  rw [hrun] at hrow
  simp only [State.upd_blk, State.upd_upd] at hrow hxbar
  obtain ⟨n, w, hend⟩ := cycleEnd_eq c (letIn c.val (f (modChan c (begun p s.blk.now d) s.blk)))
  refine ⟨p, d, n, w, ?_⟩
  rw [hrow, hend, letIn_none]
  simp only [cid_val]
  exact hxbar

/-- The channel with its one read gone out. -/
def RemappedIssued (e : Acc) (x y : Chan) : Prop :=
  y.rq = [] ∧ y.inflight = [e] ∧ y.banks = [] ∧ y.cycle = x.cycle + 1 ∧ y.nHit = x.nHit + (if e.miss then 0 else 1)
    ∧ y.served = x.served ∧ y.xbar = x.xbar

theorem remappedIssued_of {x : Chan} (h : OneRemapped e x) (p n : Nat) (d : Bool) (l : Vector (BitVec 64) 8) (k : BitVec 64) :
    RemappedIssued e x { readIssued e (begun p n d x) with lines := l, nWq := k } := by
  obtain ⟨hbanks, -, -, -, hflight, hrq, -⟩ := h
  refine ⟨?_, ?_, hbanks, rfl, ?_, rfl, rfl⟩
  · simp [readIssued, begun, dropEntry, hrq]
  · simp [readIssued, begun, hflight]
  · change (if e.miss then x.nHit else x.nHit + 1) = _
    split <;> simp

/-- The cycle in which the one read goes out. -/
theorem exec_schedulerCycle_remapped {raw : Bool} (hgood : s.blk.regs.badPar = []) (hforced : s.blk.regs.forced = [])
    (hrest : unitsRest c s) (hissues : Issues s.blk c) (h : OneRemapped e s.blk.chans[c]) (hread : e.isRead = true)
    (hheld : e.held = none) (hrebuild : s.blk.srl.rebuild = []) :
    ∃ t, exec (.schedulerCycle c raw) s = .next t ∧ t.mem = s.mem ∧ t.pending = s.pending ∧ t.blk.ports = s.blk.ports
      ∧ RemappedIssued e s.blk.chans[c] t.blk.chans[c] ∧ ∀ d, d ≠ c → t.blk.chans[d] = s.blk.chans[d] := by
  have hserved := hrest.1
  have hcounted : ∀ p d, Counted c (modChan c (readIssued e) (modChan c (begun p s.blk.now d) s.blk))
      (readColumn c.val e (modChan c (begun p s.blk.now d) s.blk)) := fun p d => readColumn_counted c e _
  have hissued : ∀ p d, RemappedIssued e s.blk.chans[c] (readColumn c.val e (modChan c (begun p s.blk.now d) s.blk)).chans[c] := by
    intro p d
    obtain ⟨-, -, -, hchan⟩ := hcounted p d
    rw [hchan, modChan_same, modChan_same]
    exact remappedIssued_of h p s.blk.now d _ _
  obtain ⟨-, -, hxbar, -⟩ := id h
  obtain ⟨p, d, n, w, hrow⟩ := schedule_issues (raw := raw) (f := readColumn c.val e) hissues fun p d => by
    refine ⟨cycleCommand_remapped ?_ hread hheld hrebuild, ?_⟩
    · rw [State.upd_blk, modChan_same]; exact h
    · obtain ⟨-, -, -, -, -, -, hkept⟩ := hissued p d
      exact hkept.trans hxbar
  obtain ⟨hregs, hports, hother, -⟩ := hcounted p d
  have hchan := hissued p d
  have hmine : RemappedIssued e s.blk.chans[c]
      (modChan c (idleSince n w) (readColumn c.val e (modChan c (begun p s.blk.now d) s.blk))).chans[c] := by
    rw [modChan_same]; exact hchan
  obtain ⟨-, -, -, -, -, hkept, -⟩ := id hmine
  refine ⟨_, exec_schedulerCycle hgood (cycleRow_rest hrest) ?_, ?_⟩
  all_goals rw [hrow, takeServed_none (by simp only [cid_val]; exact hkept.trans hserved)]
  · exact (congrArg Regs.forced hregs).trans hforced
  · refine ⟨rfl, rfl, hports, hmine, fun k hk => ?_⟩
    rw [State.upd_blk, modChan_other _ _ hk, hother k hk, modChan_other _ _ hk, modChan_other _ _ hk]

end Remapped

end Sys2Proof.Machine

open Sys2Proof Sys2Proof.Machine

/-- Settles O30: a channel that may not issue only counts (`cycle_still`); the one read of a remap entry is what the cycle picks,
and needs no bank (`exec_schedulerCycle_remapped`); the pick is the best of its queue (`pickAcc_cases`, `bestOf_max`). -/
theorem schedulerCyclesAndPicks : Obligations.SchedulerCyclesAndPicks := by
  refine ⟨fun c raw s hsr habort hgood hforced hrest => ⟨fun hstill => ?still, ?read⟩, fun b c e hpick => ?pick⟩
  case still => exact exec_schedulerCycle hgood (cycle_still hsr habort hrest hstill) hforced
  case read =>
    intro e r hst hheld hstall hblock hbanks hfills hmaint hxbar hwq hflight hrq hread hnone hremap hrebuild hage hdiv
    have hone : OneRemapped e s.blk.chans[c] := ⟨hbanks, hfills, hxbar, hwq, hflight, hrq, by rw [hremap]; rfl⟩
    have hruns : chanRuns (oneCycle s.blk.chans[c]) = true := by
      simp [chanRuns, oneCycle, hst, hheld, hstall, hblock, -Fin.getElem_fin]
    have hissues : Issues s.blk c := ⟨hsr, habort, hst, hruns, hmaint, hdiv, by rw [hrq]; exact List.cons_ne_nil _ _,
      by rw [hrq, hwq]; simpa using hage⟩
    obtain ⟨t, hexec, hmem, hpending, hports, ⟨hrq', hflight', hbanks', hcycle, hhit, -⟩, hother⟩ :=
      exec_schedulerCycle_remapped (raw := raw) hgood hforced hrest hissues hone hread hnone hrebuild
    exact ⟨t, hexec, hmem, hpending, hrq', hflight', hbanks', hcycle, hhit, hports, hother⟩
  case pick =>
    obtain h | h | h := pickAcc_cases hpick <;> obtain ⟨hmem, hissue, hall⟩ := bestOf_max h
    · exact ⟨hissue, .inl ⟨hmem, hall⟩⟩
    · exact ⟨hissue, .inr ⟨hmem, .inr hall⟩⟩
    · obtain ⟨hin, hurgent⟩ := List.mem_filter.mp hmem
      exact ⟨hissue, .inr ⟨hin, .inl ⟨e, hin, hurgent⟩⟩⟩

end

section
/-! SUPPORT. Refresh (R308 to R312): an event that a bank's machine takes, per-bank refreshes, and the refresh tick. -/

namespace Sys2Proof.Machine

open Sys2Proof

variable {c : ChanId} {k : Nat} {b : Block} {s : State}

theorem onlyChan_modChan (c : ChanId) (f : Chan → Chan) (s : State) : onlyChan c s (s.upd (modChan c f s.blk)) :=
  ⟨rfl, fun _ hd => modChan_other _ _ hd, rfl, rfl⟩

/-! ### Events that bank machines take -/

/-- A bank's machine takes an event as before while its bank's record and its channel's state are those it had. -/
theorem bankTakes_congr {ev act : Nat} {u : State} (h : bankTakes c k ev act s)
    (hentry : bankEntry u.blk c.val k ev = bankEntry s.blk c.val k ev)
    (hstop : (u.blk.chans[c].bank k).stopped = (s.blk.chans[c].bank k).stopped)
    (hheld : (u.blk.chans[c].bank k).heldEv = (s.blk.chans[c].bank k).heldEv) (hst : u.blk.chans[c].st ≠ .offline) :
    bankTakes c k ev act u := by
  obtain ⟨hgoes, hnone, -, hvalid⟩ := h
  unfold bankTakes
  rw [hentry, hstop, hheld]
  exact ⟨hgoes, hnone, hst, hvalid⟩

/-- The entry of an event depends, of the channel, on the state of its bank's machine alone. -/
theorem bankEntry_modChan {f : Chan → Chan} {ev : Nat} (h : ((f b.chans[c]).bank k).state = (b.chans[c].bank k).state) :
    bankEntry (modChan c f b) c.val k ev = bankEntry b c.val k ev := by
  unfold bankEntry
  simp only [cid_val, modChan_same, h]
  rfl

/-- A change of a channel that leaves a bank and the channel's state leaves what the bank's machine takes. -/
theorem bankTakes_modChan {ev act : Nat} {f : Chan → Chan} (h : bankTakes c k ev act s)
    (hbank : (f s.blk.chans[c]).bank k = s.blk.chans[c].bank k) (hst : (f s.blk.chans[c]).st ≠ .offline) :
    bankTakes c k ev act (s.upd (modChan c f s.blk)) := by
  have hsame : (s.upd (modChan c f s.blk)).blk.chans[c].bank k = s.blk.chans[c].bank k := by
    rw [State.upd_blk, modChan_same, hbank]
  refine bankTakes_congr h (bankEntry_modChan (by rw [hbank])) (by rw [hsame]) (by rw [hsame]) ?_
  rw [State.upd_blk, modChan_same]
  exact hst

/-- The transition of a machine that holds nothing, whose action holds no event (R139). -/
theorem fire_takes {ev act : Nat} (h : bankTakes c k ev act s) (f : Chan → Chan)
    (hact : bankAct c.val k act {} s = s.upd (modChan c f s.blk))
    (hheld : ((f s.blk.chans[c]).bank k).heldEv = (s.blk.chans[c].bank k).heldEv) :
    (fire c.val k ev {} s).1
      = s.upd (modChan c (fun x => noteCmd k act ((f x).modBank k (transit (bankEntry s.blk c.val k ev)))) s.blk) := by
  obtain ⟨-, hnone, -⟩ := id h
  have hevent := bankEvent_takes {} h
  rw [hact] at hevent
  simp only [State.upd_blk, State.upd_upd, modChan_modChan] at hevent
  rw [fire_noneHeld hevent]
  simp only [State.upd_blk, modChan_same]
  have hnote : ∀ x : Chan, (noteCmd k act x).bank k = x.bank k := fun x => by unfold noteCmd; split <;> rfl
  rw [hnote, Chan.bank_modBank_same]
  exact hheld.trans hnone

/-! ### One per-bank refresh (R308) -/

/-- The bank as a refresh of it begins at cycle `n` and takes `w` cycles. -/
def refreshedBank (until_ : Nat) (e : Word) (y : Bank) : Bank :=
  transit e { y with rowCtr := (y.rowCtr + 3) % 24576, tBusy := until_, row := none, tPre := none }

/-- The cycle at which a refresh that begins now ends. -/
def refreshEnd (b : Block) (c : ChanId) (k : Nat) : Nat := restAt b c.val k b.chans[c] + tpar b c.val 0x0D

/-- A channel with other banks and other commands in its FIFO. -/
def commanded (l : SMap Bank) (q : List (Nat × Nat)) (x : Chan) : Chan := { x with banks := l, cmdFifo := q }

/-- A bank with no open row is refreshed: its machine takes event 4 with action 5. -/
theorem refreshNow_closed (h : bankTakes c k 4 5 s) (hrow : (s.blk.chans[c].bank k).row = none) :
    ∃ l q, refreshNow c.val k s = s.upd (modChan c (commanded l q) s.blk)
      ∧ mget l k {} = refreshedBank (refreshEnd s.blk c k) (bankEntry s.blk c.val k 4) (s.blk.chans[c].bank k) := by
  have hact : bankAct c.val k 5 {} s = s.upd (modChan c (refreshBank s.blk c.val k) s.blk) := by
    rw [← cid_val c]; simp only [bankAct, cid_val]
  have hfire := fire_takes h _ hact (by simp only [refreshBank, Chan.bank_modBank_same])
  have hopen : ¬ (s.blk.chans[c].bank k).row.isSome = true := by rw [hrow]; decide
  refine ⟨((refreshBank s.blk c.val k s.blk.chans[c]).modBank k (transit (bankEntry s.blk c.val k 4))).banks,
    through 16 (k, 5) s.blk.chans[c].cmdFifo, ?_, ?_⟩
  · simp only [refreshNow, cid_val, if_neg hopen, hfire]
    exact congrArg s.upd (modChan_congr (by simp only [commanded, noteCmd, refreshBank, Chan.modBank]; rfl))
  · change Chan.bank _ k = _
    rw [Chan.bank_modBank_same, refreshBank, Chan.bank_modBank_same]
    rfl

/-! ### The turn of a bank (R310, R311) -/

/-- The turn of a bank is over. -/
def turnTaken (k : Nat) (x : Chan) : Chan := { x with dueLeft := sdel k x.dueLeft }

theorem not_mem_sdel (k : Nat) (l : List Nat) : k ∉ sdel k l := by simp [sdel]

/-- What a bank owes does not depend on the turns that are still to come. -/
theorem postponed_congr {f : Chan → Chan} (hrq : (f b.chans[c]).rq = b.chans[c].rq) (hwq : (f b.chans[c]).wq = b.chans[c].wq) :
    postponed (modChan c f b) c.val k = postponed b c.val k := by
  unfold postponed
  simp only [cid_val, modChan_same, hrq, hwq]
  rfl

/-- A refresh that was issued early is satisfied (R312). -/
theorem refreshTurn_early (h : (s.blk.chans[c].bank k).early = true) : refreshTurn c.val k s
    = s.upd (modChan c (fun x => (turnTaken k x).modBank k fun y => { y with early := false }) s.blk) := by
  simp only [refreshTurn, cid_val, h, if_true, State.upd_blk, State.upd_upd, modChan_modChan]
  rfl

/-- The turn of a bank of a running channel whose refresh was not issued early and that owes none at its deadline. -/
theorem refreshTurn_due (hst : s.blk.chans[c].st = .run) (hstall : s.blk.chans[c].stall = false)
    (hearly : (s.blk.chans[c].bank k).early = false) (howed : (s.blk.chans[c].bank k).owed.head? ≠ some 0) :
    refreshTurn c.val k s = let u := s.upd (modChan c (turnTaken k) s.blk)
      if postponed s.blk c.val k then u.upd (ctrAdd (chnBase c.val + 0x60) 1 (modOwed c.val k (· ++ [8]) u.blk))
      else refreshNow c.val k (u.upd (modOwed c.val k (fun l => if l = [] then [] else l.drop 1 ++ [8]) u.blk)) := by
  have hbank : (turnTaken k s.blk.chans[c]).bank k = s.blk.chans[c].bank k := rfl
  have hawake : leavePowerDown c.val (s.upd (modChan c (turnTaken k) s.blk)) = s.upd (modChan c (turnTaken k) s.blk) := by
    simp only [leavePowerDown, cid_val, State.upd_blk, modChan_same]
    exact if_pos (by rw [show (turnTaken k s.blk.chans[c]).st = .run from hst]; decide)
  have hforce : forceRefresh c.val k (s.upd (modChan c (turnTaken k) s.blk)) = s.upd (modChan c (turnTaken k) s.blk) := by
    have hfree : reserved (s.blk.chans[c].bank k) = false := by simp [reserved, howed, -Fin.getElem_fin]
    simp only [forceRefresh, cid_val, State.upd_blk, modChan_same, hbank, hfree, Bool.not_false, Bool.true_or, if_true]
  have hpost : postponed (modChan c (turnTaken k) s.blk) c.val k = postponed s.blk c.val k := postponed_congr rfl rfl
  have hturn : modChan c (fun x => { x with dueLeft := sdel k x.dueLeft }) s.blk = modChan c (turnTaken k) s.blk := rfl
  have hgo : (turnTaken k s.blk.chans[c]).stall = false := hstall
  simp only [refreshTurn, cid_val, hturn, hearly, hawake, hforce, hpost, State.upd_blk, modChan_same, hgo, Bool.false_eq_true, if_false]

/-- A bank that owes other refreshes. -/
def owing (f : List Nat → List Nat) (y : Bank) : Bank := { y with owed := f y.owed }

theorem modOwed_eq (c : ChanId) (k : Nat) (f : List Nat → List Nat) (b : Block) :
    modOwed c.val k f b = modChan c (fun x => x.modBank k (owing f)) b := by rw [modOwed, cid_val]; rfl

/-- What a bank owes has no part in the events that its machine takes. -/
theorem bankTakes_owing {ev act : Nat} {f : List Nat → List Nat} (h : bankTakes c k ev act s) :
    bankTakes c k ev act (s.upd (modChan c (fun x => x.modBank k (owing f)) s.blk)) := by
  have hbank : (modChan c (fun x => x.modBank k (owing f)) s.blk).chans[c].bank k = owing f (s.blk.chans[c].bank k) := by
    rw [modChan_same, Chan.bank_modBank_same]
  have hentry : bankEntry (modChan c (fun x => x.modBank k (owing f)) s.blk) c.val k ev = bankEntry s.blk c.val k ev :=
    bankEntry_modBank (f := owing f) (fun _ => rfl) s.blk
  unfold bankTakes
  rw [State.upd_blk, hentry, hbank, modChan_same]
  exact h

/-- Nor in the time that its refresh takes. -/
theorem refreshEnd_owing (f : List Nat → List Nat) (b : Block) (c : ChanId) (k : Nat) :
    refreshEnd (modChan c (fun x => x.modBank k (owing f)) b) c k = refreshEnd b c k := by
  simp only [refreshEnd, restAt, preAt, tpar, cid_val, modChan_same, Chan.bank_modBank_same]
  rfl

theorem bankTakes_turnTaken {ev act : Nat} (h : bankTakes c k ev act s) :
    bankTakes c k ev act (s.upd (modChan c (turnTaken k) s.blk)) := by
  obtain ⟨-, -, hst, -⟩ := id h
  exact bankTakes_modChan h rfl hst

theorem refreshEnd_turnTaken (b : Block) (c : ChanId) (k : Nat) : refreshEnd (modChan c (turnTaken k) b) c k = refreshEnd b c k := by
  simp only [refreshEnd, restAt, preAt, tpar, cid_val, modChan_same]
  rfl

/-- The turn of a bank that owes nothing: its refresh is issued. -/
theorem refreshTurn_issues (hst : s.blk.chans[c].st = .run) (hstall : s.blk.chans[c].stall = false)
    (hearly : (s.blk.chans[c].bank k).early = false) (howed : (s.blk.chans[c].bank k).owed = [])
    (hrow : (s.blk.chans[c].bank k).row = none) (hpost : postponed s.blk c.val k = false) (h : bankTakes c k 4 5 s) :
    ∃ l q e, refreshTurn c.val k s = s.upd (modChan c (fun x => commanded l q (turnTaken k x)) s.blk)
      ∧ mget l k {} = refreshedBank (refreshEnd s.blk c k) e (s.blk.chans[c].bank k) := by
  let f : List Nat → List Nat := fun l => if l = [] then [] else l.drop 1 ++ [8]
  have hturn := refreshTurn_due hst hstall hearly (by rw [howed]; decide)
  have hbank : (modChan c (fun x => x.modBank k (owing f)) (modChan c (turnTaken k) s.blk)).chans[c].bank k
      = s.blk.chans[c].bank k := by
    rw [modChan_same, Chan.bank_modBank_same, modChan_same]
    change owing f (s.blk.chans[c].bank k) = _
    rw [owing, howed, show f [] = [] from rfl, ← howed]
  obtain ⟨l, q, hnow, hl⟩ := refreshNow_closed (bankTakes_owing (f := f) (bankTakes_turnTaken h)) (by rw [State.upd_blk, State.upd_blk, hbank]; exact hrow)
  simp only [State.upd_blk, State.upd_upd] at hnow hl
  rw [hbank, refreshEnd_owing, refreshEnd_turnTaken] at hl
  refine ⟨l, q, _, ?_, hl⟩
  rw [hturn]
  simp only [hpost, Bool.false_eq_true, if_false, modOwed_eq, State.upd_blk, State.upd_upd]
  refine hnow.trans (congrArg s.upd ?_)
  rw [modChan_modChan, modChan_modChan]
  rfl

/-- A refresh that reaches its deadline is counted, and CHN_SCH_EVT shows it (R311, R320). -/
def forcedCounted (c : ChanId) (b : Block) : Block := rcSet (chnBase c.val + 0x20) 1 (ctrAdd (chnBase c.val + 0x64) 1 b)

/-- A refresh at its deadline is forced (R311). -/
theorem forceRefresh_deadline (hstall : s.blk.chans[c].stall = false) (howed : (s.blk.chans[c].bank k).owed.head? = some 0)
    (hrow : (s.blk.chans[c].bank k).row = none) (h : bankTakes c k 4 5 s) :
    ∃ l q n e, forceRefresh c.val k s = s.upd (modChan c (commanded l q) (forcedCounted c s.blk))
      ∧ mget l k {} = owing (·.drop 1) (refreshedBank n e (s.blk.chans[c].bank k)) := by
  let b := modChan c (fun x => x.modBank k (owing (·.drop 1))) s.blk
  have hat : ¬ ((!reserved (s.blk.chans[c].bank k) || s.blk.chans[c].stall) = true) := by
    simp [reserved, howed, hstall, -Fin.getElem_fin]
  have hbank : b.chans[c].bank k = owing (·.drop 1) (s.blk.chans[c].bank k) := by
    rw [modChan_same, Chan.bank_modBank_same]
  have htakes : bankTakes c k 4 5 (s.upd (forcedCounted c b)) := bankTakes_owing (f := (·.drop 1)) h
  obtain ⟨l, q, hnow, hl⟩ := refreshNow_closed htakes (by
    change (b.chans[c].bank k).row = none
    rw [hbank]; exact hrow)
  have hforced : forceRefresh c.val k s = refreshNow c.val k (s.upd (forcedCounted c b)) := by
    simp only [forceRefresh, cid_val, if_neg hat, modOwed_eq]
    rfl
  have hblock : modChan c (commanded l q) (forcedCounted c b) = modChan c (commanded l q) (forcedCounted c s.blk) :=
    modChan_modChan (b := forcedCounted c s.blk) (commanded l q) fun x => x.modBank k (owing (·.drop 1))
  refine ⟨l, q, refreshEnd (forcedCounted c b) c k, bankEntry (forcedCounted c b) c.val k 4, ?_, ?_⟩
  · rw [hforced, hnow, State.upd_blk, hblock]; rfl
  · rw [hl]
    change refreshedBank _ _ (b.chans[c].bank k) = _
    rw [hbank]; rfl

/-! ### The refresh tick (R38, R308) -/

/-- The next bank group falls due with a tick (R308), of a channel with no bank stored. -/
def ticked (now : Nat) (x : Chan) : Chan :=
  { x with ticks := x.ticks + 1, tickAt := now, group := 1 - x.group, dueLeft := groupBanks x.group, banks := [] }

/-- A tick of a channel with closed rows, nothing owed and no turn still to come. -/
theorem tickRefresh_calm (hbanks : s.blk.chans[c].banks = []) (hdue : s.blk.chans[c].dueLeft = []) : tickRefresh c.val s
    = refreshTurn c.val ((groupBanks s.blk.chans[c].group).headD 0) (s.upd (modChan c (ticked s.blk.now) s.blk)) := by
  have hfree : ∀ k, reserved (s.blk.chans[c].bank k) = false := fun k => by rw [bank_of_none hbanks]; rfl
  have hforce : banksOf.foldl (fun s k => forceRefresh c.val k s) s = s := foldl_fix _ _ s fun k _ => by
    simp only [forceRefresh, cid_val, hfree, Bool.not_false, Bool.true_or, if_true]
  have htick : modChan c (fun x => { x with
      ticks := x.ticks + 1, tickAt := s.blk.now, group := 1 - x.group, dueLeft := groupBanks x.group
      banks := x.banks.map fun y => (y.1, { y.2 with owed := y.2.owed.map (· - 1) }) }) s.blk
      = modChan c (ticked s.blk.now) s.blk := modChan_congr (by rw [hbanks]; rfl)
  simp only [tickRefresh, cid_val, hdue, List.foldl_nil, hforce, htick, State.upd_blk, modChan_same]
  rfl

theorem commitPlain_none {base : Nat} (h : pendingAt base b = false) : commitPlain base b = b := by
  rw [commitPlain, takePend_none h]
  rfl

/-- The channel with the settings of the last sample in force, its clock divisor as it was (R306, R309). -/
def adopted (mask : BitVec 4) (n : Nat) (x : Chan) : Chan :=
  { x with mult := x.multNext, level := x.levelNext, mask := mask, slotAt := n, divNext := none }

theorem throttleCurve_modChan (c : ChanId) (f : Chan → Chan) (b : Block) (i : Nat) :
    throttleCurve (modChan c f b) i = throttleCurve b i := rfl

theorem adoptLevel_sameDiv {v : Nat} (hnext : s.blk.chans[c].levelNext = v)
    (h : ((throttleCurve s.blk 3).eval v).toNat = s.blk.chans[c].div) :
    ∃ n, adoptLevel c.val s = s.upd (modChan c (adopted (BitVec.ofNat 4 ((throttleCurve s.blk 2).eval v).toNat) n) s.blk) := by
  refine ⟨if s.blk.chans[c].level = v then s.blk.chans[c].slotAt else s.blk.chans[c].cycle, ?_⟩
  simp only [adoptLevel, cid_val, hnext, h, if_true, ne_eq, not_true_eq_false, false_and, if_false]
  exact congrArg s.upd (modChan_congr (by rw [adopted, hnext]))

theorem exec_refreshTick (hst : s.blk.chans[c].st = .run) (hgood : s.blk.regs.badPar = []) {t : State}
    (htick : tickRefresh c.val s = t) (hpend : pendingAt (chnBase c.val) t.blk = false) :
    exec (.refreshTick c) s = .next (adoptLevel c.val t) := by
  have hticks : ¬ (!ticking s.blk.chans[c]) = true := by simp [ticking, hst, -Fin.getElem_fin]
  change Host.Outcome.next (refreshTick c.val s) = _
  simp only [refreshTick, cid_val, if_neg hticks, checked_good hgood, htick, commitPlain_none hpend, State.upd_self]

end Sys2Proof.Machine

open Sys2Proof Sys2Proof.Machine

/-- Settles O31: a turn is `refreshTurn_early`, or `refreshTurn_due`, whose refresh is postponed or issued (`refreshTurn_issues`);
a refresh at its deadline is `forceRefresh_deadline`; a tick is the turn of the first bank of the next group
(`tickRefresh_calm`), and then the settings of the last sample (`adoptLevel_sameDiv`). -/
theorem refreshRulesAndTicks : Obligations.RefreshRulesAndTicks := by
  refine ⟨fun c k s hst hstall => ?turns, fun c s hst hstall hbanks hdue hpend hgood => ?ticks⟩
  case turns =>
    have hgo : ∀ {t}, s.blk.chans[c].dueLeft.head? = some k.val → refreshTurn c.val k.val s = t →
        exec (.perBankRefreshDue c k) s = .next t := fun {t} hhead ht => by
      subst ht
      exact congrArg Host.Outcome.next (if_pos ⟨by simp [ticking, hst, -Fin.getElem_fin], hhead⟩)
    refine ⟨fun hhead hearly => ?early, fun hhead hearly howed hpost => ?postponed, fun hhead => ?waits,
      fun hhead hearly hpost howed hrow htakes => ?issued, fun howed hrow htakes => ?forced⟩
    case early =>
      refine ⟨_, hgo hhead (refreshTurn_early hearly), onlyChan_modChan c _ s, ?_, ?_⟩
      · rw [State.upd_blk, modChan_same]
        exact not_mem_sdel _ _
      · rw [State.upd_blk, modChan_same, Chan.bank_modBank_same]
        rfl
    case postponed =>
      have hturn := refreshTurn_due hst hstall hearly howed
      simp only [hpost, if_true, modOwed_eq, State.upd_blk, State.upd_upd, modChan_modChan] at hturn
      refine ⟨_, hgo hhead hturn, rfl, ?_, ?_, ctr_ctrAdd _ _ _, fun d hd => ?_⟩
      all_goals rw [State.upd_blk, ctrAdd_chans]
      · rw [modChan_same]
        exact not_mem_sdel _ _
      · rw [modChan_same, Chan.bank_modBank_same]
        rfl
      · exact modChan_other _ _ hd
    case waits => exact congrArg Host.Outcome.next (if_neg fun h => hhead h.2)
    case issued =>
      obtain ⟨l, q, e, hturn, hl⟩ := refreshTurn_issues hst hstall hearly howed hrow hpost htakes
      refine ⟨_, hgo hhead hturn, onlyChan_modChan c _ s, ?_⟩
      rw [State.upd_blk, modChan_same]
      refine ⟨not_mem_sdel _ _, ?_⟩
      change (mget l _ {}).rowCtr = _ ∧ (mget l _ {}).tBusy = _
      rw [hl]
      exact ⟨rfl, rfl⟩
    case forced =>
      obtain ⟨l, q, n, e, hforced, hl⟩ := forceRefresh_deadline hstall howed hrow htakes
      refine ⟨_, congrArg Host.Outcome.next ((if_pos hst).trans hforced), rfl, ?_, ?_, ctr_ctrAdd _ _ s.blk,
        rcGet_rcSet_bit _ _ (by decide), fun d hd => modChan_other (forcedCounted c s.blk) _ hd⟩
      all_goals rw [State.upd_blk, modChan_same]
      · change (mget l _ {}).rowCtr = _
        rw [hl]; rfl
      · change (mget l _ {}).owed = _
        rw [hl]; rfl
  case ticks =>
    intro k hpost htakes hdiv
    let b := modChan c (ticked s.blk.now) s.blk
    have hbank : b.chans[c].bank k = {} := by rw [modChan_same]; rfl
    have hold : s.blk.chans[c].bank k = {} := bank_of_none hbanks k
    have htakes' : bankTakes c k 4 5 (s.upd b) := bankTakes_modChan htakes hold.symm (by rw [ticked, hst]; decide)
    obtain ⟨l, q, e, hturn, hl⟩ := refreshTurn_issues (c := c) (k := k) (s := s.upd b)
      (by rw [State.upd_blk, modChan_same]; exact hst) (by rw [State.upd_blk, modChan_same]; exact hstall)
      (by rw [State.upd_blk, hbank]) (by rw [State.upd_blk, hbank]) (by rw [State.upd_blk, hbank])
      ((postponed_congr rfl rfl).trans hpost) htakes'
    have htick := (tickRefresh_calm hbanks hdue).trans hturn
    simp only [State.upd_blk, State.upd_upd, b, modChan_modChan] at htick
    obtain ⟨n, hlevel⟩ := adoptLevel_sameDiv (c := c) (v := s.blk.chans[c].levelNext)
      (s := s.upd (modChan c (fun x => commanded l q (turnTaken k (ticked s.blk.now x))) s.blk))
      (by rw [State.upd_blk, modChan_same]; rfl) (by rw [State.upd_blk, modChan_same]; exact hdiv)
    simp only [State.upd_blk, State.upd_upd, modChan_modChan, throttleCurve_modChan] at hlevel
    have hexec := exec_refreshTick hst hgood htick hpend
    rw [hlevel] at hexec
    refine ⟨_, hexec, onlyChan_modChan c _ s, ?_⟩
    rw [State.upd_blk, modChan_same]
    refine ⟨rfl, rfl, rfl, ?_, rfl, rfl, rfl, ?_⟩
    · change (mget l _ {}).rowCtr = _
      rw [hl, State.upd_blk, hbank]
      rfl
    · simp only [adopted, commanded, turnTaken, ticked]
      exact ⟨trivial, trivial, hst⟩

end

section
/-! SUPPORT. Power-down (R303, R318, R319): an event that every bank machine of a channel takes, whose action is the channel's. -/

namespace Sys2Proof.Machine

open Sys2Proof

variable {c : ChanId} {b : Block} {s : State} {ev act : Nat}

/-! ### Events for every bank -/

theorem banksOf_ne_nil : banksOf ≠ [] := by
  unfold banksOf
  rw [Ne, List.range_eq_nil]
  unfold Config.height
  omega

theorem lt_of_mem_banksOf {k : Nat} (h : k ∈ banksOf) : k < 64 := by
  have hk := List.mem_range.mp h
  have hcode := Config.heightCode.isLt
  unfold Config.height at hk
  omega

/-- Actions 6 and 7 are the channel's (R303). -/
theorem bankAct_chan (h : act = 6 ∨ act = 7) (k : Nat) (s : State) :
    bankAct c.val k act {} s = s.upd (modChan c (chanAct s.blk c.val act) s.blk) := by
  obtain rfl | rfl := h <;> simp only [bankAct, cid_val]

theorem chanAct_banks (h : act = 6 ∨ act = 7) (b : Block) (n : Nat) (x : Chan) : (chanAct b n act x).banks = x.banks := by
  unfold chanAct
  obtain rfl | rfl := h <;> split <;> simp_all

/-- The transition of a machine whose action is the channel's. -/
theorem fire_chanAct {k : Nat} (hact : act = 6 ∨ act = 7) (h : bankTakes c k ev act s) : ∃ l q,
    (fire c.val k ev {} s).1 = s.upd (modChan c (fun x => commanded l q (chanAct s.blk c.val act x)) s.blk)
      ∧ ∀ j, j ≠ k → mget l j {} = s.blk.chans[c].bank j := by
  have hbanks := chanAct_banks hact s.blk c.val s.blk.chans[c]
  have hfire := fire_takes h _ (bankAct_chan hact k s) (by simp only [Chan.bank, hbanks])
  have hne : act ≠ 0 := by omega
  refine ⟨((chanAct s.blk c.val act s.blk.chans[c]).modBank k (transit (bankEntry s.blk c.val k ev))).banks,
    through 16 (k, act) (chanAct s.blk c.val act s.blk.chans[c]).cmdFifo, ?_, fun j hj => ?_⟩
  · rw [hfire]
    exact congrArg s.upd (modChan_congr (by simp only [commanded, noteCmd, if_neg hne, Chan.modBank]))
  · change Chan.bank _ j = _
    rw [Chan.bank_modBank_other _ _ hj, Chan.bank, hbanks]
    rfl

/-- Once the channel has changed, the other machines make their transitions, and no more. -/
theorem fireList_changed (hact : act = 6 ∨ act = 7) (l : List Nat) (hnodup : l.Nodup) (h : ∀ k ∈ l, bankTakes c k ev act s)
    (hdone : ∀ (b : Block) (x : Chan), x.st = s.blk.chans[c].st → chanAct b c.val act x = x) :
    ∃ m q, l.foldl (fun s k => (fire c.val k ev {} s).1) s = s.upd (modChan c (commanded m q) s.blk) := by
  induction l generalizing s with
  | nil => exact ⟨_, _, (congrArg s.upd (modChan_fixed (f := commanded s.blk.chans[c].banks s.blk.chans[c].cmdFifo) rfl)).symm⟩
  | cons k t ih =>
    obtain ⟨hfresh, ht⟩ := List.nodup_cons.mp hnodup
    obtain ⟨m, q, hfire, hother⟩ := fire_chanAct hact (h k List.mem_cons_self)
    have hkept : modChan c (fun x => commanded m q (chanAct s.blk c.val act x)) s.blk = modChan c (commanded m q) s.blk :=
      modChan_congr (by rw [hdone _ _ rfl])
    rw [hkept] at hfire
    have hst : (s.upd (modChan c (commanded m q) s.blk)).blk.chans[c].st = s.blk.chans[c].st := by
      rw [State.upd_blk, modChan_same]; rfl
    obtain ⟨m', q', hrest⟩ := ih (s := s.upd (modChan c (commanded m q) s.blk)) ht
      (fun j hj => bankTakes_modChan (h j (List.mem_cons_of_mem _ hj)) (hother j fun e => hfresh (e ▸ hj))
        (by obtain ⟨-, -, hon, -⟩ := h k List.mem_cons_self; exact hon))
      (fun b x hx => hdone b x (hx.trans hst))
    refine ⟨m', q', ?_⟩
    rw [List.foldl_cons, hfire, hrest, State.upd_blk, modChan_modChan]
    rfl

/-- An event that every bank machine takes with an action of the channel: the first machine makes the change (R303). -/
theorem fireAll_chanAct (hact : act = 6 ∨ act = 7) (h : ∀ k, k < 64 → bankTakes c k ev act s)
    (hon : (chanAct s.blk c.val act s.blk.chans[c]).st ≠ .offline)
    (hdone : ∀ (b : Block) (x : Chan), x.st = (chanAct s.blk c.val act s.blk.chans[c]).st → chanAct b c.val act x = x) :
    ∃ m q, fireAll c.val ev s = s.upd (modChan c (fun x => commanded m q (chanAct s.blk c.val act x)) s.blk) := by
  have hnodup : banksOf.Nodup := List.nodup_range
  unfold fireAll
  cases hl : banksOf with
  | nil => exact absurd hl banksOf_ne_nil
  | cons k t =>
    have hlt : ∀ j ∈ k :: t, j < 64 := fun j hj => lt_of_mem_banksOf (hl ▸ hj)
    rw [hl] at hnodup
    obtain ⟨hfresh, ht⟩ := List.nodup_cons.mp hnodup
    obtain ⟨m, q, hfire, hother⟩ := fire_chanAct hact (h k (hlt k List.mem_cons_self))
    have hst : (modChan c (fun x => commanded m q (chanAct s.blk c.val act x)) s.blk).chans[c].st
        = (chanAct s.blk c.val act s.blk.chans[c]).st := by rw [modChan_same]; rfl
    obtain ⟨m', q', hrest⟩ := fireList_changed (s := s.upd (modChan c (fun x => commanded m q (chanAct s.blk c.val act x)) s.blk))
      hact t ht
      (fun j hj => bankTakes_modChan (h j (hlt j (List.mem_cons_of_mem _ hj))) (hother j fun e => hfresh (e ▸ hj)) hon)
      (fun b x hx => hdone b x (hx.trans hst))
    refine ⟨m', q', ?_⟩
    rw [List.foldl_cons, hfire, hrest, State.upd_blk, modChan_modChan]
    rfl

/-! ### The entry (R316, R318) -/

theorem drawBanks_none (h : b.chans[c].banks = []) (l : List Nat) (raws : List Bool) : drawBanks c.val l raws b = b := by
  induction l generalizing raws with
  | nil => rfl
  | cons k t ih =>
    have hrow : (b.chans[c].bank k).actRow = none := by rw [bank_of_none h]
    rw [drawBanks]
    simp only [cid_val, hrow]
    exact ih raws

/-- With no bank to settle, power-down is entered at once. -/
theorem enterPowerDown_calm {raws : List Bool} (h : s.blk.chans[c].banks = []) :
    enterPowerDown c.val raws s = fireAll c.val 5 s := by
  simp only [enterPowerDown, cid_val, drawBanks_none h, State.upd_self, h, List.any_nil, Bool.false_eq_true, if_false]

theorem mayPowerDown_runs (h : mayPowerDown b c.val = true) : b.chans[c].st = .run := by
  simp only [mayPowerDown, cid_val, Bool.and_eq_true] at h
  obtain ⟨⟨⟨⟨hruns, -⟩, -⟩, -⟩, -⟩ := h
  simp only [chanRuns, Bool.and_eq_true, beq_iff_eq] at hruns
  obtain ⟨⟨⟨hst, -⟩, -⟩, -⟩ := hruns
  exact hst

theorem chanAct_enters {x : Chan} (h : x.st = .run) (b : Block) (n : Nat) :
    chanAct b n 6 x = { x with st := .powerdown, pdWant := false } := by
  simp only [chanAct, h]

theorem chanAct_leaves {x : Chan} (h : x.st = .powerdown) (b : Block) (n : Nat) : chanAct b n 7 x
    = { x with st := .run, blockTil := x.cycle + tpar b n 0x0E, wokenRef := quiet x, idleAt := b.now } := by
  simp only [chanAct, h]

theorem chanAct_entered {x : Chan} (h : x.st = .powerdown) (b : Block) (n : Nat) : chanAct b n 6 x = x := by
  simp only [chanAct, h]

theorem chanAct_left {x : Chan} (h : x.st = .run) (b : Block) (n : Nat) : chanAct b n 7 x = x := by
  simp only [chanAct, h]

end Sys2Proof.Machine

open Sys2Proof Sys2Proof.Machine

/-- Settles O32: with closed rows the entry is event 5 for every bank (`enterPowerDown_calm`), the exit event 6; of the machines
that take it, the first one changes the channel (`fireAll_chanAct`). -/
theorem powerDown : Obligations.PowerDown := by
  refine fun c s hbanks => ⟨fun raws hmay htakes => ?enters, fun hst hwakes htakes => ?leaves, fun hsleeps => ?stays⟩
  case enters =>
    have hact := chanAct_enters (mayPowerDown_runs hmay) s.blk c.val
    obtain ⟨m, q, hfire⟩ := fireAll_chanAct (.inl rfl) htakes (by rw [hact]; simp only [ne_eq, reduceCtorEq, not_false_eq_true])
      fun b x hx => chanAct_entered (by rw [hx, hact]) b c.val
    refine ⟨_, congrArg Host.Outcome.next ((if_pos hmay).trans ((enterPowerDown_calm hbanks).trans hfire)), onlyChan_modChan c _ s, ?_⟩
    rw [State.upd_blk, modChan_same, hact]
    exact ⟨rfl, rfl, rfl, rfl⟩
  case leaves =>
    have hact := chanAct_leaves hst s.blk c.val
    obtain ⟨m, q, hfire⟩ := fireAll_chanAct (.inr rfl) htakes (by rw [hact]; simp only [ne_eq, reduceCtorEq, not_false_eq_true])
      fun b x hx => chanAct_left (by rw [hx, hact]) b c.val
    have hleave : leavePowerDown c.val s = fireAll c.val 6 s := by
      simp only [leavePowerDown, cid_val, hst, ne_eq, not_true_eq_false, if_false]
    refine ⟨_, congrArg Host.Outcome.next ((if_pos hwakes).trans (hleave.trans hfire)), onlyChan_modChan c _ s, ?_⟩
    rw [State.upd_blk, modChan_same, hact]
    exact ⟨rfl, rfl, rfl, rfl, rfl⟩
  case stays => exact congrArg Host.Outcome.next (if_neg (ne_true_of_eq_false hsleeps))

end

section
/-! SUPPORT. A read that DRAM returns (R328): the end of its DRAM command while nothing waits for the channel's queues, and what a
host gets. -/

namespace Sys2Proof.Machine

open Sys2Proof

variable {c : ChanId} {b : Block} {s : State}

/-- The oldest read in flight of a channel is over, with the line in its data path; `rest` is still in flight. -/
def readOver (rest : List Acc) (v : Stored) (x : Chan) : Chan := { x with inflight := rest, rdFifo := through 16 v x.rdFifo }

theorem storedAt_readOver (rest : List Acc) (v : Stored) (mem : List Host.Cell) (a : Nat) :
    storedAt (modChan c (readOver rest v) b) mem c.val a = storedAt b mem c.val a := by
  have h := storedAt_modChan (c := c.val) (b := b) (f := readOver rest v) (fun _ => ⟨rfl, rfl, rfl⟩) mem a
  simpa only [cid_val] using h

/-- A read of a host returns: what the line leads to, and the line on its way to the host. -/
theorem readReturn_read {e : Acc} {rest : List Acc} {p : PortId} {tag off h line : Nat} {err v : Stored}
    (hv : storedAt s.blk s.mem c.val e.pla ^^^ e.err ^^^ err = v)
    (hflight : s.blk.chans[c].inflight = e :: rest) (hsrc : e.src = .read p tag off h line) {poison : Bool} {d : Line} {t : Block}
    (hdemand : demandRead c.val e.pla 0 h line e.double v (modChan c (readOver rest v) s.blk) = (poison, d, t)) :
    readReturn c.val err s = s.upd (letIn c.val (deliverRead c.val p tag off e poison d t)) := by
  have hstored : storedAt (modChan c (fun x => { x with inflight := rest }) s.blk) s.mem c.val e.pla
      = storedAt s.blk s.mem c.val e.pla := by
    have h := storedAt_modChan (c := c.val) (b := s.blk) (f := fun x => { x with inflight := rest }) (fun _ => ⟨rfl, rfl, rfl⟩)
      s.mem e.pla
    simpa only [cid_val] using h
  have hover : modChan c (fun x => { x with rdFifo := through 16 v x.rdFifo }) (modChan c (fun x => { x with inflight := rest }) s.blk)
      = modChan c (readOver rest v) s.blk := modChan_modChan ..
  simp only [readReturn, cid_val, hflight, hsrc, hstored, hv, hover, hdemand]

/-- The end of a DRAM command whose line is for a host: nothing that a channel, a port or the registers have waiting goes on. -/
theorem exec_dramReadReturn_rest {err : Stored} {t : Block} (h : readReturn c.val err s = s.upd (letIn c.val t))
    (hxbar : t.chans[c].xbar = []) (hserved : t.chans[c].served = []) (hforced : t.regs.forced = []) :
    exec (.dramReadReturn c err) s = .next (s.upd t) := by
  have hlet : letIn c.val t = t := letIn_none (by simp only [cid_val, hxbar])
  have htake : takeServed c.val (s.upd t) = s.upd t := takeServed_none (by simp only [State.upd_blk, cid_val, hserved])
  calc exec (.dramReadReturn c err) s
    _ = .next (goOn (takeServed c.val (readReturn c.val err s))) := rfl
    _ = .next (goOn (s.upd t)) := by rw [h, hlet, htake]
    _ = .next (s.upd t) := congrArg (fun b => Host.Outcome.next (s.upd b)) (forcedGo_none hforced)

/-- A line for a live tag, inside its class's target, goes out and changes its port alone (R185, R276). -/
theorem deliverRead_inTime {p : PortId} {tag off : Nat} {e : Acc} (c : Nat) (poison : Bool) (d : Line)
    (hsends : b.ports[p].sends tag = true) (htime : b.now - e.arr ≤ target b e.cls) : deliverRead c p tag off e poison d b
      = modPort p (lineGone tag off) (modPort p (sentLines [{ tag := tag, line := off, poison := poison, d := d }]) b) := by
  have hsent : sendData p { tag := tag, line := off, poison := poison, d := d } b
      = modPort p (sentLines [{ tag := tag, line := off, poison := poison, d := d }]) b := if_pos hsends
  have hend : ∀ t : Block, t.now = b.now → t.regs = b.regs → endLatency c e.cls e.arr e.inGrant t = t := fun t hnow hregs => by
    have htarget : target t e.cls = target b e.cls := by simp only [target, rwf, rw, hregs]
    rw [endLatency, hnow, htarget, if_neg (Nat.not_lt.mpr htime)]
  unfold deliverRead
  dsimp only
  rw [hsent]
  split
  · split
    · exact hend _ rfl rfl
    · rfl
  · exact hend _ rfl rfl

/-- What demandRead leaves of a poisoned line: CHN_ECC_POISON and CHN_ECC_LAST (R328). -/
theorem demandRead_poisoned {double : Bool} {v : Stored} (c a h line : Nat) (hpois : (decodeLine double v).1 = .poisoned) (b : Block) :
    demandRead c a 0 h line double v b = (true, lineOf v, noteError c a 0 .poisoned (ctrAdd (chnBase c + 0x12C) 1 b)) := by
  simp only [demandRead, hpois]

theorem demandRead_clean {double : Bool} {v : Stored} (c a h line : Nat) (hclean : (decodeLine double v).1 = .clean) (b : Block) :
    demandRead c a 0 h line double v b = (false, lineOf v, b) := by
  simp only [demandRead, hclean]

/-- CHN_ECC_LAST after a poisoned line that a host reads. -/
def poisonNoted (a : Nat) (x : Chan) : Chan :=
  { x with lastOut := 3, lastSrc := 0, lastPla := BitVec.ofNat 26 a, symA := 0x3F, symB := 0x3F }

theorem noteError_poisoned (c : ChanId) (a : Nat) (b : Block) :
    noteError c.val a 0 .poisoned b = modChan c (poisonNoted a) b := by
  simp only [noteError, cid_val]
  rfl

end Sys2Proof.Machine

open Sys2Proof Sys2Proof.Machine

/-- Settles O33: the line goes out inside its target (`deliverRead_inTime`), after what `demandRead` makes of it. -/
theorem readReturns : Obligations.ReadReturns := by
  intro c err e p tag off h line rest s hflight hsrc hxbar hserved hforced hsends htime v returned
  have hreturned (poison : Bool) (t : Block)
      (hdemand : demandRead c.val e.pla 0 h line e.double v (modChan c (readOver rest v) s.blk) = (poison, lineOf v, t))
      (hports : t.ports = s.blk.ports) (hsage : t.sage = s.blk.sage) (hnow : t.now = s.blk.now)
      (hlive : t.regs.live = s.blk.regs.live) (hgo : t.regs.forced = s.blk.regs.forced)
      (hothers : ∀ d, d ≠ c → t.chans[d] = s.blk.chans[d])
      (hc : t.chans[c].inflight = rest ∧ t.chans[c].rq = s.blk.chans[c].rq ∧ t.chans[c].xbar = s.blk.chans[c].xbar
        ∧ t.chans[c].served = s.blk.chans[c].served) :
      returned (s.upd (modPort p (lineGone tag off)
        (modPort p (sentLines [{ tag := tag, line := off, poison := poison, d := lineOf v }]) t))) poison := by
    obtain ⟨hrest, hrq, hxbar', hserved'⟩ := hc
    have hread := readReturn_read rfl hflight hsrc hdemand
    have htarget : target t e.cls = target s.blk e.cls := by simp only [target, rwf, rw, hlive]
    rw [deliverRead_inTime c.val poison _ (by rwa [hports]) (by rwa [hnow, htarget])] at hread
    refine ⟨exec_dramReadReturn_rest hread (hxbar'.trans hxbar) (hserved'.trans hserved) (hgo.trans hforced), rfl, rfl, hrest, hrq,
      ?_, ?_, fun q hq => ?_, hothers, hsage⟩
    · rw [State.upd_blk, modPort_same, modPort_same, hports]
      rfl
    · rw [State.upd_blk, modPort_same, modPort_same, hports]
      rfl
    · rw [State.upd_blk, modPort_other _ _ hq, modPort_other _ _ hq, hports]
  refine ⟨fun hclean => ?clean, fun hpois => ?poisoned⟩
  case clean =>
    refine ⟨_, hreturned false _ (demandRead_clean c.val e.pla h line hclean _) rfl rfl rfl rfl rfl
      (fun d hd => modChan_other _ _ hd) ?_, rfl⟩
    rw [modChan_same]
    exact ⟨rfl, rfl, rfl, rfl⟩
  case poisoned =>
    have hdemand := demandRead_poisoned c.val e.pla h line hpois (modChan c (readOver rest v) s.blk)
    rw [noteError_poisoned] at hdemand
    refine ⟨_, hreturned true _ hdemand rfl rfl rfl rfl rfl (fun d hd => ?_) ?_, ?_, ?_, ?_⟩
    · rw [modChan_other _ _ hd]
      exact modChan_other _ _ hd
    · rw [modChan_same, ctrAdd_chans, modChan_same]
      exact ⟨rfl, rfl, rfl, rfl⟩
    · rw [State.upd_blk, modPort_chans, modPort_chans, modChan_same]
      rfl
    · rw [State.upd_blk, modPort_chans, modPort_chans, modChan_same]
      rfl
    · exact ctr_ctrAdd (chnBase c.val + 0x12C) 1 (modChan c (readOver rest v) s.blk)

end

section
/-! SUPPORT. Dill, verify reads and the handshake of a soft row repair (R331, R332, R338). -/

namespace Sys2Proof.Machine

open Sys2Proof

variable {c : ChanId} {b : Block} {s : State}

/-! ### Reads of the stack's own units -/

/-- A maintenance line of a channel waits for the pacer. -/
def awaiting (e : Acc) (x : Chan) : Chan := { x with maintWait := x.maintWait ++ [e] }

theorem awaitPacer_eq (src : AccSrc) (c : ChanId) (a : Nat) (v err : Stored) (b : Block) :
    awaitPacer src c.val a v err b = modChan c (awaiting (maintAcc src c.val a b.now v err)) b := by
  simp only [awaitPacer, cid_val]
  rfl

/-- A line served for a unit of the stack is what the unit takes, once the DRAM command ends with nothing else to go on. -/
theorem returnRow_own {err v : Stored} {e : Acc} {t : Block}
    (h : readReturn c.val err s = s.upd (letIn c.val (modChan c (servedTo e v) t)))
    (hxbar : t.chans[c].xbar = []) (hserved : t.chans[c].served = []) :
    returnRow c.val err s = takeOne c.val (s.upd t) (e, v) := by
  have hlet : letIn c.val (modChan c (servedTo e v) t) = modChan c (servedTo e v) t :=
    letIn_none (by simp only [cid_val, modChan_same]; exact hxbar)
  have hwaits : (modChan c (servedTo e v) t).chans[c].served = [(e, v)] := by
    rw [modChan_same, servedTo, hserved]
    rfl
  have hclear : modChan c noneServed (modChan c (servedTo e v) t) = t :=
    (modChan_modChan ..).trans (modChan_fixed (noneServed_servedTo hserved))
  rw [returnRow, h, hlet, takeServed]
  simp only [State.upd_blk, cid_val, hwaits, List.foldl_cons, List.foldl_nil]
  exact congrArg (fun b => takeOne c.val (s.upd b) (e, v)) hclear

/-- A line of the walk, or of a verify, is served as it is. -/
theorem readReturn_own {e : Acc} {rest : List Acc} {err v : Stored}
    (hv : storedAt s.blk s.mem c.val e.pla ^^^ e.err ^^^ err = v) (hflight : s.blk.chans[c].inflight = e :: rest)
    (hsrc : e.src = .dill ∨ ∃ p w, e.src = .verify p w) :
    readReturn c.val err s = s.upd (letIn c.val (modChan c (servedTo e v) (modChan c (readOver rest v) s.blk))) := by
  have hstored : storedAt (modChan c (fun x => { x with inflight := rest }) s.blk) s.mem c.val e.pla
      = storedAt s.blk s.mem c.val e.pla := by
    have h := storedAt_modChan (c := c.val) (b := s.blk) (f := fun x => { x with inflight := rest }) (fun _ => ⟨rfl, rfl, rfl⟩)
      s.mem e.pla
    simpa only [cid_val] using h
  have hover : modChan c (fun x => { x with rdFifo := through 16 v x.rdFifo }) (modChan c (fun x => { x with inflight := rest }) s.blk)
      = modChan c (readOver rest v) s.blk := modChan_modChan ..
  obtain hsrc | ⟨p, w, hsrc⟩ := hsrc
  · simp only [readReturn, cid_val, hflight, hsrc, hstored, hv, hover, serveOwn]
    rfl
  · simp only [readReturn, cid_val, hflight, hsrc, hstored, hv, hover, serveOwn]
    rfl

/-- The DRAM command of the one read in flight of a unit of the stack ends. -/
theorem exec_dramReadReturn_own {e : Acc} {err v : Stored}
    (hv : storedAt s.blk s.mem c.val e.pla ^^^ e.err ^^^ err = v) (hflight : s.blk.chans[c].inflight = [e])
    (hsrc : e.src = .dill ∨ ∃ p w, e.src = .verify p w) (hxbar : s.blk.chans[c].xbar = []) (hserved : s.blk.chans[c].served = [])
    {t : Block} (htake : takeOne c.val (s.upd (modChan c (readOver [] v) s.blk)) (e, v) = s.upd t) (hforced : t.regs.forced = []) :
    exec (.dramReadReturn c err) s = .next (s.upd t) := by
  have hrow := returnRow_own (readReturn_own hv hflight hsrc) (by rw [modChan_same]; exact hxbar) (by rw [modChan_same]; exact hserved)
  calc exec (.dramReadReturn c err) s
    _ = .next (goOn (returnRow c.val err s)) := rfl
    _ = .next (goOn (s.upd t)) := by rw [hrow, htake]
    _ = .next (s.upd t) := congrArg (fun b => Host.Outcome.next (s.upd b)) (forcedGo_none hforced)

/-! ### The walk and the verify -/

/-- The walk of a channel goes on to the next line of its segment. -/
def nextLine (x : Chan) : Chan := { x with dillLine := x.dillLine + 1 }

/-- A clean line of the walk moves the walk, once the engine has heard of it (R383). -/
theorem dillTake_clean {a : Nat} {v : Stored} (hline : a = plaOf (segOf c.val 0 0 + b.chans[c].dillSeg) b.chans[c].dillLine)
    (hlast : b.chans[c].dillLine < 1023) (hclean : (decodeLine (isDouble b (plaSeg c.val a)) v).1 = .clean) :
    ∃ engs, dillTake c.val a v b = { modChan c nextLine b with engs } := by
  obtain ⟨engs, hpost⟩ := postCtx_eq c.val 0 1 (bytesOf 64 (lineOf v)) b
  have hact : dillAct c.val a v { b with engs } = { b with engs } := by
    have hsame : isDouble { b with engs } (plaSeg c.val a) = isDouble b (plaSeg c.val a) := rfl
    simp only [dillAct, hsame, hclean, noteError]
  refine ⟨engs, ?_⟩
  simp only [dillTake, cid_val, ← hline, ne_eq, not_true_eq_false, if_false, hpost, hact, dillAdvance, hlast, if_true]
  rfl

/-- A line that verifies clean changes nothing but what its engine hears (R332). -/
theorem verifyTake_clean {a : Nat} {w v : Stored} (hclean : (decodeLine (isDouble b (plaSeg c.val a)) v).1 = .clean) :
    ∃ engs, verifyTake c.val a false w v b = { b with engs } := by
  obtain ⟨engs, hpost⟩ := postCtx_eq c.val 0 1 (bytesOf 64 (lineOf v)) b
  have hscrub : verifyScrub c.val a v { b with engs } = { b with engs } := by
    have hsame : isDouble { b with engs } (plaSeg c.val a) = isDouble b (plaSeg c.val a) := rfl
    simp only [verifyScrub, hsame, hclean, noteError]
  refine ⟨engs, ?_⟩
  rw [verifyTake, hpost, hscrub]
  simp only [Bool.false_eq_true, if_false, ite_self]

/-! ### The soft row repair -/

section Soft
variable {r : Soft} {errs : List LineErr}

/-- The next line of a soft row repair changes nothing but what waits for the pacer. -/
theorem softNext_keeps (c : ChanId) (errs : List LineErr) (b : Block) : (softNext c.val errs b).chans[c].softRun = b.chans[c].softRun
    ∧ (softNext c.val errs b).chans[c].soft = b.chans[c].soft := by
  unfold softNext
  dsimp only
  split
  · exact ⟨rfl, rfl⟩
  split
  · exact ⟨rfl, rfl⟩
  · rw [awaitPacer_eq, modChan_same]
    exact ⟨rfl, rfl⟩

/-- The handshake is not accepted: the repair goes on. -/
theorem softDone_waits (hrun : s.blk.chans[c].softRun = some r) (heng : s.blk.engs[c].st = .run)
    (hwait : rowWaits s.blk.chans[c] r = true ∨ rowCopied s.blk c.val r = false) :
    softDone c.val errs s = s.upd (softNext c.val errs s.blk) := by
  have hgo : s.blk.engs[eid c.val].st = .run := (congrArg (fun e : EngId => s.blk.engs[e].st) (cid_val c)).trans heng
  have hnot : (!rowCopied s.blk c.val r || rowWaits s.blk.chans[c] r) = true := by
    obtain h | h := hwait
    · rw [h, Bool.or_true]
    · rw [h, Bool.not_false, Bool.true_or]
  simp only [softDone, cid_val, hrun, hgo, ne_eq, not_true_eq_false, if_false, hnot, if_true]

/-- A channel whose one soft row repair has ended with its row switched. -/
def rowSwitched (r : Soft) (x : Chan) : Chan := { x with softRun := none, soft := [(4 * r.bank + r.spare, some r.row)] }

theorem switchRow_alone (hwait : b.chans[c].softWait = []) (hremap : b.chans[c].remap = List.replicate 16 none)
    (hsoft : b.chans[c].soft = []) : switchRow c.val r b = modChan c (rowSwitched r) b := by
  simp only [switchRow, cid_val]
  refine modChan_congr ?_
  simp only [rowSwitched, hwait, hremap, hsoft, mset, mput, reduceCtorEq, if_false, List.filter_nil, List.map_replicate,
    Option.bind_none]

/-- The row's lines, in the order of their columns: bank, row and the address where a switched row's line is held (R19, R338). -/
theorem plaRow_rowBase {bank row i : Nat} (hrow : row < 32768) (hi : i < 32) : plaRow (rowBase bank row + i) = row := by
  unfold plaRow rowBase
  omega

theorem plaBank_rowBase {bank row i : Nat} (hbank : bank < 64) (hrow : row < 32768) (hi : i < 32) :
    plaBank (rowBase bank row + i) = bank := by
  unfold plaBank plaSlice plaBankIn rowBase
  omega

theorem effRow_switched {x : Chan} (hspare : r.spare < 4) : effRow (rowSwitched r x) r.bank r.row = 24576 + r.spare := by
  have hget (k : Nat) : mget (rowSwitched r x).soft (4 * r.bank + k) none = if r.spare = k then some r.row else none := by
    simp only [rowSwitched, mget, Nat.add_left_cancel_iff]
  have hfind : ([3, 2, 1, 0].find? fun k => mget (rowSwitched r x).soft (4 * r.bank + k) none == some r.row) = some r.spare := by
    simp only [hget]
    interval_cases r.spare <;> simp
  simp only [effRow, hfind]

theorem storedAt_switched {mem : List Host.Cell} {i : Nat} (hremap : b.chans[c].remap = List.replicate 16 none)
    (hswitch : ∃ x, b.chans[c] = rowSwitched r x) (hbank : r.bank < 64) (hrow : r.row < 24576) (hspare : r.spare < 4) (hi : i < 32) :
    storedAt b mem c.val (rowBase r.bank r.row + i) = dramGet mem c.val (rowBase r.bank (24576 + r.spare) + i) := by
  obtain ⟨x, hx⟩ := hswitch
  have hnone : remapOf b.chans[c] (rowBase r.bank r.row + i) = none := by
    rw [remapOf, hremap]
    rfl
  have heff : effPla b.chans[c] (rowBase r.bank r.row + i) = rowBase r.bank (24576 + r.spare) + i := by
    rw [effPla, plaRow_rowBase (by omega) hi, plaBank_rowBase hbank (by omega) hi, hx, effRow_switched hspare]
    unfold rowBase
    omega
  simp only [storedAt, cid_val, hnone, heff]

/-- The event of a soft row repair that is done (R338). -/
def repairEvent (c : Nat) (r : Soft) : Ev :=
  { code := 0x0C03, lo := word [(c, 0), (r.spare, 5)], hi := BitVec.ofNat 32 (rowBase r.bank r.row) }

/-- The handshake is accepted: the row switches, and the repair is counted and reported. -/
theorem softDone_switches (hrun : s.blk.chans[c].softRun = some r) (heng : s.blk.engs[c].st = .run) (hcopied : r.copied = 32)
    (hrows : rowWaits s.blk.chans[c] r = false) (hwait : s.blk.chans[c].softWait = [])
    (hremap : s.blk.chans[c].remap = List.replicate 16 none) (hsoft : s.blk.chans[c].soft = []) :
    ∃ engs, softDone c.val [] s = s.upd (emit allMask (repairEvent c.val r) (rcSet (chnBase c.val + 0x11C) 4 (ctrAdd (chnBase c.val + 0x134) 1
      { modChan c (rowSwitched r) s.blk with engs }))) := by
  have hgo : s.blk.engs[eid c.val].st = .run := (congrArg (fun e : EngId => s.blk.engs[e].st) (cid_val c)).trans heng
  have hdone : rowCopied s.blk c.val r = true := by rw [rowCopied, hcopied]; rfl
  obtain ⟨engs, hpost⟩ := postCtx_eq c.val 0 6 [] (modChan c (rowSwitched r) s.blk)
  have hnext (e : Ev) (t : Block) (h : t.chans[c].softWait = []) : nextSoft c.val (emit allMask e t) = emit allMask e t := by
    have hemit : (emit allMask e t).chans[c].softWait = [] := by rw [emit_chans]; exact h
    simp only [nextSoft, cid_val, hemit]
    rfl
  refine ⟨engs, ?_⟩
  simp only [softDone, cid_val, hrun, hgo, ne_eq, not_true_eq_false, if_false, hdone, hrows, Bool.not_true, Bool.or_self,
    Bool.false_eq_true, switchRow_alone hwait hremap hsoft, hpost, State.upd_blk, State.upd_upd]
  rw [hnext]
  · rfl
  · exact (congrArg Chan.softWait (modChan_same ..)).trans hwait

end Soft

end Sys2Proof.Machine

open Sys2Proof Sys2Proof.Machine

/-- Settles O34: the walk and the verify put their reads before the pacer (`awaitPacer_eq`) and take a clean line with no other
change (`dillTake_clean`, `verifyTake_clean`); the handshake waits (`softDone_waits`), and then switches the row
(`softDone_switches`, `storedAt_switched`). -/
theorem dillAndRepair : Obligations.DillAndRepair := by
  intro c err s g a
  refine ⟨fun hpar hmay hrebuild => ⟨fun hpending => ?away, fun hpending hskip => ?reads⟩, fun l p v rest hverify => ?verify,
    fun e hflight hxbar hserved hforced hclean => ?returns,
    fun r hrun heng => ⟨fun hwait errs => ?waits, fun hcopied hrows hwait hbank hrow hspare hremap hsoft => ?switches⟩⟩
  case away =>
    have hstep : dillStep c.val err s = s := by
      simp only [dillStep, hmay, cid_val, hpending, Bool.not_true, Bool.false_eq_true, if_false, Bool.true_or, if_true]
    exact congrArg Host.Outcome.next ((congrArg (dillStep c.val err) (checked_good hpar)).trans hstep)
  case reads =>
    have hstep : dillStep c.val err s = s.upd (awaitPacer .dill c.val a 0 err s.blk) := by
      have hbit : s.blk.srl.rebuild.contains (g / 64 * 64) = false := by rw [hrebuild]; rfl
      simp only [dillStep, hmay, cid_val, hpending, Bool.not_true, Bool.false_eq_true, if_false, Bool.false_or]
      exact (if_neg (ne_true_of_eq_false hbit)).trans (if_neg (ne_true_of_eq_false hskip))
    rw [awaitPacer_eq] at hstep
    exact ⟨_, congrArg Host.Outcome.next ((congrArg (dillStep c.val err) (checked_good hpar)).trans hstep), rfl, rfl, rfl, rfl⟩
  case verify =>
    have hread : verifyRead c.val err s
        = s.upd (awaitPacer (.verify p v) c.val l 0 err (modChan c (fun x => { x with verify := rest }) s.blk)) := by
      simp only [verifyRead, cid_val, hverify]
    rw [awaitPacer_eq, modChan_modChan] at hread
    exact ⟨_, congrArg Host.Outcome.next hread, rfl, rfl, rfl, rfl⟩
  case returns =>
    intro returned
    set v := storedAt s.blk s.mem c.val e.pla ^^^ e.err ^^^ err
    refine ⟨fun hsrc hline hlast => ?walk, fun w hsrc => ?verified⟩
    case walk =>
      obtain ⟨engs, htake⟩ := dillTake_clean (c := c) (b := modChan c (readOver [] v) s.blk) (a := e.pla) (v := v)
        (by rw [modChan_same]; exact hline) (by rw [modChan_same]; exact hlast) hclean
      rw [modChan_modChan] at htake
      have hone : takeOne c.val (s.upd (modChan c (readOver [] v) s.blk)) (e, v)
          = s.upd { modChan c (fun x => nextLine (readOver [] v x)) s.blk with engs } := by
        simp only [takeOne, hsrc, State.upd_blk, htake, State.upd_upd]
      refine ⟨_, ⟨exec_dramReadReturn_own rfl hflight (.inl hsrc) hxbar hserved hone hforced, rfl, rfl, rfl, ?_, ?_, ?_,
        fun d hd => modChan_other (b := s.blk) (fun x => nextLine (readOver [] v x)) hd⟩, ?_⟩ <;> simp only [State.upd_blk, modChan_same]
      · rfl
      · exact hserved
      · rfl
      · exact ⟨rfl, rfl⟩
    case verified =>
      obtain ⟨engs, htake⟩ := verifyTake_clean (c := c) (b := modChan c (readOver [] v) s.blk) (a := e.pla) (w := w) (v := v) hclean
      have hone : takeOne c.val (s.upd (modChan c (readOver [] v) s.blk)) (e, v)
          = s.upd { modChan c (readOver [] v) s.blk with engs } := by
        simp only [takeOne, hsrc, State.upd_blk, htake, State.upd_upd]
      refine ⟨_, ⟨exec_dramReadReturn_own rfl hflight (.inr ⟨_, _, hsrc⟩) hxbar hserved hone hforced, rfl, rfl, rfl, ?_, ?_, ?_,
        fun d hd => modChan_other (b := s.blk) (readOver [] v) hd⟩, ?_⟩ <;> simp only [State.upd_blk, modChan_same]
      · rfl
      · exact hserved
      · rfl
      · exact ⟨rfl, rfl⟩
  case waits =>
    have hcase : rowWaits s.blk.chans[c] r = true ∨ rowCopied s.blk c.val r = false := hwait.imp_right fun ⟨hlines, hwritten⟩ => by
      rw [rowCopied, hwritten, beq_false_of_ne (Nat.ne_of_lt hlines)]
      rfl
    obtain ⟨krun, ksoft⟩ := softNext_keeps c errs s.blk
    exact ⟨_, congrArg Host.Outcome.next (softDone_waits hrun heng hcase), rfl, krun.trans hrun, ksoft⟩
  case switches =>
    obtain ⟨engs, hdone⟩ := softDone_switches hrun heng hcopied hrows hwait hremap hsoft
    have hchan : (emit allMask (repairEvent c.val r) (rcSet (chnBase c.val + 0x11C) 4 (ctrAdd (chnBase c.val + 0x134) 1
        { modChan c (rowSwitched r) s.blk with engs }))).chans[c] = rowSwitched r s.blk.chans[c] := by
      rw [emit_chans]
      exact modChan_same ..
    refine ⟨_, congrArg Host.Outcome.next hdone, rfl, ?_, ?_, ?_, ?_, fun i hi => ?_⟩
    · rw [State.upd_blk, hchan]
      rfl
    · rw [State.upd_blk, hchan]
      rfl
    · rw [State.upd_blk, ctr, emit_regs]
      exact ctr_ctrAdd (chnBase c.val + 0x134) 1 s.blk
    · rw [State.upd_blk, rcGet, emit_regs]
      exact rcGet_rcSet_bit _ _ (by decide)
    · rw [State.upd_blk, storedAt_switched (by rw [hchan]; exact hremap) ⟨_, hchan⟩ hbank hrow hspare hi]
      rfl

end

section
/-! SUPPORT. The rebuilds of the bitmap words of base-die SRAM (R344, R346). -/

namespace Sys2Proof.Machine

open Sys2Proof

variable {b : Block} {s : State}

/-! ### The written bitmap -/

/-- A segment that nothing owns and no migration reads: the rebuild clears its written bit (R344). -/
def freed (b : Block) (g : Nat) : Bool :=
  match ownerOf b g with
  | .free => (migFrom b g).isNone
  | _ => false

theorem freed_false_iff (b : Block) (g : Nat) : freed b g = false ↔ ownerOf b g ≠ .free ∨ (migFrom b g).isSome = true := by
  unfold freed
  cases ownerOf b g with
  | owned h l => simp only [ne_eq, reduceCtorEq, not_false_eq_true, true_or]
  | dest h l => simp only [ne_eq, reduceCtorEq, not_false_eq_true, true_or]
  | free => cases migFrom b g <;> simp

/-- The written bitmap without the segments of `l` that are free. -/
def writtenKept (l : List Nat) (b : Block) : Block :=
  { b with srl := { b.srl with written := b.srl.written.filter fun g => !(l.contains g && freed b g) } }

/-- One segment of a rebuild, outside the flat region. -/
def rebuildOne (s : State) (g : Nat) : State :=
  match ownerOf s.blk g with
  | .free => if (migFrom s.blk g).isSome then s else s.upd (setWritten g false s.blk)
  | _ => s

theorem rebuildOne_eq (g : Nat) (s : State) : rebuildOne s g = s.upd (writtenKept [g] s.blk) := by
  have hkept (h : freed s.blk g = false) : writtenKept [g] s.blk = s.blk := by
    have hall : (s.blk.srl.written.filter fun k => !([g].contains k && freed s.blk k)) = s.blk.srl.written := by
      refine List.filter_eq_self.mpr fun k _ => ?_
      by_cases hk : k = g
      · subst hk; rw [h, Bool.and_false]; rfl
      · have hne : [g].contains k = false := by simpa using hk
        rw [hne]; rfl
    rw [writtenKept, hall]
  have hlost (h : freed s.blk g = true) : writtenKept [g] s.blk = setWritten g false s.blk := by
    have hall : (s.blk.srl.written.filter fun k => !([g].contains k && freed s.blk k)) = sdel g s.blk.srl.written := by
      refine List.filter_congr fun k _ => ?_
      by_cases hk : k = g
      · subst hk; simp [h]
      · simp [hk]
    simp only [writtenKept, setWritten, hall, Bool.false_eq_true, if_false]
  unfold rebuildOne
  split
  next hfree =>
    cases hmig : migFrom s.blk g with
    | none =>
      rw [hlost (by rw [freed, hfree]; simp only [hmig, Option.isNone_none])]
      simp only [Option.isSome_none, Bool.false_eq_true, if_false]
    | some m =>
      rw [hkept (by rw [freed, hfree]; simp only [hmig, Option.isNone_some])]
      simp only [Option.isSome_some, if_true, State.upd]
  next hown =>
    have h : freed s.blk g = false := (freed_false_iff _ _).mpr (.inl hown)
    rw [hkept h, State.upd]

theorem rebuildOne_foldl (l : List Nat) (s : State) : l.foldl rebuildOne s = s.upd (writtenKept l s.blk) := by
  induction l generalizing s with
  | nil =>
    have hall : (s.blk.srl.written.filter fun k => !([].contains k && freed s.blk k)) = s.blk.srl.written :=
      List.filter_eq_self.mpr fun k _ => by simp
    rw [writtenKept, hall, List.foldl_nil, State.upd]
  | cons g l ih =>
    rw [List.foldl_cons, rebuildOne_eq, ih, State.upd_blk, State.upd_upd]
    have hone (k : Nat) : (!(l.contains k && freed s.blk k) && !([g].contains k && freed s.blk k))
        = !((g :: l).contains k && freed s.blk k) := by
      by_cases hk : k = g <;> cases freed s.blk k <;> simp [hk]
    simp only [writtenKept, List.filter_filter, ← hone]
    rfl

/-- Steps that agree while a fact holds, which they keep, agree over a list. -/
theorem foldl_eq_of_invariant {α β : Type} {f g : α → β → α} {I : α → Prop} (hstep : ∀ a x, I a → f a x = g a x)
    (hinv : ∀ a x, I a → I (g a x)) (l : List β) {a : α} (ha : I a) : l.foldl f a = l.foldl g a := by
  induction l generalizing a with
  | nil => rfl
  | cons x l ih => rw [List.foldl_cons, List.foldl_cons, hstep a x ha, ih (hinv a x ha)]

/-- The end of the rebuild of a word outside the flat region (R344): its free segments lose their bits, and FS_BITMAP_UE is raised. -/
theorem rebuildWritten_plain {w : Nat} (hwait : 64 * w ∈ s.blk.srl.rebuild) (hflat : s.blk.hnd.flat = false) :
    ∃ e a, rebuildWritten w s = s.upd (raiseEv (fs .bitmapUe) 0x51 allMask e a 7
      (let b := writtenKept ((List.range 64).map (64 * w + ·)) s.blk
       { b with srl := { b.srl with rebuild := sdel (64 * w) b.srl.rebuild } })) := by
  have hin : s.blk.srl.rebuild.contains (64 * w) = true := List.contains_iff_mem.mpr hwait
  have hgo : (!s.blk.srl.rebuild.contains (64 * w)) = false := by rw [hin]; rfl
  unfold rebuildWritten
  simp only [hgo, Bool.false_eq_true, if_false]
  rw [foldl_eq_of_invariant (g := rebuildOne) (I := fun t => t.blk.hnd.flat = false), rebuildOne_foldl]
  · exact ⟨_, _, rfl⟩
  · intro t g ht
    have hout : inFlat t.blk g = false := by rw [inFlat, ht]; rfl
    simp only [hout, Bool.false_eq_true, if_false]
    rfl
  · intro t g ht
    rw [rebuildOne_eq]
    exact ht
  · exact hflat

theorem isWritten_writtenKept (l : List Nat) (b : Block) (g : Nat) :
    isWritten (writtenKept l b) g = true ↔ isWritten b g = true ∧ (g ∈ l → freed b g = false) := by
  simp only [isWritten, writtenKept, List.contains_iff_mem, List.mem_filter, Bool.not_eq_true', Bool.and_eq_false_iff]
  refine and_congr_right fun _ => ?_
  by_cases hg : g ∈ l <;> simp [hg]

/-- A raise that enters no safe state leaves everything but Sage, the ports' event records and the counters (R456). -/
theorem raiseEv_quiet {src : Nat} (unit : Nat) (mask : BitVec 16) (e : Ev) (addr bit : Nat) {b : Block} (h : reactionOf b src ≤ 2) :
    ∃ t, quietly t (raiseEv src unit mask e addr bit b) ∧ (t = b ∨ t = rcSet addr bit b) := by
  unfold raiseEv
  dsimp only
  split
  · exact ⟨_, raise_quiet _ _ _ h, .inr rfl⟩
  · exact ⟨_, raise_quiet _ _ _ h, .inl rfl⟩

/-! ### The protection bitmap -/

/-- The mode of a segment's owner (R326): double where the owner's attributes say so. -/
def ownedDouble (b : Block) (g : Nat) : Bool :=
  match (match ownerOf b g with | .owned h _ => some h | .dest h _ => some h | .free => none) with
  | some h => attrProt (attrOf b h) == 1
  | none => false

theorem ownedDouble_iff (b : Block) (g : Nat) : ownedDouble b g = true ↔ match ownerOf b g with
    | .owned h _ => attrProt (attrOf b h) = 1 | .dest h _ => attrProt (attrOf b h) = 1 | .free => False := by
  unfold ownedDouble
  cases ownerOf b g with
  | owned h l => simp only [beq_iff_eq]
  | dest h l => simp only [beq_iff_eq]
  | free => simp only [Bool.false_eq_true]

theorem isDouble_setProt_other {g k : Nat} (h : g ≠ k) (v : Bool) (b : Block) : isDouble (setProt k v b) g = isDouble b g := by
  cases v <;> simp [isDouble, setProt, sdel, mem_sadd, h]

/-- The rebuild gives each segment of its word the mode of its owner and touches nothing else but the bitmap (R346). -/
theorem protRebuilt (l : List Nat) (b : Block) : ∃ prot, l.foldl (fun b g => setProt g (ownedDouble b g) b) b
      = { b with srl := { b.srl with prot } } ∧ ∀ g ∈ l, isDouble { b with srl := { b.srl with prot } } g = ownedDouble b g := by
  induction l using List.reverseRecOn with
  | nil => exact ⟨_, rfl, fun _ h => absurd h List.not_mem_nil⟩
  | append_singleton l k ih =>
    obtain ⟨prot, hfold, hbits⟩ := ih
    refine ⟨_, by rw [List.foldl_append, hfold]; rfl, fun g hg => ?_⟩
    by_cases hk : g = k
    · subst hk
      exact isDouble_setProt_same g _ { b with srl := { b.srl with prot } }
    · have hl : g ∈ l := by simpa [hk] using hg
      rw [← hbits g hl]
      exact isDouble_setProt_other hk _ _

end Sys2Proof.Machine

open Sys2Proof Sys2Proof.Machine

/-- Settles O35: the words are handled one by one; a rebuild of the written bitmap clears the bits of the free segments alone
(`rebuildOne_foldl`), and one of the protection bitmap sets each bit from the owner (`protRebuilt`). -/
theorem sramWords : Obligations.SramWords := by
  intro w s hstep
  have hserves : ¬ s.blk.start.step < 5 := Nat.not_lt.mpr hstep
  refine ⟨fun x => ?corrected, ?lost, fun hreact => ?heat, fun hwait hflat hdescs hwrites hreact => ?rebuilt, fun hwait => ?prot⟩
  case corrected =>
    have h : sramScrub x false s.blk = { s.blk with sramCe := s.blk.sramCe + 1 } := if_neg hserves
    exact congrArg (fun b => Host.Outcome.next (s.upd b)) h
  case lost =>
    have h : sramScrub (.written w) true s.blk = loseWritten w s.blk := if_neg hserves
    exact ⟨_, congrArg (fun b => Host.Outcome.next (s.upd b)) h, rfl, mem_sadd.mpr (.inl rfl), rfl, rfl, rfl⟩
  case heat =>
    have h : sramScrub (.heat w) true s.blk = loseHeat w s.blk := if_neg hserves
    obtain ⟨hq, -⟩ := raise_quiet (src := fs .sramHeat) 0x51 (BitVec.ofNat 32 (8 * w)) []
      (b := { s.blk with srl := { s.blk.srl with heat := s.blk.srl.heat.filter fun e => decide (e.1 / 8 ≠ w) } }) hreact
    have hblk : (s.upd (loseHeat w s.blk)).blk = _ := hq
    refine ⟨_, congrArg (fun b => Host.Outcome.next (s.upd b)) h, rfl, fun e => ?_, ?_, ?_⟩
    · rw [hblk]
      simp only [List.mem_filter, decide_eq_true_eq]
    · rw [hblk]
    · rw [hblk]
  case rebuilt =>
    obtain ⟨e, a, hdone⟩ := rebuildWritten_plain hwait hflat
    set b := writtenKept ((List.range 64).map (64 * w + ·)) s.blk with hb
    obtain ⟨t, ⟨hq, hports⟩, ht⟩ := raiseEv_quiet 0x51 allMask e a 7
      (b := { b with srl := { b.srl with rebuild := sdel (64 * w) b.srl.rebuild } }) hreact
    have hsrl : t.srl = { b.srl with rebuild := sdel (64 * w) b.srl.rebuild } ∧ t.ops = s.blk.ops ∧ t.ports = s.blk.ports := by
      obtain rfl | rfl := ht <;> exact ⟨rfl, rfl, rfl⟩
    obtain ⟨hsrl, hops, hsame⟩ := hsrl
    generalize raiseEv (fs .bitmapUe) 0x51 allMask e a 7 _ = u at hdone hq hports
    have husrl : u.srl = { b.srl with rebuild := sdel (64 * w) b.srl.rebuild } := by rw [hq]; exact hsrl
    have huops : u.ops = s.blk.ops := by rw [hq]; exact hops
    have hquiet : noWaiters (s.upd u) := by
      refine ⟨(congrArg Ops.descs huops).trans hdescs, fun p => ?_⟩
      have hport : u.ports[p] = { t.ports[p] with txEv := u.ports[p].txEv, evtSeq := u.ports[p].evtSeq } := hports p
      rw [State.upd_blk, hport, hsame]
      exact hwrites p
    have hexec : exec (.bitmapRebuildDone w) s = .next (s.upd u) :=
      congrArg Host.Outcome.next ((congrArg settle hdone).trans (settle_none hquiet))
    refine ⟨_, hexec, rfl, ?_, ?_, fun i hi => ?_⟩
    · rw [State.upd_blk, husrl]
      simp [sdel]
    · rw [State.upd_blk, husrl]
      rfl
    · have hbit : isWritten u (64 * w + i) = isWritten b (64 * w + i) := by
        simp only [isWritten, husrl]
      have hmem : 64 * w + i ∈ (List.range 64).map (64 * w + ·) := List.mem_map_of_mem (List.mem_range.mpr hi)
      rw [State.upd_blk, hbit, hb, isWritten_writtenKept, ← freed_false_iff]
      exact and_congr_right fun _ => ⟨fun h => h hmem, fun h _ => h⟩
  case prot =>
    obtain ⟨prot, hfold, hbits⟩ := protRebuilt ((List.range 64).map (64 * w + ·)) s.blk
    have hin : (!s.blk.srl.protRebuild.contains (64 * w)) = false := by rw [List.contains_iff_mem.mpr hwait]; rfl
    have hdone : rebuildProt w s.blk
        = { s.blk with srl := { s.blk.srl with prot, protRebuild := sdel (64 * w) s.blk.srl.protRebuild } } := by
      simp only [rebuildProt, hin, Bool.false_eq_true, if_false]
      generalize (List.range 64).map (64 * w + ·) = l at hfold ⊢
      exact congrArg (fun b : Block => { b with srl := { b.srl with protRebuild := sdel (64 * w) b.srl.protRebuild } }) hfold
    refine ⟨_, congrArg (fun b => Host.Outcome.next (s.upd b)) hdone, rfl, by simp [sdel], rfl, rfl, fun i hi => ?_⟩
    have hbit := hbits _ (List.mem_map_of_mem (List.mem_range.mpr hi))
    exact (Bool.eq_iff_iff.mp hbit).trans (ownedDouble_iff ..)

end

section
/-! SUPPORT. A descriptor that starts on an engine whose commit buffer holds a write that an upset has broken (R53, R57, R58). -/

namespace Sys2Proof.Machine

open Sys2Proof

/-- A FILL of line 0 of handle 1, queued. -/
def queuedFill : Desc :=
  { id := 4, port := 1, words := BitVec.ofNat 512 (2 + 9 <<< 13 + 1 <<< 23 + 1 <<< 96), st := .queued, inq := true }

/-- The stack in service with port 1 ACTIVE, engine 31 in RUN and one handle, whose segment is the first of channel 31. A write of
ENG_CTRL of engine 31 waits, with wrong parity. -/
def brokenHalt : State := { blk := {
  start := { pwrok := true, resetN := true, step := 15, done := true }, time := 5
  hnd := { table := [(1, { size := 1, attr := 0xFFFFF300 })] }
  srl := { map := [(2 ^ 21, { pseg := 31 * 65536 })], written := [31 * 65536] }
  ports := Vector.set (Vector.replicate 16 {}) 1 { st := .active }
  chans := Vector.set (Vector.replicate 32 {}) 31 { st := .run }
  engs := Vector.replicate 32 { st := .run }
  ops := { descs := [queuedFill], nextId := 5 }
  regs := { pend := [{ addr := engBase 31, value := 0, good := false }] } } }

/-- The start of the descriptor commits the engine's block, which drops the broken write and raises FS_CFG_PARITY: port 1 gets its
event. -/
theorem startDesc_brokenHalt : (startDesc 1 brokenHalt.blk).ports[(1 : PortId)].txEv.length = 1 := by decide +kernel

end Sys2Proof.Machine

open Sys2Proof Sys2Proof.Machine

/-- Refutes O44: the start of a piece is an action boundary of its engine, where the engine's block commits (R53); a pending write
whose parity an upset broke is dropped there and raises FS_CFG_PARITY (R57, R58), so that the ports do not stay as they are. -/
theorem not_descriptorsAcceptedAndStarted : ¬ Obligations.DescriptorsAcceptedAndStarted := by
  intro h
  obtain ⟨-, hstarts⟩ := h
  obtain ⟨-, hstart⟩ := hstarts 1 brokenHalt
  obtain ⟨t, hexec, -, -, -, -, -, hports, -⟩ := hstart queuedFill 0 { pseg := 31 * 65536 } (by decide +kernel) (by decide +kernel)
    (by decide +kernel) (by decide +kernel) (by decide +kernel) (by decide +kernel) rfl (by decide +kernel) (by decide +kernel)
    (by decide +kernel) (by decide +kernel) (by decide +kernel)
  have ht : t = brokenHalt.upd (startDesc 1 brokenHalt.blk) := (Host.Outcome.next.inj hexec).symm
  have hevents := startDesc_brokenHalt
  rw [show startDesc 1 brokenHalt.blk = t.blk by rw [ht, State.upd_blk], hports] at hevents
  exact absurd hevents (by decide +kernel)

end

section
/-! SUPPORT. Descriptors in the operation table, the fold at the lead engine and the completion collector (R353, R357, R391). -/

namespace Sys2Proof.Machine

open Sys2Proof

variable {b : Block} {id : Nat} {d : Desc}

/-! ### Descriptors -/

theorem descOf_id (h : descOf b id = some d) : d.id = id := by
  simpa using List.find?_some h

theorem descOf_mem (h : descOf b id = some d) : d ∈ b.ops.descs := List.mem_of_find?_eq_some h

/-- A changed descriptor is found under its number. -/
theorem descOf_modDesc {f : Desc → Desc} (h : descOf b id = some d) (hid : ∀ e, (f e).id = e.id) :
    descOf (modDesc id f b) id = some (f d) := by
  have hsame : ((fun e : Desc => e.id == id) ∘ fun e => if e.id = id then f e else e) = fun e => e.id == id := by
    funext e
    by_cases he : e.id = id <;> simp [he, hid]
  have hfind : b.ops.descs.find? (fun e => e.id == id) = some d := h
  simp only [descOf, modDesc, List.find?_map, hsame, hfind, Option.map_some, descOf_id h, if_true]

/-- Descriptors that are not waiting take no queue entry. -/
theorem admitDescs_none (h : ∀ e ∈ b.ops.descs, e.st ≠ .waiting) : admitDescs b = b :=
  foldl_fix _ _ _ fun e he => if_neg fun hnew => h e he hnew.1

/-! ### The fold at the lead engine -/

/-- An opcode of the architecture has no format entry of the owner. -/
theorem ownerFmt_none {op : Nat} (h : op < 0x80) (b : Block) : ownerFmt b op = none := by
  have hno : ownerOp op = false := by simp [ownerOp, Nat.not_le.mpr h]
  rw [ownerFmt, hno]
  rfl

/-- The result that goes with a completion (R353, R358, R360). -/
def foldWord (d : Desc) (ok : Word) : Word :=
  let off := fun (o : Option Nat) => match o with | some n => BitVec.ofNat 32 n | none => 0xFFFFFFFF
  match foldStatus d with
  | .ok => ok
  | .poison => off (leastOf (d.pieces.map (·.off)))
  | .accessError => off (leastOf (d.pieces.map (·.skip)))
  | _ => 0xFFFFFFFF

/-- A descriptor whose fold is done. -/
def folded (ok : Word) (d e : Desc) : Desc := { e with st := .done, status := foldStatus d, result := foldWord d ok }

/-- The port of a descriptor whose DATA slot goes with its fold. -/
def foldSent (d : Desc) (v : Line) (b : Block) : Block :=
  modPort d.port (sentLines [{ tag := d.tag, line := 0, poison := false, d := v, read := false }]) b

/-- The lead engine may fold: every piece has ended, and it runs (R362). -/
def mayFold (d : Desc) (b : Block) : Prop :=
  d.st = .running ∧ (∀ x ∈ d.pieces, x.st = .ended) ∧ (d.led = true → b.engs[eid d.lead].st = .run)

theorem mayFold_iff (d : Desc) (b : Block) :
    mayFold d b ↔ ¬ (d.st ≠ .running ∨ (d.pieces.any fun x => x.st != .ended) ∨ (d.led ∧ b.engs[eid d.lead].st ≠ .run)) := by
  simp [mayFold, -Fin.getElem_fin]

theorem leadFold_waits (h : descOf b id = some d) (hwait : ¬ mayFold d b) : leadFold id b = b := by
  simp only [leadFold, h]
  exact if_pos (not_not.mp fun hno => hwait ((mayFold_iff d b).mpr hno))

/-- A fold without a DATA slot. -/
theorem leadFold_quiet {ok : Word} (h : descOf b id = some d) (hmay : mayFold d b) (hres : foldResult d b = (none, ok, b)) :
    leadFold id b = modDesc id (folded ok d) b := by
  simp only [leadFold, h, if_neg ((mayFold_iff d b).mp hmay), hres]
  rfl

/-- A fold whose DATA slot goes. -/
theorem leadFold_sends {ok : Word} {v : Line} (h : descOf b id = some d) (hmay : mayFold d b)
    (hres : foldResult d b = (some v, ok, b)) (hok : foldStatus d = .ok) (hsends : b.ports[d.port].sends d.tag = true) :
    leadFold id b = modDesc id (folded ok d) (foldSent d v b) := by
  have hsent : sendData d.port { tag := d.tag, line := 0, poison := false, d := v, read := false } b = foldSent d v b := if_pos hsends
  have hfold : folded ok d = fun e => { e with st := .done, status := .ok, result := ok } := by
    funext e
    simp only [folded, foldWord, hok]
  simp only [leadFold, h, if_neg ((mayFold_iff d b).mp hmay), hres, hok, true_or, if_true, hfold]
  rw [show (Status.ok == Status.poison) = false from rfl, hsent]

/-- What the operations without a DATA slot give on OK (R353). -/
theorem foldResult_noSlot {w : BitVec 512} (hw : d.words = w)
    (hop : dOp w = 1 ∨ dOp w = 2 ∨ dOp w = 3 ∨ dOp w = 7 ∨ dOp w = 8) (b : Block) : foldResult d b = (none, 0xFFFFFFFF, b) := by
  subst hw
  obtain h | h | h | h | h := hop <;> simp [foldResult, h, ownerFmt_none]

/-! ### The completion collector -/

/-- The collector holds a descriptor's completion; it counts when it is full (R391). -/
def collected (d : Desc) (b : Block) : Block :=
  let c : Block := { b with ops := { b.ops with
    collSeq := b.ops.collSeq + 1, coll := b.ops.coll ++ [(d.port, opRecord d b.ops.collSeq b.time)] } }
  if c.ops.coll.length = 256 then ctrAdd (supBase + 0x18) 1 c else c

theorem collected_keeps (d : Desc) (b : Block) : (collected d b).ports = b.ports ∧ (collected d b).engs = b.engs
    ∧ (collected d b).ops = { b.ops with
        collSeq := b.ops.collSeq + 1, coll := b.ops.coll ++ [(d.port, opRecord d b.ops.collSeq b.time)] } := by
  unfold collected
  dsimp only
  split
  · exact ⟨rfl, rfl, rfl⟩
  · exact ⟨rfl, rfl, rfl⟩

/-- A completion that is accepted goes to the collector, and its descriptor is forgotten. -/
theorem collect_sent {engs : Vector Eng 32} (h : descOf b id = some d) (hdone : d.st = .done) (hroom : b.ops.coll.length < 256)
    (hsends : b.ports[d.port].sends d.tag = true) (hpost : postPiece id 0 5 [] b = { b with engs }) :
    collect id b = forgetDesc id (collected d { b with engs }) := by
  have hgo : ¬ (d.st ≠ .done ∨ b.ops.coll.length ≥ 256) := by
    simp only [hdone, ne_eq, not_true_eq_false, false_or, ge_iff_le, not_le]
    exact hroom
  simp only [collect, h, if_neg hgo, hpost, hsends, if_true]
  rfl

/-- A descriptor whose completion leaves, with none of its pieces running, is forgotten, and no other (R365, R373). -/
theorem forgetDesc_eq (hone : ∀ e ∈ b.ops.descs, e.id = id → e.pieces.any (fun x => x.st == .running) = false)
    (hwaits : ∀ e ∈ b.ops.descs, e.st ≠ .waiting) : ∃ l, forgetDesc id b = { b with ops := { b.ops with descs := l } }
      ∧ l.find? (fun e => e.id == id) = none ∧ ∀ e ∈ l, e ∈ b.ops.descs := by
  set l := (modDesc id (fun d => { d with st := .gone, inq := false }) b).ops.descs.filter fun d => !d.over with hl
  have hmem : ∀ e ∈ l, e ∈ b.ops.descs ∧ e.id ≠ id := fun e he => by
    obtain ⟨hmap, hover⟩ := List.mem_filter.mp he
    obtain ⟨f, hf, rfl⟩ := List.mem_map.mp hmap
    by_cases hid : f.id = id
    · rw [if_pos hid] at hover
      simp [Desc.over, hone f hf hid] at hover
    · rw [if_neg hid]
      exact ⟨hf, hid⟩
  refine ⟨l, ?_, ?_, fun e he => (hmem e he).1⟩
  · exact admitDescs_none fun e he => hwaits e (hmem e he).1
  · simpa using fun e he => (hmem e he).2

/-- An engine that an event has reached is the same but for its events. -/
theorem evq_modEng (e f : EngId) (l : List (Nat × Nat × List Byte)) (b : Block) :
    { (modEng e (fun y => { y with evq := y.evq ++ l }) b).engs[f] with evq := b.engs[f].evq } = b.engs[f] := by
  by_cases hf : f = e
  · subst hf
    rw [modEng_same]
  · rw [modEng_other (b := b) _ hf]

/-- An event for a piece changes the events of an engine at most (R383). -/
theorem postPiece_eq (id i ev : Nat) (line : List Byte) (b : Block) : ∃ engs, postPiece id i ev line b = { b with engs }
    ∧ ∀ e : EngId, { engs[e] with evq := b.engs[e].evq } = b.engs[e] := by
  unfold postPiece
  split
  · exact ⟨_, rfl, fun _ => rfl⟩
  · split
    · exact ⟨_, rfl, fun e => evq_modEng _ e _ b⟩
    · exact ⟨_, rfl, fun _ => rfl⟩

end Sys2Proof.Machine

open Sys2Proof Sys2Proof.Machine

/-- Settles O46: a fold has a DATA slot (`leadFold_sends`) or none (`leadFold_quiet`); a completion that is accepted leaves the table
(`collect_sent`, `forgetDesc_eq`), and the first record of the collector goes when its port has credits for it. -/
theorem leadFoldsAndCompletions : Obligations.LeadFoldsAndCompletions := by
  refine ⟨fun id d s hdesc hwait => ?waits, fun id d s hdesc hrun hended hled => ?folds,
    fun id d s hdesc hdone hone hwaits hroom hsends hpieces => ?accepts, fun p r rest s hcoll hready => ?sends, fun s hcoll => ?empty⟩
  case waits =>
    have hnot : ¬ mayFold d s.blk := fun ⟨hrun, hended, hled⟩ => by
      obtain h | ⟨x, hx, hst⟩ | ⟨h, hst⟩ := hwait
      · exact h hrun
      · exact hst (hended x hx)
      · exact hst (hled h)
    exact congrArg (fun b => Host.Outcome.next (s.upd b)) (leadFold_waits hdesc hnot)
  case folds =>
    intro ends
    have hmay : mayFold d s.blk := ⟨hrun, hended, hled⟩
    have hquiet (ok : Word) (res : Word → Prop) (hres : foldResult d s.blk = (none, ok, s.blk)) (hw : res (foldWord d ok)) :
        ends res [] := by
      refine ⟨_, _, congrArg (fun b => Host.Outcome.next (s.upd b)) (leadFold_quiet hdesc hmay hres), rfl,
        descOf_modDesc (f := folded ok d) hdesc (fun _ => rfl), hw, (List.append_nil _).symm, fun _ _ => rfl, rfl, rfl⟩
    have hslot (ok : Word) (v : Line) (res : Word → Prop) (hres : foldResult d s.blk = (some v, ok, s.blk)) (hok : foldStatus d = .ok)
        (hsends : s.blk.ports[d.port].sends d.tag = true) (hw : res ok) :
        ends res [{ tag := d.tag, line := 0, poison := false, d := v, read := false }] := by
      have hword : foldWord d ok = ok := by simp only [foldWord, hok]
      refine ⟨_, _, congrArg (fun b => Host.Outcome.next (s.upd b)) (leadFold_sends hdesc hmay hres hok hsends), rfl,
        descOf_modDesc (b := foldSent d v s.blk) (f := folded ok d) hdesc (fun _ => rfl), by rwa [hword], ?_, fun q hq => ?_, rfl, rfl⟩
      · exact congrArg Port.txData (modPort_same ..)
      · exact modPort_other _ _ hq
    have hok (h : foldStatus d = .ok) (w : Word) : foldWord d w = w := by simp only [foldWord, h]
    refine ⟨fun h => ⟨fun hop => ?_, fun hop => ?_, fun hop => ?_, fun hop hsends x hx => ?_, fun hop hsends x hx => ?_⟩,
      fun h hop hsends => ?_, fun h hop x n hx hn => ?_⟩
    · exact hquiet _ _ (foldResult_noSlot rfl hop _) (hok h _)
    · exact hquiet (foldDiff d) _ (by simp [foldResult, hop]) (hok h _)
    · exact hquiet (foldCrc s.blk d) _ (by simp [foldResult, hop]) (hok h _)
    · exact hslot _ _ _ (by simp [foldResult, hop, hx]) h hsends rfl
    · exact hslot _ _ _ (by simp [foldResult, hop, hx]) h hsends rfl
    · exact hslot _ _ _ (by simp [foldResult, hop]) h hsends rfl
    · refine hquiet _ _ (foldResult_noSlot rfl (.inl hop) _) ?_
      simp only [foldWord, h, hx, List.map_cons, List.map_nil, leastOf, List.foldl_cons, List.foldl_nil, hn, lowest]
  case accepts =>
    obtain ⟨engs, hpost, hevq⟩ := postPiece_eq id 0 5 [] s.blk
    obtain ⟨hports, hengs, hops⟩ := collected_keeps d { s.blk with engs }
    have hcollect := collect_sent hdesc hdone hroom hsends hpost
    generalize collected d { s.blk with engs } = c at hcollect hports hengs hops
    have hdescs : c.ops.descs = s.blk.ops.descs := by rw [hops]
    obtain ⟨l, hforget, hgone, hkept⟩ := forgetDesc_eq (b := c) (id := id)
      (fun e he hid => by rw [hone e (hdescs ▸ he) hid]; exact hpieces) (by rwa [hdescs])
    refine ⟨_, congrArg (fun b => Host.Outcome.next (s.upd b)) (hcollect.trans hforget), rfl, congrArg Ops.collSeq hops,
      congrArg Ops.coll hops, hgone, fun e he => hdescs ▸ hkept e he, hports, fun e => ?_⟩
    rw [State.upd_blk, hengs]
    exact hevq e
  case sends =>
    have htake : collTake s.blk [] s.blk.ops.coll = some ((p, r), rest) := by
      rw [hcoll, collTake, if_pos hready]
      rfl
    have hsend : collSend s.blk
        = modPort p (fun x => { x with txEv := x.txEv ++ [r] }) { s.blk with ops := { s.blk.ops with coll := rest } } := by
      simp only [collSend, htake]
    refine ⟨_, congrArg (fun b => Host.Outcome.next (s.upd b)) hsend, ⟨rfl, fun q hq => modPort_other _ _ hq, rfl, rfl⟩, rfl, ?_⟩
    exact modPort_same ..
  case empty =>
    have hsend : collSend s.blk = s.blk := by simp only [collSend, hcoll, collTake]
    exact congrArg (fun b => Host.Outcome.next (s.upd b)) hsend

end

section
/-! SUPPORT. The operation queue commands (R371 to R373, R377). -/

namespace Sys2Proof.Machine

open Sys2Proof

variable {path : Path} {b u : Block} {s : State} {h : Nat}

/-! ### A write of SUP_OPQ_CMD -/

/-- SUP_OPQ_CMD keeps the code of a go. -/
def opqKept (op : Nat) (b : Block) : Block := setLive (supBase + 0x600) (goWord op &&& rwMask (supBase + 0x600)) b

@[simp] theorem answered_ops (path : Path) (k : Nat) (st : Status) (t : State) : (answered path k st t).blk.ops = t.blk.ops :=
  respond_ops _ _ _ _ _
@[simp] theorem answered_chans (path : Path) (k : Nat) (st : Status) (t : State) : (answered path k st t).blk.chans = t.blk.chans :=
  respond_chans _ _ _ _ _
@[simp] theorem answered_engs (path : Path) (k : Nat) (st : Status) (t : State) : (answered path k st t).blk.engs = t.blk.engs :=
  respond_engs _ _ _ _ _

theorem put_opqCmd (op : BitVec 3) (hw : takesWrites path s) (hstart : (opqCommand op.toNat (opqKept op.toNat s.blk)).start = s.blk.start) :
    opqGo path op.toNat s = answered path (supBase + 0x600) .ok (s.upd (opqCommand op.toNat (opqKept op.toNat s.blk))) := by
  obtain ⟨-, -, -, -, hgood⟩ := id hw
  obtain ⟨hgo, hop⟩ := goWord_fields op
  have hblock : writeBlock path (supBase + 0x600) (goWord op.toNat) s.blk = supWrite 0x600 (goWord op.toNat) s.blk := rfl
  have hwrite : supWrite 0x600 (goWord op.toNat) s.blk = (.ok, opqCommand op.toNat (opqKept op.toNat s.blk)) := by
    simp [supWrite, storeNow, hgo, hop, opqKept, -BitVec.getLsbD_eq_getElem]
  have hlive := writeLive_block (path := path) (last := none) (a := supBase + 0x600) (data := goWord op.toNat) hgood
    (fun _ => by decide) (by decide) (by decide) (by decide) (by decide) (by decide) (by decide)
  rw [hblock, hwrite] at hlive
  exact put_live hw (by decide) (by decide) (by decide) (by decide) (lockedReg_out _ (by decide)) hlive
    (by rw [State.upd_blk, hstart]; exact takesWrites_step hw)

/-! ### What a command does -/

/-- The status of a queue command (R377). -/
def opqVerdict (op h : Nat) (b : Block) : Status :=
  if (handleSize b h).isNone then .noHandle
  else if h = 0 then .accessError
  else if op ≠ 4 ∧ (mfind b.ops.halts h).isNone then .badArg
  else .ok

/-- What a queue command that is not refused changes. -/
def opqEffect (op h : Nat) (b : Block) : Block :=
  if op = 1 then resumeQueue h b else if op = 2 then cancelQueue false h b else if op = 3 then cancelQueue true h b else b

/-- The end of a queue command loads SUP_OPQ_STAT and SUP_OPQ_RESULT (R377). -/
def opqEnded (op h : Nat) (st : Status) (b : Block) : Block := opqFinish op h st { b with ops := { b.ops with stat := opqStat b h } }

theorem opqCommand_refused {op : Nat} {st : Status} (hop : op = 1 ∨ op = 2 ∨ op = 3 ∨ op = 4)
    (hst : opqVerdict op (rwf (supBase + 0x604) 11 0 b) b = st) (hne : st ≠ .ok) :
    opqCommand op b = opqEnded op (rwf (supBase + 0x604) 11 0 b) st b := by
  have hknown : ¬ (op = 0 ∨ op ≥ 5) := by omega
  rw [opqCommand, if_neg hknown]
  exact congrArg₂ (opqEnded op _) hst (if_pos fun h => hne (hst.symm.trans h))

theorem opqCommand_done {op : Nat} (hop : op = 1 ∨ op = 2 ∨ op = 3 ∨ op = 4)
    (hst : opqVerdict op (rwf (supBase + 0x604) 11 0 b) b = .ok) :
    opqCommand op b = opqEnded op (rwf (supBase + 0x604) 11 0 b) .ok (opqEffect op (rwf (supBase + 0x604) 11 0 b) b) := by
  have hknown : ¬ (op = 0 ∨ op ≥ 5) := by omega
  rw [opqCommand, if_neg hknown]
  exact congrArg₂ (opqEnded op _) hst (if_neg fun hne => hne hst)

theorem opqVerdict_noHandle {op : Nat} (hnone : handleSize b h = none) : opqVerdict op h b = .noHandle := by
  simp [opqVerdict, hnone]

theorem opqVerdict_zero {op : Nat} (hsome : (handleSize b h).isSome = true) (hzero : h = 0) : opqVerdict op h b = .accessError := by
  obtain ⟨n, hn⟩ := Option.isSome_iff_exists.mp hsome
  simp [opqVerdict, hzero ▸ hn, hzero]

section Known
variable (hsome : (handleSize b h).isSome = true) (hzero : h ≠ 0)
include hsome hzero

theorem opqVerdict_runs {op : Nat} (hop : op ≠ 4) (hnone : mfind b.ops.halts h = none) : opqVerdict op h b = .badArg := by
  obtain ⟨n, hn⟩ := Option.isSome_iff_exists.mp hsome
  simp [opqVerdict, hn, hzero, hop, hnone]

theorem opqVerdict_query : opqVerdict 4 h b = .ok := by
  obtain ⟨n, hn⟩ := Option.isSome_iff_exists.mp hsome
  simp [opqVerdict, hn, hzero]

theorem opqVerdict_halted {op : Nat} (hhalt : (mfind b.ops.halts h).isSome = true) : opqVerdict op h b = .ok := by
  obtain ⟨n, hn⟩ := Option.isSome_iff_exists.mp hsome
  obtain ⟨x, hx⟩ := Option.isSome_iff_exists.mp hhalt
  simp [opqVerdict, hn, hzero, hx]

end Known

/-! ### A halted queue with nothing at work -/

/-- No piece runs or is on its way to an engine, and no engine has a piece in its queue. -/
def piecesRest (b : Block) : Prop :=
  (∀ d ∈ b.ops.descs, ∀ x ∈ d.pieces, x.st ≠ .running ∧ x.st ≠ .waiting) ∧ ∀ e : EngId, b.engs[e].queue = []

theorem kickAll_rest (hrest : piecesRest b) : kickAll b = b := by
  obtain ⟨hpieces, hqueue⟩ := hrest
  refine foldl_fix _ _ _ fun e _ => kickEngine_none (waitingPiece_none (fun d hd x hx => (hpieces d hd x hx).2) e) ?_
  rw [nextPiece, hqueue]
  rfl

/-- A queue whose halt has ended. -/
def unhalted (h : Nat) (b : Block) : Block := { b with ops := { b.ops with halts := mdel b.ops.halts h } }

/-- A queue without stopped descriptors goes on as it was, but for its halt (R372). -/
theorem resumeQueue_rest (hrest : piecesRest b) (hdescs : ∀ d ∈ b.ops.descs, d.st ≠ .running ∧ d.st ≠ .stopped)
    (hmigs : b.srl.migs = []) : resumeQueue h b = unhalted h b := by
  have hkept : b.ops.descs.map (restartDesc h) = b.ops.descs := by
    refine (List.map_congr_left fun d hd => ?_).trans (List.map_id _)
    exact if_neg fun hstop => (hdescs d hd).2 hstop.2
  have hsrl : { b.srl with migs := [] } = b.srl := by rw [← hmigs]
  have hdispatch (c : Block) (hc : c.ops.descs = b.ops.descs) (id : Nat) : dispatchDesc id c = c := by
    unfold dispatchDesc
    split
    · rfl
    next d hd => exact if_pos (hdescs d (hc ▸ descOf_mem hd)).1
  simp only [resumeQueue, hkept, hmigs, List.map_nil, hsrl, dispatchAll]
  rw [foldl_fix _ _ _ fun id _ => hdispatch _ (by rfl) id]
  exact kickAll_rest hrest

theorem finishDesc_twice (st : Status) (d : Desc) : finishDesc st (finishDesc st d) = finishDesc st d := by
  simp only [finishDesc, List.map_map, Desc.mk.injEq, true_and, and_true]
  refine List.map_congr_left fun x _ => ?_
  by_cases hx : x.st = .running <;> simp [hx]

/-- The descriptors with the numbers of a list have their completion's status fixed (R373). -/
def finishAll (st : Status) (l : List Nat) (b : Block) : Block :=
  { b with ops := { b.ops with descs := b.ops.descs.map fun d => if d.id ∈ l then finishDesc st d else d } }

theorem foldl_finishDesc (st : Status) (l : List Desc) (b : Block) :
    l.foldl (fun b d => modDesc d.id (finishDesc st) b) b = finishAll st (l.map (·.id)) b := by
  induction l generalizing b with
  | nil => simp [finishAll]
  | cons d l ih =>
    rw [List.foldl_cons, ih]
    have hone (e : Desc) : (if (if e.id = d.id then finishDesc st e else e).id ∈ l.map (·.id)
          then finishDesc st (if e.id = d.id then finishDesc st e else e) else (if e.id = d.id then finishDesc st e else e))
        = if e.id ∈ (d :: l).map (·.id) then finishDesc st e else e := by
      have hid : (finishDesc st e).id = e.id := rfl
      by_cases he : e.id = d.id
      · simp only [he, if_true, hid, List.map_cons, List.mem_cons, true_or, finishDesc_twice, ite_self]
      · simp only [he, if_false, List.map_cons, List.mem_cons, false_or]
    simp only [finishAll, modDesc, List.map_map]
    congr 3
    funext e
    exact hone e

/-- The cancelled descriptors of a queue at rest have their completions fixed; nothing else changes (R373). -/
theorem haltDescs_rest (f : Desc → Bool) (hrest : piecesRest b) (hwait : ∀ d ∈ b.ops.descs, d.st ≠ .waiting) :
    haltDescs f b = finishAll .haltedUe ((b.ops.descs.filter f).map (·.id)) b := by
  obtain ⟨hpieces, hqueue⟩ := hrest
  have hfold := List.foldl_ext (l := b.ops.descs.filter f) (a := b)
    (fun (b : Block) d =>
      let b := if d.st = .waiting then returnCredit d.port 3 1 (d.tag / 1024) b else b
      let b := d.pieces.zipIdx.foldl (fun b x => if x.1.st = .running then postPiece d.id x.2 30 [] b else b) b
      modDesc d.id (finishDesc .haltedUe) b) (fun b d => modDesc d.id (finishDesc .haltedUe) b)
    fun c d hd => by
      have hmem : d ∈ b.ops.descs := List.mem_of_mem_filter hd
      simp only [hwait d hmem, if_false]
      rw [foldl_fix _ _ _ fun x hx => if_neg (hpieces d hmem x.1 (List.fst_mem_of_mem_zipIdx hx)).1]
  have hengs : (finishAll .haltedUe ((b.ops.descs.filter f).map (·.id)) b).engs.map (fun x => { x with
      queue := x.queue.filter fun q => !((b.ops.descs.filter f).map (·.id)).contains q.1 }) = b.engs := by
    refine Vector.ext fun i hi => ?_
    have hnone : (b.engs[i]).queue = [] := hqueue ⟨i, hi⟩
    simp only [Vector.getElem_map]
    rw [show (finishAll .haltedUe ((b.ops.descs.filter f).map (·.id)) b).engs = b.engs from rfl, hnone, List.filter_nil, ← hnone]
  unfold haltDescs
  dsimp only at hfold ⊢
  rw [hfold, foldl_finishDesc, hengs]
  rfl

/-- What CANCEL, and with `all` CANCEL_ALL, ends of the queue of a handle (R373, R394). -/
def cancels (all : Bool) (h : Nat) (d : Desc) : Bool :=
  d.inq && descHandle d.words == h && (d.st == .stopped || d.st == .done || (all && d.st == .queued))

/-- The descriptors of a queue that a cancel ends have ended. -/
def cancelled (all : Bool) (h : Nat) (b : Block) : Block :=
  unhalted h (finishAll .haltedUe ((b.ops.descs.filter (cancels all h)).map (·.id)) b)

/-- CANCEL and CANCEL_ALL of a queue at rest (R373, R394). -/
theorem cancelQueue_rest (all : Bool) (hrest : piecesRest b) (hwait : ∀ d ∈ b.ops.descs, d.st ≠ .waiting) (hmigs : b.srl.migs = []) :
    cancelQueue all h b = cancelled all h b := by
  have hcancel : cancelQueue all h b = kickAll (unhalted h
      ((haltedMigs (haltDescs (cancels all h) b) h).foldl (fun b m => renewEvac m (abortCopy m b)) (haltDescs (cancels all h) b))) := rfl
  rw [haltDescs_rest (cancels all h) hrest hwait] at hcancel
  generalize hids : (b.ops.descs.filter (cancels all h)).map (·.id) = ids at hcancel
  have hnone : haltedMigs (finishAll .haltedUe ids b) h = [] := by
    rw [haltedMigs, show (finishAll .haltedUe ids b).srl.migs = b.srl.migs from rfl, hmigs]
    rfl
  rw [hcancel, hnone, List.foldl_nil, cancelled, hids]
  refine kickAll_rest ⟨fun d hd x hx => ?_, hrest.2⟩
  obtain ⟨e, he, rfl⟩ := List.mem_map.mp hd
  by_cases hid : e.id ∈ ids
  · rw [if_pos hid] at hx
    obtain ⟨y, hy, rfl⟩ := List.mem_map.mp hx
    rw [if_neg (hrest.1 e he y hy).1]
    exact ⟨PcState.noConfusion, PcState.noConfusion⟩
  · rw [if_neg hid] at hx
    exact hrest.1 e he x hx

/-- A descriptor that a cancel ends has HALTED_UE as its completion. -/
theorem cancelled_ends {all : Bool} {d : Desc} (hd : d ∈ b.ops.descs) (hends : cancels all h d = true) :
    finishDesc .haltedUe d ∈ (cancelled all h b).ops.descs := by
  refine List.mem_map.mpr ⟨d, hd, if_pos ?_⟩
  exact List.mem_map_of_mem (List.mem_filter.mpr ⟨hd, hends⟩)

theorem opqEnded_unhalted (op : Nat) (st : Status) (b : Block) : mfind (opqEnded op h st (unhalted h b)).ops.halts h = none :=
  mfind_mdel_same b.ops.halts h

/-! ### The answers -/

/-- The command `c` is answered OK and has ended with the code `op` and the status `st`, and `k` holds of the state it leaves. -/
def opqAnswers (s : State) (c : Instr) (op : Nat) (st : Status) (k : State → Prop) : Prop :=
  ∃ t, exec c s = .next t ∧ t.mem = s.mem ∧ t.blk.resp = .ok ∧ t.blk.ops.seq = s.blk.ops.seq + 1
    ∧ t.blk.ops.resOp = BitVec.ofNat 3 op ∧ t.blk.ops.resStatus = st ∧ t.blk.ports = s.blk.ports ∧ t.blk.chans = s.blk.chans ∧ k t

/-- A block as a queue command has left it, up to the operation queues and the engines. -/
structure OpqKept (b u : Block) : Prop where
  start : u.start = b.start
  seq : u.ops.seq = b.ops.seq
  ports : u.ports = b.ports
  chans : u.chans = b.chans

/-- A queue command that is not refused by the write's checks ends as `opqCommand` says. -/
theorem opq_answers {c : Instr} {op : BitVec 3} {st : Status} {k : State → Prop} (hw : takesWrites path s)
    (hexec : exec c s = .next (opqGo path op.toNat s)) (hcmd : opqCommand op.toNat (opqKept op.toNat s.blk) = opqFinish op.toNat h st u)
    (hu : OpqKept s.blk u) (hk : ∀ t : State, t.blk.ops = (opqFinish op.toNat h st u).ops → t.blk.engs = u.engs → k t) :
    opqAnswers s c op.toNat st k := by
  have hput := put_opqCmd op hw (by rw [hcmd]; exact hu.start)
  rw [hcmd] at hput
  have hops := answered_ops path (supBase + 0x600) .ok (s.upd (opqFinish op.toNat h st u))
  refine ⟨_, hexec.trans (congrArg Host.Outcome.next hput), rfl, answered_resp, ?_, ?_, ?_, answered_ports.trans hu.ports,
    (answered_chans ..).trans hu.chans, hk _ hops (answered_engs ..)⟩ <;> rw [hops]
  · exact congrArg (· + 1) hu.seq
  · rfl
  · rfl

/-- SUP_OPQ_ARG is what it was before the go. -/
theorem opqArg_kept (op : Nat) (b : Block) : rwf (supBase + 0x604) 11 0 (opqKept op b) = rwf (supBase + 0x604) 11 0 b := by
  rw [rwf, opqKept, rw_setLive_other _ (by decide)]
  rfl

section Answers
variable {c : Instr} {op : BitVec 3} {k : State → Prop} (hw : takesWrites path s) (harg : rwf (supBase + 0x604) 11 0 s.blk = h)
  (hexec : exec c s = .next (opqGo path op.toNat s)) (hop : op.toNat = 1 ∨ op.toNat = 2 ∨ op.toNat = 3 ∨ op.toNat = 4)
include hw harg hexec hop

/-- A refused queue command loads its result and SUP_OPQ_STAT alone. -/
theorem opq_refused {st : Status} (hst : opqVerdict op.toNat h s.blk = st) (hne : st ≠ .ok) : opqAnswers s c op.toNat st fun t =>
    t.blk.ops.descs = s.blk.ops.descs ∧ t.blk.ops.halts = s.blk.ops.halts ∧ t.blk.ops.resHandle = BitVec.ofNat 12 h
      ∧ t.blk.engs = s.blk.engs := by
  have hcmd := opqCommand_refused (b := opqKept op.toNat s.blk) hop (by rw [opqArg_kept, harg]; exact hst) hne
  rw [opqArg_kept, harg] at hcmd
  refine opq_answers hw hexec hcmd ⟨rfl, rfl, rfl, rfl⟩ fun t hops hengs => ?_
  rw [hops]
  exact ⟨rfl, rfl, rfl, hengs⟩

/-- A queue command that is not refused. -/
theorem opq_done (hst : opqVerdict op.toNat h s.blk = .ok) {u : Block} (heffect : opqEffect op.toNat h (opqKept op.toNat s.blk) = u)
    (hu : OpqKept s.blk u) (hk : ∀ t : State, t.blk.ops = (opqEnded op.toNat h .ok u).ops → t.blk.engs = u.engs → k t) :
    opqAnswers s c op.toNat .ok k := by
  have hcmd := opqCommand_done (b := opqKept op.toNat s.blk) hop (by rw [opqArg_kept, harg]; exact hst)
  rw [opqArg_kept, harg, heffect] at hcmd
  exact opq_answers hw hexec hcmd ⟨hu.start, hu.seq, hu.ports, hu.chans⟩ hk

end Answers

end Sys2Proof.Machine

open Sys2Proof Sys2Proof.Machine

/-- Settles O47: each command is a write of SUP_OPQ_CMD (`opq_answers`); what its checks refuse is `opq_refused`, and of a halted
queue with nothing at work a resume and a cancel end the halt (`resumeQueue_rest`, `cancelQueue_rest`). -/
theorem queueCommands : Obligations.QueueCommands := by
  intro path s hw h ended kept commands
  have hcommands (c : Instr × Nat) (hc : c ∈ commands) : ∃ op : BitVec 3, op.toNat = c.2
      ∧ (op.toNat = 1 ∨ op.toNat = 2 ∨ op.toNat = 3 ∨ op.toNat = 4) ∧ exec c.1 s = .next (opqGo path op.toNat s) := by
    simp only [commands, List.mem_cons, List.not_mem_nil, or_false] at hc
    obtain rfl | rfl | rfl | rfl := hc
    · exact ⟨1, rfl, .inl rfl, rfl⟩
    · exact ⟨2, rfl, .inr (.inl rfl), rfl⟩
    · exact ⟨3, rfl, .inr (.inr (.inl rfl)), rfl⟩
    · exact ⟨4, rfl, .inr (.inr (.inr rfl)), rfl⟩
  refine ⟨fun c hc => ?refused, fun hzero hsome => ⟨?query, fun hnone => ?runs, fun hhalt hmigs hdescs hqueue => ?halted⟩,
    fun op hop => ?invalid⟩
  case refused =>
    obtain ⟨op, hcode, hop, hexec⟩ := hcommands c hc
    rw [← hcode]
    exact ⟨fun hnone => opq_refused hw rfl hexec hop (opqVerdict_noHandle hnone) (by decide),
      fun hsome hzero => opq_refused hw rfl hexec hop (opqVerdict_zero hsome hzero) (by decide)⟩
  case query =>
    refine opq_done (op := 4) hw rfl rfl (by decide) (opqVerdict_query hsome hzero) rfl ⟨rfl, rfl, rfl, rfl⟩ fun t hops hengs => ?_
    simp only [kept, hops]
    exact ⟨⟨rfl, rfl, rfl, hengs⟩, rfl⟩
  case runs =>
    exact ⟨opq_refused (op := 1) hw rfl rfl (by decide) (opqVerdict_runs hsome hzero (by decide) hnone) (by decide),
      opq_refused (op := 2) hw rfl rfl (by decide) (opqVerdict_runs hsome hzero (by decide) hnone) (by decide),
      opq_refused (op := 3) hw rfl rfl (by decide) (opqVerdict_runs hsome hzero (by decide) hnone) (by decide)⟩
  case halted =>
    have hrest (op : Nat) : piecesRest (opqKept op s.blk) := by
      refine ⟨fun d hd x hx => ?_, hqueue⟩
      obtain ⟨-, -, hpieces⟩ := hdescs d hd
      obtain ⟨hrun, hwait, -⟩ := hpieces x hx
      exact ⟨hrun, hwait⟩
    refine ⟨fun hstopped => ?resume, fun c op hc => ?cancel⟩
    case resume =>
      refine opq_done (op := 1) hw rfl rfl (by decide) (opqVerdict_halted hsome hzero hhalt)
        ((if_pos rfl).trans (resumeQueue_rest (hrest 1) (fun d hd => ⟨(hdescs d hd).2.1, hstopped d hd⟩) hmigs)) ⟨rfl, rfl, rfl, rfl⟩ fun t hops _ => ?_
      rw [hops]
      exact ⟨opqEnded_unhalted .., rfl⟩
    case cancel =>
      have hended (all : Bool) (op : BitVec 3)
          (heffect : opqEffect op.toNat h (opqKept op.toNat s.blk) = cancelled all h (opqKept op.toNat s.blk))
          (hop : op.toNat = 1 ∨ op.toNat = 2 ∨ op.toNat = 3 ∨ op.toNat = 4) (hall : all = true ↔ op.toNat = 3)
          (hexec : exec c s = .next (opqGo path op.toNat s)) : ended c op.toNat .ok fun t =>
            mfind t.blk.ops.halts h = none ∧ (∀ d ∈ s.blk.ops.descs, d.inq = true → descHandle d.words = h →
              (d.st = .stopped ∨ d.st = .done ∨ (op.toNat = 3 ∧ d.st = .queued)) → ∃ e ∈ t.blk.ops.descs, e.id = d.id ∧ e.words = d.words
                ∧ e.st = .done ∧ e.status = .haltedUe ∧ e.result = 0xFFFFFFFF) := by
        refine opq_done hw rfl hexec hop (opqVerdict_halted hsome hzero hhalt) heffect ⟨rfl, rfl, rfl, rfl⟩ fun t hops _ => ?_
        rw [hops]
        refine ⟨opqEnded_unhalted .., fun d hd hinq hhandle hst => ⟨finishDesc .haltedUe d, ?_, rfl, rfl, rfl, rfl, rfl⟩⟩
        have hcancels : cancels all h d = true := by
          rw [← hall] at hst
          simp only [cancels, hinq, hhandle, beq_self_eq_true, Bool.and_self, Bool.true_and, Bool.or_eq_true, Bool.and_eq_true,
            beq_iff_eq, or_assoc]
          exact hst
        exact cancelled_ends (b := opqKept op.toNat s.blk) hd hcancels
      have hcancel (all : Bool) (op : Nat) : cancelQueue all h (opqKept op s.blk) = cancelled all h (opqKept op s.blk) :=
        cancelQueue_rest all (hrest op) (fun d hd => (hdescs d hd).1) hmigs
      obtain hc | hc := hc <;> obtain ⟨rfl, rfl⟩ := Prod.mk.inj hc
      · exact hended false 2 ((if_neg (by decide)).trans ((if_pos rfl).trans (hcancel false 2))) (by decide) (by decide) rfl
      · exact hended true 3 ((if_neg (by decide)).trans ((if_neg (by decide)).trans ((if_pos rfl).trans (hcancel true 3)))) (by decide)
          (by decide) rfl
  case invalid =>
    have hexec : exec (.opqCmdInvalid path op) s = .next (opqGo path op.toNat s) := congrArg Host.Outcome.next (if_pos hop)
    have hnone : op.toNat = 0 ∨ op.toNat ≥ 5 := hop.imp_left (congrArg BitVec.toNat)
    refine opq_answers hw hexec (if_pos hnone) ⟨rfl, rfl, rfl, rfl⟩ fun t hops _ => ?_
    rw [hops]
    exact ⟨rfl, rfl⟩

end

section
/-! SUPPORT. Channel engines: their register block, traps, and reloads (R385 to R389, R396). -/

namespace Sys2Proof.Machine

open Sys2Proof

variable {b t u : Block} {e : EngId} {s : State}

theorem eid_val (e : EngId) : eid e.val = e := Fin.ext (Nat.mod_eq_of_lt e.isLt)

/-! ### An engine's register block -/

theorem engBase_cases (e : EngId) : isEng (engBase e.val) = true ∧ isLnk (engBase e.val) = false ∧ isChn (engBase e.val) = false
    ∧ engBase e.val ≠ clkBase ∧ engBase e.val ≠ pwrBase ∧ engBase e.val ≠ srlBase ∧ engBase e.val ≠ savBase
    ∧ engBase e.val ≠ twpBase := by
  revert e; decide

theorem engBase_range (e : EngId) : 0x60000 ≤ engBase e.val ∧ engBase e.val < 0x80000 ∧ engBase e.val % 0x1000 = 0 := by
  revert e; decide

theorem commitAt_eng (e : EngId) (b : Block) : commitAt (engBase e.val) b = commitEng e.val b := by
  obtain ⟨heng, hlnk, -, hclk, hpwr, hsrl, hsav, -⟩ := engBase_cases e
  simp [commitAt, heng, hlnk, hclk, hpwr, hsrl, hsav, engOf_eng]

theorem commitEng_none (h : pendingAt (engBase e.val) b = false) : commitEng e.val b = b :=
  if_neg (ne_true_of_eq_false h)

theorem atOnceNow_eng (h : b.engs[e].st ≠ .run) : atOnceNow (engBase e.val) b = true := by
  obtain ⟨heng, hlnk, hchn, hclk, hpwr, -, -, htwp⟩ := engBase_cases e
  simp [atOnceNow, heng, hlnk, hchn, hclk, hpwr, htwp, engOf_eng, eid_val, h, -Fin.getElem_fin]

theorem modEng_fixed {f : Eng → Eng} (h : f b.engs[e] = b.engs[e]) : modEng e f b = b := by
  unfold modEng
  rw [h]
  simp

theorem modEng_modEng (f g : Eng → Eng) (b : Block) : modEng e g (modEng e f b) = modEng e (fun x => g (f x)) b := by
  simp [modEng]

/-- An engine that neither runs nor is held stays as it is, whatever its halt bit says (R396). -/
theorem holdOrRun_loading (hrun : b.engs[e].st ≠ .run) (hheld : b.engs[e].st ≠ .held) : holdOrRun e.val b = b := by
  have hfixed : modEng e holdEngine b = b := modEng_fixed (if_neg (by simpa using hrun))
  unfold holdOrRun
  simp only [eid_val, hheld, if_false, hfixed, ite_self]

/-- A write of ENG_CTRL of an engine that is not running is live at once (R53). -/
theorem buffer_engCtrl {v : Word} (hrun : b.engs[e].st ≠ .run) (hheld : b.engs[e].st ≠ .held)
    (hpend : pendingAt (engBase e.val) b = false) : buffer (engBase e.val + 0) v b = setLive (engBase e.val + 0) v b := by
  obtain ⟨-, -, -, hclk, hpwr, -⟩ := engBase_cases e
  have hbase : baseOf (engBase e.val + 0) = engBase e.val := baseOf_add (engBase_mod _) (by decide)
  have hnow : atOnceNow (engBase e.val) (bufferWrite (engBase e.val + 0) v b) = true := atOnceNow_eng hrun
  have htake := takePend_bufferWrite (a := engBase e.val + 0) v (by rwa [hbase])
  have hpending : pendingAt (engBase e.val) (bufferWrite (engBase e.val + 0) v b) = true := by
    simp only [pendingAt, bufferWrite, List.any_append, List.any_cons, hbase, beq_self_eq_true, Bool.true_or, Bool.or_true]
  rw [hbase] at htake
  have hplain : commitPlain (engBase e.val) (bufferWrite (engBase e.val + 0) v b) = setLive (engBase e.val + 0) v b := by
    rw [commitPlain, htake]
    rfl
  unfold buffer commitNow
  rw [hbase, hnow, commitAt_eng, commitEng, if_pos hpending, hplain]
  simp only [Bool.not_true, Bool.false_eq_true, if_false, hclk, hpwr, or_self]
  exact holdOrRun_loading hrun hheld

theorem engCtrl_reg (e : EngId) : regAt (engBase e.val + 0) = some (.rw 1 0) := regAt_eng e (by decide) (by decide)

theorem writeBlock_engCtrl (path : Path) (e : EngId) (data : Word) (b : Block) :
    writeBlock path (engBase e.val + 0) data b = engRegWrite e.val 0 data b := by
  obtain ⟨heng, hlnk, hchn, hclk, hpwr, hsrl, hsav, htwp⟩ := engBase_cases e
  have hbase : baseOf (engBase e.val + 0) = engBase e.val := baseOf_add (engBase_mod _) (by decide)
  have hne : engBase e.val ≠ 0 ∧ engBase e.val ≠ sageBase ∧ engBase e.val ≠ thmBase ∧ engBase e.val ≠ otpBase
      ∧ engBase e.val ≠ bstBase ∧ engBase e.val ≠ calBase ∧ engBase e.val ≠ hndBase := by
    revert e; decide
  obtain ⟨h0, hsage, hthm, hotp, hbst, hcal, hhnd⟩ := hne
  simp only [writeBlock, hbase, h0, hsage, hthm, hotp, hbst, htwp, hcal, hhnd, hsrl, hsav, hlnk, hchn, heng, if_false, if_true,
    Bool.false_eq_true, engOf_eng, Nat.add_sub_cancel_left]

/-- A write of ENG_CTRL over a path: the effect of its block. -/
theorem put_engCtrl {path : Path} {data : Word} {st : Status} (hw : takesWrites path s) (hchive : s.blk.start.chive = false)
    (hwrite : engRegWrite e.val 0 data s.blk = (st, t)) (hstart : t.start = s.blk.start) :
    put path (engBase e.val) 0 data s = answered path (engBase e.val + 0) st (s.upd t) := by
  obtain ⟨-, -, -, -, hgood⟩ := id hw
  obtain ⟨-, -, -, hclk, hpwr, -⟩ := engBase_cases e
  have hbase : baseOf (engBase e.val + 0) = engBase e.val := baseOf_add (engBase_mod _) (by decide)
  have hopen : s.blk.inChive = false := by rw [Block.inChive, hchive, Bool.and_false]
  obtain ⟨hlow, hhigh, hmod⟩ := engBase_range e
  unfold clkBase at hclk
  unfold pwrBase at hpwr
  have hlive := writeLive_block (path := path) (last := none) (a := engBase e.val + 0) (data := data) hgood
    (fun h => absurd (hopen.symm.trans h) (by decide)) (by rw [engCtrl_reg]; decide) (by omega) (by omega) (by omega)
    (by rw [hbase]; exact hpwr) (by rw [hbase]; exact hclk)
  rw [writeBlock_engCtrl, hwrite] at hlive
  exact put_live hw (by omega) (by omega) (by omega) (by rw [engCtrl_reg]; rfl) (lockedReg_out _ (by omega)) hlive
    (by rw [State.upd_blk, hstart]; exact takesWrites_step hw)

/-! ### ENG_CTRL.reload (R389) -/

/-- An engine that is loaded again, with a new window of traps. -/
def loadedAgain (x : Eng) : Eng := { x with st := .loading, traps := [] }

theorem engRegWrite_refused {data : Word} (hgo : data.getLsbD 1 = true)
    (h : b.engs[e].st ≠ .halted ∨ engTested b e.val = true) : engRegWrite e.val 0 data b = (.badArg, b) := by
  have hreload : reloadEngine e.val b = (.badArg, b) := if_pos (by simpa only [eid_val] using h)
  simp only [engRegWrite, hgo, if_true, hreload, reduceCtorEq, if_false]

/-- A copy of an engine goes back to its first line (R388). -/
def copyRewound (e : Nat) (m : Mig) : Mig := if segChan m.src = e ∧ m.stage = .copy then { m with copied := 0 } else m

/-- The pieces, the copies and the soft row repair of an engine go back to their first line. -/
def workRewound (e : Nat) (b : Block) : Block :=
  modChan (cid e) (fun x => { x with softRun := x.softRun.map fun r => { r with copied := 0 } }) { b with
    ops := { b.ops with descs := b.ops.descs.map fun d => { d with
      pieces := d.pieces.map fun x => if x.eng = e ∧ x.st = .running then rewindPiece b d.words x else x } }
    srl := { b.srl with migs := b.srl.migs.map (copyRewound e) } }

/-- The contexts of an engine begin anew, and no event waits for them. -/
def ctxRewound (c : Block) (x : Eng) : Eng := { x with evq := [], ctx := x.ctx.map fun k => startCtx c k.work k.table }

theorem rewindWork_eq (e : Nat) (b : Block) : rewindWork e b = modEng (eid e) (ctxRewound (workRewound e b))
    (modChan (cid e) (fun x => { x with dillLine := 0 }) (workRewound e b)) := rfl

theorem rewindWork_engs_same (e : EngId) (b : Block) : (rewindWork e.val b).engs[e] = ctxRewound (workRewound e.val b) b.engs[e] := by
  rw [rewindWork_eq, eid_val, modEng_same]
  rfl

/-- What the reload of an engine leaves of the rest of the stack. -/
theorem rewindWork_others {f : EngId} (hf : f ≠ e) (b : Block) :
    (rewindWork e.val b).engs[f] = b.engs[f] ∧ (rewindWork e.val b).chans[f] = b.chans[f] := by
  rw [rewindWork_eq, eid_val, cid_val, modEng_other _ _ hf, modEng_chans, modChan_other _ _ hf, workRewound, cid_val,
    modChan_other _ _ hf]
  exact ⟨rfl, rfl⟩

theorem rewindWork_dill (e : EngId) (b : Block) : (rewindWork e.val b).chans[e].dillLine = 0 := by
  rw [rewindWork_eq, cid_val, modEng_chans, modChan_same]

theorem rewindWork_migs (e : Nat) (b : Block) : ∀ m ∈ (rewindWork e b).srl.migs, segChan m.src = e → m.stage = .copy → m.copied = 0 := by
  intro m hm hsrc hst
  obtain ⟨n, -, rfl⟩ := List.mem_map.mp (show m ∈ b.srl.migs.map (copyRewound e) from hm)
  unfold copyRewound at hsrc hst ⊢
  split
  · rfl
  next hno => rw [if_neg hno] at hsrc hst; exact absurd ⟨hsrc, hst⟩ hno

/-- The context of an engine that is loaded again keeps its work, and holds no event. -/
theorem ctxRewound_ctx (c : Block) (x : Eng) (k : Fin 6) :
    (ctxRewound c x).ctx[k].work = x.ctx[k].work ∧ (ctxRewound c x).ctx[k].heldEv = [] := by
  simp [ctxRewound, startCtx]

/-- A reload that is taken: the engine loads, what it ran begins anew, and ENG_CTRL keeps its halt bit (R388, R389). -/
def reloadTaken (e : EngId) (data : Word) (b : Block) : Block :=
  setLive (engBase e.val + 0) (data &&& 1) (rewindWork e.val (modEng e loadedAgain b))

theorem reloadTaken_engine (e : EngId) (data : Word) (b : Block) : (reloadTaken e data b).engs[e]
    = ctxRewound (workRewound e.val (modEng e loadedAgain b)) (loadedAgain b.engs[e]) := by
  have h := rewindWork_engs_same e (modEng e loadedAgain b)
  rwa [modEng_same] at h

theorem engRegWrite_reload {data : Word} (hgo : data.getLsbD 1 = true) (hhalted : b.engs[e].st = .halted)
    (htested : engTested b e.val = false) (hpend : pendingAt (engBase e.val) b = false) :
    engRegWrite e.val 0 data b = (.ok, reloadTaken e data b) := by
  have hreload : reloadEngine e.val b = (.ok, rewindWork e.val (modEng e loadedAgain b)) := by
    simp only [reloadEngine, eid_val, hhalted, htested, ne_eq, not_true_eq_false, Bool.false_eq_true, or_self, if_false]
    rfl
  have hloading : (rewindWork e.val (modEng e loadedAgain b)).engs[e].st = .loading := by
    rw [rewindWork_engs_same, modEng_same]
    rfl
  have hmask : rwMask (engBase e.val + 0) = 1 := by rw [rwMask, engCtrl_reg]
  have hbuffer := buffer_engCtrl (e := e) (v := data &&& 1) (b := rewindWork e.val (modEng e loadedAgain b))
    (by rw [hloading]; exact EState.noConfusion) (by rw [hloading]; exact EState.noConfusion) hpend
  simp only [engRegWrite, hgo, if_true, hreload, bufferOk, hmask, Bool.not_true, Bool.false_eq_true, if_false, hbuffer]
  rfl

/-- The word that ENG_RELOAD writes has the reload bit. -/
theorem reloadGo_bit (e : EngId) (b : Block) : (2 ||| shadow (engBase e.val) b).getLsbD 1 = true := by
  simp [-BitVec.getLsbD_eq_getElem]

/-! ### ENGINE_RELOAD_DONE (R387, R388) -/

/-- An engine whose reload is done, held or running. -/
def reloaded (b : Block) (st : EState) (x : Eng) : Eng := { x with st := st, consts := Config.engConstants (engSeq b) }

theorem reloadDone_rest {st : EState} (hload : b.engs[e].st = .loading) (hst : (if heldNow b e.val then EState.held else .run) = st)
    (hwait : waitingPiece b e.val = none) (hqueue : st = .held ∨ b.engs[e].queue = []) :
    reloadDone e.val b = modEng e (reloaded b st) (ctrAdd (supBase + 0x1C) 1 b) := by
  have hkick : kickEngine e.val (modEng e (reloaded b st) (ctrAdd (supBase + 0x1C) 1 b))
      = modEng e (reloaded b st) (ctrAdd (supBase + 0x1C) 1 b) := by
    have hsame : waitingPiece (modEng e (reloaded b st) (ctrAdd (supBase + 0x1C) 1 b)) e.val = none := hwait
    rw [kickEngine, refillQueue_none hsame]
    obtain hheld | hnone := hqueue
    · refine startPieces_idle ?_ _
      simp only [eid_val, modEng_same]
      exact hheld ▸ EState.noConfusion
    · refine startPieces_none ?_ _
      have hq : (modEng e (reloaded b st) (ctrAdd (supBase + 0x1C) 1 b)).engs[e].queue = [] := by
        rw [modEng_same]
        exact hnone
      simp only [nextPiece, eid_val, hq, List.find?_nil]
  rw [← hkick, ← hst]
  simp only [reloadDone, eid_val, hload, ne_eq, not_true_eq_false, if_false]
  rfl

/-! ### Traps (R386, R387) -/

/-- An engine without its events, and without its contexts as well. -/
def unheard (x : Eng) : Eng := { x with evq := [] }
def bare (x : Eng) : Eng := { x with evq := [], ctx := Vector.replicate 6 {} }

theorem evq_of_unheard {x y : Eng} (h : unheard x = unheard y) : { x with evq := y.evq } = y :=
  congrArg (fun z : Eng => { z with evq := y.evq }) h

/-- From `b` to `t` every engine but `e` changed its events at most, and `e` its events and contexts at most; no register changed. -/
structure TrapKept (e : EngId) (b t : Block) : Prop where
  others : ∀ f : EngId, f ≠ e → unheard t.engs[f] = unheard b.engs[f]
  own : bare t.engs[e] = bare b.engs[e]
  regs : t.regs = b.regs

theorem TrapKept.refl (e : EngId) (b : Block) : TrapKept e b b := ⟨fun _ _ => rfl, rfl, rfl⟩

theorem TrapKept.trans (h : TrapKept e b t) (k : TrapKept e t u) : TrapKept e b u :=
  ⟨fun f hf => (k.others f hf).trans (h.others f hf), k.own.trans h.own, k.regs.trans h.regs⟩

theorem TrapKept.of_engs (h : t.engs = b.engs) (k : t.regs = b.regs) : TrapKept e b t :=
  ⟨fun f _ => by rw [h], by rw [h], k⟩

theorem trapKept_modEng {f : Eng → Eng} (h : ∀ x, bare (f x) = bare x) : TrapKept e b (modEng e f b) := by
  refine ⟨fun g hg => by rw [modEng_other _ _ hg], ?_, rfl⟩
  rw [modEng_same, h]

theorem trapKept_postPiece (id i ev : Nat) (line : List Byte) : TrapKept e b (postPiece id i ev line b) := by
  obtain ⟨engs, hpost, hevq⟩ := postPiece_eq id i ev line b
  have hunheard (f : EngId) : unheard engs[f] = unheard b.engs[f] := by
    rw [← hevq f]
    rfl
  rw [hpost]
  exact ⟨fun f _ => hunheard f, congrArg (fun x : Eng => { x with ctx := Vector.replicate 6 {} }) (hunheard e), rfl⟩

/-- The piece whose context missed its watchdog ends (R386). -/
theorem trapKept_trapPiece (e : EngId) (k : Nat) (b : Block) : TrapKept e b (trapPiece e.val k 3 b) := by
  have hleave (id i : Nat) (c : Block) : TrapKept e c (leaveCtx e.val id i c) := by
    unfold leaveCtx
    rw [eid_val]
    exact trapKept_modEng fun _ => rfl
  have hend (id i : Nat) (c : Block) : TrapKept e c (endPiece id i .badArg c) := by
    unfold endPiece
    split
    · exact .of_engs rfl rfl
    · exact (trapKept_postPiece id 0 4 []).trans (.of_engs rfl rfl)
  unfold trapPiece
  split
  · split
    · exact .refl e b
    · exact (hend _ _ b).trans (hleave _ _ _)
  · exact .refl e b

theorem trapKept_rewindWork (e : EngId) (b : Block) : TrapKept e b (rewindWork e.val b) := by
  refine ⟨fun f hf => by rw [(rewindWork_others hf b).1], ?_, rfl⟩
  rw [rewindWork_engs_same]
  rfl

/-- An engine with the record of its trap: the first one stands until it is cleared (R387). -/
def trapNoted (times : List Nat) (w addr : Word) (x : Eng) : Eng :=
  let y := { x with traps := times }
  if wfield x.trap 31 28 ≠ 0 then y else { y with trap := w, trapAddr := addr }

/-- What follows the report of a trap: the piece, then the reload, or HALTED after too many traps (R386, R389). -/
def trapFollows (e k cause : Nat) (times : List Nat) (b : Block) : Block :=
  if b.engs[eid e].st = .halted then b else
  let b := rewindWork e (trapPiece e k cause b)
  if times.length ≥ rwf (supBase + 8) 3 0 b then
    let b := modEng (eid e) (fun x => { x with st := .halted }) b
    let ev2 : Ev := { code := 0x0E02, lo := word [(e, 0), (min 15 times.length, 8)] }
    raise (fs .engRepeat) (0x30 + e) ev2.lo [{ mask := allMask, ev := ev2 }] b
  else modEng (eid e) (fun x => { x with st := .loading }) b

/-- A trap of an engine that runs, with its report. -/
def trapReported (e k cause state ev act : Nat) (addr : Word) (times : List Nat) (b : Block) : Block :=
  raise (fs .engTrap) (0x30 + e) (trapEvent e cause k state ev act).lo [{ mask := allMask, ev := trapEvent e cause k state ev act }]
    (ctrAdd (engBase e + 0x14) 1 (modEng (eid e) (trapNoted times (trapWord cause k state ev act) addr) b))

theorem engTrap_runs {e k cause state ev act : Nat} {addr : Word} (hrun : b.engs[eid e].st = .run) :
    engTrap e k cause state ev act addr b
      = trapFollows e k cause ((b.engs[eid e].traps.filter fun t => b.now - t < second1) ++ [b.now])
          (trapReported e k cause state ev act addr ((b.engs[eid e].traps.filter fun t => b.now - t < second1) ++ [b.now]) b) :=
  if_neg fun h => h.1 hrun

/-- The first trap of a window of 1 s: the record, FS_ENG_TRAP, and the reload of the engine (R387 to R389). -/
theorem engTrap_loads {k state ev act : Nat} {addr : Word} (hrun : b.engs[e].st = .run) (hreact : reactionOf b (fs .engTrap) ≤ 2)
    (htraps : b.engs[e].traps = []) (hlimit : 2 ≤ rwf (supBase + 8) 3 0 b) :
    (∀ f : EngId, f ≠ e → unheard (engTrap e.val k 3 state ev act addr b).engs[f] = unheard b.engs[f])
      ∧ bare (engTrap e.val k 3 state ev act addr b).engs[e]
        = bare { trapNoted [b.now] (trapWord 3 k state ev act) addr b.engs[e] with st := .loading } := by
  have htimes : (b.engs[e].traps.filter fun t => b.now - t < second1) ++ [b.now] = [b.now] := by rw [htraps]; rfl
  set noted := ctrAdd (engBase e.val + 0x14) 1 (modEng e (trapNoted [b.now] (trapWord 3 k state ev act) addr) b)
  have hnoted : noted.engs[e] = trapNoted [b.now] (trapWord 3 k state ev act) addr b.engs[e] := modEng_same ..
  obtain ⟨hq, -⟩ := raise_quiet (src := fs .engTrap) (0x30 + e.val) (trapEvent e.val 3 k state ev act).lo
    [{ mask := allMask, ev := trapEvent e.val 3 k state ev act }] (b := noted) hreact
  have hreported : raise (fs .engTrap) (0x30 + e.val) (trapEvent e.val 3 k state ev act).lo
      [{ mask := allMask, ev := trapEvent e.val 3 k state ev act }] noted = trapReported e.val k 3 state ev act addr [b.now] b := by
    rw [trapReported, eid_val]
  rw [hreported] at hq
  generalize hraised : trapReported e.val k 3 state ev act addr [b.now] b = raised at hq
  have hengs : raised.engs = noted.engs := by rw [hq]
  have hlive : raised.regs.live = b.regs.live := by rw [hq]; rfl
  have hst : raised.engs[e].st ≠ .halted := by
    rw [hengs, hnoted, show (trapNoted _ _ _ b.engs[e]).st = b.engs[e].st by unfold trapNoted; split <;> rfl, hrun]
    exact EState.noConfusion
  have hkept : TrapKept e raised (rewindWork e.val (trapPiece e.val k 3 raised)) :=
    (trapKept_trapPiece e k raised).trans (trapKept_rewindWork e _)
  have hfew : ¬ 1 ≥ rwf (supBase + 8) 3 0 (rewindWork e.val (trapPiece e.val k 3 raised)) := by
    have hsame : rwf (supBase + 8) 3 0 (rewindWork e.val (trapPiece e.val k 3 raised)) = rwf (supBase + 8) 3 0 b := by
      simp only [rwf, rw, hkept.regs, hlive]
    omega
  have htrap := engTrap_runs (e := e.val) (k := k) (cause := 3) (state := state) (ev := ev) (act := act) (addr := addr) (b := b)
    (by simpa only [eid_val] using hrun)
  simp only [eid_val] at htrap
  rw [htimes, hraised] at htrap
  have hloads : engTrap e.val k 3 state ev act addr b
      = modEng e (fun x => { x with st := .loading }) (rewindWork e.val (trapPiece e.val k 3 raised)) := by
    rw [htrap, trapFollows]
    simp only [eid_val, if_neg hst]
    exact if_neg hfew
  rw [hloads]
  refine ⟨fun f hf => ?_, ?_⟩
  · rw [modEng_other _ _ hf, hkept.others f hf, hengs]
    exact congrArg unheard (modEng_other _ _ hf)
  · rw [modEng_same]
    refine (congrArg (fun x : Eng => { x with st := .loading }) hkept.own).trans ?_
    rw [hengs, hnoted]
    rfl

theorem trapNoted_first {times : List Nat} {w addr : Word} {x : Eng} (h : wfield x.trap 31 28 = 0) :
    (trapNoted times w addr x).trap = w := by
  simp only [trapNoted, h, ne_eq, not_true_eq_false, if_false]

theorem trapNoted_later {times : List Nat} {w addr : Word} {x : Eng} (h : wfield x.trap 31 28 ≠ 0) :
    (trapNoted times w addr x).trap = x.trap := by
  simp only [trapNoted, h, ne_eq, not_false_eq_true, if_true]

theorem trapNoted_traps (times : List Nat) (w addr : Word) (x : Eng) : (trapNoted times w addr x).traps = times := by
  unfold trapNoted
  dsimp only
  split <;> rfl

/-- The watchdog of a context that works, with its timer stopped and nothing held back, is a trap with cause 3 (R385). -/
theorem watchdogExpiry_traps {k : Nat} (hrun : b.engs[e].st = .run) (hwork : ctxWork b e.val k ≠ .none)
    (htimed : (ctxNow b e.val k).timed = false) (hback : heldBack b e.val k = false) :
    watchdogExpiry e.val k b = engTrap e.val k 3 (ctxNow b e.val k).state (wfield (draw b).1 4 0) (wfield (draw b).1 14 5) 0 (draw b).2 := by
  refine if_neg ?_
  simp only [eid_val, hrun, htimed, hback, hwork, ne_eq, not_true_eq_false, Bool.false_eq_true, or_self, not_false_eq_true]

theorem watchdogExpiry_stands {k : Nat}
    (h : b.engs[e].st ≠ .run ∨ (ctxNow b e.val k).timed = true ∨ heldBack b e.val k = true) : watchdogExpiry e.val k b = b := by
  refine if_pos ?_
  simp only [eid_val]
  tauto

end Sys2Proof.Machine

open Sys2Proof Sys2Proof.Machine

/-- Settles O48: a trap is `engTrap_loads`, the end of a reload `reloadDone_rest`, and a write of ENG_CTRL.reload `engRegWrite_reload`
or `engRegWrite_refused`. -/
theorem enginesTrapAndReload : Obligations.EnginesTrapAndReload := by
  intro e s
  refine ⟨fun k hrun hwork htimed hback hreact htraps hlimit => ?trap, fun k hstands => ?stands, fun hload hheld hwait => ?held,
    fun hload hheld hqueue hwait => ?runs, fun path hw hchive hpend => ⟨fun hhalted htested => ?reload, fun hrefused => ?refused⟩⟩
  case trap =>
    obtain ⟨hothers, hown⟩ := engTrap_loads (b := (draw s.blk).2) (k := k.val) (state := (ctxNow s.blk e.val k.val).state)
      (ev := wfield (draw s.blk).1 4 0) (act := wfield (draw s.blk).1 14 5) (addr := 0) hrun hreact htraps hlimit
    rw [← watchdogExpiry_traps hrun hwork htimed hback] at hothers hown
    refine ⟨_, rfl, rfl, congrArg Eng.st hown, (congrArg Eng.traps hown).trans (trapNoted_traps ..),
      fun hfirst => ⟨_, _, (congrArg Eng.trap hown).trans (trapNoted_first hfirst)⟩,
      fun hlater => (congrArg Eng.trap hown).trans (trapNoted_later hlater), fun f hf => evq_of_unheard (hothers f hf)⟩
  case stands => exact congrArg (fun b => Host.Outcome.next (s.upd b)) (watchdogExpiry_stands hstands)
  case held =>
    have hdone := reloadDone_rest (st := .held) hload (if_pos hheld) hwait (.inl rfl)
    exact ⟨_, congrArg (fun b => Host.Outcome.next (s.upd b)) hdone, rfl, modEng_same .., ctr_ctrAdd (supBase + 0x1C) 1 s.blk,
      fun f hf => modEng_other _ _ hf, rfl⟩
  case runs =>
    have hdone := reloadDone_rest (st := .run) hload (if_neg (ne_true_of_eq_false hheld)) hwait (.inr hqueue)
    exact ⟨_, congrArg (fun b => Host.Outcome.next (s.upd b)) hdone, rfl, modEng_same .., ctr_ctrAdd (supBase + 0x1C) 1 s.blk,
      fun f hf => modEng_other _ _ hf, rfl⟩
  case reload =>
    have hput := put_engCtrl hw hchive (engRegWrite_reload (reloadGo_bit e s.blk) hhalted htested hpend) rfl
    refine ⟨_, congrArg Host.Outcome.next hput, answered_resp, rfl, ?_⟩
    rw [answered_engs, answered_chans, answered_srl, State.upd_blk, reloadTaken_engine]
    refine ⟨rfl, fun k => ctxRewound_ctx _ (loadedAgain s.blk.engs[e]) k, rewindWork_dill e (modEng e loadedAgain s.blk),
      rewindWork_migs e.val (modEng e loadedAgain s.blk), fun f hf => ?_⟩
    obtain ⟨hengs, hchans⟩ := rewindWork_others hf (modEng e loadedAgain s.blk)
    exact ⟨hengs.trans (modEng_other s.blk loadedAgain hf), hchans⟩
  case refused =>
    have hput := put_engCtrl hw hchive (engRegWrite_refused (reloadGo_bit e s.blk) hrefused) rfl
    exact ⟨_, congrArg Host.Outcome.next hput, answered_resp, rfl, answered_engs .., answered_regs⟩

end

section
/-! SUPPORT. The state tables of engine contexts (R139, R382 to R384), and the commit of ENG_CTRL.halt (R53, R396). -/

namespace Sys2Proof.Machine

open Sys2Proof

variable {b : Block} {e : EngId} {k : Fin 6} {s : State} {c : Ctx}

/-! ### Contexts -/

theorem ofNat_ctx (k : Fin 6) : Fin.ofNat 6 k.val = k := Fin.ext (Nat.mod_eq_of_lt k.isLt)

/-- An engine with another context. -/
def withCtx (k : Fin 6) (c : Ctx) (x : Eng) : Eng := { x with ctx := x.ctx.set k c }

theorem setCtx_eq (e : EngId) (k : Fin 6) (c : Ctx) (b : Block) : setCtx e.val k.val c b = modEng e (withCtx k c) b := by
  simp only [setCtx, eid_val, ofNat_ctx]
  rfl

theorem withCtx_same (k : Fin 6) (c : Ctx) (x : Eng) : (withCtx k c x).ctx[k] = c := by simp [withCtx]

theorem withCtx_other {j k : Fin 6} (h : j ≠ k) (c : Ctx) (x : Eng) : (withCtx k c x).ctx[j] = x.ctx[j] := by
  simp only [withCtx, Fin.getElem_fin]
  exact Vector.getElem_set_ne _ _ fun e => h (Fin.ext e.symm)

/-- What a context works on depends, of its engine, on the work of its own context alone. -/
theorem ctxWork_modEng {f : Eng → Eng} (h : (f b.engs[e]).ctx[k].work = b.engs[e].ctx[k].work) :
    ctxWork (modEng e f b) e.val k.val = ctxWork b e.val k.val := by
  simp only [ctxWork, eid_val, ofNat_ctx, modEng_same, h]
  rfl

/-- A context goes on in its table while its task is the one it had. -/
theorem ctxNow_same (h : b.engs[e].ctx[k].table = workTable b (ctxWork b e.val k.val)) :
    ctxNow b e.val k.val = b.engs[e].ctx[k] := by
  simp only [ctxNow, eid_val, ofNat_ctx]
  exact if_pos h

/-! ### One event of a context -/

/-- A context after a transition by the entry `y`, with the window that its action leaves (R139). -/
def ctxMoved (y : Word) (w : List Byte) (c : Ctx) : Ctx :=
  { c with window := w, state := entNext y, timed := if entStop y then false else if entTimer y ≠ 0 then true else c.timed }

/-- An entry that is valid, unguarded and no fault runs its action, and the table takes its next state (R382). -/
theorem ctxEvent_moves {n ev : Nat} {ws : List Word} (hnow : ctxNow b e.val k.val = c) (htable : c.table = some n)
    (hws : Config.engTable (engSeq b) n = some ws) (hvalid : entValid (tableEntry ws c.state ev) = true)
    (hguard : entGuard (tableEntry ws c.state ev) = 0) (hfault : entFault (tableEntry ws c.state ev) = false)
    (hok : actionOk (entAction (tableEntry ws c.state ev)) k.val (ownerWork b (ctxWork b e.val k.val)) = true)
    (hacc : Config.engAccess (entAction (tableEntry ws c.state ev)) c.window = none) :
    ∃ w, ctxEvent e.val k.val ev b = (modEng e (withCtx k (ctxMoved (tableEntry ws c.state ev) w c)) b, true)
      ∧ (entAction (tableEntry ws c.state ev) = 0 → w = c.window) := by
  generalize hy : tableEntry ws c.state ev = y at *
  refine ⟨if entAction y = 0 then c.window else
    windowOf4K (Config.engAction (entAction y) c.window b.engs[e].consts (ctxLeft b e.val k.val) b.now), ?_, fun h => if_pos h⟩
  simp only [ctxEvent, hnow, htable, Option.bind_some, hws, hy, hvalid, hguard, hok, hacc, hfault, Bool.not_true, Bool.false_eq_true,
    ne_eq, not_true_eq_false, false_and, if_false, setCtx_eq, eid_val, ctxMoved]

/-- The line that event 1 returns stands at the start of the context's window (R383, log entry 112). -/
def lineGiven (line : List Byte) (c : Ctx) : Ctx :=
  { c with window := if line = [] then c.window else windowOf4K (line ++ c.window.drop line.length) }

theorem giveLine_eq {line : List Byte} (hnow : ctxNow b e.val k.val = b.engs[e].ctx[k]) :
    giveLine e.val k.val line b = modEng e (withCtx k (lineGiven line b.engs[e].ctx[k])) b := by
  by_cases hline : line = []
  · have hsame : lineGiven line b.engs[e].ctx[k] = b.engs[e].ctx[k] := by simp only [lineGiven, hline, if_true]
    have hfixed : withCtx k b.engs[e].ctx[k] b.engs[e] = b.engs[e] := by simp [withCtx]
    rw [hsame, modEng_fixed hfixed, giveLine, if_pos hline]
  · simp only [giveLine, hline, if_false, hnow, setCtx_eq, lineGiven]

/-- A context that has an event of its table, with nothing held (R382). -/
structure Steps (b : Block) (e : EngId) (k : Fin 6) (n : Nat) (ws : List Word) (y : Word) (win : List Byte) : Prop where
  run : b.engs[e].st = .run
  works : ctxWork b e.val k.val ≠ .none
  table : b.engs[e].ctx[k].table = some n
  task : workTable b (ctxWork b e.val k.val) = some n
  words : Config.engTable (engSeq b) n = some ws
  held : b.engs[e].ctx[k].heldEv = []
  valid : entValid y = true
  guard : entGuard y = 0
  fault : entFault y = false
  ok : actionOk (entAction y) k.val (ownerWork b (ctxWork b e.val k.val)) = true
  access : Config.engAccess (entAction y) win = none

/-- The engine takes an event of a context: its window gets the line, and the context moves on. -/
theorem engineEvent_moves {n ev : Nat} {ws : List Word} {line : List Byte}
    (h : Steps b e k n ws (tableEntry ws b.engs[e].ctx[k].state ev) (lineGiven line b.engs[e].ctx[k]).window) (hev : ev ≠ 31) :
    ∃ w, engineEvent e.val k.val ev line b = modEng e (withCtx k (ctxMoved (tableEntry ws b.engs[e].ctx[k].state ev) w
        (lineGiven line b.engs[e].ctx[k]))) (modEng e (withCtx k (lineGiven line b.engs[e].ctx[k])) b)
      ∧ (entAction (tableEntry ws b.engs[e].ctx[k].state ev) = 0 → w = (lineGiven line b.engs[e].ctx[k]).window) := by
  set c := lineGiven line b.engs[e].ctx[k]
  have hgiven := giveLine_eq (line := line) (ctxNow_same (h.table.trans h.task.symm))
  have hwork : ctxWork (modEng e (withCtx k c) b) e.val k.val = ctxWork b e.val k.val :=
    ctxWork_modEng (by rw [withCtx_same]; rfl)
  have hctx : (modEng e (withCtx k c) b).engs[e].ctx[k] = c := by rw [modEng_same, withCtx_same]
  have hnow : ctxNow (modEng e (withCtx k c) b) e.val k.val = c := by
    rw [ctxNow_same, hctx]
    rw [hctx, hwork]
    exact h.table.trans h.task.symm
  obtain ⟨w, hmoves, hkept⟩ := ctxEvent_moves (ev := ev) hnow h.table h.words h.valid h.guard h.fault (by rw [hwork]; exact h.ok) h.access
  refine ⟨w, ?_, hkept⟩
  have hgo : ¬ (b.engs[e].st ≠ .run ∨ ctxWork b e.val k.val = .none) := by
    rintro (hst | hnone)
    · exact hst h.run
    · exact h.works hnone
  have hheld : c.heldEv = [] := h.held
  simp only [engineEvent, eid_val, if_neg hgo, hgiven]
  rw [hnow, if_neg fun h => hev h.1, if_neg hev, hmoves, hheld]
  rfl

/-! ### Action boundaries (R53) -/

theorem engBoundary_none (start : Bool) (h : pendingAt (engBase e.val) b = false) : engBoundary e.val start b = b := by
  unfold engBoundary
  rw [commitEng_none h, ite_self]

theorem modEng_congr {f g : Eng → Eng} (h : f b.engs[e] = g b.engs[e]) : modEng e f b = modEng e g b := by
  unfold modEng
  rw [h]

/-- A change of an engine that leaves its state and contexts leaves what its contexts may do. -/
theorem Steps.modEng {n : Nat} {ws : List Word} {y : Word} {win : List Byte} {f : Eng → Eng} (h : Steps b e k n ws y win)
    (hst : (f b.engs[e]).st = b.engs[e].st) (hctx : (f b.engs[e]).ctx = b.engs[e].ctx) : Steps (modEng e f b) e k n ws y win := by
  have hwork : ctxWork (Machine.modEng e f b) e.val k.val = ctxWork b e.val k.val := ctxWork_modEng (by rw [hctx])
  constructor
  case run => rw [modEng_same, hst]; exact h.run
  case works => rw [hwork]; exact h.works
  case table => rw [modEng_same, hctx]; exact h.table
  case task => rw [hwork]; exact h.task
  case words => exact h.words
  case held => rw [modEng_same, hctx]; exact h.held
  case valid => exact h.valid
  case guard => exact h.guard
  case fault => exact h.fault
  case ok => rw [hwork]; exact h.ok
  case access => exact h.access

/-- An engine with one event that waits. -/
def hearing (v : Nat × Nat × List Byte) (x : Eng) : Eng := { x with evq := [v] }

/-- An engine that took its one event: its context has moved on. -/
def heardOut (k : Fin 6) (c : Ctx) (x : Eng) : Eng := withCtx k c { x with evq := [] }

/-- The engine takes the one event that waits, with no write of its block waiting. -/
theorem takeEvent_moves {n ev : Nat} {ws : List Word} {line : List Byte} (hgood : b.regs.badPar = [])
    (hpend : pendingAt (engBase e.val) b = false)
    (h : Steps b e k n ws (tableEntry ws b.engs[e].ctx[k].state ev) (lineGiven line b.engs[e].ctx[k]).window) (hev : ev ≠ 31) :
    ∃ w, takeEvent e.val (modEng e (hearing (k.val, ev, line)) b) = modEng e (heardOut k
        (ctxMoved (tableEntry ws b.engs[e].ctx[k].state ev) w (lineGiven line b.engs[e].ctx[k]))) b
      ∧ (entAction (tableEntry ws b.engs[e].ctx[k].state ev) = 0 → w = (lineGiven line b.engs[e].ctx[k]).window) := by
  set c := b.engs[e].ctx[k]
  set quiet := modEng e (fun x => { x with evq := [] }) b with hquiet
  have hctx : quiet.engs[e].ctx[k] = c := by rw [hquiet, modEng_same]
  have hsteps : Steps quiet e k n ws (tableEntry ws quiet.engs[e].ctx[k].state ev) (lineGiven line quiet.engs[e].ctx[k]).window := by
    rw [hctx]
    exact h.modEng rfl rfl
  obtain ⟨w, hmoves, hkept⟩ := engineEvent_moves hsteps hev
  rw [hctx] at hmoves hkept
  refine ⟨w, ?_, hkept⟩
  have htaken : modEng e (fun x => { x with evq := [] }) (modEng e (hearing (k.val, ev, line)) b) = quiet := modEng_modEng ..
  have hq : (modEng e (hearing (k.val, ev, line)) b).engs[e].evq = [(k.val, ev, line)] := by rw [modEng_same]; rfl
  simp only [takeEvent, eid_val, hq, htaken]
  have huse : useRegs (engBase e.val) quiet = quiet := useRegs_good _ hgood
  have hbefore : engBoundary e.val (ev == 0) quiet = quiet := engBoundary_none _ hpend
  simp only [huse, hbefore, if_neg (not_not.mpr hsteps.run), hmoves]
  refine Eq.trans (b := modEng e (withCtx k _) (modEng e (withCtx k (lineGiven line c)) quiet)) (engBoundary_none false ?_) ?_
  · exact hpend
  rw [hquiet, modEng_modEng, modEng_modEng]
  exact modEng_congr (by simp [withCtx, heardOut])

/-- ENGINE_EVENT finds one event: that which waits, or that which it brings (R383). -/
theorem engineEventRow_takes {ev : Nat} {line : List Byte} (hrun : b.engs[e].st = .run) (hwork : ctxWork b e.val k.val ≠ .none)
    (hq : if stackMakes k.val ev then b.engs[e].evq = [(k.val, ev, line)] else b.engs[e].evq = [] ∧ line = []) :
    engineEventRow e.val k.val ev b = takeEvent e.val (modEng e (hearing (k.val, ev, line)) b) := by
  have hgo : ¬ (b.engs[e].st ≠ .run ∨ ctxWork b e.val k.val = .none) := by
    rintro (hst | hnone)
    · exact hst hrun
    · exact hwork hnone
  simp only [engineEventRow, eid_val, if_neg hgo]
  split at hq
  next hmakes =>
    have hfixed : modEng e (hearing (k.val, ev, line)) b = b := modEng_fixed (by rw [hearing, ← hq])
    simp only [hmakes, if_true, hq, and_self, hfixed]
  next hbrings =>
    obtain ⟨hnone, rfl⟩ := hq
    rw [if_neg hbrings]
    exact congrArg (takeEvent e.val) (modEng_congr (by rw [hnone]; rfl))

/-! ### ENG_CTRL.halt (R396) -/

/-- The registers with the one write that waited live. -/
def haltLive (w : PendWr) (b : Block) : Block := setLive w.addr w.value { b with regs := { b.regs with pend := [] } }

section Halt
variable {w : PendWr} (hpend : b.regs.pend = [w]) (haddr : w.addr = engBase e.val) (hw : w.good = true)
include hpend haddr hw

theorem commitEng_halt : commitEng e.val b = holdOrRun e.val (haltLive w b) := by
  have hbase : baseOf w.addr = engBase e.val := by
    rw [haddr]
    exact baseOf_add (engBase_mod _) (o := 0) (by decide)
  have hpending : pendingAt (engBase e.val) b = true := by
    simp only [pendingAt, hpend, List.any_cons, hbase, beq_self_eq_true, Bool.true_or]
  have hplain : commitPlain (engBase e.val) b = haltLive w b := by
    have htake : takePend (engBase e.val) b = ([w], { b with regs := { b.regs with pend := [] } }) := by
      simp [takePend, hpend, hbase, hw]
    rw [commitPlain, htake]
    rfl
  rw [commitEng, if_pos hpending, hplain]

omit hw in
theorem waitedEng_iff : waitedEng e.val b = true ↔ w.since + 1000 ≤ b.now := by
  have hbase : baseOf w.addr = engBase e.val := by
    rw [haddr]
    exact baseOf_add (engBase_mod _) (o := 0) (by decide)
  simp [waitedEng, hpend, hbase]

/-- A write of ENG_CTRL.halt that has waited 10 µs commits (R53). -/
theorem engBoundary_due (hdue : w.since + 1000 ≤ b.now) : engBoundary e.val false b = holdOrRun e.val (haltLive w b) := by
  have hwaited := (waitedEng_iff hpend haddr).mpr hdue
  rw [engBoundary, hwaited, commitEng_halt hpend haddr hw]
  rfl

omit hw in
theorem engBoundary_soon (hsoon : b.now < w.since + 1000) (hnow : atOnceNow (engBase e.val) b = false) :
    engBoundary e.val false b = b := by
  have hwaited : waitedEng e.val b = false := by
    rw [Bool.eq_false_iff]
    exact fun h => absurd ((waitedEng_iff hpend haddr).mp h) (Nat.not_le.mpr hsoon)
  rw [engBoundary, hwaited, hnow]
  rfl

omit hpend hw in
theorem heldNow_haltLive (h : wfield w.value 0 0 ≠ 1) (hgated : engGated b e.val = false) (htested : engTested b e.val = false)
    (hsafe : b.sage.safe = false) (hthm : b.thm.safe = false) : heldNow (haltLive w b) e.val = false := by
  have hbit : rwf (engBase e.val) 0 0 (haltLive w b) = wfield w.value 0 0 := by rw [rwf, haltLive, haddr, rw_setLive_same]
  have hbase := (engBase_range e).1
  have hclk (o : Nat) (ho : o < 0x1000) : rw (clkBase + o) (haltLive w b) = rw (clkBase + o) b :=
    (rw_setLive_other _ (by rw [haddr, clkBase]; omega)).trans rfl
  have hunits : unitsIn (haltLive w b) = unitsIn b := by
    funext n
    simp only [unitsIn, hclk 0x20 (by decide), hclk 0x24 (by decide), hclk 0x28 (by decide)]
  have hgate : engGated (haltLive w b) e.val = engGated b e.val := by
    rw [engGated, unitRuns, hunits]
    rfl
  rw [heldNow, hbit, hgate, hgated, show engTested (haltLive w b) e.val = engTested b e.val from rfl, htested,
    show (haltLive w b).sage.safe = b.sage.safe from rfl, hsafe, show (haltLive w b).thm.safe = b.thm.safe from rfl, hthm]
  simpa using h

omit hpend hw in
theorem rwf_haltLive : rwf (engBase e.val) 0 0 (haltLive w b) = wfield w.value 0 0 := by
  rw [rwf, haltLive, haddr, rw_setLive_same]

end Halt

theorem wfield_bit0 (v : Word) : wfield v 0 0 = if v.getLsbD 0 then 1 else 0 := by
  have hbit : v.toNat.testBit 0 = v.getLsbD 0 := BitVec.testBit_toNat v
  rw [← hbit, Nat.testBit_zero]
  simp only [wfield, field, Nat.shiftRight_zero, decide_eq_true_eq]
  split <;> omega

end Sys2Proof.Machine

open Sys2Proof Sys2Proof.Machine

/-- Settles O49: the engine takes the one event between boundaries at which nothing waits, and the commit of ENG_CTRL.halt holds it
or, with nothing else that holds it, leaves it as it is. -/
theorem engineContextsRun : Obligations.EngineContextsRun := by
  intro e s hrun hgood
  refine ⟨fun k ev line n ws hwork hpend hq htable htask hws hheld hev => ?event,
    fun w hpend haddr hw => ⟨fun hsoon hnow => ?waits, fun hdue hhalt => ?halts, fun hdue hgo hsafe hthm hgated htested => ?goes⟩⟩
  case event =>
    intro c y win hvalid hguard hfault hok hacc
    have hwin : win = (lineGiven line c).window := rfl
    obtain ⟨w, htake, hkept⟩ := takeEvent_moves (ev := ev.val) (line := line) hgood hpend
      ⟨hrun, hwork, htable, htask, hws, hheld, hvalid, hguard, hfault, hok, hacc⟩ hev
    refine ⟨_, congrArg (fun b => Host.Outcome.next (s.upd b)) ((engineEventRow_takes hrun hwork hq).trans htake), rfl, rfl,
      fun f hf => modEng_other _ _ hf, ?_⟩
    rw [State.upd_blk, modEng_same, heardOut]
    refine ⟨?_, ?_, fun h => ?_, rfl, fun j hj => withCtx_other hj _ _, hrun⟩ <;> rw [withCtx_same]
    · rfl
    · rfl
    · exact hkept h
  case waits =>
    exact congrArg (fun b => Host.Outcome.next (s.upd b)) (engBoundary_soon hpend haddr hsoon hnow)
  case halts =>
    have hbit : rwf (engBase e.val) 0 0 (haltLive w s.blk) = 1 := by rw [rwf_haltLive haddr, wfield_bit0, if_pos hhalt]
    have hheld : heldNow (haltLive w s.blk) e.val = true := by
      simp only [heldNow, hbit, beq_self_eq_true, Bool.true_or]
    have hcommit : engBoundary e.val false s.blk = modEng e holdEngine (haltLive w s.blk) := by
      rw [engBoundary_due hpend haddr hw hdue, holdOrRun, if_pos hheld, eid_val]
    refine ⟨_, congrArg (fun b => Host.Outcome.next (s.upd b)) hcommit, rfl, ?_, hbit, rfl, fun f hf => modEng_other _ _ hf⟩
    rw [State.upd_blk, modEng_same]
    exact if_pos (by rw [show (haltLive w s.blk).engs = s.blk.engs from rfl, hrun]; rfl)
  case goes =>
    have hbit : rwf (engBase e.val) 0 0 (haltLive w s.blk) = 0 := by
      rw [rwf_haltLive haddr, wfield_bit0, if_neg (ne_true_of_eq_false hgo)]
    have hfree : heldNow (haltLive w s.blk) e.val = false :=
      heldNow_haltLive haddr (by simp [wfield_bit0, hgo, -BitVec.getLsbD_eq_getElem]) hgated htested hsafe hthm
    have hcommit : engBoundary e.val false s.blk = haltLive w s.blk := by
      have hst : (haltLive w s.blk).engs[e].st ≠ .held := by
        rw [show (haltLive w s.blk).engs = s.blk.engs from rfl, hrun]
        exact EState.noConfusion
      rw [engBoundary_due hpend haddr hw hdue, holdOrRun, if_neg (ne_true_of_eq_false hfree)]
      simp only [eid_val, hst, if_false]
    exact ⟨_, congrArg (fun b => Host.Outcome.next (s.upd b)) hcommit, rfl, rfl, hbit, rfl⟩

end

section
/-! SUPPORT. Writes of registers of the single blocks, and the THM registers (R404, R406, R413). -/

namespace Sys2Proof.Machine

open Sys2Proof

variable {path : Path} {b : Block} {s : State} {data : Word}

/-! ### A write of a register of a single block -/

/-- A register whose write its block's function takes, whatever the state is: it is no counter, no command register with a function of
its own, and lies in no block that a power state or CHIVE touches. -/
@[reducible] def plainReg (a : Nat) : Prop :=
  a < 2 ^ 32 ∧ a % 4 = 0 ∧ a % 0x1000 < 0x800 ∧ (regAt a).isSome = true ∧ regAt a ≠ some .counter ∧ ¬ (0x5040 ≤ a ∧ a ≤ 0x5054)
    ∧ a ≠ 0x4008 ∧ a ≠ 0x5000 ∧ a ≠ 0x6000 ∧ baseOf a ≠ 0x3000 ∧ baseOf a ≠ 0x2000 ∧ baseOf a ≠ srlBase ∧ isEng (baseOf a) = false

/-- A write that passes the common checks is the write of its block's function, and its answer. -/
theorem put_block {base o : Nat} {st : Status} {t : Block} (hw : takesWrites path s) (hreg : plainReg (base + o))
    (hwrite : writeBlock path (base + o) data s.blk = (st, t)) (hstart : t.start = s.blk.start) :
    put path base o data s = answered path (base + o) st (s.upd t) := by
  obtain ⟨-, -, -, -, hgood⟩ := id hw
  obtain ⟨hsize, h4, hlow, hmapped, hcounter, hlock, hack, hotp, hbst, hpwr, hclk, hsrl, heng⟩ := hreg
  have hlive := writeLive_block (path := path) (last := none) (data := data) hgood (fun _ => ⟨hsrl, heng⟩) hcounter hack hotp hbst hpwr hclk
  rw [hwrite] at hlive
  exact put_live hw hsize h4 hlow hmapped (lockedReg_out _ hlock) hlive (by rw [State.upd_blk, hstart]; exact takesWrites_step hw)

@[simp] theorem answered_thm (path : Path) (k : Nat) (st : Status) (t : State) : (answered path k st t).blk.thm = t.blk.thm :=
  respond_thm _ _ _ _ _

/-! ### Thresholds and suspect clears -/

theorem limitReg (k : Fin 6) : plainReg (thmBase + (0x10 + 4 * k.val)) ∧ rwMask (thmBase + (0x10 + 4 * k.val)) = 0xFFFFFFFF := by
  revert k
  decide

theorem clearReg (k : Fin 6) : plainReg (thmBase + (0x80 + 4 * k.val)) := by
  revert k
  decide

/-- A threshold goes to the commit buffer of the THM block, which takes nothing at once (R406). -/
theorem buffer_limit (k : Fin 6) (v : Word) (b : Block) :
    buffer (thmBase + (0x10 + 4 * k.val)) v b = bufferWrite (thmBase + (0x10 + 4 * k.val)) v b := by
  have hbase : baseOf (thmBase + (0x10 + 4 * k.val)) = thmBase := baseOf_add (by decide) (by omega)
  rw [buffer, hbase]
  rfl

theorem writeBlock_limit (k : Fin 6) : writeBlock path (thmBase + (0x10 + 4 * k.val)) data b
    = bufferOk (limitOk k.val data b) (thmBase + (0x10 + 4 * k.val)) data b := by
  have hbase : baseOf (thmBase + (0x10 + 4 * k.val)) = thmBase := baseOf_add (by decide) (by omega)
  have hk : (16 + 4 * k.val - 16) / 4 = k.val := by omega
  have hclear : ¬ (0x80 ≤ 16 + 4 * k.val ∧ 16 + 4 * k.val ≤ 0x94) := by omega
  have hlimit : 0x10 ≤ 16 + 4 * k.val ∧ 16 + 4 * k.val ≤ 0x24 := by omega
  have hthm : writeBlock path (thmBase + (0x10 + 4 * k.val)) data b = thmWrite (16 + 4 * k.val) data b := by
    simp only [writeBlock, hbase, Nat.add_sub_cancel_left]
    rfl
  rw [hthm, thmWrite, if_neg hclear, if_pos hlimit, hk]

theorem writeBlock_limit_ok (k : Fin 6) (hok : limitOk k.val data b = true) : writeBlock path (thmBase + (0x10 + 4 * k.val)) data b
    = (.ok, bufferWrite (thmBase + (0x10 + 4 * k.val)) data b) := by
  have hmask : data &&& 0xFFFFFFFF = data := BitVec.and_allOnes
  rw [writeBlock_limit, hok, bufferOk, (limitReg k).2, buffer_limit, hmask]
  rfl

theorem writeBlock_limit_bad (k : Fin 6) (hbad : limitOk k.val data b = false) :
    writeBlock path (thmBase + (0x10 + 4 * k.val)) data b = (.badArg, b) := by
  rw [writeBlock_limit, hbad]
  rfl

theorem writeBlock_clear (k : Fin 6) : writeBlock path (thmBase + (0x80 + 4 * k.val)) data b = (.ok, suspectClr k.val data b) := by
  have hbase : baseOf (thmBase + (0x80 + 4 * k.val)) = thmBase := baseOf_add (by decide) (by omega)
  have hk : (128 + 4 * k.val - 128) / 4 = k.val := by omega
  have hclear : 0x80 ≤ 128 + 4 * k.val ∧ 128 + 4 * k.val ≤ 0x94 := by omega
  have hthm : writeBlock path (thmBase + (0x80 + 4 * k.val)) data b = thmWrite (128 + 4 * k.val) data b := by
    simp only [writeBlock, hbase, Nat.add_sub_cancel_left]
    rfl
  rw [hthm, thmWrite, if_pos hclear, hk]

theorem shadow_congr {a : Nat} {t : Block} (h : t.regs = b.regs) : shadow a t = shadow a b := by
  unfold shadow rw
  rw [h]

/-- THM_SUSPECT_CLRk adds its 32 marks (R404). -/
theorem suspectClr_bit (k : Fin 6) (data : Word) (b : Block) {i : Nat} (hi : i < 192) : (suspectClr k.val data b).thm.clr.getLsbD i
    = (b.thm.clr.getLsbD i || (decide (32 * k.val ≤ i ∧ i < 32 * k.val + 32) && data.getLsbD (i - 32 * k.val))) := by
  have hout (h : ¬ i < 32 * k.val + 32) : data.getLsbD (i - 32 * k.val) = false := BitVec.getLsbD_of_ge _ _ (by omega)
  simp only [suspectClr, BitVec.getLsbD_or, BitVec.getLsbD_ofNat, hi, decide_true, Bool.true_and, Nat.testBit_shiftLeft,
    BitVec.testBit_toNat]
  by_cases hlow : 32 * k.val ≤ i <;> by_cases hhigh : i < 32 * k.val + 32 <;> simp [hlow, hhigh, hout, -BitVec.getLsbD_eq_getElem]

/-! ### The acknowledge of a trip -/

theorem put_tripAck {st : Status} {t : State} (hw : takesWrites path s) (hack : tripAck data s = (st, t)) (hstart : t.blk.start = s.blk.start) :
    put path thmBase 8 data s = answered path (thmBase + 8) st t := by
  obtain ⟨-, -, -, -, hgood⟩ := id hw
  have hlive : writeLive path none (thmBase + 8) data s = (some st, t) := by
    have hopen : (s.blk.inChive && (baseOf (thmBase + 8) == srlBase || isEng (baseOf (thmBase + 8)))) = false := by
      rw [show (baseOf (thmBase + 8) == srlBase || isEng (baseOf (thmBase + 8))) = false from by decide, Bool.and_false]
    have hreg : regAt (thmBase + 8) ≠ some .counter := by decide
    simp only [writeLive, checked_good hgood, ite_self, hopen, Bool.false_eq_true, hreg, if_false, if_true, hack]
  exact put_live hw (by decide) (by decide) (by decide) (by decide) (lockedReg_out _ (by decide)) hlive
    (by rw [hstart]; exact takesWrites_step hw)

/-- The block as the acknowledge leaves it before channels, engines and ports go on. -/
def coolAgain (b : Block) : Block :=
  allChans (fun x => { x with srWant := false, srMult := 0 }) (rcSet (thmBase + 0xC) 5
    { b with thm := { b.thm with safe := false, tripPin := false, resumeOk := false, owe := allMask } })

theorem coolAgain_start (b : Block) : (coolAgain b).start = b.start := rfl

/-- What is left of Tarragon's state when the stack leaves the thermal safe state (R413). -/
def coolThermal (x : Thermal) : Thermal := { x with safe := false, tripPin := false, resumeOk := false, owe := 0xFFFF }

theorem coolAgain_thm (b : Block) : (coolAgain b).thm = coolThermal b.thm := rfl

/-- No channel leaves self-refresh when every channel is OFFLINE. -/
theorem wakeChans_offline {f : Nat → Bool} (hoff : ∀ c : ChanId, s.blk.chans[c].st = .offline) : wakeChans f s = s := by
  unfold wakeChans
  split
  · rfl
  · refine foldl_fix _ _ _ fun c _ => if_neg ?_
    simp [hoff (cid c), -Fin.getElem_fin]

/-- Engines that run or are halted are held, or stay as they are: no engine goes on. -/
theorem gateEngines_live (hst : ∀ e : EngId, b.engs[e].st = .run ∨ b.engs[e].st = .halted) :
    ∃ v, gateEngines b = { b with engs := v } := by
  let settled (v : Vector Eng 32) : Prop := ∀ e : EngId, v[e].st = .held → heldNow b e.val = true
  suffices h : ∀ (l : List Nat) (v : Vector Eng 32), (∀ e ∈ l, e < 32) → settled v → ∃ w, l.foldl (fun b e =>
      if heldNow b e then modEng (eid e) holdEngine b
      else if b.engs[eid e].st = .held then kickEngine e (modEng (eid e) (fun x => { x with st := .run }) b)
      else b) { b with engs := v } = { b with engs := w } by
    refine h _ b.engs (fun e he => List.mem_range.mp he) fun e he => ?_
    rcases hst e with hrun | hhalt
    · exact absurd (hrun.symm.trans he) EState.noConfusion
    · exact absurd (hhalt.symm.trans he) EState.noConfusion
  intro l
  induction l with
  | nil => exact fun v _ _ => ⟨v, rfl⟩
  | cons e l ih =>
    intro v hl hv
    have hmem : ∀ i ∈ l, i < 32 := fun i hi => hl i (List.mem_cons_of_mem e hi)
    have hid : (eid e).val = e := Nat.mod_eq_of_lt (hl e List.mem_cons_self)
    rw [List.foldl_cons]
    by_cases hheld : heldNow b e = true
    · have hheld' : heldNow { b with engs := v } e = true := hheld
      rw [if_pos hheld']
      refine ih _ hmem fun i hi => ?_
      by_cases hie : i = eid e
      · rw [hie, hid]; exact hheld
      · exact hv i ((congrArg Eng.st (modEng_other { b with engs := v } holdEngine hie)).symm.trans hi)
    · have hheld' : ¬ heldNow { b with engs := v } e = true := hheld
      have hst : ¬ v[eid e].st = .held := fun h => hheld (hid ▸ hv (eid e) h)
      rw [if_neg hheld', if_neg hst]
      exact ih v hmem hv

theorem gateEngines_live_keeps (hst : ∀ e : EngId, b.engs[e].st = .run ∨ b.engs[e].st = .halted) :
    (gateEngines b).start = b.start ∧ (gateEngines b).thm = b.thm ∧ (gateEngines b).ports = b.ports := by
  obtain ⟨v, h⟩ := gateEngines_live hst
  rw [h]
  exact ⟨rfl, rfl, rfl⟩

/-- What one command does to each unit in turn: what each finds as `Pre`, the others leave it, and it leaves as `Post`. -/
theorem forAll_each {n : Nat} {f : Fin n → Block → Block} {I : Block → Prop} {Pre Post : Fin n → Block → Prop} (hI : I b)
    (hpre : ∀ i, Pre i b) (hstep : ∀ i c, I c → Pre i c → I (f i c) ∧ Post i (f i c))
    (hother : ∀ i j c, j ≠ i → I c → (Pre j c → Pre j (f i c)) ∧ (Post j c → Post j (f i c))) :
    I (forAll n f b) ∧ ∀ i, Post i (forAll n f b) := by
  suffices h : ∀ (l : List (Fin n)) (c : Block), l.Nodup → I c → (∀ i ∈ l, Pre i c) →
      I (l.foldl (fun c i => f i c) c) ∧ (∀ j ∉ l, Post j c → Post j (l.foldl (fun c i => f i c) c))
        ∧ ∀ i ∈ l, Post i (l.foldl (fun c i => f i c) c) by
    obtain ⟨hkept, -, hall⟩ := h _ b (List.nodup_finRange n) hI fun i _ => hpre i
    exact ⟨hkept, fun i => hall i (List.mem_finRange i)⟩
  intro l
  induction l with
  | nil => exact fun c _ hc _ => ⟨hc, fun _ _ h => h, fun i hi => absurd hi List.not_mem_nil⟩
  | cons i l ih =>
    intro c hnodup hc hl
    obtain ⟨hfresh, hrest⟩ := List.nodup_cons.mp hnodup
    obtain ⟨hkept, hpost⟩ := hstep i c hc (hl i List.mem_cons_self)
    have hne {j : Fin n} (hj : j ∈ l) : j ≠ i := fun h => hfresh (h ▸ hj)
    obtain ⟨hI', hout, hin⟩ := ih (f i c) hrest hkept fun j hj => (hother i j c (hne hj) hc).1 (hl j (List.mem_cons_of_mem i hj))
    refine ⟨hI', fun j hj hc' => ?_, fun j hj => ?_⟩
    · obtain ⟨hji, hjl⟩ := List.ne_and_not_mem_of_not_mem_cons hj
      exact hout j hjl ((hother i j c hji hc).2 hc')
    · rcases List.mem_cons.mp hj with rfl | hjl
      · exact hout j hfresh hpost
      · exact hin j hjl

/-- The ports of a stack that leaves the thermal safe state with port 0 in DETECT. -/
theorem resumePorts_detect (h0 : b.ports[(0 : PortId)].st = .detect) :
    ((resumePorts b).start = b.start ∧ (resumePorts b).thm = b.thm) ∧ ∀ p : PortId, (resumePorts b).ports[p].st = .detect := by
  set c := forAll 16 (fun p b => if p.val = 0 then b else modPort p portDetect b) b with hc
  have hdetect : (c.start = b.start ∧ c.thm = b.thm) ∧ ∀ p : PortId, c.ports[p].st = .detect := by
    refine forAll_each (I := fun c => c.start = b.start ∧ c.thm = b.thm)
      (Pre := fun p c => p.val = 0 → c.ports[p].st = .detect) (Post := fun p c => c.ports[p].st = .detect)
      ⟨rfl, rfl⟩ (fun p hp => ?_) (fun p c hkept hpre => ?_) fun p q c hq _ => ?_
    · rw [show p = 0 from Fin.ext hp]
      exact h0
    · by_cases hp : p.val = 0
      · rw [if_pos hp]
        exact ⟨hkept, hpre hp⟩
      · rw [if_neg hp, modPort_same]
        exact ⟨hkept, rfl⟩
    · split
      · exact ⟨id, id⟩
      · rw [modPort_other _ _ hq]
        exact ⟨id, id⟩
  have hidle : ¬ (c.ports[(0 : PortId)].st == .active) = true := by
    rw [hdetect.2 0]
    decide
  rw [resumePorts, ← hc, if_neg hidle]
  exact hdetect

/-- The stack leaves the thermal safe state with nothing that goes on but its ports. -/
theorem thermalResume_cold (hport : s.blk.ports[(0 : PortId)].st = .detect) (hoff : ∀ c : ChanId, s.blk.chans[c].st = .offline)
    (hengs : ∀ e : EngId, s.blk.engs[e].st = .run ∨ s.blk.engs[e].st = .halted) :
    ∃ t, thermalResume s = s.upd t ∧ t.start = s.blk.start ∧ t.thm = coolThermal s.blk.thm ∧ ∀ p : PortId, t.ports[p].st = .detect := by
  obtain ⟨gstart, gthm, gports⟩ := gateEngines_live_keeps (b := coolAgain s.blk) hengs
  obtain ⟨⟨rstart, rthm⟩, hdetect⟩ := resumePorts_detect (b := gateEngines (coolAgain s.blk)) (by rw [gports]; exact hport)
  have hcold (c : ChanId) : (coolAgain s.blk).chans[c].st = .offline := (congrArg Chan.st (Vector.getElem_map _ c.isLt)).trans (hoff c)
  have hwake : wakeChans (fun _ => true) (s.upd (coolAgain s.blk)) = s.upd (coolAgain s.blk) :=
    wakeChans_offline (by rw [State.upd_blk]; exact hcold)
  exact ⟨resumePorts (gateEngines (coolAgain s.blk)), congrArg (fun t => t.upd (resumePorts (gateEngines t.blk))) hwake,
    rstart.trans (gstart.trans (coolAgain_start s.blk)),
    rthm.trans (gthm.trans (coolAgain_thm s.blk)), hdetect⟩

end Sys2Proof.Machine

open Sys2Proof Sys2Proof.Machine

/-- Settles O37: each write goes to its block's function; with every channel OFFLINE and no engine held, what the acknowledge leaves to
go on is the ports. -/
theorem thermalRegisters : Obligations.ThermalRegisters := by
  intro path k data s hw
  refine ⟨fun hok => ?limit, fun hbad => ?refused, ?clear, fun hgo hno => ?early, fun hgo hsafe hcool hstart hpath hport hoff hengs => ?resumed⟩
  case limit =>
    have hput := put_block (data := data) hw (limitReg k).1 (writeBlock_limit_ok k hok) rfl
    refine ⟨_, congrArg Host.Outcome.next hput, answered_resp, ?_, ?_, ?_, answered_thm .., rfl⟩
    · rw [Nat.add_assoc, shadow_congr answered_regs]
      exact shadow_bufferWrite _ _ _
    · rw [rw, answered_regs]
      rfl
    · rw [answered_regs]
      rfl
  case refused =>
    have hput := put_block (data := data) hw (limitReg k).1 (writeBlock_limit_bad k hbad) rfl
    exact ⟨_, congrArg Host.Outcome.next hput, answered_resp, answered_regs, answered_thm .., rfl⟩
  case clear =>
    have hput := put_block (data := data) hw (clearReg k) (writeBlock_clear k) rfl
    refine ⟨_, congrArg Host.Outcome.next hput, answered_resp, answered_regs, rfl, ?_, fun i hi => ?_⟩
    · rw [answered_thm]
      rfl
    · rw [answered_thm]
      exact suspectClr_bit k data s.blk hi
  case early =>
    have hack : tripAck data s = (.badArg, s) := by
      have hwait : (s.blk.thm.safe && s.blk.thm.resumeOk && !s.blk.thm.inStart) = false := by
        simpa [Bool.and_eq_true, and_assoc] using hno
      rw [tripAck, hgo, hwait]
      rfl
    exact ⟨_, congrArg Host.Outcome.next (put_tripAck hw hack rfl), answered_resp, answered_thm .., answered_ports, rfl⟩
  case resumed =>
    obtain ⟨t, hresume, hstep, hthm, hdetect⟩ := thermalResume_cold hport hoff hengs
    have hack : tripAck data s = (.ok, s.upd t) := by
      simp only [tripAck, hgo, hsafe, hcool, hstart, Bool.not_true, Bool.false_eq_true, if_false, Bool.not_false, Bool.and_self, if_true,
        hresume]
    refine ⟨_, congrArg Host.Outcome.next (put_tripAck hw hack hstep), answered_resp, ?_, ?_, ?_, ?_, fun p => ?_, rfl⟩
    case refine_5 =>
      rw [answered_ports]
      exact hdetect p
    all_goals rw [answered_thm, State.upd_blk, hthm]; rfl

end

section
/-! SUPPORT. What a new raise leaves in Sage's record (R456, R457, R460), and the state that the entry of the safe state leaves
(R469). -/

namespace Sys2Proof.Machine

open Sys2Proof

variable {b : Block} {src unit : Nat} {detail : Word}

/-! ### The latch (R456 step 1) -/

/-- Sage with another first-fault latch. -/
def withLatch (g x : Sage) : Sage :=
  { g with
    latched := x.latched, overflow := x.overflow, source := x.source, unit := x.unit, reaction := x.reaction, detail := x.detail
    time := x.time, latchTick := x.latchTick }

/-- The latch step changes the latch, and of the registers nothing. -/
theorem latchStep_latch (src unit : Nat) (detail : Word) (b : Block) :
    (latchStep src unit detail b).sage = withLatch b.sage (latchStep src unit detail b).sage
      ∧ (latchStep src unit detail b).regs = b.regs := by
  unfold latchStep
  split
  · exact ⟨rfl, rfl⟩
  · dsimp only
    split <;> exact ⟨rfl, rfl⟩

theorem latchStep_empty (h : b.sage.latched = false) : latchStep src unit detail b = latchFault src unit detail b := by
  rw [latchStep, h]
  rfl

theorem latchStep_full (h : b.sage.latched = true) : (latchStep src unit detail b).sage.overflow = true := by
  rw [latchStep, h]
  rfl

/-- Outside the tick of the raise that the latch holds, the events that wait stay as they are. -/
theorem latchStep_ports (h : b.sage.latched = true → b.sage.latchTick ≠ b.now) : (latchStep src unit detail b).ports = b.ports := by
  unfold latchStep
  split
  · rfl
  next hfull =>
    have hlate : ¬ (b.sage.latchTick = b.now ∧ src < b.sage.source.toNat) := fun k => h (by simpa using hfull) k.1
    simp only [hlate, if_false]

/-! ### The record of a raise (R456) -/

/-- The block as a raise that is new in its tick latches and counts it. -/
def latchedIn (src unit : Nat) (detail : Word) (b : Block) : Block := latchStep src unit detail (ctrAdd (sageBase + 0x1C) 1 b)

/-- A raise whose source was not pending is noted as pending, with its unit and detail. -/
def noted (src unit : Nat) (detail : Word) (b : Block) : Block :=
  { b with sage := { b.sage with
      tick := b.now, inTick := [(src, unit)], pend := bset b.sage.pend src
      info := mset b.sage.info src none (some { unit := BitVec.ofNat 8 unit, detail := detail }) } }

/-- A raise of a source that is pending sets its overflow bit. -/
def overflowed (src unit : Nat) (b : Block) : Block :=
  { b with sage := { b.sage with tick := b.now, inTick := [(src, unit)], ovf := bset b.sage.ovf src } }

theorem latchedIn_latch (src unit : Nat) (detail : Word) (b : Block) :
    (latchedIn src unit detail b).sage = withLatch b.sage (latchedIn src unit detail b).sage
      ∧ (latchedIn src unit detail b).regs = (ctrAdd (sageBase + 0x1C) 1 b).regs :=
  latchStep_latch src unit detail (ctrAdd (sageBase + 0x1C) 1 b)

theorem latchedIn_pend (src unit : Nat) (detail : Word) (b : Block) : (latchedIn src unit detail b).sage.pend = b.sage.pend :=
  (congrArg Sage.pend (latchedIn_latch src unit detail b).1).trans rfl

theorem record_new (h : freshSource src b) : record src unit detail b = (noted src unit detail (latchedIn src unit detail b), true) := by
  obtain ⟨hpend, htick⟩ := h
  have hnew : (latchStep src unit detail (ctrAdd (sageBase + 0x1C) 1 b)).sage.pend.getLsbD src = false :=
    (congrArg (·.getLsbD src) (latchedIn_pend src unit detail b)).trans hpend
  simp only [record, htick, if_false, List.find?_nil, hnew, Bool.false_eq_true]
  rfl

theorem record_again (htick : b.sage.tick ≠ b.now) (hpend : b.sage.pend.getLsbD src = true) :
    record src unit detail b = (overflowed src unit (latchedIn src unit detail b), false) := by
  have hold : (latchStep src unit detail (ctrAdd (sageBase + 0x1C) 1 b)).sage.pend.getLsbD src = true :=
    (congrArg (·.getLsbD src) (latchedIn_pend src unit detail b)).trans hpend
  simp only [record, htick, if_false, List.find?_nil, hold, if_true]
  rfl

/-! ### The reaction of a raise up to ALERT (R460) -/

@[simp] theorem report_regs (src : Nat) (detail : Word) (own : List OwnEv) (b : Block) : (report src detail own b).regs = b.regs := by
  unfold report
  split
  · exact emit_regs _ _ _
  · exact foldl_keep Block.regs _ (fun _ _ => emit_regs _ _ _) _ _

theorem reportReact_keeps (src : Nat) (detail : Word) (own : List OwnEv) (inj : Bool) (b : Block) :
    (reportReact src detail own inj b).sage = b.sage ∧ (reportReact src detail own inj b).regs = b.regs := by
  unfold reportReact
  split
  · exact ⟨report_sage _ _ _ _, report_regs _ _ _ _⟩
  · exact ⟨rfl, rfl⟩

/-- Sage after the reaction of a raise up to ALERT: ALERT starts the escalation timer, and a raised FS_CLK_REF is outstanding. -/
def reactedSage (src r : Nat) (g : Sage) : Sage :=
  { g with
    nmeRef := g.nmeRef || src == fs .clkRef
    timers := if r = 2 ∧ g.enable = true then (g.timers.filter fun t => t.1 != src) ++ [(src, false)] else g.timers }

/-- Sage with FS_CLK_REF outstanding when that is the source raised (R463). -/
def refNoted (src : Nat) (g : Sage) : Sage := { g with nmeRef := g.nmeRef || src == fs .clkRef }

theorem noteRef_sage (src : Nat) (b : Block) : (noteRef src b).sage = refNoted src b.sage := by
  unfold noteRef refNoted
  split
  next h => simp [h]
  next h => rw [beq_eq_false_iff_ne.mpr h, Bool.or_false]

theorem react_low (own : List OwnEv) (inj : Bool) (hsafe : b.sage.safe = false) (hlow : reactionOf b src ≤ 2) :
    (react src unit detail own inj b).sage = reactedSage src (reactionOf b src) b.sage
      ∧ (react src unit detail own inj b).regs = b.regs := by
  obtain ⟨hsage, hregs⟩ := reportReact_keeps src detail own inj (noteRef src b)
  have hnoted : (noteRef src b).regs = b.regs := by unfold noteRef; split <;> rfl
  rw [noteRef_sage] at hsage
  rw [hnoted] at hregs
  unfold react
  generalize reportReact src detail own inj (noteRef src b) = c at *
  have hno3 : reactionOf b src ≠ 3 := by omega
  have hno4 : reactionOf b src ≠ 4 := by omega
  simp only [hsafe, Bool.false_eq_true, if_false, hno3, hno4]
  by_cases h2 : reactionOf b src = 2 <;> by_cases hen : b.sage.enable = true <;>
    simp [h2, hen, startTimer, reactedSage, refNoted, hsage, hregs]

/-- A reaction 0 reports nothing. -/
theorem react_none (own : List OwnEv) (inj : Bool) (h : reactionOf b src = 0) : (react src unit detail own inj b).ports = b.ports := by
  have hnoted : (noteRef src b).ports = b.ports ∧ reactionOf (noteRef src b) src = reactionOf b src := by
    unfold noteRef
    split <;> exact ⟨rfl, rfl⟩
  have hsilent : ¬ (reactionOf (noteRef src b) src ≥ 1 ∧ (inj = true ∨ (!safeOwn src) = true)) := by
    rw [hnoted.2, h]
    omega
  unfold react
  split
  · rfl
  · simp only [h, reportReact, hsilent, if_false, Nat.reduceEqDiff]
    exact hnoted.1

/-! ### A new raise up to ALERT -/

/-- Sage after a new raise up to ALERT. -/
def raisedSage (src unit : Nat) (detail : Word) (b : Block) : Sage :=
  reactedSage src (reactionOf b src) (noted src unit detail (latchedIn src unit detail b)).sage

/-- What a new raise leaves in the record of Sage and in its counter (R456). -/
def Raised (src unit : Nat) (detail : Word) (b t : Block) : Prop :=
  t.sage = raisedSage src unit detail b ∧ t.regs = (ctrAdd (sageBase + 0x1C) 1 b).regs

theorem noted_reaction (src unit : Nat) (detail : Word) (b : Block) :
    reactionOf (noted src unit detail (latchedIn src unit detail b)) src = reactionOf b src :=
  reactionOf_congr ((congrArg Sage.react (latchedIn_latch src unit detail b).1).trans rfl) src

theorem noted_safe (src unit : Nat) (detail : Word) (b : Block) :
    (noted src unit detail (latchedIn src unit detail b)).sage.safe = b.sage.safe :=
  (congrArg Sage.safe (latchedIn_latch src unit detail b).1).trans rfl

theorem react_raised (own : List OwnEv) (inj : Bool) (hsafe : b.sage.safe = false) (hlow : reactionOf b src ≤ 2) :
    Raised src unit detail b (react src unit detail own inj (noted src unit detail (latchedIn src unit detail b))) := by
  obtain ⟨hsage, hregs⟩ := react_low (b := noted src unit detail (latchedIn src unit detail b)) (unit := unit) (detail := detail) own inj
    ((noted_safe ..).trans hsafe) ((noted_reaction ..).trans_le hlow)
  rw [noted_reaction] at hsage
  exact ⟨hsage, hregs.trans (latchedIn_latch src unit detail b).2⟩

theorem raise_new (own : List OwnEv) (h : freshSource src b) :
    raise src unit detail own b = react src unit detail own false (noted src unit detail (latchedIn src unit detail b)) := by
  unfold raise
  rw [record_new h]

theorem raise_raised (own : List OwnEv) (h : freshSource src b) (hsafe : b.sage.safe = false) (hlow : reactionOf b src ≤ 2) :
    Raised src unit detail b (raise src unit detail own b) := by
  rw [raise_new own h]
  exact react_raised own false hsafe hlow

theorem Raised.recorded {s : State} {t : Block} (h : Raised src unit detail s.blk t) : recorded src unit detail s (s.upd t) := by
  obtain ⟨hsage, hregs⟩ := h
  refine ⟨?_, ?_, ?_, rfl, rfl⟩
  · rw [State.upd_blk, hsage]
    exact congrArg (bset · src) (latchedIn_pend src unit detail s.blk)
  · rw [State.upd_blk, hsage]
    exact mget_mset_same (latchedIn src unit detail s.blk).sage.info src none (some { unit := BitVec.ofNat 8 unit, detail := detail })
  · have hcount : ctr (sageBase + 0x1C) t = ctr (sageBase + 0x1C) (ctrAdd (sageBase + 0x1C) 1 s.blk) := by
      unfold ctr
      rw [hregs]
    rw [State.upd_blk, hcount]
    exact ctr_ctrAdd _ _ _

theorem raisedSage_timers (src unit : Nat) (detail : Word) (b : Block) : (raisedSage src unit detail b).timers =
    if reactionOf b src = 2 ∧ b.sage.enable = true then (b.sage.timers.filter fun t => t.1 != src) ++ [(src, false)]
    else b.sage.timers := by
  obtain ⟨hlatch, -⟩ := latchedIn_latch src unit detail b
  have htimers : (latchedIn src unit detail b).sage.timers = b.sage.timers := (congrArg Sage.timers hlatch).trans rfl
  have henable : (latchedIn src unit detail b).sage.enable = b.sage.enable := (congrArg Sage.enable hlatch).trans rfl
  simp only [raisedSage, reactedSage, noted, htimers, henable]

/-- An empty latch takes the raise (R456). -/
theorem raisedSage_empty (h : b.sage.latched = false) : (raisedSage src unit detail b).latched = true
    ∧ (raisedSage src unit detail b).source = BitVec.ofNat 8 src ∧ (raisedSage src unit detail b).unit = BitVec.ofNat 8 unit
    ∧ (raisedSage src unit detail b).detail = detail ∧ (raisedSage src unit detail b).time = b.time
    ∧ (raisedSage src unit detail b).reaction = BitVec.ofNat 3 (reactionOf b src) := by
  have hlatched : latchedIn src unit detail b = latchFault src unit detail (ctrAdd (sageBase + 0x1C) 1 b) := latchStep_empty h
  simp only [raisedSage, hlatched]
  exact ⟨rfl, rfl, rfl, rfl, rfl, rfl⟩

theorem raisedSage_overflow (h : b.sage.latched = true) : (raisedSage src unit detail b).overflow = true :=
  latchStep_full (b := ctrAdd (sageBase + 0x1C) 1 b) h

/-- A raise that is recorded only, outside the tick of the raise that the latch holds, leaves the ports (R456). -/
theorem raise_silent (own : List OwnEv) (h : freshSource src b) (hzero : reactionOf b src = 0) (htick : b.sage.latchTick ≠ b.now) :
    (raise src unit detail own b).ports = b.ports := by
  rw [raise_new own h, react_none own false ((noted_reaction ..).trans hzero)]
  exact latchStep_ports (b := ctrAdd (sageBase + 0x1C) 1 b) fun _ => htick

/-! ### A raise of a source that is pending -/

theorem raise_again (own : List OwnEv) (htick : b.sage.tick ≠ b.now) (hpend : b.sage.pend.getLsbD src = true) :
    raise src unit detail own b = overflowed src unit (latchedIn src unit detail b) := by
  have hlowered : lowered src unit b = none := if_neg fun h => htick h.1
  unfold raise
  rw [hlowered, record_again htick hpend]

theorem again_keeps (src unit : Nat) (detail : Word) (b : Block) :
    (overflowed src unit (latchedIn src unit detail b)).sage.pend = b.sage.pend
      ∧ (overflowed src unit (latchedIn src unit detail b)).sage.info = b.sage.info
      ∧ (overflowed src unit (latchedIn src unit detail b)).sage.ovf = bset b.sage.ovf src
      ∧ (ctr (sageBase + 0x1C) (overflowed src unit (latchedIn src unit detail b))).toNat
        = min ctrMax ((ctr (sageBase + 0x1C) b).toNat + 1)
      ∧ ∀ q : PortId, samePort b.ports[q] (overflowed src unit (latchedIn src unit detail b)).ports[q] := by
  obtain ⟨hlatch, hregs⟩ := latchedIn_latch src unit detail b
  have hcount : ctr (sageBase + 0x1C) (overflowed src unit (latchedIn src unit detail b))
      = ctr (sageBase + 0x1C) (ctrAdd (sageBase + 0x1C) 1 b) := congrArg (fun r : Regs => mget r.ctr (sageBase + 0x1C) 0) hregs
  refine ⟨latchedIn_pend .., (congrArg Sage.info hlatch).trans rfl, congrArg (bset · src) ((congrArg Sage.ovf hlatch).trans rfl),
    by rw [hcount, ctr_ctrAdd], (latchStep_quiet src unit detail (ctrAdd (sageBase + 0x1C) 1 b)).1.2⟩

/-! ### The safe state (R469) -/

/-- The state of a port in the safe state. -/
def safeSt (p : PortId) : PState := if p.val = 0 then .detect else .disabled

theorem disablePort_same (p : PortId) (b : Block) : (disablePort p b).ports[p].st = .disabled :=
  congrArg Port.st (modPort_same _ p portDisabled)

theorem disablePort_other {p q : PortId} (h : q ≠ p) (b : Block) : (disablePort p b).ports[q] = b.ports[q] :=
  (modPort_other _ portDisabled h).trans ((modPort_other _ newLink h).trans (modPort_other _ _ h))

theorem detectPort_same (p : PortId) (b : Block) : (detectPort p b).ports[p].st = .detect := by
  unfold detectPort
  dsimp only
  split <;> exact congrArg Port.st (modPort_same _ p portDetect)

theorem detectPort_other {p q : PortId} (h : q ≠ p) (b : Block) : (detectPort p b).ports[q] = b.ports[q] := by
  have hend : (modPort p portDetect (endLink p b)).ports[q] = b.ports[q] :=
    (modPort_other _ portDetect h).trans ((modPort_other _ newLink h).trans (modPort_other _ _ h))
  unfold detectPort
  dsimp only
  split <;> exact hend

theorem safePorts_st (b : Block) (p : PortId) : (safePorts b).ports[p].st = safeSt p := by
  refine (forAll_each (I := fun _ => True) (Pre := fun _ _ => True) (Post := fun p c => c.ports[p].st = safeSt p)
    trivial (fun _ => trivial) (fun p c _ _ => ⟨trivial, ?_⟩) fun p q c hq _ => ⟨id, ?_⟩).2 p
  · by_cases hp : p.val = 0
    · rw [if_pos hp, safeSt, if_pos hp, detectPort_same]
    · rw [if_neg hp, safeSt, if_neg hp]
      split
      next hdis => simpa using hdis
      next => exact disablePort_same p c
  · intro hst
    split
    · rwa [detectPort_other hq]
    · split
      · exact hst
      · rwa [disablePort_other hq]

theorem record_st (src unit : Nat) (detail : Word) (b : Block) (p : PortId) :
    (record src unit detail b).1.ports[p].st = b.ports[p].st := by
  have hport := (record_quiet src unit detail b).1.2 p
  unfold samePort at hport
  rw [hport]

/-- The port changes of the safe state's entry are recorded and no more. -/
theorem portsDown_record {α : Type} (g : Block → α) (before : Vector Port 16) (hg : ∀ unit detail b,
    g (record (fs .lnkDegrade) unit detail b).1 = g b) (f : Nat → PortId → Word) (b : Block) :
    g (portsDown before (fun code p b => (record (fs .lnkDegrade) p.val (f code p) b).1) b) = g b := by
  refine forAll_keep b g _ fun p c => ?_
  split
  · split
    · exact hg _ _ _
    · rfl
  · split
    · rfl
    · exact hg _ _ _

theorem record_start (src unit : Nat) (detail : Word) (b : Block) : (record src unit detail b).1.start = b.start := by
  rw [(record_quiet src unit detail b).1.1]

theorem record_timers (src unit : Nat) (detail : Word) (b : Block) : (record src unit detail b).1.sage.timers = b.sage.timers := by
  have hlatch := (congrArg Sage.timers (latchedIn_latch src unit detail b).1).trans rfl
  unfold record
  dsimp only
  split
  · split
    · split <;> rfl
    · rfl
  · split <;> exact hlatch

@[simp] theorem sendLastEvent_start (nme : Bool) (e : Ev) (p : PortId) (b : Block) : (sendLastEvent nme e p b).start = b.start := by
  unfold sendLastEvent
  split <;> rfl

theorem safePorts_start (b : Block) : (safePorts b).start = b.start := by
  refine forAll_keep b Block.start _ fun p c => ?_
  split
  · unfold detectPort
    dsimp only
    split <;> rfl
  · split <;> rfl

theorem cutBist_start (f : Nat → Bool) (b : Block) : (cutBist f b).start = b.start := by
  unfold cutBist
  split
  · split <;> rfl
  · rfl

/-- What the entry of the safe state leaves (R469, R470). -/
structure Entered (b t : Block) : Prop where
  safe : t.sage.safe = true
  timers : t.sage.timers = []
  held : t.start.supHeld = true
  lockstep : t.start.lockstepOk = b.start.lockstepOk
  ports : ∀ p : PortId, t.ports[p].st = safeSt p

/-- The block as the entry of the safe state begins. -/
def safeBegun (b : Block) : Block :=
  discardPend { b with
    sage := { b.sage with safe := true, safeAt := b.now, timers := [] }, start := { b.start with supHeld := true }
    clk := { b.clk with queue := [] } }

/-- The last events are on their way, with event `e`. -/
def safeTold (e : Ev) (b : Block) : Block := forAll 16 (sendSafeEvent e) (safeBegun b)

/-- The ports are down, and their changes recorded. -/
def safeDown (e : Ev) (b : Block) : Block :=
  portsDown (safeTold e b).ports (fun code p b => (record (fs .lnkDegrade) p.val (portEvent code p 2 0).lo b).1)
    (safePorts (cutBist (fun _ => true) (safeTold e b)))

/-- Engines are held, and channels on their way to self-refresh. -/
def safeHeld (b : Block) : Block := allToSelfRefresh { b with engs := b.engs.map holdEngine }

/-- Event 0x0103. -/
def safeEvent (src : Nat) (detail : Word) (byEsc self : Bool) : Ev :=
  { code := 0x0103, lo := word [(src, 0), (b2n byEsc, 8), (b2n self, 9)], hi := detail, nme := true }

theorem enterSafe_eq {byEsc self : Bool} (h : b.sage.safe = false) :
    enterSafe src detail byEsc self b = stopBoot (safeStage (safeHeld (safeDown (safeEvent src detail byEsc self) b))) :=
  if_neg (ne_true_of_eq_false h)

theorem safeTold_keeps (e : Ev) (b : Block) : (safeTold e b).sage = (safeBegun b).sage ∧ (safeTold e b).start = (safeBegun b).start :=
  ⟨forAll_keep _ Block.sage _ fun p c => sendLastEvent_sage c true e p,
    forAll_keep _ Block.start _ fun p c => sendLastEvent_start true e p c⟩

theorem safeDown_entered (e : Ev) (b : Block) : Entered b (safeDown e b) := by
  obtain ⟨hsage, hstart⟩ := safeTold_keeps e b
  unfold safeDown
  generalize safeTold e b = c at *
  have hdown : (safePorts (cutBist (fun _ => true) c)).sage = (safeBegun b).sage := by rw [safePorts_sage, cutBist_sage, hsage]
  have hbegun : (safePorts (cutBist (fun _ => true) c)).start = (safeBegun b).start := by rw [safePorts_start, cutBist_start, hstart]
  have hst (p : PortId) := safePorts_st (cutBist (fun _ => true) c) p
  generalize safePorts (cutBist (fun _ => true) c) = d at *
  constructor
  case safe =>
    rw [portsDown_record (·.sage.safe) _ (fun unit detail b => (record_quiet _ unit detail b).2.2.1), hdown]
    rfl
  case timers =>
    rw [portsDown_record (·.sage.timers) _ (fun unit detail b => record_timers _ unit detail b), hdown]
    rfl
  case held =>
    rw [portsDown_record (·.start.supHeld) _ (fun unit detail b => by rw [record_start]), hbegun]
    rfl
  case lockstep =>
    rw [portsDown_record (·.start.lockstepOk) _ (fun unit detail b => by rw [record_start]), hbegun]
    rfl
  case ports =>
    intro p
    rw [portsDown_record (·.ports[p].st) _ (fun unit detail b => record_st _ unit detail b p)]
    exact hst p

theorem Entered.mono {c t : Block} (h : Entered b c) (hsage : t.sage = c.sage) (hheld : t.start.supHeld = c.start.supHeld)
    (hlock : t.start.lockstepOk = c.start.lockstepOk) (hports : t.ports = c.ports) : Entered b t := by
  obtain ⟨safe, timers, held, lockstep, ports⟩ := h
  constructor
  case safe => rw [hsage, safe]
  case timers => rw [hsage, timers]
  case held => rw [hheld, held]
  case lockstep => rw [hlock, lockstep]
  case ports => rwa [hports]

theorem enterSafe_entered {byEsc self : Bool} (h : b.sage.safe = false) : Entered b (enterSafe src detail byEsc self b) := by
  rw [enterSafe_eq h]
  have hdown := safeDown_entered (safeEvent src detail byEsc self) b
  generalize safeDown (safeEvent src detail byEsc self) b = c at *
  have hheld : Entered b (safeHeld c) := hdown.mono rfl rfl rfl rfl
  generalize safeHeld c = d at *
  have hstage : Entered b (safeStage d) := by
    unfold safeStage
    split
    · exact hheld
    · exact hheld.mono rfl rfl rfl rfl
  unfold stopBoot
  split
  · exact hstage.mono rfl rfl rfl rfl
  · exact hstage

/-- The block from which a raise of a source that takes no unit out of service enters the safe state. -/
def reportedOut (src unit : Nat) (detail : Word) (own : List OwnEv) (inj : Bool) (b : Block) : Block :=
  isolated src unit (reportReact src detail own inj (noteRef src b))

theorem reportedOut_keeps (own : List OwnEv) (inj : Bool) :
    (reportedOut src unit detail own inj b).sage.safe = b.sage.safe ∧ (reportedOut src unit detail own inj b).start = b.start := by
  have hnoted : (noteRef src b).start = b.start := by unfold noteRef; split <;> rfl
  have hreported := (quietly_reportReact src detail own inj (noteRef src b)).1
  constructor
  · rw [reportedOut, isolated_sage, (reportReact_keeps ..).1, noteRef_sage]
    rfl
  · rw [reportedOut, isolated, emit_start, hreported]
    exact hnoted

theorem isolate_none {f : Source} (hf : sourceOf src = some f) (hno : f.isolates = false) : isolate src unit b = isolated src unit b := by
  rw [isolate, hf]
  simp only [hno, Bool.not_false, if_true]

/-- A raise of reaction SAFE, of a source that takes no unit out of service, enters the safe state (R460). -/
theorem react_enters {f : Source} (own : List OwnEv) (hsafe : b.sage.safe = false) (hfour : reactionOf b src = 4)
    (hf : sourceOf src = some f) (hno : f.isolates = false) : Entered b (react src unit detail own false b) := by
  obtain ⟨ksafe, kstart⟩ := reportedOut_keeps (src := src) (unit := unit) (detail := detail) (b := b) own false
  have hreact : react src unit detail own false b
      = enterSafe src detail false (src == fs .sageSelf && !false) (reportedOut src unit detail own false b) := by
    simp only [react, hsafe, hfour, isolate_none hf hno, Bool.false_eq_true, if_false, if_true, Nat.reduceEqDiff]
    rfl
  obtain ⟨safe, timers, held, lockstep, ports⟩ := enterSafe_entered (src := src) (detail := detail) (byEsc := false)
    (self := src == fs .sageSelf && !false) (ksafe.trans hsafe)
  rw [hreact]
  exact ⟨safe, timers, held, lockstep.trans (by rw [kstart]), ports⟩

theorem raise_enters {f : Source} (own : List OwnEv) (h : freshSource src b) (hsafe : b.sage.safe = false)
    (hfour : reactionOf b src = 4) (hf : sourceOf src = some f) (hno : f.isolates = false) :
    Entered b (raise src unit detail own b) := by
  obtain ⟨safe, timers, held, lockstep, ports⟩ := react_enters (b := noted src unit detail (latchedIn src unit detail b)) (unit := unit)
    (detail := detail) own ((noted_safe ..).trans hsafe) ((noted_reaction ..).trans hfour) hf hno
  have hstart : (latchedIn src unit detail b).start = b.start := by
    rw [latchedIn, (latchStep_quiet _ _ _ _).1.1]
    rfl
  rw [raise_new own h]
  exact ⟨safe, timers, held, lockstep.trans (congrArg Start.lockstepOk hstart), ports⟩

/-- What a raise up to ALERT leaves of the units. -/
theorem same_of_quietly {t : Block} (h : quietly b t) :
    t.chans = b.chans ∧ t.engs = b.engs ∧ t.srl = b.srl ∧ ∀ q : PortId, samePort b.ports[q] t.ports[q] :=
  ⟨by rw [h.1], by rw [h.1], by rw [h.1], h.2⟩

theorem Entered.safeEntered {s : State} {t : Block} (h : Entered b t) : safeEntered (s.upd t) := ⟨h.safe, h.held, h.timers, h.ports⟩

/-! ### The commands that raise -/

theorem ownEvent_quiet (src unit : Nat) (detail : Word) (b : Block) : ∃ n, (ownEvent src unit detail b).2 = { b with fresh := n } := by
  unfold ownEvent
  split
  · exact ⟨b.fresh, rfl⟩
  · exact ⟨_, rfl⟩

/-- The block as a lockstep fault notes it in the start (R390). -/
def lockstepNoted (u : Bool) (b : Block) : Block :=
  let c := if u then b else { b with start := { b.start with lockstepOk := false } }
  if c.starting then { c with start := { c.start with reason := 5, lastFail := c.start.stage } } else c

theorem lockstepNoted_keeps (u : Bool) (b : Block) : (lockstepNoted u b).sage = b.sage ∧ (lockstepNoted u b).time = b.time
    ∧ (lockstepNoted u b).start.lockstepOk = (u && b.start.lockstepOk) := by
  unfold lockstepNoted
  cases u <;> simp only [Bool.false_eq_true, if_false, if_true] <;> split <;> exact ⟨rfl, rfl, rfl⟩

/-- A stalled transfer stays in the fabric (R21). -/
theorem stallTransfer_fabric (a r : Nat) (b : Block) : ∃ l, stallTransfer a r b = { b with fabric := l } := by
  unfold stallTransfer
  dsimp only
  split
  · exact ⟨b.fabric, rfl⟩
  · exact ⟨_, rfl⟩

/-- FAULT_RAISE of a source that exists is its raise, whose own event's free parts are drawn first. -/
theorem faultRaise_raises (h5 : 5 ≤ b.start.step) (hsome : (sourceOf src).isSome = true) (h0 : src ≠ 0) :
    ∃ own n, faultRaise src unit detail b = raise src unit detail own { b with fresh := n } := by
  obtain ⟨n, hn⟩ := ownEvent_quiet src unit detail b
  have hgo : (decide (b.start.step < 5) || (sourceOf src).isNone) = false := by
    rw [decide_eq_false (by omega), Bool.false_or, Option.isNone_eq_false_iff]
    exact hsome
  exact ⟨(ownEvent src unit detail b).1, n, by rw [faultRaise, hgo, ← hn]; exact if_neg h0⟩

end Sys2Proof.Machine

open Sys2Proof Sys2Proof.Machine

/-- Settles O55: a new raise up to ALERT leaves `raisedSage`, one whose source is pending `overflowed`, and one of reaction 4 the safe
state (`raise_enters`), for none of the sources that name it takes a unit out of service. -/
theorem sageRecordsRaises : Obligations.SageRecordsRaises := by
  intro s h5 hsafe same
  refine ⟨fun src u detail => ⟨fun hnone => ?reserved, fun h0 hsome htick => ⟨fun hpend hlow => ?fresh, fun hpend => ?again⟩⟩,
    fun hfresh hfour => ?self, fun u pc hfresh hfour => ?lockstep, fun pc hfresh hfour hdone hstarting hheld => ?watchdog,
    fun a r ha hr hfresh hlow => ?stall⟩
  case reserved =>
    have hstays : faultRaise src.toNat u.toNat detail s.blk = s.blk := by
      rw [faultRaise, hnone]
      simp
    exact congrArg (fun b => Host.Outcome.next (s.upd b)) hstays
  case fresh =>
    obtain ⟨own, n, hraise⟩ := faultRaise_raises (b := s.blk) (unit := u.toNat) (detail := detail) h5 hsome
      fun h => h0 (BitVec.eq_of_toNat_eq h)
    have hnew : freshSource src.toNat { s.blk with fresh := n } := ⟨hpend, htick⟩
    have hraised := raise_raised (unit := u.toNat) (detail := detail) own hnew hsafe hlow
    have hsame := same_of_quietly (raise_quiet u.toNat detail own (b := { s.blk with fresh := n }) hlow)
    have hrecorded := hraised.recorded (s := s.upd { s.blk with fresh := n })
    refine ⟨_, congrArg (fun b => Host.Outcome.next (s.upd b)) hraise, hrecorded, hsame, fun hempty => ?_,
      fun hfull => ?_, ?_, fun hzero hlate => raise_silent own hnew hzero hlate⟩
    all_goals rw [State.upd_blk, hraised.1]
    · obtain ⟨hlatched, hsource, hunit, hdetail, htime, hreaction⟩ := raisedSage_empty (src := src.toNat) (unit := u.toNat)
        (detail := detail) (b := { s.blk with fresh := n }) hempty
      refine ⟨hlatched, hsource.trans (BitVec.ofNat_toNat ..), hunit.trans (BitVec.ofNat_toNat ..), hdetail, htime, ?_⟩
      rw [hreaction, BitVec.toNat_ofNat]
      exact Nat.mod_eq_of_lt (lt_of_le_of_lt hlow (by decide))
    · exact raisedSage_overflow hfull
    · exact raisedSage_timers _ _ _ _
  case again =>
    obtain ⟨own, n, hraise⟩ := faultRaise_raises (b := s.blk) (unit := u.toNat) (detail := detail) h5 hsome
      fun h => h0 (BitVec.eq_of_toNat_eq h)
    have hagain := raise_again (unit := u.toNat) (detail := detail) (b := { s.blk with fresh := n }) own htick hpend
    obtain ⟨hpends, hinfo, hovf, hcount, hports⟩ := again_keeps src.toNat u.toNat detail { s.blk with fresh := n }
    exact ⟨_, congrArg (fun b => Host.Outcome.next (s.upd b)) (hraise.trans hagain), rfl, hpends, hovf, hports, hinfo, hcount⟩
  case self =>
    have hentered := raise_enters (b := { s.blk with sage := { s.blk.sage with selfFault := true } }) (unit := 0x57) (detail := 0) []
      hfresh hsafe hfour rfl rfl
    have hself : selfFault s.blk = raise (fs .sageSelf) 0x57 0 [] { s.blk with sage := { s.blk.sage with selfFault := true } } :=
      if_neg (Nat.not_lt.mpr h5)
    have hkept := (raise_fresh (b := { s.blk with sage := { s.blk.sage with selfFault := true } }) (src := fs .sageSelf) (unit := 0x57)
      (detail := 0) [] (by decide) ⟨by decide, by decide⟩ hfresh).2
    rw [← hself] at hentered hkept
    exact ⟨_, rfl, hentered.safeEntered, hkept, rfl⟩
  case lockstep =>
    obtain ⟨hsage, htime, hlock⟩ := lockstepNoted_keeps u s.blk
    have hsource : sourceOf (if u then fs .supMemUe else fs .supLockstep) = some ⟨4, none, false, true, true⟩ := by cases u <;> rfl
    have hnew : freshSource (if u then fs .supMemUe else fs .supLockstep) (lockstepNoted u s.blk) := by
      rwa [freshSource, Block.now, hsage, htime]
    have hentered := raise_enters (unit := 0x53) (detail := pc) [] hnew (by rw [hsage, hsafe])
      (by rw [reactionOf_congr (congrArg Sage.react hsage), hfour]) hsource rfl
    have hexec : exec (.lockstepMismatch u pc) s
        = .next (s.upd (raise (if u then fs .supMemUe else fs .supLockstep) 0x53 pc [] (lockstepNoted u s.blk))) :=
      congrArg (fun b => Host.Outcome.next (s.upd b)) (if_neg (Nat.not_lt.mpr h5))
    exact ⟨_, hexec, hentered.safeEntered, rfl, hentered.lockstep.trans hlock⟩
  case watchdog =>
    have hraise := raise_enters (unit := 0x53) (detail := pc) [] hfresh hsafe hfour rfl rfl
    have hexec : exec (.supervisorWatchdogExpiry pc) s = .next (s.upd (raise (fs .supWdog) 0x53 pc [] s.blk)) := by
      refine congrArg (fun b => Host.Outcome.next (s.upd b)) ?_
      simp only [hstarting, hdone, hheld, Bool.false_eq_true, if_false, Bool.not_false, Bool.and_self, if_true]
    exact ⟨_, hexec, hraise.safeEntered, rfl⟩
  case stall =>
    obtain ⟨fabric, hstall⟩ := stallTransfer_fabric a.toNat r.toNat s.blk
    have hraise : fabricStall a.toNat r.toNat s.blk
        = raise (fs .fabStall) r.toNat (word [(r.toNat, 0), (a.toNat, 8)]) [] { s.blk with fabric := fabric } := by
      have hgo : (decide (s.blk.start.step < 5) || quiesced s.blk a.toNat || quiesced s.blk r.toNat) = false := by
        rw [ha, hr, decide_eq_false (Nat.not_lt.mpr h5)]
        rfl
      rw [fabricStall, hgo, ← hstall]
      rfl
    have hraised := raise_raised (unit := r.toNat) (detail := word [(r.toNat, 0), (a.toNat, 8)]) []
      (b := { s.blk with fabric := fabric }) hfresh hsafe hlow
    have hsame := same_of_quietly (raise_quiet r.toNat (word [(r.toNat, 0), (a.toNat, 8)]) [] (b := { s.blk with fabric := fabric }) hlow)
    have hrecorded := hraised.recorded (s := s.upd { s.blk with fabric := fabric })
    exact ⟨_, congrArg (fun b => Host.Outcome.next (s.upd b)) hraise, hrecorded, hsame⟩

end

section
/-! SUPPORT. Escalation, SAGE_CLEAR and SAGE_INJECT (R458, R459, R464, R478). -/

namespace Sys2Proof.Machine

open Sys2Proof

variable {path : Path} {b : Block} {s : State} {data : Word}

/-! ### Writes of the SAGE block -/

@[simp] theorem answered_sage (path : Path) (k : Nat) (st : Status) (t : State) : (answered path k st t).blk.sage = t.blk.sage :=
  respond_sage _ _ _ _ _

theorem sageRegs : plainReg (sageBase + 0x14) ∧ plainReg (sageBase + 0x20) := by decide

theorem writeBlock_sage {o : Nat} (ho : o < 0x1000) : writeBlock path (sageBase + o) data b = sageWrite o data b := by
  have hbase : baseOf (sageBase + o) = sageBase := baseOf_add (by decide) ho
  simp only [writeBlock, hbase, Nat.add_sub_cancel_left]
  rfl

/-- SAGE_CLEAR's word for a source, or for all. -/
def clearWord (all : Bool) (src : Byte) : Word := word [(1, 9), (b2n all, 8), (src.toNat, 0)]

theorem clearWord_fields (all : Bool) (src : Byte) : (clearWord all src).getLsbD 9 = true ∧ (clearWord all src).getLsbD 8 = all
    ∧ wfield (clearWord all src) 7 0 = src.toNat := by
  revert all src
  decide +kernel

/-- SAGE_INJECT's word for a source. -/
def injectWord (src : Byte) : Word := word [(1, 8), (src.toNat, 0)]

theorem injectWord_fields (src : Byte) : (injectWord src).getLsbD 8 = true ∧ wfield (injectWord src) 7 0 = src.toNat := by
  revert src
  decide +kernel

/-- The block with SAGE_CLEAR stored. -/
def clearStored (all : Bool) (src : Byte) (b : Block) : Block :=
  setLive (sageBase + 0x14) (clearWord all src &&& rwMask (sageBase + 0x14)) b

/-! ### One source -/

/-- Sage with its latch emptied when it holds source `n` (R458). -/
def latchEmptied (n : Nat) (g : Sage) : Sage :=
  if g.latched && g.source.toNat == n then
    { g with latched := false, overflow := false, source := 0, unit := 0xFF, reaction := 0, detail := 0, time := 0 }
  else g

/-- Sage with source `n` cleared. -/
def clearedSage (n : Nat) (g : Sage) : Sage :=
  { latchEmptied n g with
    timers := g.timers.filter fun t => t.1 != n
    pend := bclr g.pend n, ovf := bclr g.ovf n, esc := bclr g.esc n
    info := mset g.info n none none, inTick := g.inTick.filter fun r => r.1 != n
    nmeRef := g.nmeRef && n != fs .clkRef }

/-- A source that is not pending, and FS_SAGE_SELF, are left as they are. -/
theorem clearSource_idle {n : Nat} (h : n = 0 ∨ b.sage.pend.getLsbD n = false) : clearSource n b = b := by
  rw [clearSource, if_pos]
  rcases h with h | h <;> simp [h, -BitVec.getLsbD_eq_getElem]

/-- A pending source is cleared; the banks that a table fault stopped go on with it. -/
theorem clearSource_pending {n : Nat} (h0 : n ≠ 0) (hpend : b.sage.pend.getLsbD n = true) : clearSource n b =
    if n = fs .chnTable then resumeBanks { b with sage := clearedSage n b.sage } else { b with sage := clearedSage n b.sage } := by
  have hgo : ¬ (n = 0 || !b.sage.pend.getLsbD n) = true := by simp [h0, hpend, -BitVec.getLsbD_eq_getElem]
  unfold clearSource
  rw [if_neg hgo]
  unfold emptyLatch clearedSage latchEmptied
  cases hlatch : b.sage.latched && b.sage.source.toNat == n
  · simp only [dropTimer, hlatch, Bool.false_eq_true, if_false]
  · simp only [dropTimer, hlatch, if_true]

/-- Clearing leaves the block, but for Sage and the banks that a table fault stopped. -/
theorem clearSource_keeps (n : Nat) (b : Block) : (clearSource n b).start = b.start ∧ (clearSource n b).ports = b.ports
    ∧ (n ≠ fs .chnTable → (clearSource n b).chans = b.chans)
    ∧ (clearSource n b).sage = if n ≠ 0 ∧ b.sage.pend.getLsbD n = true then clearedSage n b.sage else b.sage := by
  by_cases hgo : n ≠ 0 ∧ b.sage.pend.getLsbD n = true
  · rw [clearSource_pending hgo.1 hgo.2, if_pos hgo]
    split
    next h => exact ⟨rfl, rfl, fun k => absurd h k, rfl⟩
    next => exact ⟨rfl, rfl, fun _ => rfl, rfl⟩
  · have hidle : n = 0 ∨ b.sage.pend.getLsbD n = false := by
      by_contra h
      obtain ⟨h0, hpend⟩ := not_or.mp h
      exact hgo ⟨h0, by simpa using hpend⟩
    rw [clearSource_idle hidle, if_neg hgo]
    exact ⟨rfl, rfl, fun _ => rfl, rfl⟩

theorem clearSource_sage (n : Nat) (b : Block) :
    (clearSource n b).sage = if n ≠ 0 ∧ b.sage.pend.getLsbD n = true then clearedSage n b.sage else b.sage := by
  obtain ⟨-, -, -, h⟩ := clearSource_keeps n b
  exact h

/-- The latch goes with the source that it holds, and stays with any other. -/
theorem clearedSage_latch (n : Nat) (g : Sage) :
    (g.latched = true → g.source.toNat = n → (clearedSage n g).latched = false ∧ (clearedSage n g).overflow = false)
      ∧ (g.source.toNat ≠ n → (clearedSage n g).latched = g.latched ∧ (clearedSage n g).overflow = g.overflow
        ∧ (clearedSage n g).source = g.source ∧ (clearedSage n g).detail = g.detail) := by
  unfold clearedSage latchEmptied
  refine ⟨fun hlatched hsource => ?_, fun hsource => ?_⟩
  · rw [hlatched, hsource, beq_self_eq_true]
    exact ⟨rfl, rfl⟩
  · rw [beq_eq_false_iff_ne.mpr hsource, Bool.and_false]
    exact ⟨rfl, rfl, rfl, rfl⟩

theorem clearedSage_timers (n : Nat) (g : Sage) : ∀ x ∈ (clearedSage n g).timers, x.1 ≠ n := by
  intro x hx
  simpa using (List.mem_filter.mp hx).2

/-! ### The command -/

theorem exec_sageClear (all : Bool) (src : Byte) (hw : takesWrites path s) : exec (.sageClear path all src) s
    = .next (answered path (sageBase + 0x14) (sageClear all src.toNat (clearStored all src s.blk)).1
      (s.upd (sageClear all src.toNat (clearStored all src s.blk)).2)) := by
  obtain ⟨hgo, hall, hsrc⟩ := clearWord_fields all src
  have hwrite : writeBlock path (sageBase + 0x14) (clearWord all src) s.blk = sageClear all src.toNat (clearStored all src s.blk) := by
    rw [writeBlock_sage (by decide), sageWrite, if_pos rfl, hgo, hall, hsrc]
    rfl
  have hstart : (sageClear all src.toNat (clearStored all src s.blk)).2.start = s.blk.start :=
    (foldl_keep Block.start _ (fun b n => (clearSource_keeps n b).1) _ _).trans rfl
  exact congrArg Host.Outcome.next (put_block hw sageRegs.1 hwrite hstart)

/-! ### Every source -/

theorem bclr_getLsbD {w : Nat} (x : BitVec w) (i j : Nat) : (bclr x i).getLsbD j = (x.getLsbD j && !decide (i = j)) := by
  by_cases hj : j < w
  · rw [bclr, BitVec.getLsbD_and, BitVec.getLsbD_not, BitVec.getLsbD_ofNat, Nat.one_shiftLeft, Nat.testBit_two_pow]
    simp only [hj, decide_true, Bool.true_and]
  · rw [BitVec.getLsbD_of_ge _ _ (by omega), BitVec.getLsbD_of_ge _ _ (by omega), Bool.false_and]

/-- Source `n` waits to be cleared; `L` says that it holds the latch. -/
def SourceHeld (L : Prop) (n : Nat) (g : Sage) : Prop :=
  g.pend.getLsbD n = true ∧ (L → g.latched = true ∧ g.source.toNat = n)

/-- Source `n` is cleared, and the latch with it when it held that. -/
def SourceGone (L : Prop) (n : Nat) (g : Sage) : Prop :=
  g.pend.getLsbD n = false ∧ g.ovf.getLsbD n = false ∧ g.esc.getLsbD n = false ∧ (∀ x ∈ g.timers, x.1 ≠ n)
    ∧ (L → g.latched = false ∧ g.overflow = false)

section All
variable {L : Prop} {m n : Nat} {g : Sage}

theorem SourceHeld.clears (h : SourceHeld L n g) : SourceGone L n (clearedSage n g) := by
  obtain ⟨-, hlatch⟩ := h
  refine ⟨?_, ?_, ?_, clearedSage_timers n g, fun hL => (clearedSage_latch n g).1 (hlatch hL).1 (hlatch hL).2⟩
  all_goals exact (bclr_getLsbD _ n n).trans (by simp)

theorem SourceHeld.other (h : SourceHeld L n g) (hne : m ≠ n) : SourceHeld L n (clearedSage m g) := by
  obtain ⟨hpend, hlatch⟩ := h
  refine ⟨(bclr_getLsbD _ m n).trans (by rw [hpend]; simp [hne]), fun hL => ?_⟩
  obtain ⟨hlatched, hsource⟩ := hlatch hL
  obtain ⟨klatched, -, ksource, -⟩ := (clearedSage_latch m g).2 (by rw [hsource]; exact hne.symm)
  exact ⟨klatched.trans hlatched, (congrArg BitVec.toNat ksource).trans hsource⟩

theorem SourceGone.other (h : SourceGone L n g) (m : Nat) : SourceGone L n (clearedSage m g) := by
  obtain ⟨hpend, hovf, hesc, htimers, hlatch⟩ := h
  refine ⟨(bclr_getLsbD _ m n).trans (by rw [hpend]; rfl), (bclr_getLsbD _ m n).trans (by rw [hovf]; rfl),
    (bclr_getLsbD _ m n).trans (by rw [hesc]; rfl), fun x hx => htimers x (List.mem_of_mem_filter hx), fun hL => ?_⟩
  obtain ⟨hlatched, hover⟩ := hlatch hL
  unfold clearedSage latchEmptied
  rw [hlatched, Bool.false_and]
  exact ⟨hlatched, hover⟩

theorem clearAll_gone (l : List Nat) (b : Block) (h : SourceGone L n b.sage) :
    SourceGone L n (l.foldl (fun b n => clearSource n b) b).sage := by
  induction l generalizing b with
  | nil => exact h
  | cons m l ih =>
    refine ih _ ?_
    rw [clearSource_sage m b]
    split
    · exact h.other m
    · exact h

theorem clearAll_held {l : List Nat} (h0 : n ≠ 0) (hl : n ∈ l) (b : Block) (h : SourceHeld L n b.sage) :
    SourceGone L n (l.foldl (fun b n => clearSource n b) b).sage := by
  induction l generalizing b with
  | nil => exact absurd hl List.not_mem_nil
  | cons m l ih =>
    rw [List.foldl_cons]
    by_cases hm : m = n
    · refine clearAll_gone l _ ?_
      rw [hm, clearSource_sage n b, if_pos ⟨h0, h.1⟩]
      exact h.clears
    · refine ih (List.mem_of_ne_of_mem (Ne.symm hm) hl) _ ?_
      rw [clearSource_sage m b]
      split
      · exact h.other hm
      · exact h

/-- A clear of several sources ends what is pending of them, but for FS_SAGE_SELF (R458). -/
theorem clearAll_pend (l : List Nat) (b : Block) (n : Nat) : (l.foldl (fun b n => clearSource n b) b).sage.pend.getLsbD n
    = (b.sage.pend.getLsbD n && !decide (n ∈ l ∧ n ≠ 0)) := by
  induction l generalizing b with
  | nil => simp
  | cons m l ih =>
    have hstep : (clearSource m b).sage.pend.getLsbD n = (b.sage.pend.getLsbD n && !decide (n = m ∧ n ≠ 0)) := by
      rw [clearSource_sage m b]
      split
      next h =>
        refine (bclr_getLsbD _ m n).trans ?_
        by_cases hm : m = n
        · simp [hm, hm ▸ h.1]
        · simp [hm, Ne.symm hm]
      next h =>
        by_cases hm : n = m
        · subst hm
          by_cases h0 : n = 0
          · simp [h0]
          · rw [Bool.eq_false_iff.mpr fun hp => h ⟨h0, hp⟩]
            rfl
        · simp [hm]
    rw [List.foldl_cons, ih, hstep]
    rcases eq_or_ne n m with rfl | hm
    · by_cases h0 : n = 0 <;> simp [h0]
    · simp [hm]

end All

/-! ### Escalation and injection -/

theorem escalate_second {src : Nat} (hpend : b.sage.pend.getLsbD src = true)
    (hsecond : b.sage.timers.find? (fun t => t.1 == src) = some (src, true)) :
    escalate src b = enterSafe src (infoOf b src).detail true false (dropTimer src b) := by
  have hgo : ¬ (!(dropTimer src b).sage.pend.getLsbD src) = true := by
    rw [show (dropTimer src b).sage.pend = b.sage.pend from rfl, hpend]
    decide
  unfold escalate
  rw [hsecond]
  dsimp only
  rw [if_neg hgo, if_pos rfl]

/-- Sage after the first expiry of a source's timer (R464). -/
def escalatedSage (src : Nat) (g : Sage) : Sage :=
  { g with esc := bset g.esc src, timers := (g.timers.filter fun t => t.1 != src) ++ [(src, true)] }

theorem escalate_first {src : Nat} {f : Source} (hsafe : b.sage.safe = false) (hpend : b.sage.pend.getLsbD src = true)
    (hfirst : b.sage.timers.find? (fun t => t.1 == src) = some (src, false)) (hf : sourceOf src = some f) (hno : f.isolates = false) :
    (escalate src b).sage = escalatedSage src b.sage ∧ (escalate src b).chans = b.chans := by
  have hgo : ¬ (!(dropTimer src b).sage.pend.getLsbD src) = true := by
    rw [show (dropTimer src b).sage.pend = b.sage.pend from rfl, hpend]
    decide
  set c := { dropTimer src b with sage := { (dropTimer src b).sage with esc := bset b.sage.esc src } } with hc
  have hisolated : (isolated src (infoOf b src).unit.toNat c).sage = c.sage ∧ (isolated src (infoOf b src).unit.toNat c).chans = b.chans :=
    ⟨isolated_sage _ _ _, emit_chans _ _ _⟩
  have hescalate : escalate src b = startTimer src true (isolated src (infoOf b src).unit.toNat c) := by
    have hopen : ¬ (isolated src (infoOf b src).unit.toNat c).sage.safe = true := by
      rw [hisolated.1]
      exact ne_true_of_eq_false hsafe
    unfold escalate
    rw [hfirst]
    dsimp only
    rw [if_neg hgo, if_neg Bool.false_ne_true, isolate_none hf hno]
    exact if_neg hopen
  rw [hescalate]
  refine ⟨?_, hisolated.2⟩
  have hfilter : ((b.sage.timers.filter fun t => t.1 != src).filter fun t => t.1 != src) = b.sage.timers.filter fun t => t.1 != src := by
    rw [List.filter_filter]
    simp
  rw [startTimer, hisolated.1]
  simp only [hc, dropTimer, hfilter]
  rfl

/-- SAGE_INJECT stores its word with the raise that it makes (R478). -/
theorem exec_sageInject {src : Byte} {st : Status} {t : Block} (hw : takesWrites path s)
    (hinject : sageInject src.toNat s.blk = (st, t)) (hstart : t.start = s.blk.start) : exec (.sageInject path src) s
    = .next (answered path (sageBase + 0x20) st
      (s.upd (if st = .ok then setLive (sageBase + 0x20) (injectWord src &&& rwMask (sageBase + 0x20)) t else t))) := by
  obtain ⟨hgo, hsrc⟩ := injectWord_fields src
  have hwrite : writeBlock path (sageBase + 0x20) (injectWord src) s.blk
      = (st, if st = .ok then setLive (sageBase + 0x20) (injectWord src &&& rwMask (sageBase + 0x20)) t else t) := by
    have hsecond : ¬ (0x20 : Nat) = 0x14 := by decide
    rw [writeBlock_sage (by decide), sageWrite, if_neg hsecond, if_pos rfl, hgo, hsrc, hinject]
    by_cases hst : st = .ok
    · simp [hst, storeNow]
    · simp [hst]
  refine congrArg Host.Outcome.next (put_block hw sageRegs.2 hwrite ?_)
  split <;> exact hstart

end Sys2Proof.Machine

open Sys2Proof Sys2Proof.Machine

/-- Settles O56: a clear of several sources is followed source by source (`SourceHeld`, `SourceGone`), and an injection is the raise of
`react_raised`. -/
theorem sageEscalatesClearsInjects : Obligations.SageEscalatesClearsInjects := by
  refine ⟨fun src s hsafe => ⟨fun hnone => ?untimed, fun hpend => ⟨fun hsecond => ?second, fun f hfirst hf hno => ?first⟩⟩,
    fun path src s hw => ⟨fun h0 hpend htable => ?clears, fun hidle => ?idle, fun href => ?ref, ?all, fun h0 hsome hfresh hlow => ?injects,
      fun hbad => ?refuses⟩⟩
  case untimed =>
    have hstays : escalate src.toNat s.blk = s.blk := by
      unfold escalate
      rw [hnone]
    exact congrArg (fun b => Host.Outcome.next (s.upd b)) hstays
  case second =>
    have hentered : Entered (dropTimer src.toNat s.blk) (enterSafe src.toNat (infoOf s.blk src.toNat).detail true false
      (dropTimer src.toNat s.blk)) := enterSafe_entered hsafe
    exact ⟨_, congrArg (fun b => Host.Outcome.next (s.upd b)) (escalate_second hpend hsecond), hentered.safeEntered, rfl⟩
  case first =>
    obtain ⟨hsage, hchans⟩ := escalate_first hsafe hpend hfirst hf hno
    exact ⟨_, rfl, rfl, congrArg Sage.esc hsage, congrArg Sage.timers hsage, (congrArg Sage.pend hsage).trans rfl, hchans⟩
  case clears =>
    have hcleared := clearSource_sage src.toNat (clearStored false src s.blk)
    have hne : src.toNat ≠ 0 := fun h => h0 (BitVec.eq_of_toNat_eq h)
    rw [if_pos ⟨hne, hpend⟩] at hcleared
    obtain ⟨hholds, hother⟩ := clearedSage_latch src.toNat s.blk.sage
    refine ⟨_, exec_sageClear false src hw, rfl, ?_, ?_, ?_, ?_⟩
    · rw [answered_ports]
      exact (clearSource_keeps ..).2.1
    · rw [answered_chans]
      obtain ⟨-, -, hchans, -⟩ := clearSource_keeps src.toNat (clearStored false src s.blk)
      exact hchans htable
    · rw [answered_resp]
      simp [sageClear, clearList, hne, clearStored, -BitVec.getLsbD_eq_getElem]
    · have hsage : (s.upd (sageClear false src.toNat (clearStored false src s.blk)).2).blk.sage = clearedSage src.toNat s.blk.sage :=
        hcleared
      rw [answered_sage, hsage]
      refine ⟨rfl, rfl, rfl, clearedSage_timers _ _, fun hlatched hsource => hholds hlatched (congrArg BitVec.toNat hsource), fun hsource => ?_⟩
      obtain ⟨hlatched, -, hkept, hdetail⟩ := hother fun h => hsource (BitVec.eq_of_toNat_eq h)
      exact ⟨hlatched, hkept, hdetail⟩
  case idle =>
    have hstays : (sageClear false src.toNat (clearStored false src s.blk)) = (.ok, clearStored false src s.blk) := by
      have hsource : src.toNat = 0 ∨ s.blk.sage.pend.getLsbD src.toNat = false := hidle.imp (congrArg BitVec.toNat) And.left
      have hlate : (src.toNat != 0 && s.blk.sage.esc.getLsbD src.toNat) = false := by
        rcases hidle with h | ⟨-, h⟩
        · rw [h]
          rfl
        · rw [h, Bool.and_false]
      have hcleared : clearSource src.toNat (clearStored false src s.blk) = clearStored false src s.blk := clearSource_idle hsource
      have hlates : ([src.toNat].any fun n => n != 0 && (clearStored false src s.blk).sage.esc.getLsbD n) = false := by
        rw [List.any_cons, List.any_nil, Bool.or_false]
        exact hlate
      refine Prod.ext ?_ hcleared
      exact if_neg (ne_true_of_eq_false hlates)
    refine ⟨_, exec_sageClear false src hw, rfl, ?_, ?_, ?_, ?_⟩ <;> rw [hstays]
    · exact answered_resp
    · exact answered_sage ..
    · exact answered_ports
    · exact answered_chans ..
  case ref =>
    have hcleared := clearSource_sage 24 (clearStored false 24 s.blk)
    rw [if_pos ⟨by decide, href⟩] at hcleared
    refine ⟨_, exec_sageClear false 24 hw, ?_⟩
    rw [answered_sage]
    exact (congrArg Sage.nmeRef hcleared).trans (Bool.and_false _)
  case all =>
    refine ⟨_, exec_sageClear true src hw, rfl, ?_, ?_, fun n hn => ⟨?_, fun h0 hpend => ?_⟩⟩
    · rw [answered_ports]
      exact foldl_keep Block.ports _ (fun b n => (clearSource_keeps n b).2.1) _ _
    · rw [answered_resp]
      rfl
    · rw [answered_sage]
      refine (clearAll_pend (List.range 256) (clearStored true src s.blk) n).trans ?_
      by_cases h0 : n = 0
      · rw [h0]
        simp [clearStored]
      · simp [h0, hn]
    · obtain ⟨-, hovf, hesc, htimers, hlatch⟩ := clearAll_held (L := s.blk.sage.latched = true ∧ s.blk.sage.source.toNat = n) h0
        (List.mem_range.mpr hn) (clearStored true src s.blk) ⟨hpend, id⟩
      rw [answered_sage]
      exact ⟨hovf, hesc, htimers, fun hlatched hsource => hlatch ⟨hlatched, hsource⟩⟩
  case injects =>
    have hgo : (decide (src.toNat = 0) || (sourceOf src.toNat).isNone) = false := by
      have hne : src.toNat ≠ 0 := fun h => h0 (BitVec.eq_of_toNat_eq h)
      rw [decide_eq_false hne, Bool.false_or, Option.isNone_eq_false_iff]
      exact hsome
    obtain ⟨-, -, hsafe, -, -⟩ := id hw
    set c := noted src.toNat 0xFF 0xFFFFFFFF (latchedIn src.toNat 0xFF 0xFFFFFFFF s.blk) with hc
    set t := react src.toNat 0xFF 0xFFFFFFFF [] true c
    have hinject : sageInject src.toNat s.blk = (.ok, t) := by
      rw [sageInject, hgo, record_new hfresh]
      rfl
    have hquiet : quietly s.blk t := by
      have hrecord := (record_quiet src.toNat 0xFF 0xFFFFFFFF s.blk).1
      rw [record_new hfresh] at hrecord
      exact quietly_trans hrecord (react_quiet 0xFF 0xFFFFFFFF [] true ((noted_reaction ..).trans_le hlow))
    obtain ⟨hpend, hinfo, hcount, -, -⟩ := (react_raised (unit := 0xFF) (detail := 0xFFFFFFFF) [] true hsafe hlow).recorded (s := s)
    obtain ⟨hchans, hengs, -, -⟩ := same_of_quietly hquiet
    refine ⟨_, exec_sageInject hw hinject (by rw [hquiet.1]), answered_resp, ⟨?_, ?_, ?_, rfl, rfl⟩, ?_, ?_⟩
    · rw [answered_sage]
      exact hpend
    · rw [answered_sage]
      exact hinfo
    · rw [ctr, answered_regs]
      exact hcount
    · rw [answered_chans]
      exact hchans
    · rw [answered_engs]
      exact hengs
  case refuses =>
    have hinject : sageInject src.toNat s.blk = (.badArg, s.blk) := by
      refine if_pos ?_
      rcases hbad with h | h
      · rw [h]
        rfl
      · rw [h]
        exact Bool.or_true _
    refine ⟨_, exec_sageInject hw hinject rfl, answered_resp, rfl, answered_sage .., answered_regs⟩

end

section
/-! SUPPORT. The OTP commands: writes of OTP_CMD, what a command's start decides, and how one ends (R484, R485, R489, R492). -/

namespace Sys2Proof.Machine

open Sys2Proof

variable {path : Path} {b t : Block} {s : State} {data : Word} {op : BitVec 3}

/-! ### Writes of OTP_CMD -/

@[simp] theorem answered_otp (path : Path) (k : Nat) (st : Status) (t : State) : (answered path k st t).blk.otp = t.blk.otp :=
  respond_otp _ _ _ _ _

theorem writeReg_otpCmd (hw : takesWrites path s) : writeReg path none (BitVec.ofNat 32 (otpBase + 0)) data 15 s
    = ((otpCmdWrite path data s.blk).1, s.upd (otpCmdWrite path data s.blk).2) := by
  obtain ⟨-, -, hsafe, howner, hgood⟩ := id hw
  have hopen : (s.blk.inChive && (baseOf otpBase == srlBase || isEng (baseOf otpBase))) = false := by
    rw [show (baseOf otpBase == srlBase || isEng (baseOf otpBase)) = false from by decide, Bool.and_false]
  have hplain : regAt otpBase ≠ some .counter ∧ otpBase ≠ thmBase + 8 := by decide
  rw [writeReg_live hsafe howner hgood (by decide) (by decide) (by decide) (by decide) (lockedReg_out _ (by decide))]
  simp only [writeLive, checked_good hgood, ite_self, hopen, Bool.false_eq_true, hplain.1, hplain.2, if_false, Nat.add_zero, if_true]

/-- A write of OTP_CMD that is answered at once. -/
theorem put_otpCmd {st : Status} (hw : takesWrites path s) (h : otpCmdWrite path data s.blk = (some st, t))
    (hstart : t.start = s.blk.start) : put path otpBase 0 data s = answered path (otpBase + 0) st (s.upd t) := by
  obtain ⟨hopen, hP0, -⟩ := id hw
  have h5 : ¬ t.start.step < 5 := by
    rw [hstart]
    exact Nat.not_lt.mpr (takesWrites_step hw)
  unfold put pathWrite pathWriteAt
  rw [wakeBy_P0 _ _ hP0, writeReg_otpCmd hw, h, hopen]
  exact if_neg h5

/-- A write of OTP_CMD whose response waits. -/
theorem put_otpCmd_waits (hw : takesWrites path s) (h : otpCmdWrite path data s.blk = (none, t)) (hstart : t.start = s.blk.start) :
    put path otpBase 0 data s = s.upd (deferWrite path (BitVec.ofNat 32 (otpBase + 0)) none t) := by
  obtain ⟨hopen, hP0, -⟩ := id hw
  have h5 : ¬ t.start.step < 5 := by
    rw [hstart]
    exact Nat.not_lt.mpr (takesWrites_step hw)
  unfold put pathWrite pathWriteAt
  rw [wakeBy_P0 _ _ hP0, writeReg_otpCmd hw, h, hopen]
  exact if_neg h5

/-- OTP_CMD keeps the code of a go that is not refused. -/
def otpKept (op : BitVec 3) (b : Block) : Block := setLive otpBase (goWord op.toNat &&& rwMask otpBase) b

theorem goWord_noAbort (op : BitVec 3) : (goWord op.toNat).getLsbD 4 = false := by
  revert op
  decide

theorem otpCmdWrite_go {st : Status} (h : otpGo op path b = (st, t)) :
    otpCmdWrite path (goWord op.toNat) b = (some st, if st = .ok then otpKept op t else t) := by
  obtain ⟨hgo, hop⟩ := goWord_fields op
  rw [otpCmdWrite, hgo, if_pos rfl, goWord_noAbort, hop, BitVec.ofNat_toNat, BitVec.setWidth_eq, h]
  by_cases hst : st = .ok
  · simp [goWrite, hst, storeNow, otpKept]
  · simp [goWrite, hst]

theorem put_otpGo {st : Status} (hw : takesWrites path s) (h : otpGo op path s.blk = (st, t)) (hstart : t.start = s.blk.start) :
    otpStart path op.toNat s = answered path (otpBase + 0) st (s.upd (if st = .ok then otpKept op t else t)) := by
  refine put_otpCmd hw (otpCmdWrite_go h) ?_
  split <;> exact hstart

/-! ### The end of a command (R489 step 7) -/

/-- OTP after a command has ended. -/
def finished (op : BitVec 3) (w : BitVec 10) (st : Status) (cause : BitVec 4) (part : Bool) (o : Otp) : Otp :=
  { o with
    run := none, seq := o.seq + 1, partialW := part, resOp := op, resWord := w, cause := cause, status := st
    token := if usesToken op then [] else o.token
    claim := if usesToken op then none else o.claim }

theorem otpFinish_eq (op : BitVec 3) (w : Option Nat) (st : Status) (cause : BitVec 4) (part : Bool) (b : Block) :
    otpFinish op w st cause part b = { (wordOr w b).2 with otp := finished op (wordOr w b).1 st cause part b.otp } := by
  cases w <;> rfl

theorem otpFinish_keeps (op : BitVec 3) (w : Option Nat) (st : Status) (cause : BitVec 4) (part : Bool) (b : Block) :
    (otpFinish op w st cause part b).start = b.start
      ∧ (otpFinish op w st cause part b).otp = finished op (wordOr w b).1 st cause part b.otp
      ∧ (otpFinish op w st cause part b).defers = b.defers ∧ (otpFinish op w st cause part b).resp = b.resp := by
  cases w <;> exact ⟨rfl, rfl, rfl, rfl⟩

/-! ### What a go decides (R489, R491 check 1) -/

theorem otpGo_busy {r : OtpRun} (h : b.otp.run = some r) : otpGo op path b = (.badArg, b) := by
  rw [otpGo, h]
  rfl

theorem otpGo_refused (hidle : b.otp.run = none) (h : otpStateOk op path b = false) :
    otpGo op path b = (.ok, otpFinish op (otpNamed b op) .accessError 7 false b) := by
  rw [otpGo, hidle]
  simp only [h]
  rfl

theorem otpGo_invalid (hidle : b.otp.run = none) (h : otpStateOk op path b = true) (hop : op = 0 ∨ op = 6 ∨ op = 7) :
    otpGo op path b = (.ok, otpFinish op (otpNamed b op) .badArg 8 false b) := by
  rw [otpGo, hidle]
  simp only [h, hop, if_true]
  rfl

/-- The run with which a command starts. -/
def otpBegun (op : BitVec 3) (path : Path) (b : Block) : OtpRun :=
  { op := op, path := path, phase := if usesToken op then .checks else .read, word := (otpNamed b op).getD 0
    temp := if op = 5 then baseTemp b else 0 }

theorem otpGo_starts (hidle : b.otp.run = none) (h : otpStateOk op path b = true) (hop : ¬ (op = 0 ∨ op = 6 ∨ op = 7)) :
    otpGo op path b = (.ok, { b with otp := { b.otp with run := some (otpBegun op path b) } }) := by
  rw [otpGo, hidle]
  simp only [h, hop, if_false]
  rfl

theorem otpStateOk_iff : otpStateOk op path b = true ↔ b.start.done = true ∧ b.thm.safe = false
    ∧ (usesToken op = true → b.otp.done = false ∧ ∀ p, b.otp.claim = some p → pathTwp p = pathTwp path)
    ∧ (b.otp.lc = 6 → op = 1 ∨ op = 5) := by
  have hclaim : (match b.otp.claim with | some p => pathTwp p == pathTwp path | none => true) = true
      ↔ ∀ p, b.otp.claim = some p → pathTwp p = pathTwp path := by
    cases b.otp.claim <;> simp
  unfold otpStateOk
  simp only [Bool.and_eq_true, Bool.or_eq_true, Bool.not_eq_true', bne_iff_ne, ne_eq, beq_iff_eq, and_assoc]
  constructor
  · rintro ⟨hdone, hthm, htoken, hlc⟩
    refine ⟨hdone, hthm, fun huses => (htoken.resolve_left (by simp [huses])).imp_right hclaim.mp, fun h6 => ?_⟩
    simpa [h6] using hlc
  · rintro ⟨hdone, hthm, htoken, hlc⟩
    refine ⟨hdone, hthm, ?_, ?_⟩
    · cases huses : usesToken op
      · exact Or.inl rfl
      · exact Or.inr ((htoken huses).imp_right hclaim.mpr)
    · by_cases h6 : b.otp.lc = 6
      · rcases hlc h6 with h | h
        · exact Or.inl (Or.inr h)
        · exact Or.inr h
      · exact Or.inl (Or.inl h6)

/-- A code that names no command leaves the token window (R491). -/
theorem invalid_kept {o x : Otp} {w : BitVec 10} (hidle : o.run = none) (huses : usesToken op = false)
    (h : x = finished op w .badArg 8 false o) : x = { o with
      seq := o.seq + 1, partialW := false, resOp := op, resWord := x.resWord, cause := 8, status := .badArg } := by
  subst h
  simp only [finished, huses, hidle, Bool.false_eq_true, if_false]

/-! ### Reads (R484, R485) -/

/-- A command that reads is in its reading once it has started. -/
theorem otpReading_begun (huses : usesToken op = false) (hrun : b.otp.run = some (otpBegun op path t)) :
    otpReading b op = some (otpBegun op path t) := by
  rw [otpReading, hrun]
  simp [otpBegun, huses]

theorem otpReading_none (h : b.otp.run = none) : otpReading b op = none := by
  rw [otpReading, h]
  rfl

theorem rawReads_congr {c : Block} (r : OtpReads) (hwords : c.otp.words = b.otp.words) (hweak : c.otp.weak = b.otp.weak)
    (hfaint : c.otp.faint = b.otp.faint) (hsealed : c.otp.sealedInc = b.otp.sealedInc) : rawReads c r = rawReads b r := by
  unfold rawReads sealedBlank otpRaw
  rw [hwords, hweak, hfaint, hsealed]

/-- The block once a reading command has started and its go is answered. -/
def readStarted (op : BitVec 3) (path : Path) (s : State) : State :=
  answered path (otpBase + 0) .ok (s.upd (otpKept op { s.blk with otp := { s.blk.otp with run := some (otpBegun op path s.blk) } }))

/-- A reading command starts, and the reads end it. -/
theorem otpReadRow_starts {f : Block → Block} (hw : takesWrites path s) (hidle : s.blk.otp.run = none)
    (hok : otpStateOk op path s.blk = true) (hop : ¬ (op = 0 ∨ op = 6 ∨ op = 7)) :
    otpReadRow path op f s = (readStarted op path s).upd (f (readStarted op path s).blk) := by
  have hput := put_otpGo hw (otpGo_starts hidle hok hop) rfl
  rw [otpReadRow, otpReading_none hidle]
  simp only [Option.isSome_none, Bool.false_eq_true, if_false, hput, if_true]
  rfl

theorem readStarted_otp (op : BitVec 3) (path : Path) (s : State) :
    (readStarted op path s).blk.otp = { s.blk.otp with run := some (otpBegun op path s.blk) } := answered_otp ..

theorem readStarted_resp (op : BitVec 3) (path : Path) (s : State) : (readStarted op path s).blk.resp = .ok := answered_resp

theorem readsOf_single (r : OtpReads) : readsOf [r] r.word = r := by simp [readsOf]

/-- READ of a word whose data can be corrected. -/
theorem otpReadDone_data {r : OtpReads} {run : OtpRun} {d : BitVec 64 × Bool} (hrun : otpReading b 1 = some run) (hword : run.word = r.word)
    (hd : secdedDecode (rawReads b r).1 = some d) : otpReadDone r b = otpFinish 1 (some r.word) .ok 0 false
      { b with otp := { b.otp with info := readInfo (rawReads b r), data := d.1 } } := by
  simp only [otpReadDone, hrun, hword, readsOf_single, hd]

/-- READ of a word whose data cannot be corrected. -/
theorem otpReadDone_poison {r : OtpReads} {run : OtpRun} (hrun : otpReading b 1 = some run) (hword : run.word = r.word)
    (hd : secdedDecode (rawReads b r).1 = none) : ∃ n x, otpReadDone r b = otpFinish 1 (some r.word) .poison 11 false
      { b with fresh := n, otp := { b.otp with info := readInfo (rawReads b r), data := x } } := by
  simp only [otpReadDone, hrun, hword, readsOf_single, hd]
  exact ⟨_, _, rfl⟩

/-! ### Scans (R485) -/

theorem react_table {src unit : Nat} {detail : Word} (own : List OwnEv) (inj : Bool) (h : reactionOf b src ≤ 2) :
    (react src unit detail own inj b).sage.react = b.sage.react := by
  obtain ⟨hsage, -⟩ := reportReact_keeps src detail own inj (noteRef src b)
  rw [noteRef_sage] at hsage
  have htable : (reportReact src detail own inj (noteRef src b)).sage.react = b.sage.react := (congrArg Sage.react hsage).trans rfl
  have hno3 : reactionOf b src ≠ 3 := by omega
  have hno4 : reactionOf b src ≠ 4 := by omega
  unfold react
  simp only [hno3, hno4, if_false]
  split
  · rfl
  · split
    · split <;> exact htable
    · exact htable

/-- A raise up to ALERT leaves the table of reactions (R460). -/
theorem raise_table {src : Nat} (unit : Nat) (detail : Word) (own : List OwnEv) (h : reactionOf b src ≤ 2) :
    (raise src unit detail own b).sage.react = b.sage.react := by
  obtain ⟨-, hreact, -, -⟩ := record_quiet src unit detail b
  unfold raise
  generalize record src unit detail b = x at hreact
  obtain ⟨c, new⟩ := x
  cases new
  · dsimp only
    split
    · have hamend : ∀ (f : BitVec 128 → Bool) g (c : Block), (amendEvents f g c).sage = c.sage := fun _ _ _ => rfl
      rw [amendRaise, foldl_keep Block.sage _ (fun _ _ => hamend _ _ _), hamend]
      exact hreact
    · exact hreact
  · exact (react_table own false (by rw [reactionOf_congr hreact]; exact h)).trans hreact

/-- A word of a scan is flagged MARGINAL at most: no charge changes, and no response (R485). -/
structure ScanKept (b t : Block) : Prop where
  otp : ∃ m, t.otp = { b.otp with marginal := m }
  resp : t.resp = b.resp
  table : t.sage.react = b.sage.react

theorem ScanKept.refl (b : Block) : ScanKept b b := ⟨⟨b.otp.marginal, rfl⟩, rfl, rfl⟩

theorem ScanKept.trans {c : Block} (h : ScanKept b c) (k : ScanKept c t) : ScanKept b t := by
  obtain ⟨m, hm⟩ := h.otp
  obtain ⟨n, hn⟩ := k.otp
  exact ⟨⟨n, by rw [hn, hm]⟩, k.resp.trans h.resp, k.table.trans h.table⟩

theorem otpMarginal_kept (w : Nat) (h : reactionOf b (fs .otpMarginal) ≤ 2) : ScanKept b (otpMarginal w b) := by
  unfold otpMarginal
  split
  · exact .refl b
  · set c : Block := { b with otp := { b.otp with marginal := bset b.otp.marginal w } }
    obtain ⟨hrest, -⟩ := raise_quiet 0x5A (BitVec.ofNat 32 w) [] (b := c) h
    have htable : (otpFault w c).sage.react = b.sage.react := raise_table 0x5A (BitVec.ofNat 32 w) [] (b := c) h
    have hotp : (otpFault w c).otp = c.otp := by
      rw [otpFault, hrest]
    have hresp : (otpFault w c).resp = b.resp := by
      rw [otpFault, hrest]
    exact ⟨⟨_, hotp⟩, hresp, htable⟩

theorem scanWord_kept (l : List OtpReads) (temp : BitVec 16) (w : Nat) (h : reactionOf b (fs .otpMarginal) ≤ 2) :
    ScanKept b (scanWord l temp b w) := by
  unfold scanWord
  dsimp only
  split
  · exact otpMarginal_kept w h
  · exact .refl b

theorem scanWords_kept (l : List OtpReads) (temp : BitVec 16) (ws : List Nat) (h : reactionOf b (fs .otpMarginal) ≤ 2) :
    ScanKept b (ws.foldl (scanWord l temp) b) := by
  induction ws generalizing b with
  | nil => exact .refl b
  | cons w ws ih =>
    have hword := scanWord_kept l temp w h
    exact hword.trans (ih (by rw [reactionOf_congr hword.table]; exact h))

/-- SCAN keeps what it read, and ends OK. -/
theorem otpScanDone_ends {reads : List OtpReads} {run : OtpRun} (hrun : otpReading b 5 = some run)
    (h : reactionOf b (fs .otpMarginal) ≤ 2) : ∃ c l, ScanKept b c
      ∧ otpScanDone reads b = otpFinish 5 none .ok 0 false { c with otp := { c.otp with scans := c.otp.scans ++ [l] } } := by
  simp only [otpScanDone, hrun]
  exact ⟨_, _, scanWords_kept reads run.temp (List.range 1024) h, rfl⟩

/-! ### Aborts (R492) -/

/-- The block with an abort written to OTP_CMD. -/
def abortKept (b : Block) : Block := setLive otpBase (0x10 &&& rwMask otpBase) b

theorem otpCmdWrite_abort (path : Path) (b : Block) : otpCmdWrite path 0x10 b = otpAbort (abortKept b) := rfl

theorem otpAbort_idle (h : b.otp.run = none) : otpAbort b = (some .ok, { b with otp := { b.otp with token := [], claim := none } }) := by
  rw [otpAbort, h]

theorem otpAbort_pulse {r : OtpRun} (hrun : b.otp.run = some r) (hdead : r.dead = false) (hphase : r.phase = .pulse) :
    otpAbort b = (none, { b with otp := { b.otp with run := some { r with abort := true } } }) := by
  simp only [otpAbort, hrun, hdead, hphase, Bool.false_eq_true, if_false, if_true]

theorem otpAbort_early {r : OtpRun} (hrun : b.otp.run = some r) (hdead : r.dead = false) (hphase : r.phase ≠ .pulse) :
    otpAbort b = (some .ok, otpFinish r.op (otpNamed b r.op) .ok 12 false b) := by
  simp only [otpAbort, hrun, hdead, hphase, Bool.false_eq_true, if_false]
  rfl

end Sys2Proof.Machine

open Sys2Proof Sys2Proof.Machine

/-- Settles O57: a reading command is its start (`readStarted`) and the reads that end it; an abort is what `otpAbort` answers. -/
theorem otpReadsAndAborts : Obligations.OtpReadsAndAborts := by
  intro path s hw o
  refine ⟨fun hdone hthm hidle => ⟨fun r hword => ?read, fun reads hlow => ?scan,
    fun op hop hlc => ?invalid⟩, fun r hrun c hc => ?busy, fun hidle => ?empties, fun r hrun hdead hphase => ?checks,
    fun r hrun hdead hphase => ?pulse⟩
  case read =>
    have hok : otpStateOk 1 path s.blk = true := otpStateOk_iff.mpr ⟨hdone, hthm, fun h => absurd h (by decide), fun _ => Or.inl rfl⟩
    have hotp := readStarted_otp 1 path s
    have hresp := readStarted_resp 1 path s
    have hmem : (readStarted 1 path s).mem = s.mem := rfl
    have hrow := otpReadRow_starts (f := otpReadDone r) hw hidle hok (by decide)
    generalize readStarted 1 path s = u at *
    have hread := otpReading_begun (op := 1) (b := u.blk) (by decide) (by rw [hotp])
    have hreads : rawReads u.blk r = rawReads s.blk r :=
      rawReads_congr r (by rw [hotp]) (by rw [hotp]) (by rw [hotp]) (by rw [hotp])
    refine ⟨fun d hd => ?_, fun hd => ?_⟩
    · rw [otpReadDone_data (r := r) hread hword.symm (by rw [hreads]; exact hd), hotp, hreads] at hrow
      refine ⟨_, congrArg Host.Outcome.next hrow, hmem, hresp, ?_⟩
      rw [State.upd_blk, otpFinish_eq]
      simp [finished, usesToken, hidle, o, wordOr]
    · obtain ⟨n, x, hdata⟩ := otpReadDone_poison (r := r) hread hword.symm (by rw [hreads]; exact hd)
      rw [hdata, hotp, hreads] at hrow
      refine ⟨_, congrArg Host.Outcome.next hrow, hmem, hresp, ?_⟩
      rw [State.upd_blk, otpFinish_eq]
      simp [finished, usesToken, hidle, o, wordOr]
  case scan =>
    have hok : otpStateOk 5 path s.blk = true := otpStateOk_iff.mpr ⟨hdone, hthm, fun h => absurd h (by decide), fun _ => Or.inr rfl⟩
    have hotp := readStarted_otp 5 path s
    have hresp := readStarted_resp 5 path s
    have hmem : (readStarted 5 path s).mem = s.mem := rfl
    have hsage : (readStarted 5 path s).blk.sage = s.blk.sage := answered_sage ..
    have hrow := otpReadRow_starts (f := otpScanDone reads) hw hidle hok (by decide)
    generalize readStarted 5 path s = u at *
    obtain ⟨c, l, hkept, hends⟩ := otpScanDone_ends (reads := reads) (otpReading_begun (op := 5) (b := u.blk) (by decide) (by rw [hotp]))
      (by rw [reactionOf_congr (congrArg Sage.react hsage)]; exact hlow)
    rw [hends] at hrow
    refine ⟨_, congrArg Host.Outcome.next hrow, hmem, hkept.resp.trans hresp, ?_⟩
    rw [State.upd_blk, otpFinish_eq]
    obtain ⟨m, hm⟩ := hkept.otp
    simp [finished, hm, hotp, o, wordOr]
  case invalid =>
    have huses : usesToken op = false := by rcases hop with rfl | rfl | rfl <;> decide
    have hok : otpStateOk op path s.blk = true :=
      otpStateOk_iff.mpr ⟨hdone, hthm, fun h => absurd (h.symm.trans huses) (by decide), fun h => absurd h hlc⟩
    obtain ⟨hstart, hotp, -, -⟩ := otpFinish_keeps op (otpNamed s.blk op) .badArg 8 false s.blk
    have hput := put_otpGo hw (otpGo_invalid hidle hok hop) hstart
    refine ⟨_, congrArg Host.Outcome.next ((if_pos hop).trans hput), rfl, answered_resp, ?_⟩
    exact invalid_kept hidle huses ((answered_otp ..).trans hotp)
  case busy =>
    have hbusy (op : BitVec 3) : otpStart path op.toNat s = answered path (otpBase + 0) .badArg (s.upd s.blk) :=
      put_otpGo hw (otpGo_busy hrun) rfl
    simp only [List.mem_cons, List.not_mem_nil, or_false] at hc
    rcases hc with rfl | rfl | rfl
    · exact ⟨_, congrArg Host.Outcome.next (hbusy 2), rfl, answered_resp, answered_otp ..⟩
    · exact ⟨_, congrArg Host.Outcome.next (hbusy 3), rfl, answered_resp, answered_otp ..⟩
    · exact ⟨_, congrArg Host.Outcome.next (hbusy 4), rfl, answered_resp, answered_otp ..⟩
  case empties =>
    have hput := put_otpCmd hw ((otpCmdWrite_abort path s.blk).trans (otpAbort_idle hidle)) rfl
    exact ⟨_, congrArg Host.Outcome.next hput, rfl, answered_resp, answered_otp ..⟩
  case checks =>
    have hearly := otpAbort_early (b := abortKept s.blk) hrun hdead (by rw [hphase]; decide)
    obtain ⟨hstart, hotp, -, -⟩ := otpFinish_keeps r.op (otpNamed (abortKept s.blk) r.op) .ok 12 false (abortKept s.blk)
    have hput := put_otpCmd hw ((otpCmdWrite_abort path s.blk).trans hearly) hstart
    refine ⟨_, congrArg Host.Outcome.next hput, rfl, answered_resp, ?_⟩
    rw [answered_otp, State.upd_blk, hotp]
    exact ⟨rfl, rfl, rfl, rfl, rfl⟩
  case pulse =>
    have hput := put_otpCmd_waits hw ((otpCmdWrite_abort path s.blk).trans (otpAbort_pulse hrun hdead hphase)) rfl
    refine ⟨_, congrArg Host.Outcome.next hput, rfl, rfl, ?_⟩
    exact List.length_append

end

section
/-! SUPPORT. The token window, sticky locks, checks and program pulses of the OTP (R486 to R493, R497). -/

namespace Sys2Proof.Machine

open Sys2Proof

variable {path : Path} {b t : Block} {s : State} {data : Word} {r : OtpRun}

/-! ### The token window (R486) -/

/-- The token window is free, or belongs to the path's kind. -/
def windowMine (path : Path) (b : Block) : Prop := ∀ p, b.otp.claim = some p → pathTwp p = pathTwp path

theorem tokenReg (k : Fin 8) : plainReg (otpBase + (0x60 + 4 * k.val)) := by
  revert k
  decide

theorem writeBlock_otp {o : Nat} (ho : o < 0x1000) : writeBlock path (otpBase + o) data b = otpWrite path o data b := by
  have hbase : baseOf (otpBase + o) = otpBase := baseOf_add (by decide) ho
  simp only [writeBlock, hbase, Nat.add_sub_cancel_left]
  rfl

theorem writeBlock_token (k : Fin 8) : writeBlock path (otpBase + (0x60 + 4 * k.val)) data b = tokenWrite path data b := by
  have hno : ¬ 0x60 + 4 * k.val = 4 ∧ ¬ (0x40 ≤ 0x60 + 4 * k.val ∧ 0x60 + 4 * k.val ≤ 0x54) := by omega
  have htoken : 0x60 ≤ 0x60 + 4 * k.val ∧ 0x60 + 4 * k.val ≤ 0x7C := by omega
  rw [writeBlock_otp (by omega), otpWrite, if_neg hno.1, if_neg hno.2, if_pos htoken]

theorem windowOther_iff : (match b.otp.claim with | some p => pathTwp p != pathTwp path | none => false) = false ↔ windowMine path b := by
  unfold windowMine
  cases b.otp.claim <;> simp

theorem tokenWrite_other (h : ¬ windowMine path b) : tokenWrite path data b = (.accessError, b) := by
  have hother := Bool.eq_true_of_not_eq_false fun k => h (windowOther_iff.mp k)
  exact if_pos hother

theorem tokenWrite_full (h : windowMine path b) (hfull : 224 ≤ b.otp.token.length) : tokenWrite path data b = (.badArg, b) :=
  (if_neg (ne_true_of_eq_false (windowOther_iff.mpr h))).trans (if_pos hfull)

/-- The block with another word in the token window. -/
def tokenTaken (path : Path) (data : Word) (b : Block) : Block :=
  { b with otp := { b.otp with token := b.otp.token ++ bytesOf 4 data, claim := some (b.otp.claim.getD path) } }

theorem tokenWrite_takes (h : windowMine path b) (hroom : b.otp.token.length < 224) :
    tokenWrite path data b = (.ok, tokenTaken path data b) := by
  refine (if_neg (ne_true_of_eq_false (windowOther_iff.mpr h))).trans ((if_neg (Nat.not_le.mpr hroom)).trans ?_)
  rw [tokenTaken]
  cases b.otp.claim <;> rfl

/-! ### Sticky locks (R497) -/

theorem slockReg (n : Fin 6) (hn : n.val ≠ 1) : otpBase + (0x40 + 4 * n.val) < 2 ^ 32 ∧ (otpBase + (0x40 + 4 * n.val)) % 4 = 0
    ∧ (otpBase + (0x40 + 4 * n.val)) % 0x1000 < 0x800 ∧ (regAt (otpBase + (0x40 + 4 * n.val))).isSome = true
    ∧ regAt (otpBase + (0x40 + 4 * n.val)) ≠ some .counter := by
  revert n
  decide

theorem lockedReg_slock (n : Fin 6) (b : Block) : lockedReg (otpBase + (0x40 + 4 * n.val)) b = b.otp.slockSet.getLsbD n.val := by
  have hk : (otpBase + (0x40 + 4 * n.val) - otpBase - 0x40) / 4 = n.val := by omega
  have hrange : otpBase + 0x40 ≤ otpBase + (0x40 + 4 * n.val) ∧ otpBase + (0x40 + 4 * n.val) ≤ otpBase + 0x54 := by omega
  rw [lockedReg, hk, decide_eq_true hrange, Bool.true_and]

theorem writeBlock_slock (n : Fin 6) :
    writeBlock path (otpBase + (0x40 + 4 * n.val)) data b = (.ok, slockWrite n.val data b) := by
  have hk : (0x40 + 4 * n.val - 0x40) / 4 = n.val := by omega
  have hno : ¬ 0x40 + 4 * n.val = 4 := by omega
  have hlock : 0x40 ≤ 0x40 + 4 * n.val ∧ 0x40 + 4 * n.val ≤ 0x54 := by omega
  rw [writeBlock_otp (by omega), otpWrite, if_neg hno, if_pos hlock, hk]

theorem put_slock (n : Fin 6) (hn : n.val ≠ 1) (hw : takesWrites path s) (hfree : s.blk.otp.slockSet.getLsbD n.val = false) :
    put path otpBase (0x40 + 4 * n.val) data s
      = answered path (otpBase + (0x40 + 4 * n.val)) .ok (s.upd (slockWrite n.val data s.blk)) := by
  obtain ⟨-, -, -, -, hgood⟩ := id hw
  obtain ⟨hsize, h4, hlow, hmapped, hcounter⟩ := slockReg n hn
  have hbase : baseOf (otpBase + (0x40 + 4 * n.val)) = otpBase := baseOf_add (by decide) (by omega)
  have hlive := writeLive_block (path := path) (last := none) (a := otpBase + (0x40 + 4 * n.val)) (data := data) hgood
    (fun _ => by rw [hbase]; decide) hcounter (by unfold otpBase; omega) (by unfold otpBase; omega) (by unfold otpBase; omega)
    (by rw [hbase]; decide) (by rw [hbase]; decide)
  rw [writeBlock_slock] at hlive
  exact put_live hw hsize h4 hlow hmapped ((lockedReg_slock n s.blk).trans hfree) hlive (takesWrites_step hw)

/-- A write that is refused with an entry of IDN_REG_ERR leaves the units (R44, R48, R59). -/
theorem pathWrite_refused {st : Status} {addr : Word} {i : Nat} (hw : takesWrites path s) (hlow : reactionOf s.blk (fs .regAccess) ≤ 2)
    (h : writeReg path none addr data 15 s = (some st, s.upd (accessFault i path addr s.blk))) :
    (pathWrite path addr data s).mem = s.mem ∧ (pathWrite path addr data s).blk.resp = st ∧ (pathWrite path addr data s).blk.otp = s.blk.otp := by
  obtain ⟨hopen, hP0, -⟩ := id hw
  have hquiet : quietly (regErr i addr s.blk) (accessFault i path addr s.blk) :=
    raise_quiet _ _ _ (by rw [reactionOf_congr (b := s.blk) (by rw [regErr_eq])]; exact hlow)
  have hstart : (accessFault i path addr s.blk).start = s.blk.start := by rw [hquiet.1, regErr_eq]
  have hotp : (accessFault i path addr s.blk).otp = s.blk.otp := by rw [hquiet.1, regErr_eq]
  have h5 : ¬ (accessFault i path addr s.blk).start.step < 5 := by
    rw [hstart]
    exact Nat.not_lt.mpr (takesWrites_step hw)
  have hput : pathWrite path addr data s = s.upd (respond path true st addr (accessFault i path addr s.blk)) := by
    unfold pathWrite pathWriteAt
    rw [wakeBy_P0 _ _ hP0, h, hopen]
    exact if_neg h5
  rw [hput]
  exact ⟨rfl, respond_resp .., (respond_otp ..).trans hotp⟩

/-- The region without a lock has no sticky lock register (R54). -/
theorem writeReg_noSlock {n : Fin 6} (hn : n.val = 1) (hw : takesWrites path s) :
    writeReg path none (BitVec.ofNat 32 (otpBase + (0x40 + 4 * n.val))) data 15 s
      = (some .accessError, s.upd (accessFault 4 path (BitVec.ofNat 32 (otpBase + (0x40 + 4 * n.val))) s.blk)) := by
  obtain ⟨-, -, hsafe, -, hgood⟩ := id hw
  rw [hn]
  exact writeReg_refused hsafe hgood (writeFault_unmapped (by decide) rfl (by decide) (by decide))

/-- A set sticky lock ignores a write (R497). -/
theorem writeReg_setSlock {n : Fin 6} (hn : n.val ≠ 1) (hw : takesWrites path s) (hset : s.blk.otp.slockSet.getLsbD n.val = true) :
    writeReg path none (BitVec.ofNat 32 (otpBase + (0x40 + 4 * n.val))) data 15 s
      = (some .writeIgnored, s.upd (accessFault 2 path (BitVec.ofNat 32 (otpBase + (0x40 + 4 * n.val))) s.blk)) := by
  obtain ⟨-, -, hsafe, howner, hgood⟩ := id hw
  obtain ⟨hsize, h4, hlow, hmapped, -⟩ := slockReg n hn
  have hlock := (lockedReg_slock n s.blk).trans hset
  generalize otpBase + (0x40 + 4 * n.val) = a at *
  have haddr : (BitVec.ofNat 32 a).toNat = a := by
    rw [BitVec.toNat_ofNat]
    exact Nat.mod_eq_of_lt hsize
  have hlive : liveOf a = a := by unfold liveOf; split <;> omega
  have hfault : writeFault path (BitVec.ofNat 32 a) 15#4 s.blk = none := by
    simp only [writeFault, haddr, mapped, hlive, hmapped, howner, h4]
    simp
    omega
  have hown : s.upd (useReg 0x14 s.blk) = s := by simp [useReg, hgood, State.upd]
  unfold writeReg
  simp only [hown, safeRefuses, hsafe, haddr, Bool.false_and, Bool.false_eq_true, if_false, hlock, if_true]
  erw [hfault]

/-! ### The start of a programming command -/

/-- The state after a programming command's go has been answered. -/
theorem otpStart_begins {op : BitVec 3} (hw : takesWrites path s) (hidle : s.blk.otp.run = none) (hok : otpStateOk op path s.blk = true)
    (hop : op = 2 ∨ op = 3 ∨ op = 4) : ∃ t, otpStart path op.toNat s = t ∧ t.mem = s.mem ∧ t.blk.resp = .ok ∧ t.blk.otp = { s.blk.otp with
      run := some { op := op, path := path, phase := .checks, word := (otpNamed s.blk op).getD 0 } } := by
  have huses : usesToken op = true ∧ op ≠ 5 ∧ ¬ (op = 0 ∨ op = 6 ∨ op = 7) := by rcases hop with rfl | rfl | rfl <;> decide
  obtain ⟨htoken, h5, hvalid⟩ := huses
  have hrun : otpBegun op path s.blk = { op := op, path := path, phase := .checks, word := (otpNamed s.blk op).getD 0 } := by
    simp only [otpBegun, htoken, h5, if_true, if_false]
  refine ⟨_, put_otpGo hw (otpGo_starts hidle hok hvalid) rfl, rfl, answered_resp, (answered_otp ..).trans ?_⟩
  rw [hrun]
  rfl

theorem otpStart_refused {op : BitVec 3} (hw : takesWrites path s) (hidle : s.blk.otp.run = none)
    (hno : otpStateOk op path s.blk = false) (hop : op = 2 ∨ op = 3 ∨ op = 4) : ∃ t, otpStart path op.toNat s = t ∧ t.mem = s.mem
      ∧ t.blk.resp = .ok ∧ t.blk.otp.run = none ∧ t.blk.otp.status = .accessError ∧ t.blk.otp.cause = 7 ∧ t.blk.otp.token = []
      ∧ t.blk.otp.words = s.blk.otp.words := by
  have huses : usesToken op = true := by rcases hop with rfl | rfl | rfl <;> decide
  obtain ⟨hstart, hotp, -, -⟩ := otpFinish_keeps op (otpNamed s.blk op) .accessError 7 false s.blk
  refine ⟨_, put_otpGo hw (otpGo_refused hidle hno) hstart, rfl, answered_resp, ?_⟩
  rw [answered_otp]
  refine hotp ▸ ⟨rfl, rfl, rfl, if_pos huses, rfl⟩

/-! ### Checks (R491) -/

theorem otpChecksDone_fails {f : Status × BitVec 4} (hrun : b.otp.run = some r) (hphase : r.phase = .checks)
    (h : otpChecks b r.op = some f) : otpChecksDone b = otpFinish r.op (otpNamed b r.op) f.1 f.2 false b := by
  simp only [otpChecksDone, hrun, hphase, ne_eq, not_true_eq_false, if_false, h]

/-- The block as the first pulse of a command begins: the nonce has changed, and the pulse runs. -/
def pulsing (x : OtpRun) (b : Block) : Block :=
  { b with fresh := b.fresh + 1, otp := { b.otp with nonce := Config.freeWord b.fresh, run := some x } }

section Pass
variable (hrun : b.otp.run = some r) (hphase : r.phase = .checks) (hpass : otpChecks b r.op = none)
include hrun hphase hpass

theorem otpChecksDone_program (hop : r.op = 2) :
    otpChecksDone b = pulsing (pulseWord r (tokenTarget b) (secded (tokenData b))) b := by
  simp only [otpChecksDone, hrun, hphase, ne_eq, not_true_eq_false, if_false, hpass]
  exact if_pos hop

theorem otpChecksDone_lock {w : Nat} (hop : r.op = 3) (hw : otpLockWord (tokenTarget b) = some w) :
    otpChecksDone b = pulsing (pulseWord r w allOnesWord) b := by
  have hno : ¬ r.op = 2 := by rw [hop]; decide
  have hword : pulsing (pulseWord r ((otpLockWord (tokenTarget b)).getD 0) allOnesWord) b = pulsing (pulseWord r w allOnesWord) b := by
    rw [hw]
    rfl
  simp only [otpChecksDone, hrun, hphase, ne_eq, not_true_eq_false, if_false, hpass]
  rw [if_neg hno, if_pos hop]
  exact hword

theorem otpChecksDone_life {w : Nat} {rest : List Nat} (hop : r.op = 4) (hw : (blankLife b).take (lifeNeed b) = w :: rest) :
    otpChecksDone b = pulsing (pulseWord { r with more := rest } w allOnesWord) b := by
  have hno : ¬ r.op = 2 ∧ ¬ r.op = 3 := by rw [hop]; decide
  simp only [otpChecksDone, hrun, hphase, ne_eq, not_true_eq_false, if_false, hpass]
  rw [if_neg hno.1, if_neg hno.2]
  split
  next v l h =>
    have hsame : v :: l = w :: rest := h.symm.trans hw
    cases hsame
    rfl
  next h =>
    have hnone : w :: rest = [] := hw.symm.trans h
    cases hnone

end Pass

/-! ### Pulses (R489, R490, R492) -/

/-- The raw bits of the word after a pulse. -/
def pulsedRaw (r : OtpRun) (missed spurious : BitVec 72) (b : Block) : BitVec 72 :=
  otpRaw b r.word ||| (r.unv &&& ~~~missed) ||| (spurious &&& ~~~r.target)

theorem mfind_mput_other {α : Type} (m : SMap α) {j k : Nat} (v : α) (h : j ≠ k) : mfind (mput m k v) j = mfind m j := by
  have hkj : (k == j) = false := by simpa using h.symm
  induction m with
  | nil => simp [mput, mfind, hkj]
  | cons e m ih =>
    obtain ⟨i, w⟩ := e
    unfold mput
    split
    next hik => simp [mfind, hik, hkj]
    next =>
      split
      · simp [mfind, List.find?_cons, hkj]
      · simp only [mfind, List.find?_cons]
        split
        · rfl
        · exact ih

theorem otpRaw_same {c : Block} {w : Nat} {x : BitVec 72} (h : c.otp.words = mput b.otp.words w x) : otpRaw c w = x := by
  rw [otpRaw, h, mfind_mput_same]
  rfl

theorem otpRaw_other {c : Block} {v w : Nat} {x : BitVec 72} (h : c.otp.words = mput b.otp.words w x) (hv : v ≠ w) :
    otpRaw c v = otpRaw b v := by
  rw [otpRaw, h, mfind_mput_other _ _ hv]
  rfl

theorem otpRaw_congr {c : Block} (h : c.otp.words = b.otp.words) (w : Nat) : otpRaw c w = otpRaw b w := by
  rw [otpRaw, h]
  rfl

section Charge
variable (missed weak spurious faint : BitVec 72)

theorem pulseCharge_same : otpRaw (pulseCharge r missed weak spurious faint b) r.word = pulsedRaw r missed spurious b :=
  otpRaw_same rfl

theorem pulseCharge_other {v : Nat} (hv : v ≠ r.word) : otpRaw (pulseCharge r missed weak spurious faint b) v = otpRaw b v :=
  otpRaw_other (b := b) rfl hv

/-- Whether a bit meant to be 0 reads 1 at a read reference after the pulse. -/
theorem pulseCharge_bad : pulseBad r (pulseCharge r missed weak spurious faint b) = true
    ↔ (pulsedRaw r missed spurious b ||| mget b.otp.faint r.word 0 ||| faint) &&& ~~~r.target ≠ 0 := by
  have hfaint : mget (pulseCharge r missed weak spurious faint b).otp.faint r.word 0
      = mget b.otp.faint r.word 0 ||| (faint &&& ~~~r.target) := mget_mset_same _ _ _ _
  have hbits (x y z t : BitVec 72) : (x ||| (y ||| (z &&& ~~~t))) &&& ~~~t = (x ||| y ||| z) &&& ~~~t := by
    ext i hi
    simp only [BitVec.getElem_and, BitVec.getElem_or, BitVec.getElem_not]
    cases x[i] <;> cases y[i] <;> cases z[i] <;> cases t[i] <;> rfl
  rw [pulseBad, pulseCharge_same, hfaint, hbits]
  simp

end Charge

/-- The pulse that a reset fell into only ends (R493). -/
theorem otpPulseDone_dead (missed weak spurious faint : BitVec 72) (hrun : b.otp.run = some r) (hphase : r.phase = .pulse)
    (hdead : r.dead = true) : ∃ c, c = pulseCharge r missed weak spurious faint b
      ∧ otpPulseDone missed weak spurious faint b = { c with otp := { c.otp with run := none } } := by
  refine ⟨_, rfl, ?_⟩
  simp only [otpPulseDone, hrun, hphase, ne_eq, not_true_eq_false, if_false, hdead, if_true]

theorem otpPulseDone_judged (missed weak spurious faint : BitVec 72) (hrun : b.otp.run = some r) (hphase : r.phase = .pulse)
    (hdead : r.dead = false) (hwait : b.start.restartWait = none) : otpPulseDone missed weak spurious faint b =
      pulseVerdict r (r.unv &&& (missed ||| weak)) (pulseBad r (pulseCharge r missed weak spurious faint b))
        (pulseCharge r missed weak spurious faint b) := by
  have hwait' : (pulseCharge r missed weak spurious faint b).start.restartWait = none := hwait
  simp only [otpPulseDone, hrun, hphase, ne_eq, not_true_eq_false, if_false, hdead, Bool.false_eq_true, hwait']

/-! ### The end of a programming command -/

/-- The bit that a word keeps is one of its target. -/
theorem oneBit_ne {target : BitVec 72} (h : target ≠ 0) {n : Nat} (hn : n < 72) : oneBit target n ≠ 0 := by
  obtain ⟨k, hk⟩ : ∃ k, target.getLsbD k = true := by
    by_contra hno
    exact h (BitVec.eq_of_getLsbD_eq fun i _ => by simpa using not_exists.mp hno i)
  have hk72 : k < 72 := by
    by_contra hge
    rw [BitVec.getLsbD_of_ge _ _ (by omega)] at hk
    exact absurd hk (by decide)
  have hfound : ((List.range 72).find? fun i => target.getLsbD ((n + i) % 72)).isSome = true := by
    rw [List.find?_isSome]
    exact ⟨(k + 72 - n) % 72, List.mem_range.mpr (Nat.mod_lt _ (by decide)), by rw [show (n + (k + 72 - n) % 72) % 72 = k by omega]; exact hk⟩
  obtain ⟨i, hi⟩ := Option.isSome_iff_exists.mp hfound
  simp only [oneBit, hi]
  intro hzero
  have hbit := bset_getLsbD_same (w := 72) 0 (Nat.mod_lt (n + i) (by decide : 0 < 72))
  rw [hzero] at hbit
  simp at hbit

/-- A word whose verify has not passed reads programmed when its command ends (R490, R492). -/
theorem keepProgrammed_keeps (r : OtpRun) (b : Block) : (keepProgrammed r b).defers = b.defers
    ∧ (keepProgrammed r b).otp = { b.otp with words := (keepProgrammed r b).otp.words }
    ∧ (∀ v, v ≠ r.word → otpRaw (keepProgrammed r b) v = otpRaw b v) ∧ (otpRaw b r.word ≠ 0 → keepProgrammed r b = b)
    ∧ (r.target ≠ 0 → otpRaw (keepProgrammed r b) r.word ≠ 0) := by
  unfold keepProgrammed
  split
  next h => exact ⟨rfl, rfl, fun _ _ => rfl, fun _ => rfl, fun _ => h⟩
  next h =>
    refine ⟨rfl, rfl, fun v hv => otpRaw_other (b := b) rfl hv, fun k => absurd k h, fun ht => ?_⟩
    rw [otpRaw_same rfl]
    exact oneBit_ne ht (Nat.mod_lt _ (by decide))

theorem answerAll_none {otp : Bool} {st : Status} (h : b.defers = []) : answerAll otp st b = b := by
  have hkept : { b with defers := [] } = b := by rw [← h]
  rw [answerAll, h]
  exact hkept

/-- OTP at the end of a programming command: a completed LIFECYCLE sets done (R501). -/
def ended (r : OtpRun) (st : Status) (cause : BitVec 4) (part : Bool) (o : Otp) : Otp :=
  if r.op = 4 ∧ st = .ok ∧ cause ≠ 12 then { finished r.op (BitVec.ofNat 10 r.word) st cause part o with done := true }
  else finished r.op (BitVec.ofNat 10 r.word) st cause part o

theorem programEnd_otp {st : Status} {cause : BitVec 4} {part : Bool} (hnone : b.defers = []) :
    (programEnd r st cause part b).otp = ended r st cause part b.otp := by
  obtain ⟨-, hotp, hdefers, -⟩ := otpFinish_keeps r.op (some r.word) st cause part b
  unfold programEnd
  rw [answerAll_none (by split <;> exact hdefers.trans hnone)]
  by_cases h : r.op = 4 ∧ st = .ok ∧ cause ≠ 12
  · rw [ended, if_pos h]
    exact (congrArg Block.otp (if_pos h)).trans (congrArg (fun o : Otp => { o with done := true }) hotp)
  · rw [ended, if_neg h]
    exact (congrArg Block.otp (if_neg h)).trans hotp

theorem ended_result (r : OtpRun) (st : Status) (cause : BitVec 4) (part : Bool) (o : Otp) : (ended r st cause part o).run = none
    ∧ (ended r st cause part o).status = st ∧ (ended r st cause part o).cause = cause ∧ (ended r st cause part o).partialW = part
    ∧ (ended r st cause part o).seq = o.seq + 1 ∧ (ended r st cause part o).words = o.words
    ∧ (ended r st cause part o).resWord = BitVec.ofNat 10 r.word := by
  unfold ended
  split <;> exact ⟨rfl, rfl, rfl, rfl, rfl, rfl, rfl⟩

theorem ended_done {r : OtpRun} {cause : BitVec 4} {part : Bool} {o : Otp} (hop : r.op = 4) (hcause : cause ≠ 12) :
    (ended r .ok cause part o).done = true := by
  rw [ended, if_pos ⟨hop, rfl, hcause⟩]

theorem programEnd_result {st : Status} {cause : BitVec 4} {part : Bool} (hnone : b.defers = []) :
    (programEnd r st cause part b).otp.run = none ∧ (programEnd r st cause part b).otp.status = st
      ∧ (programEnd r st cause part b).otp.cause = cause ∧ (programEnd r st cause part b).otp.partialW = part
      ∧ (programEnd r st cause part b).otp.seq = b.otp.seq + 1
      ∧ (programEnd r st cause part b).otp.resWord = BitVec.ofNat 10 r.word
      ∧ ∀ v, otpRaw (programEnd r st cause part b) v = otpRaw b v := by
  have hotp := programEnd_otp (r := r) (st := st) (cause := cause) (part := part) hnone
  obtain ⟨hrun, hst, hcause, hpart, hseq, hwords, hword⟩ := ended_result r st cause part b.otp
  rw [← hotp] at hrun hst hcause hpart hseq hwords hword
  exact ⟨hrun, hst, hcause, hpart, hseq, hword, otpRaw_congr hwords⟩

/-! ### What a pulse that nothing interrupted leads to -/

section Verdict
variable {left : BitVec 72} {bad : Bool}

theorem verdict_aborted (h : ¬ (left = 0 ∧ bad = false)) (habort : r.abort = true) :
    pulseVerdict r left bad b = programEnd r .ok 12 true (keepProgrammed r b) := by
  have hgo : ¬ (left = 0 ∧ (!bad) = true) := by simpa using h
  simp only [pulseVerdict, hgo, if_false, habort, if_true]
  rfl

theorem verdict_poison (h : ¬ (left = 0 ∧ bad = false)) (habort : r.abort = false) (hlast : r.pulses = 7)
    (hwrong : secdedDecode (otpRaw b r.word) = none) :
    pulseVerdict r left bad b = programEnd r .poison 11 false (keepProgrammed r b) := by
  have hgo : ¬ (left = 0 ∧ (!bad) = true) := by simpa using h
  simp only [pulseVerdict, hgo, habort, hlast, hwrong, if_false, Bool.false_eq_true, and_false, Nat.reduceAdd, ge_iff_le, le_refl, or_true,
    if_true]
  rfl

theorem verdict_more (hleft : left ≠ 0) (habort : r.abort = false) (hmore : r.pulses + 1 < 8) : pulseVerdict r left false b =
    { b with otp := { b.otp with run := some { r with unv := left, pulses := r.pulses + 1 } } } := by
  have hlast : ¬ 8 ≤ r.pulses + 1 := by omega
  simp only [pulseVerdict, hleft, false_and, habort, hlast, if_false, Bool.false_eq_true, or_self]

theorem verdict_done (hmore : r.more = []) :
    pulseVerdict r 0 false b = programEnd r .ok (if r.marg then 10 else 0) false b := by
  simp only [pulseVerdict, Bool.not_false, and_self, if_true, wordDone, hmore]
  rfl

end Verdict

end Sys2Proof.Machine

open Sys2Proof Sys2Proof.Machine

/-- Settles O58: the go of a command is its checks' start or its refusal; after a pulse the word holds `pulsedRaw`, and `pulseVerdict` says
how the command goes on. -/
theorem otpPrograms : Obligations.OtpPrograms := by
  refine ⟨fun path s hw => ?commands, fun r s hrun => ?pulses⟩
  case commands =>
    intro o mine
    refine ⟨fun k w => ⟨fun hmine hroom => ?takes, fun hmine hfull => ?full, fun hother => ?other⟩,
      fun c hc hidle hdone hthm => ⟨fun hmine hfree hlc => ?starts, fun hno => ?refused⟩,
      fun n w => ⟨fun hn hlow => ?noLock, fun hn hfree => ?locks, fun hn hset hlow => ?locked⟩⟩
    case takes =>
      have hput := put_block (data := w) hw (tokenReg k) ((writeBlock_token k).trans (tokenWrite_takes hmine hroom)) rfl
      exact ⟨_, congrArg Host.Outcome.next hput, rfl, answered_resp, answered_otp ..⟩
    case full =>
      have hput := put_block (data := w) hw (tokenReg k) ((writeBlock_token k).trans (tokenWrite_full hmine hfull)) rfl
      exact ⟨_, congrArg Host.Outcome.next hput, rfl, answered_resp, answered_otp ..⟩
    case other =>
      have hput := put_block (data := w) hw (tokenReg k) ((writeBlock_token k).trans (tokenWrite_other hother)) rfl
      exact ⟨_, congrArg Host.Outcome.next hput, rfl, answered_resp, answered_otp ..⟩
    case starts =>
      have hok (op : BitVec 3) : otpStateOk op path s.blk = true :=
        otpStateOk_iff.mpr ⟨hdone, hthm, fun _ => ⟨hfree, hmine⟩, fun h => absurd h hlc⟩
      simp only [List.mem_cons, List.not_mem_nil, or_false] at hc
      rcases hc with rfl | rfl | rfl
      · obtain ⟨t, ht, hrest⟩ := otpStart_begins (op := 2) hw hidle (hok _) (by decide)
        exact ⟨t, congrArg Host.Outcome.next ht, hrest⟩
      · obtain ⟨t, ht, hrest⟩ := otpStart_begins (op := 3) hw hidle (hok _) (by decide)
        exact ⟨t, congrArg Host.Outcome.next ht, hrest⟩
      · obtain ⟨t, ht, hrest⟩ := otpStart_begins (op := 4) hw hidle (hok _) (by decide)
        exact ⟨t, congrArg Host.Outcome.next ht, hrest⟩
    case refused =>
      have hbad (op : BitVec 3) (huses : usesToken op = true) (hop : ¬ (op = 1 ∨ op = 5)) : otpStateOk op path s.blk = false := by
        rw [Bool.eq_false_iff]
        intro hok
        obtain ⟨-, -, htoken, hlc⟩ := otpStateOk_iff.mp hok
        rcases hno with h | h | h
        · exact h (htoken huses).2
        · exact absurd (h.symm.trans (htoken huses).1) (by decide)
        · exact hop (hlc h)
      simp only [List.mem_cons, List.not_mem_nil, or_false] at hc
      rcases hc with rfl | rfl | rfl
      · obtain ⟨t, ht, hrest⟩ := otpStart_refused (op := 2) hw hidle (hbad 2 (by decide) (by decide)) (by decide)
        exact ⟨t, congrArg Host.Outcome.next ht, hrest⟩
      · obtain ⟨t, ht, hrest⟩ := otpStart_refused (op := 3) hw hidle (hbad 3 (by decide) (by decide)) (by decide)
        exact ⟨t, congrArg Host.Outcome.next ht, hrest⟩
      · obtain ⟨t, ht, hrest⟩ := otpStart_refused (op := 4) hw hidle (hbad 4 (by decide) (by decide)) (by decide)
        exact ⟨t, congrArg Host.Outcome.next ht, hrest⟩
    case noLock => exact ⟨_, rfl, pathWrite_refused hw hlow (writeReg_noSlock hn hw)⟩
    case locks => exact ⟨_, congrArg Host.Outcome.next (put_slock n hn hw hfree), rfl, answered_resp, answered_otp ..⟩
    case locked => exact ⟨_, rfl, pathWrite_refused hw hlow (writeReg_setSlock hn hw hset)⟩
  case pulses =>
    intro o begins
    refine ⟨fun hphase => ⟨fun f hf => ?fails, fun hpass => ⟨fun hop => ?program, fun w hop hlock => ?lock,
      fun w rest hop hblank => ?life⟩⟩, fun missed weak spurious faint hphase => ?pulse⟩
    case fails =>
      obtain ⟨-, hotp, -, -⟩ := otpFinish_keeps r.op (otpNamed s.blk r.op) f.1 f.2 false s.blk
      refine ⟨_, congrArg (fun b => Host.Outcome.next (s.upd b)) (otpChecksDone_fails hrun hphase hf), rfl, ?_⟩
      rw [State.upd_blk, hotp]
      exact ⟨rfl, rfl, rfl, rfl, rfl, rfl⟩
    case program => exact congrArg (fun b => Host.Outcome.next (s.upd b)) (otpChecksDone_program hrun hphase hpass hop)
    case lock => exact congrArg (fun b => Host.Outcome.next (s.upd b)) (otpChecksDone_lock hrun hphase hpass hop hlock)
    case life => exact congrArg (fun b => Host.Outcome.next (s.upd b)) (otpChecksDone_life hrun hphase hpass hop hblank)
    case pulse =>
      intro raw left bad pulse others
      have hbad : pulseBad r (pulseCharge r missed weak spurious faint s.blk) = true ↔ bad := pulseCharge_bad missed weak spurious faint
      have hraw : otpRaw (pulseCharge r missed weak spurious faint s.blk) r.word = raw := pulseCharge_same missed weak spurious faint
      have hothers (v : Nat) (hv : v ≠ r.word) : otpRaw (pulseCharge r missed weak spurious faint s.blk) v = otpRaw s.blk v :=
        pulseCharge_other missed weak spurious faint hv
      refine ⟨fun hdead => ?dead, fun hdead hwait => ?judged⟩
      case dead =>
        obtain ⟨c, hc, hdone⟩ := otpPulseDone_dead missed weak spurious faint hrun hphase hdead
        rw [← hc] at hraw hothers
        refine ⟨_, congrArg (fun b => Host.Outcome.next (s.upd b)) hdone, ⟨rfl, hothers⟩, rfl, hraw, ?_⟩
        rw [hc]
        rfl
      case judged =>
        have hjudged := otpPulseDone_judged missed weak spurious faint hrun hphase hdead hwait
        have hotp : (pulseCharge r missed weak spurious faint s.blk).otp.seq = o.seq
            ∧ (pulseCharge r missed weak spurious faint s.blk).otp.run = some r
            ∧ (pulseCharge r missed weak spurious faint s.blk).defers = s.blk.defers := ⟨rfl, hrun, rfl⟩
        have hexec (c : Block) (h : otpPulseDone missed weak spurious faint s.blk = c) : exec pulse s = .next (s.upd c) :=
          congrArg (fun b => Host.Outcome.next (s.upd b)) h
        generalize pulseCharge r missed weak spurious faint s.blk = c at *
        obtain ⟨hseq, -, hdefers⟩ := hotp
        obtain ⟨kdefers, kotp, kothers, ksame, kset⟩ := keepProgrammed_keeps r c
        refine ⟨fun hfails habort hnone => ?aborted, fun hfails habort hlast hwrong hnone => ?poison,
          fun hgood hleft habort hmore => ?more, fun hgood hleft hmore hnone => ?done⟩
        case aborted =>
          have hnot : ¬ (left = 0 ∧ pulseBad r c = false) := fun h =>
            hfails.elim (fun k => k h.1) fun k => absurd (h.2.symm.trans (hbad.mpr k)) (by decide)
          obtain ⟨hrun', hst, hcause, hpart, hseq', -, hraws⟩ := programEnd_result (r := r) (st := .ok) (cause := 12) (part := true)
            (kdefers.trans (hdefers.trans hnone))
          refine ⟨_, hexec _ (hjudged.trans (verdict_aborted hnot habort)), ⟨rfl, fun v hv => ?_⟩, hrun', hst, hcause, hpart, ?_, fun ht => ?_⟩
          · exact (hraws v).trans ((kothers v hv).trans (hothers v hv))
          · exact hseq'.trans (by rw [kotp, hseq])
          · rw [State.upd_blk, hraws]
            exact kset ht
        case poison =>
          have hnot : ¬ (left = 0 ∧ pulseBad r c = false) := fun h =>
            hfails.elim (fun k => k h.1) fun k => absurd (h.2.symm.trans (hbad.mpr k)) (by decide)
          have hset : otpRaw c r.word ≠ 0 := fun hzero => by
            rw [← hraw, hzero] at hwrong
            exact absurd hwrong (by decide)
          obtain ⟨hrun', hst, hcause, -, hseq', -, hraws⟩ := programEnd_result (r := r) (st := .poison) (cause := 11) (part := false)
            (hdefers.trans hnone)
          have hverdict := verdict_poison hnot habort hlast (by rw [hraw]; exact hwrong)
          rw [ksame hset] at hverdict
          exact ⟨_, hexec _ (hjudged.trans hverdict), ⟨rfl, fun v hv => (hraws v).trans (hothers v hv)⟩, hrun',
            (hraws r.word).trans hraw, hst, hcause, by rw [State.upd_blk, hseq', hseq]⟩
        case more =>
          rw [Bool.eq_false_iff.mpr fun h => hgood (hbad.mp h)] at hjudged
          exact ⟨_, hexec _ (hjudged.trans (verdict_more hleft habort hmore)), ⟨rfl, hothers⟩, rfl, hraw⟩
        case done =>
          have hclear : pulseBad r c = false := Bool.eq_false_iff.mpr fun h => hgood (hbad.mp h)
          have hdone : otpPulseDone missed weak spurious faint s.blk = programEnd r .ok (if r.marg then 10 else 0) false c := by
            rw [hjudged, hclear]
            exact (congrArg (fun x => pulseVerdict r x false c) hleft).trans (verdict_done hmore)
          obtain ⟨hrun', hst, hcause, -, hseq', hword, hraws⟩ := programEnd_result (r := r) (st := .ok)
            (cause := if r.marg then 10 else 0) (part := false) (hdefers.trans hnone)
          refine ⟨_, hexec _ hdone, ⟨rfl, fun v hv => (hraws v).trans (hothers v hv)⟩, hrun', (hraws r.word).trans hraw, hst, hcause,
            by rw [State.upd_blk, hseq', hseq], hword, fun hop => ?_⟩
          rw [State.upd_blk, programEnd_otp (hdefers.trans hnone)]
          exact ended_done hop (by split <;> decide)

end

section
/-! SUPPORT. BIST_CMD's writes, what a go decides, the restoration of a run's target and the report of its end (R504 to R511). -/

namespace Sys2Proof.Machine

open Sys2Proof

variable {path : Path} {b t : Block} {s : State} {data : Word}

/-! ### Writes of BST_CMD -/

@[simp] theorem answered_bst (path : Path) (k : Nat) (st : Status) (t : State) : (answered path k st t).blk.bst = t.blk.bst :=
  respond_bst _ _ _ _ _

/-- A write of BST_CMD that is answered at once. -/
theorem pathWriteAt_bstCmd {last : Option Bool} {st : Status} (hw : takesWrites path s)
    (h : bstCmdWrite path last data s.blk = (some st, t)) (hstart : t.start = s.blk.start) :
    pathWriteAt last path (BitVec.ofNat 32 bstBase) data 15 s = answered path bstBase st (s.upd t) := by
  obtain ⟨hopen, hP0, hsafe, howner, hgood⟩ := id hw
  have h5 : ¬ t.start.step < 5 := by
    rw [hstart]
    exact Nat.not_lt.mpr (takesWrites_step hw)
  have hlive : writeReg path last (BitVec.ofNat 32 bstBase) data 15 s = (some st, s.upd t) := by
    have hclosed : (s.blk.inChive && (baseOf bstBase == srlBase || isEng (baseOf bstBase))) = false := by
      rw [show (baseOf bstBase == srlBase || isEng (baseOf bstBase)) = false from by decide, Bool.and_false]
    have hplain : regAt bstBase ≠ some .counter ∧ bstBase ≠ thmBase + 8 ∧ bstBase ≠ otpBase := by decide
    rw [← Nat.add_zero bstBase,
      writeReg_live hsafe howner hgood (by decide) (by decide) (by decide) (by decide) (lockedReg_out _ (by decide))]
    simp only [writeLive, checked_good hgood, ite_self, Nat.add_zero, hclosed, Bool.false_eq_true, hplain.1, hplain.2, if_false, if_true, h]
  unfold pathWriteAt
  rw [wakeBy_P0 _ _ hP0, hlive, hopen]
  exact if_neg h5

theorem bstRow_go {ok : Nat → Bool} (hw : takesWrites path s) (hok : ok (rwf (bstBase + 4) 15 8 s.blk) = true)
    (hstart : (bstGo path s.blk).start = s.blk.start) :
    bstRow path ok s = answered path bstBase .ok (s.upd (bstGo path s.blk)) :=
  (if_pos hok).trans (pathWriteAt_bstCmd hw rfl hstart)

theorem bstRow_other {ok : Nat → Bool} (h : ok (rwf (bstBase + 4) 15 8 s.blk) = false) : bstRow path ok s = s :=
  if_neg (Bool.eq_false_iff.mp h)

/-! ### What a go decides (R504) -/

theorem bstGo_refused {f : Status × Nat} (h : bstCheck b (rwf (bstBase + 4) 15 8 b) (rwf (bstBase + 4) 7 0 b) = some f) :
    bstGo path b = { b with bst := { b.bst with
      result := bstResult (rwf (bstBase + 4) 15 8 b) (rwf (bstBase + 4) 7 0 b) f.2 f.1 b } } := by
  simp only [bstGo, h]

theorem holdChan_held (c : Nat) (v : Bool) (b : Block) : (holdChan c v b).chans[cid c] = { b.chans[cid c] with held := v } :=
  modChan_same b _ _

/-- A stack in which the run of a test has started, its target held in class B's channel tests. -/
def testBegun (path : Path) (test n : Nat) (b : Block) : Block :=
  let t := if test = 0x10 ∨ test = 0x11 then holdChan n true b else b
  { t with bst := { t.bst with
      run := some { test := test, target := n, path := path, elems := bstElems b test n }, runId := t.bst.runId + 1
      nElems := (bstElems b test n).length, elems := [] } }

theorem bstGo_starts (h : bstCheck b (rwf (bstBase + 4) 15 8 b) (rwf (bstBase + 4) 7 0 b) = none) :
    bstGo path b = testBegun path (rwf (bstBase + 4) 15 8 b) (rwf (bstBase + 4) 7 0 b) b := by
  rw [bstGo, h]
  rfl

theorem testBegun_keeps (path : Path) (test n : Nat) (b : Block) :
    (testBegun path test n b).bst = { b.bst with
        run := some { test := test, target := n, path := path, elems := bstElems b test n }, runId := b.bst.runId + 1
        nElems := (bstElems b test n).length, elems := [] }
      ∧ (testBegun path test n b).start = b.start ∧ (testBegun path test n b).ports = b.ports := by
  unfold testBegun
  split <;> exact ⟨rfl, rfl, rfl⟩

theorem testBegun_held (path : Path) (test n : Nat) (b : Block) :
    (testBegun path test n b).chans[cid n].held = (decide (test = 0x10 ∨ test = 0x11) || b.chans[cid n].held) := by
  by_cases hclass : test = 0x10 ∨ test = 0x11
  · rw [decide_eq_true hclass, Bool.true_or, testBegun, if_pos hclass]
    exact congrArg Chan.held (holdChan_held n true b)
  · rw [decide_eq_false hclass, Bool.false_or, testBegun, if_neg hclass]

theorem bstCheck_unknown {n test : Nat} (hdone : b.start.done = true) (hclk : (rw (clkBase + 0x20) b).getLsbD 12 = true)
    (hlc : b.otp.lc ≠ 6) (h : knownTest test = false) : bstCheck b test n = some (.badArg, 3) := by
  have hlife : bstAdmitted b test = true := by
    have h6 : b.otp.lc.toNat ≠ 6 := fun e => hlc (BitVec.eq_of_toNat_eq e)
    simp [bstAdmitted, h6, h]
  simp [bstCheck, hdone, hclk, hlife, h, bstCode]

/-! ### Aborts (R511) -/

theorem bstCmdWrite_abort (last : Option Bool) : bstCmdWrite path last 2 b = bstAbort last b := rfl

theorem bstAbort_idle (last : Bool) (h : b.bst.run = none) : bstAbort (some last) b = (some .ok, b) := by
  simp [bstAbort, h]

theorem bstAbort_late {last : Bool} {r : BstRun} (h : b.bst.run = some r) (hlate : last = true ∨ r.cut = true) :
    bstAbort (some last) b = (some .tooLate, b) := by
  cases hcut : r.cut with
  | true => simp [bstAbort, h, hcut]
  | false =>
    obtain rfl : last = true := hlate.resolve_right (by simp [hcut])
    simp [bstAbort, h, hcut]

theorem bstAbort_noted {r : BstRun} (h : b.bst.run = some r) (hcut : r.cut = false) : bstAbort (some false) b
    = (some .ok, { b with bst := { b.bst with run := some { r with abort := true } } }) := by
  simp [bstAbort, h, hcut]

/-! ### The restoration of a target (R507) -/

theorem initBanks_status (n : Nat) (x : Chan) : (initBanks n x).st = x.st ∧ (initBanks n x).held = x.held :=
  ⟨foldl_keep Chan.st (fun x k => x.modBank k fun y => { y with state := n }) (fun _ _ => rfl) _ x,
    foldl_keep Chan.held (fun x k => x.modBank k fun y => { y with state := n }) (fun _ _ => rfl) _ x⟩

/-- The engine under test stays held: the run holds it until its end is reported. -/
theorem engTested_self {r : BstRun} (hrun : b.bst.run = some r) (h12 : r.test = 0x12) : engTested b r.target = true := by
  simp [engTested, hrun, h12]

theorem restoreEng_held {r : BstRun} (hrun : b.bst.run = some r) (h12 : r.test = 0x12) :
    restoreEng r.target b = rewindWork r.target (ctrAdd (supBase + 0x1C) 1 b) := by
  have hheld : heldNow (rewindWork r.target (ctrAdd (supBase + 0x1C) 1 b)) r.target = true := by
    have htest : engTested (rewindWork r.target (ctrAdd (supBase + 0x1C) 1 b)) r.target = true := engTested_self hrun h12
    rw [heldNow, htest]
    simp
  unfold restoreEng
  simp only [hheld, Bool.not_true, Bool.false_eq_true, and_false, if_false]

/-- What the end of a run reads of the stack besides its own target. -/
structure TestKept (b t : Block) : Prop where
  bst : t.bst = b.bst
  sage : t.sage = b.sage
  img : t.img = b.img
  defers : t.defers = b.defers

theorem bstRestore_keeps {r : BstRun} (hrun : b.bst.run = some r) : TestKept b (bstRestore r false [] none b) := by
  unfold bstRestore
  split
  case isTrue => exact ⟨rfl, rfl, rfl, rfl⟩
  split
  case isTrue => exact ⟨rfl, rfl, rfl, rfl⟩
  split
  case isTrue h12 =>
    rw [restoreEng_held hrun h12]
    exact ⟨rfl, rfl, rfl, rfl⟩
  split
  case isTrue => exact ⟨rfl, rfl, rfl, rfl⟩
  case isFalse => exact ⟨rfl, rfl, rfl, rfl⟩

theorem bstRestore_classA {r : BstRun} (h : r.test < 0x10) : bstRestore r false [] none b = b := by
  have h10 : r.test ≠ 0x10 := by omega
  have h11 : r.test ≠ 0x11 := by omega
  have h12 : r.test ≠ 0x12 := by omega
  have h13 : r.test ≠ 0x13 := by omega
  simp only [bstRestore, h10, h11, h12, h13, if_false]

/-- The channel under a test of class B is released, and takes part in the traffic as before (R507). -/
theorem bstRestore_chan {r : BstRun} (h : r.test = 0x10 ∨ r.test = 0x11) :
    (bstRestore r false [] none b).chans[cid r.target].st = b.chans[cid r.target].st
      ∧ (bstRestore r false [] none b).chans[cid r.target].held = false := by
  obtain h10 | h11 := h
  · obtain ⟨hst, hheld⟩ := initBanks_status (bankInit b (cid r.target)) { b.chans[cid r.target] with
      held := false, init := true, banks := [], remap := List.replicate 16 none, hist := [], idleAt := b.now }
    have hnow : (bstRestore r false [] none b).chans[cid r.target] = _ :=
      (congrArg (fun t : Block => t.chans[cid r.target]) (if_pos h10)).trans (modChan_same b _ _)
    rw [hnow]
    exact ⟨hst, hheld⟩
  · have hnow : (bstRestore r false [] none b).chans[cid r.target] = { b.chans[cid r.target] with held := false } := by
      unfold bstRestore
      rw [if_neg (by omega), if_pos h11]
      exact holdChan_held _ false b
    rw [hnow]
    exact ⟨rfl, rfl⟩

theorem bstRestore_offline {r : BstRun} : bstOffline r (bstRestore r false [] none b) = bstOffline r b := by
  unfold bstOffline
  by_cases hchan : chanTest r.test = true
  · obtain hA | hB : r.test < 0x10 ∨ (r.test = 0x10 ∨ r.test = 0x11) := by
      simp only [chanTest, Bool.or_eq_true, beq_iff_eq] at hchan
      omega
    · rw [bstRestore_classA hA]
    · rw [(bstRestore_chan hB).1]
  · rw [Bool.eq_false_iff.mpr hchan, Bool.false_and, Bool.false_and]

theorem bstExpected_kept (h : TestKept b t) (test : Nat) : bstExpected t test = bstExpected b test := by
  unfold bstExpected engSeq bodyOf
  rw [h.img]

/-! ### The report of a run (R509, R510) -/

/-- BIST with the results of a run loaded. -/
def withResults (r : BstRun) (l : List ElemResult) (us cause : Nat) (st : Status) (b : Block) : Bist :=
  { b.bst with
    run := none, result := bstResult r.test r.target cause st b, sig := bstSignature r l
    sigExp := (bstExpected b r.test).getD 0, duration := BitVec.ofNat 32 us, elems := l }

/-- What the report of a run leaves of the stack, once its results are loaded. -/
structure Reported (b t : Block) : Prop where
  bst : t.bst = b.bst
  chans : t.chans = b.chans
  engs : t.engs = b.engs
  defers : t.defers = b.defers
  evt : (rcGet (bstBase + 0x34) b).getLsbD 0 = true → (rcGet (bstBase + 0x34) t).getLsbD 0 = true

theorem Reported.trans {c : Block} (h : Reported b c) (k : Reported c t) : Reported b t :=
  ⟨k.bst.trans h.bst, k.chans.trans h.chans, k.engs.trans h.engs, k.defers.trans h.defers, k.evt ∘ h.evt⟩

theorem Reported.quiet (h : quietly b t) : Reported b t :=
  ⟨by rw [h.1], by rw [h.1], by rw [h.1], by rw [h.1], by rw [quietly_rcGet h]; exact id⟩

theorem bstReport_keeps {r : BstRun} {l : List ElemResult} {us cause : Nat} {st : Status} (hdefers : b.defers = [])
    (hreact : reactionOf b (fs .bstFail) ≤ 2) :
    (bstReport r l us cause st b).bst = withResults r l us cause st b ∧ (bstReport r l us cause st b).chans = b.chans
      ∧ (bstReport r l us cause st b).engs = b.engs
      ∧ (rcGet (bstBase + 0x34) (bstReport r l us cause st b)).getLsbD 0 = true := by
  unfold bstReport
  extract_lets expect src loaded done failed told
  have hevt : (rcGet (bstBase + 0x34) done).getLsbD 0 = true :=
    rcGet_rcSet_bit (i := 0) (bstBase + 0x34) loaded (by decide)
  have hfailed : Reported done failed := by
    dsimp only [failed]
    split
    case isTrue =>
      have hnoted : Reported done (rcSet (bstBase + 0x34) 1 done) := ⟨rfl, rfl, rfl, rfl, rcGet_rcSet_mono _ _⟩
      exact hnoted.trans (.quiet (raise_quiet _ _ _ hreact))
    case isFalse => exact .quiet (quietly_refl done)
  have htold : Reported done told := by
    dsimp only [told]
    split
    case h_1 => exact hfailed.trans (.quiet (quietly_emit _ _ _))
    case h_2 => exact hfailed
  have hnone : told.defers = [] := htold.defers.trans hdefers
  rw [answerAll_none hnone]
  exact ⟨htold.bst, htold.chans, htold.engs, htold.evt hevt⟩

/-! ### The end of a run -/

theorem bstRunEnd_lost {r : BstRun} (results : List ElemResult) (us : Nat) (hrun : b.bst.run = some r) (h : bstOffline r b = true) :
    bstRunEnd results us false [] none b = bstReport r (bstTaken r results) us 0 .channelOffline b := by
  simp only [bstRunEnd, hrun, h, if_true]

theorem bstRunEnd_done {r : BstRun} (results : List ElemResult) (us : Nat) (hrun : b.bst.run = some r) (hsage : b.sage.safe = false)
    (hthm : b.thm.safe = false) (h : bstOffline r b = false) :
    bstRunEnd results us false [] none b = bstReport r (bstTaken r results) us
      (bstCause r (bstTaken r results) (bstExpected b r.test)) .ok (bstRestore r false [] none b) := by
  have hsafe : ¬ (b.sage.safe || b.thm.safe) = true := by simp [hsage, hthm]
  have hgoes : ¬ (classB r.test && b.thm.safe && !b.sage.safe) = true := by simp [hthm]
  simp only [bstRunEnd, hrun]
  rw [if_neg (by rw [h]; decide), if_neg hgoes, if_neg hsafe, if_neg (by rw [bstRestore_offline, h]; decide),
    bstExpected_kept (bstRestore_keeps hrun)]

theorem bstOffline_iff {r : BstRun} :
    bstOffline r b = true ↔ chanTest r.test = true ∧ b.chans[cid r.target].st = .offline := by
  rw [bstOffline, Bool.and_eq_true, beq_iff_eq]

end Sys2Proof.Machine
end

section
/-! SUPPORT. The parts of O59: the rows of the tests, aborts, and the end of a run. -/

namespace Sys2Proof.Machine

open Sys2Proof

variable {path : Path} {s : State}

/-- The row of a self-test whose checks pass. -/
theorem bstRow_starts {ok : Nat → Bool} (hw : takesWrites path s) (hok : ok (rwf (bstBase + 4) 15 8 s.blk) = true)
    (h : bstCheck s.blk (rwf (bstBase + 4) 15 8 s.blk) (rwf (bstBase + 4) 7 0 s.blk) = none) :
    bstRow path ok s = answered path bstBase .ok
      (s.upd (testBegun path (rwf (bstBase + 4) 15 8 s.blk) (rwf (bstBase + 4) 7 0 s.blk) s.blk)) := by
  rw [bstRow_go hw hok (by rw [bstGo_starts h]; exact (testBegun_keeps _ _ _ _).2.1), bstGo_starts h]

/-- The row of a self-test that a check refuses. -/
theorem bstRow_refused {ok : Nat → Bool} {f : Status × Nat} (hw : takesWrites path s)
    (hok : ok (rwf (bstBase + 4) 15 8 s.blk) = true)
    (h : bstCheck s.blk (rwf (bstBase + 4) 15 8 s.blk) (rwf (bstBase + 4) 7 0 s.blk) = some f) :
    bstRow path ok s = answered path bstBase .ok (s.upd { s.blk with bst := { s.blk.bst with
      result := bstResult (rwf (bstBase + 4) 15 8 s.blk) (rwf (bstBase + 4) 7 0 s.blk) f.2 f.1 s.blk } }) := by
  rw [bstRow_go hw hok (by rw [bstGo_refused h]), bstGo_refused h]

/-- The row of each self-test. -/
theorem exec_selfTest {c : Instr × Nat}
    (hc : c ∈ [(Instr.refCheck path, 1), (.linkLoopback path, 2), (.tsvSpare path, 3), (.eccPath path, 4), (.dramMarch path, 0x10),
      (.tsvFull path, 0x11), (.engSram path, 0x12), (.replaySram path, 0x13)]) (s : State) :
    exec c.1 s = .next (bstRow path (· == c.2) s) := by
  simp only [List.mem_cons, List.not_mem_nil, or_false] at hc
  obtain rfl | rfl | rfl | rfl | rfl | rfl | rfl | rfl := hc <;> rfl

theorem exec_bstAbort_answered {last : Bool} {st : Status} {t : Block} (hw : takesWrites path s)
    (h : bstAbort (some last) s.blk = (some st, t)) (hstart : t.start = s.blk.start) :
    exec (.bstAbort path last) s = .next (answered path bstBase st (s.upd t)) :=
  congrArg Host.Outcome.next (pathWriteAt_bstCmd hw (data := 2) h hstart)

end Sys2Proof.Machine

open Sys2Proof Sys2Proof.Machine

/-- Settles O59: the row of a self-test is a write of BST_CMD, which the checks of R504 answer; an abort looks at the run alone; and the
end of a run reports its results once its target is restored. -/
theorem selfTestRuns : Obligations.SelfTestRuns := by
  unfold Obligations.SelfTestRuns
  refine ⟨fun path s hw => ?_, fun results us r s hrun hsage hthm hdefers hreact => ?_⟩
  case refine_1 =>
    intro x test n
    refine ⟨fun c hc => ⟨fun hother => ?_, fun htest hpass => ?_, fun f htest hfail => ?_⟩, fun hunknown hdone hclk hlc => ?_,
      fun hidle last => ?_, fun r hrun => ⟨fun last hlate => ?_, fun hcut => ?_⟩⟩
    · rw [exec_selfTest hc, bstRow_other (ok := (· == c.2)) (beq_eq_false_iff_ne.mpr hother)]
    · obtain ⟨hbst, -, hports⟩ := testBegun_keeps path test n s.blk
      refine ⟨_, (exec_selfTest hc s).trans (congrArg Host.Outcome.next (bstRow_starts hw (beq_iff_eq.mpr htest) hpass)), rfl,
        answered_resp, (answered_bst _ _ _ _).trans hbst, ?_, answered_ports.trans hports⟩
      rw [answered_chans]
      exact testBegun_held path test n s.blk
    · exact ⟨_, (exec_selfTest hc s).trans (congrArg Host.Outcome.next (bstRow_refused hw (beq_iff_eq.mpr htest) hfail)), rfl,
        answered_resp, answered_bst _ _ _ _, answered_chans _ _ _ _, answered_ports⟩
    · have hrow := bstRow_refused (ok := fun t => !knownTest t) hw (by rw [hunknown]; rfl)
        (bstCheck_unknown (n := n) hdone hclk hlc hunknown)
      exact ⟨_, congrArg Host.Outcome.next hrow, rfl, answered_resp, answered_bst _ _ _ _⟩
    · exact ⟨_, exec_bstAbort_answered hw (bstAbort_idle last hidle) rfl, rfl, answered_resp, answered_bst _ _ _ _⟩
    · exact ⟨_, exec_bstAbort_answered hw (bstAbort_late hrun hlate) rfl, rfl, answered_resp, answered_bst _ _ _ _⟩
    · exact ⟨_, exec_bstAbort_answered hw (bstAbort_noted hrun hcut) rfl, rfl, answered_resp, answered_bst _ _ _ _⟩
  case refine_2 =>
    intro l cause lost
    refine ⟨fun hlost => ?_, fun hgoes => ?_⟩
    · obtain ⟨hbst, hchans, hengs, -⟩ :=
        bstReport_keeps (r := r) (l := l) (us := us) (cause := 0) (st := .channelOffline) hdefers hreact
      refine ⟨_, congrArg (fun t => Host.Outcome.next (s.upd t)) (bstRunEnd_lost results us hrun (bstOffline_iff.mpr hlost)), rfl, ?_⟩
      exact ⟨congrArg Bist.run hbst, congrArg Bist.result hbst, hchans, hengs⟩
    · have hkept := bstRestore_keeps hrun
      have hreact' : reactionOf (bstRestore r false [] none s.blk) (fs .bstFail) ≤ 2 := by
        rw [reactionOf_congr (congrArg Sage.react hkept.sage)]
        exact hreact
      obtain ⟨hbst, hchans, hengs, hevt⟩ :=
        bstReport_keeps (r := r) (l := l) (us := us) (cause := cause) (st := .ok) (hkept.defers.trans hdefers) hreact'
      refine ⟨_, congrArg (fun t => Host.Outcome.next (s.upd t))
        (bstRunEnd_done results us hrun hsage hthm (Bool.eq_false_iff.mpr fun h => hgoes (bstOffline_iff.mp h))), rfl, ?_⟩
      rw [State.upd_blk]
      have hresult : (withResults r l us cause .ok (bstRestore r false [] none s.blk)).result
          = bstResult r.test r.target cause .ok s.blk := by
        unfold withResults bstResult
        rw [hkept.bst]
      refine ⟨congrArg Bist.run hbst, (congrArg Bist.result hbst).trans hresult, congrArg Bist.sig hbst, congrArg Bist.elems hbst,
        congrArg Bist.duration hbst, hevt, fun hB => ?_, fun hA => ?_⟩
      · rw [hchans]
        exact (bstRestore_chan hB).2
      · have hsame := bstRestore_classA (b := s.blk) hA
        exact ⟨hchans.trans (congrArg Block.chans hsame), hengs.trans (congrArg Block.engs hsame)⟩

end

section
/-! SUPPORT. The two-wire port: how its transactions begin and end, what its words answer, and raises in either condition of the safe
state (R456, R514 to R526). -/

namespace Sys2Proof.Machine

open Sys2Proof

variable {b t : Block} {s : State}

/-! ### Raises (R456) -/

/-- A raise that Sage did not hold is recorded, in the safe state too. -/
theorem raise_recorded {src unit : Nat} {detail : Word} (own : List OwnEv) (h : freshSource src s.blk)
    (hlow : reactionOf s.blk src ≤ 2) : recorded src unit detail s (s.upd (raise src unit detail own s.blk)) := by
  cases hsafe : s.blk.sage.safe with
  | false => exact (raise_raised own h hsafe hlow).recorded
  | true =>
    have hheld : raise src unit detail own s.blk = noted src unit detail (latchedIn src unit detail s.blk) := by
      rw [raise_new own h, react, noted_safe, hsafe]
      rfl
    rw [hheld]
    refine ⟨congrArg (bset · src) (latchedIn_pend src unit detail s.blk), 
      mget_mset_same (latchedIn src unit detail s.blk).sage.info src none (some { unit := BitVec.ofNat 8 unit, detail := detail }),
      ?_, rfl, rfl⟩
    have hcount : ctr (sageBase + 0x1C) (noted src unit detail (latchedIn src unit detail s.blk))
        = ctr (sageBase + 0x1C) (ctrAdd (sageBase + 0x1C) 1 s.blk) := by
      unfold ctr
      exact congrArg (fun r : Regs => mget r.ctr (sageBase + 0x1C) 0) (latchedIn_latch src unit detail s.blk).2
    exact (congrArg BitVec.toNat hcount).trans (ctr_ctrAdd _ _ _)

/-! ### Responses (R520) -/

/-- The two-wire port after the answer of a write. -/
def twpAnswered (st : Status) (addr : Word) (x : Twp) : Twp :=
  { x with
    err := x.err || st != .ok
    rsp := word [((wfield x.rsp 31 24 + 1) % 256, 24), (wfield x.rsp 9 9, 9), (1, 8), (st.code, 0)], rspAddr := addr }

theorem respond_twp {st : Status} {addr : Word} (h : ownRsp addr = false) :
    (respond .twp true st addr b).twp = twpAnswered st addr b.twp := by
  simp [respond, pathTwp, h, twpSeen, twpResponse, twpAnswered, b2n]

/-- A response names its kind and its status. -/
theorem wfield_response {n k : Nat} (st : Status) :
    wfield (word [(n % 256, 24), (k, 9), (1, 8), (st.code, 0)]) 8 0 = 0x100 + st.code := by
  have hst : st.code < 256 := by cases st <;> decide
  simp only [wfield, field, word, List.foldl_cons, List.foldl_nil, BitVec.toNat_ofNat, Nat.shiftLeft_eq, Nat.shiftRight_eq_div_pow]
  omega

theorem wfield_rsp (st : Status) (addr : Word) (x : Twp) : wfield (twpAnswered st addr x).rsp 8 0 = 0x100 + st.code :=
  wfield_response st

/-! ### The end of a transaction (R520) -/

theorem twpEnd_idle (h : b.twp.busy = false) : twpEnd b = { b with
    defers := (twpEnd b).defers
    twp := { b.twp with lateTx := false, due := false, addressed := false, acked := false, assembly := [] } } := by
  simp [twpEnd, outliveTx, h]

/-- The two-wire port after the end of a transaction: err_seen is loaded. -/
def twpEnded (x : Twp) : Twp :=
  { x with
    lateTx := false, due := false, rsp := (x.rsp &&& ~~~0x200) ||| word [(b2n x.err, 9)]
    busy := false, addressed := false, nacking := false, stretched := false, err := false, acked := false, assembly := [] }

theorem twpEnd_runs (h : b.twp.busy = true) : twpEnd b = { b with defers := (twpEnd b).defers, twp := twpEnded b.twp } := by
  simp [twpEnd, outliveTx, h, twpEnded]

/-- The end of a transaction touches the port and the responses that wait. -/
theorem twpEnd_eq (b : Block) : twpEnd b = { b with defers := (twpEnd b).defers, twp := (twpEnd b).twp } := by
  cases h : b.twp.busy with
  | true => rw [twpEnd_runs h]
  | false => rw [twpEnd_idle h]

theorem twpEnded_seen (x : Twp) : (twpEnded x).rsp.getLsbD 9 = x.err := by
  have hword : (word [(b2n x.err, 9)]).getLsbD 9 = x.err := by cases x.err <;> rfl
  have hmask : (~~~(0x200 : Word)).getLsbD 9 = false := by decide
  change ((x.rsp &&& ~~~0x200) ||| word [(b2n x.err, 9)]).getLsbD 9 = x.err
  rw [BitVec.getLsbD_or, BitVec.getLsbD_and, hmask, Bool.and_false, Bool.false_or, hword]

theorem wfield_twpEnded (x : Twp) : wfield (twpEnded x).rsp 8 0 = wfield x.rsp 8 0 := by
  have htrunc : ((twpEnded x).rsp).setWidth 9 = x.rsp.setWidth 9 := by
    have hword : (word [(b2n x.err, 9)]).setWidth 9 = 0#9 := by cases x.err <;> rfl
    change ((x.rsp &&& ~~~0x200) ||| word [(b2n x.err, 9)]).setWidth 9 = _
    rw [BitVec.setWidth_or, BitVec.setWidth_and, hword]
    rw [show (~~~(0x200 : Word)).setWidth 9 = BitVec.allOnes 9 from by decide, BitVec.and_allOnes, BitVec.or_zero]
  have hnat := congrArg BitVec.toNat htrunc
  rw [BitVec.toNat_setWidth, BitVec.toNat_setWidth] at hnat
  simpa [wfield, field] using hnat

theorem commitPlain_empty (base : Nat) (h : b.regs.pend = []) : commitPlain base b = b := by
  rw [commitPlain_none]
  simp [pendingAt, h]

theorem twpPartial_whole (b : Block) : twpPartial false b = b := rfl

/-! ### The beginning of a transaction (R514, R515) -/

/-- The two-wire port after the address byte of a transaction of the stack. -/
def twpBegun (a : Byte) (x : Twp) : Twp :=
  { x with
    bus := true, busy := true, addressed := true, reading := a.getLsbD 0, ptrSet := false, pec := [a], nacking := false
    acked := true, assembly := [], due := a.getLsbD 0 }

theorem twpAddressed_own {a : Byte} (haddr : a.toNat / 2 = 0x38 + b.start.straps.toNat) (h : b.twp.stretched = false) :
    twpAddressed a b = { b with
      twp := twpBegun a b.twp, regs := if b.twp.busy then b.regs else (ctrAdd (twpBase + 0x14) 1 b).regs } := by
  unfold twpAddressed
  rw [if_pos ⟨haddr, by simp [h]⟩, twpBegin]
  cases hbusy : b.twp.busy <;> simp [hbusy, twpBegun, ctrAdd, ctr]

theorem twpAddressed_other {a : Byte} (h : a.toNat / 2 ≠ 0x38 + b.start.straps.toNat) :
    twpAddressed a b = { b with twp := { b.twp with bus := true, addressed := false, acked := false, assembly := [], due := false } } :=
  if_neg fun haddr => h haddr.1

theorem twpStart_whole (a : Byte) (h5 : 5 ≤ b.start.step) (hgood : b.regs.badPar = []) : twpStart a false false b = twpAddressed a b := by
  unfold twpStart
  rw [if_neg (by simp [twpServes, h5]), useRegs_good _ hgood]
  rfl

/-- The address byte that the straps give (R514). -/
theorem strapAddress (sa2 sa1 sa0 read : Bool) :
    (BitVec.ofNat 8 (2 * (0x38 + 4 * b2n sa2 + 2 * b2n sa1 + b2n sa0) + b2n read)).toNat / 2
        = 0x38 + (BitVec.ofNat 3 (4 * b2n sa2 + 2 * b2n sa1 + b2n sa0)).toNat
      ∧ (BitVec.ofNat 8 (2 * (0x38 + 4 * b2n sa2 + 2 * b2n sa1 + b2n sa0) + b2n read)).getLsbD 0 = read := by
  revert sa2 sa1 sa0 read
  decide

/-! ### Pointers and words (R517, R518, R521, R522) -/

theorem twpTakes_iff : twpTakes b = true ↔ b.twp.addressed = true ∧ b.twp.reading = false ∧ b.twp.nacking = false := by
  simp [twpTakes, and_assoc]

theorem pecFits_iff {bytes : List Byte} {pec : Byte} :
    pecFits bytes pec b = true ↔ pecMode b = false ∨ crc8 (b.twp.pec ++ bytes) = pec := by
  simp [pecFits]

theorem twpPointer_fits {ptr : Word} {pec : Byte} (h5 : 5 ≤ b.start.step) (htakes : twpTakes b = true) (hset : b.twp.ptrSet = false)
    (hpec : pecFits (bytesOf 4 ptr) pec b = true) : twpPointer ptr pec b
      = { b with twp := { b.twp with ptr := ptr, ptrSet := true, pec := [], acked := true, assembly := bytesOf 4 ptr } } := by
  simp [twpPointer, twpServes, h5, htakes, hset, hpec]

theorem twpPointer_wrong {ptr : Word} {pec : Byte} (h5 : 5 ≤ b.start.step) (htakes : twpTakes b = true) (hset : b.twp.ptrSet = false)
    (hpec : pecFits (bytesOf 4 ptr) pec b = false) : twpPointer ptr pec b = pecError b := by
  simp [twpPointer, twpServes, h5, htakes, hset, hpec]

/-- A PEC byte that does not match is flagged and counted, and nothing more is acknowledged (R522). -/
theorem pecError_counts (b : Block) :
    (pecError b).twp = { b.twp with nacking := true, acked := false, assembly := [] }
      ∧ (rcGet (twpBase + 4) (pecError b)).getLsbD 4 = true
      ∧ (ctr (twpBase + 0x18) (pecError b)).toNat = min ctrMax ((ctr (twpBase + 0x18) b).toNat + 1)
      ∧ (pecError b).regs.live = b.regs.live :=
  ⟨rfl, rcGet_rcSet_bit (i := 4) (twpBase + 4) b (by decide), ctr_ctrAdd (twpBase + 0x18) 1 (rcSet (twpBase + 4) 4 b), rfl⟩

/-- The stack with a word's bytes in the assembly register. -/
def wordHeld (data : Word) (s : State) : State := s.upd { s.blk with twp := { s.blk.twp with acked := true, assembly := bytesOf 4 data } }

theorem twpWrite_fits {data : Word} {pec : Byte} (h5 : 5 ≤ s.blk.start.step) (htakes : twpTakes s.blk = true)
    (hset : s.blk.twp.ptrSet = true) (hlate : s.blk.twp.late = none) (hpec : pecFits (bytesOf 4 data) pec s.blk = true) :
    twpWrite data pec s = wordAtPtr data s := by
  simp [twpWrite, twpServes, h5, htakes, hset, hlate, hpec]

theorem twpWrite_wrong {data : Word} {pec : Byte} (h5 : 5 ≤ s.blk.start.step) (htakes : twpTakes s.blk = true)
    (hset : s.blk.twp.ptrSet = true) (hlate : s.blk.twp.late = none) (hpec : pecFits (bytesOf 4 data) pec s.blk = false) :
    twpWrite data pec s = s.upd (pecError s.blk) := by
  simp [twpWrite, twpServes, h5, htakes, hset, hlate, hpec]

theorem wordAtPtr_eq (data : Word) (s : State) : wordAtPtr data s =
    let u := pathWrite .twp s.blk.twp.ptr data (wordHeld data s)
    if !twpServes u.blk then u
    else u.upd { u.blk with twp := { u.blk.twp with ptr := s.blk.twp.ptr + 4, pec := [] } } := rfl

theorem wordAtPtr_serves {data : Word} {u : State} (h : pathWrite .twp s.blk.twp.ptr data (wordHeld data s) = u)
    (h5 : 5 ≤ u.blk.start.step) :
    wordAtPtr data s = u.upd { u.blk with twp := { u.blk.twp with ptr := s.blk.twp.ptr + 4, pec := [] } } := by
  have hserves : ¬ (!twpServes u.blk) = true := by simp [twpServes, h5]
  rw [wordAtPtr_eq, h]
  exact if_neg hserves

/-- A word written at the pointer, by what the write answers there: the response is loaded, and the pointer advances by four. -/
theorem wordAtPtr_answers {data : Word} {st : Status} {c : Block} (h : pathWrite .twp s.blk.twp.ptr data (wordHeld data s)
      = s.upd (respond .twp true st s.blk.twp.ptr c))
    (hown : ownRsp s.blk.twp.ptr = false) (htwp : c.twp = (wordHeld data s).blk.twp) (h5 : 5 ≤ c.start.step) :
    (wordAtPtr data s).mem = s.mem ∧ (wordAtPtr data s).blk.regs = c.regs
      ∧ (wordAtPtr data s).blk.twp
        = { twpAnswered st s.blk.twp.ptr (wordHeld data s).blk.twp with ptr := s.blk.twp.ptr + 4, pec := [] } := by
  rw [wordAtPtr_serves h (by rw [State.upd_blk, respond_start]; exact h5)]
  refine ⟨rfl, respond_regs _ _ _ _ _, ?_⟩
  change { (respond .twp true st s.blk.twp.ptr c).twp with ptr := s.blk.twp.ptr + 4, pec := [] } = _
  rw [respond_twp hown, htwp]

/-! ### Reads, stops and bus faults (R519, R520, R523 to R526) -/

theorem respond_pec (st : Status) (addr : Word) (b : Block) : (respond .twp false st addr b).twp.pec = b.twp.pec := by
  cases h : ownRsp addr <;> simp [respond, pathTwp, h, twpSeen, twpResponse]

/-- The stack after a word has been read at the pointer: `r` is what the read returns. -/
def wordSent (r : Status × Word × Block) (b : Block) : Block :=
  let t := respond .twp false r.1 b.twp.ptr r.2.2
  { t with twp := { t.twp with
      word := r.2.1, pecOut := if pecMode t then crc8 (t.twp.pec ++ bytesOf 4 r.2.1) else t.twp.pecOut
      ptr := b.twp.ptr + 4, pec := [], acked := false, due := false } }

theorem twpRead_serves (h5 : 5 ≤ s.blk.start.step) (haddr : s.blk.twp.addressed = true) (hread : s.blk.twp.reading = true)
    (hnack : s.blk.twp.nacking = false) (hP0 : s.blk.pwr.state = 0) :
    twpRead s = s.upd (wordSent (readReg .twp s.blk.twp.ptr s.blk) s.blk) := by
  have hserves : ¬ (!twpServes s.blk || !s.blk.twp.addressed || !s.blk.twp.reading || s.blk.twp.nacking) = true := by
    simp [twpServes, h5, haddr, hread, hnack]
  unfold twpRead
  dsimp only
  rw [wakeBy_P0 _ _ hP0, if_neg hserves]
  rfl

theorem wordSent_pecOut {r : Status × Word × Block} (h : pecMode r.2.2 = true) :
    (wordSent r b).twp.pecOut = crc8 (r.2.2.twp.pec ++ bytesOf 4 r.2.1) := by
  have hmode : pecMode (respond .twp false r.1 b.twp.ptr r.2.2) = true := by
    rw [← h, pecMode, pecMode, rw, rw, respond_regs]
  change (if pecMode (respond .twp false r.1 b.twp.ptr r.2.2) = true then _ else _) = _
  rw [hmode, if_pos rfl, respond_pec]

theorem twpStop_whole (h5 : 5 ≤ b.start.step) :
    twpStop false b = commitPlain twpBase { twpEnd b with twp := { (twpEnd b).twp with bus := false } } :=
  if_neg (by simp [twpServes, h5])

/-- The one write that waits for a block is live after its commit. -/
theorem commitPlain_one {base : Nat} {w : PendWr} (hpend : b.regs.pend = [w]) (hbase : baseOf w.addr = base) (hgood : w.good = true) :
    commitPlain base b = setLive w.addr w.value { b with regs := { b.regs with pend := [] } } := by
  have htake : takePend base b = ([w], { b with regs := { b.regs with pend := [] } }) := by
    simp [takePend, hpend, hbase, hgood]
  rw [commitPlain, htake]
  rfl

theorem stretchLimit_waits (h5 : 5 ≤ b.start.step) (haddr : b.twp.addressed = true) (hnack : b.twp.nacking = false)
    (hready : b.twp.reading = true ∨ b.twp.ptrSet = true) :
    stretchLimit b = { twpFlag 5 b with twp := { b.twp with
      nacking := true, stretched := true, acked := false
      word := if b.twp.reading then 0xFFFFFFFF else b.twp.word
      late := if b.twp.reading then b.twp.late else some b.twp.ptr, lateTx := !b.twp.reading, due := false } } := by
  have hwaits : (!b.twp.reading && !b.twp.ptrSet) = false := by
    obtain h | h := hready <;> simp [h]
  exact if_neg (by simp [twpServes, h5, haddr, hnack, hwaits])

theorem ctr_ctrAdd_other {a k n : Nat} (h : k ≠ a) : ctr k (ctrAdd a n b) = ctr k b := mget_mset_other _ _ _ h

/-- The stack whose bus has timed out, before the raise. -/
def busReset (sda : Bool) (b : Block) : Block :=
  let t := twpEnd (twpError (twpFlag (if sda then 2 else 1) b))
  { t with twp := { t.twp with bus := false } }

theorem busReset_eq (sda : Bool) (b : Block) : busReset sda b = { b with
    twp := (busReset sda b).twp, defers := (busReset sda b).defers
    regs := (twpError (twpFlag (if sda then 2 else 1) b)).regs } := by
  unfold busReset
  rw [twpEnd_eq]
  rfl

theorem busTimeout_resets (sda : Bool) (h5 : 5 ≤ b.start.step) (hpend : b.regs.pend = []) :
    busTimeout sda false b = raise (fs .twpTimeout) 0x5B (if sda then 2 else 1) [] (busReset sda b) := by
  have hcommit : commitPlain twpBase (busReset sda b) = busReset sda b := commitPlain_empty _ (by rw [busReset_eq]; exact hpend)
  have hserves : ¬ (!twpServes b) = true := by simp [twpServes, h5]
  unfold busTimeout
  rw [if_neg hserves]
  exact congrArg (raise (fs .twpTimeout) 0x5B (if sda then 2 else 1) []) hcommit

theorem busReset_idle (sda : Bool) (b : Block) :
    (busReset sda b).twp.busy = false ∧ (busReset sda b).twp.bus = false ∧ (busReset sda b).twp.addressed = false :=
  ⟨twpEnd_busy (twpError (twpFlag (if sda then 2 else 1) b)), rfl, twpEnd_addressed (twpError (twpFlag (if sda then 2 else 1) b))⟩

theorem protocolError_serves (a : Byte) (h5 : 5 ≤ b.start.step) (haddr : b.twp.addressed = true) :
    protocolError a false b = twpAddressed a (twpEnd (twpError (twpFlag 3 b))) :=
  if_neg (by simp [twpServes, h5, haddr])

/-! ### What a word writes, by the register at the pointer -/

/-- Taking a word's bytes leaves what a write over the port needs. -/
theorem takesWrites_wordHeld {data : Word} (hw : takesWrites .twp s) : takesWrites .twp (wordHeld data s) := hw

/-- A word that its register's block takes. -/
theorem pathWrite_word {data : Word} {st : Status} {c : Block} (hw : takesWrites .twp s) {a : Nat} (haddr : s.blk.twp.ptr.toNat = a + 0)
    (hreg : plainReg (a + 0)) (hwrite : writeBlock .twp (a + 0) data (wordHeld data s).blk = (st, c))
    (hstart : c.start = s.blk.start) :
    pathWrite .twp s.blk.twp.ptr data (wordHeld data s) = s.upd (respond .twp true st s.blk.twp.ptr c) := by
  have hptr : s.blk.twp.ptr = BitVec.ofNat 32 (a + 0) := by rw [← haddr, BitVec.ofNat_toNat, BitVec.setWidth_eq]
  have hput := put_block (takesWrites_wordHeld (data := data) hw) hreg hwrite hstart
  rw [hptr]
  exact hput

/-- A word whose write a common check refuses. -/
theorem pathWrite_wordRefused {data : Word} {i : Nat} (hw : takesWrites .twp s) (hlow : reactionOf s.blk (fs .regAccess) ≤ 2)
    (h : writeFault .twp s.blk.twp.ptr 15 s.blk = some i) :
    quietly (regErr i s.blk.twp.ptr (wordHeld data s).blk) (accessFault i .twp s.blk.twp.ptr (wordHeld data s).blk)
      ∧ pathWrite .twp s.blk.twp.ptr data (wordHeld data s)
        = s.upd (respond .twp true .accessError s.blk.twp.ptr (accessFault i .twp s.blk.twp.ptr (wordHeld data s).blk)) := by
  obtain ⟨hopen, hP0, hsafe, -, hgood⟩ := takesWrites_wordHeld (data := data) hw
  have hquiet : quietly (regErr i s.blk.twp.ptr (wordHeld data s).blk) (accessFault i .twp s.blk.twp.ptr (wordHeld data s).blk) :=
    raise_quiet _ _ _ (by rw [reactionOf_congr (b := (wordHeld data s).blk) (by rw [regErr_eq])]; exact hlow)
  have hstart : (accessFault i .twp s.blk.twp.ptr (wordHeld data s).blk).start = s.blk.start := by
    rw [hquiet.1, regErr_eq]
    rfl
  have h5 : ¬ (accessFault i .twp s.blk.twp.ptr (wordHeld data s).blk).start.step < 5 := by
    rw [hstart]
    exact Nat.not_lt.mpr (takesWrites_step hw)
  refine ⟨hquiet, ?_⟩
  have hwrite := writeReg_refused (path := .twp) (last := none) (data := data) (addr := s.blk.twp.ptr) (be := 15) (i := i) hsafe hgood h
  unfold pathWrite pathWriteAt
  rw [wakeBy_P0 _ _ hP0, hwrite, hopen]
  exact if_neg h5

theorem writeBlock_bstArg (data : Word) (b : Block) :
    writeBlock .twp (bstBase + 4 + 0) data b = (.ok, setLive (bstBase + 4) (data &&& 0xFFFF) b) := rfl

theorem writeBlock_twpCtrl (data : Word) (h : b.twp.bus = true) :
    writeBlock .twp (twpBase + 0) data b = (.ok, bufferWrite twpBase (data &&& 1) b) := by
  have hbuffer : buffer twpBase (data &&& 1) b = bufferWrite twpBase (data &&& 1) b := by
    have hwaits : atOnceNow twpBase (bufferWrite twpBase (data &&& 1) b) = false := by
      change (!b.twp.bus) = false
      rw [h]
      rfl
    change (if !atOnceNow twpBase (bufferWrite twpBase (data &&& 1) b) then _ else _) = _
    rw [hwaits]
    rfl
  exact congrArg (Prod.mk Status.ok) hbuffer

end Sys2Proof.Machine
end

section
/-! SUPPORT. The parts of O60: one lemma per row of the two-wire port. -/

namespace Sys2Proof.Machine

open Sys2Proof

variable {s : State}

theorem exec_twpStart_own {a : Byte} (h5 : 5 ≤ s.blk.start.step) (haddr : a.toNat / 2 = 0x38 + s.blk.start.straps.toNat)
    (hstretch : s.blk.twp.stretched = false) (hgood : s.blk.regs.badPar = []) :
    exec (.twpStart a false false) s = .next (s.upd { s.blk with
      twp := twpBegun a s.blk.twp, regs := if s.blk.twp.busy then s.blk.regs else (ctrAdd (twpBase + 0x14) 1 s.blk).regs }) :=
  congrArg (fun b => Host.Outcome.next (s.upd b)) ((twpStart_whole a h5 hgood).trans (twpAddressed_own haddr hstretch))

theorem straps_sampled {v : BitVec 3} {u : State} (hpwrok : s.blk.start.pwrok = true) (hbrown : s.blk.start.brown = false)
    (hlow : s.blk.start.resetN = false) (h : exec (.resetNRise v) s = .next u) : u.blk.start.straps = v := by
  obtain rfl : s.upd (resetRise v s.blk) = u := Host.Outcome.next.inj h
  rw [State.upd_blk, resetRise_starts v hpwrok hbrown hlow]

/-- A word written to BST_ARG, to TWP_CTRL while the bus is busy, and to no register (R517, R520). -/
theorem word_effects {data : Word} (h5 : 5 ≤ s.blk.start.step) (hw : takesWrites .twp s) :
    let x := s.blk.twp
    let after := fun t : State => t.mem = s.mem ∧ t.blk.twp = { x with
      ptr := x.ptr + 4, pec := [], acked := true, assembly := bytesOf 4 data, rsp := t.blk.twp.rsp, rspAddr := x.ptr, err := t.blk.twp.err }
    (x.ptr.toNat = bstBase + 4 → after (wordAtPtr data s) ∧ wfield (wordAtPtr data s).blk.twp.rsp 8 0 = 0x100
      ∧ (wordAtPtr data s).blk.twp.err = x.err ∧ rw (bstBase + 4) (wordAtPtr data s).blk = data &&& 0xFFFF) ∧
    (x.ptr.toNat = twpBase → x.bus = true → after (wordAtPtr data s) ∧ wfield (wordAtPtr data s).blk.twp.rsp 8 0 = 0x100
      ∧ (wordAtPtr data s).blk.twp.err = x.err ∧ shadow twpBase (wordAtPtr data s).blk = data &&& 1
      ∧ rw twpBase (wordAtPtr data s).blk = rw twpBase s.blk) ∧
    (x.ptr.toNat % 4 = 0 → x.ptr.toNat % 0x1000 < 0x800 → mapped x.ptr.toNat = false → reactionOf s.blk (fs .regAccess) ≤ 2 →
      after (wordAtPtr data s) ∧ wfield (wordAtPtr data s).blk.twp.rsp 8 0 = 0x10B
      ∧ (wordAtPtr data s).blk.twp.err = true ∧ (wordAtPtr data s).blk.regs.live = s.blk.regs.live) := by
  intro x after
  have hafter : ∀ st, (wordAtPtr data s).mem = s.mem → (wordAtPtr data s).blk.twp
      = { twpAnswered st x.ptr (wordHeld data s).blk.twp with ptr := x.ptr + 4, pec := [] } →
      after (wordAtPtr data s) ∧ wfield (wordAtPtr data s).blk.twp.rsp 8 0 = 0x100 + st.code
        ∧ (wordAtPtr data s).blk.twp.err = (x.err || st != .ok) := by
    intro st hmem htwp
    have hrsp := (congrArg (fun y : Twp => wfield y.rsp 8 0) htwp).trans (wfield_rsp st x.ptr (wordHeld data s).blk.twp)
    exact ⟨⟨hmem, by rw [htwp]; rfl⟩, hrsp, congrArg Twp.err htwp⟩
  refine ⟨fun haddr => ?_, fun haddr hbus => ?_, fun h4 hlive hmap hlow => ?_⟩
  case refine_1 =>
    have hown : ownRsp s.blk.twp.ptr = false := by
      rw [ownRsp, show s.blk.twp.ptr.toNat = bstBase + 4 from haddr]
      decide
    obtain ⟨hmem, hregs, htwp⟩ := wordAtPtr_answers (data := data)
      (pathWrite_word hw (a := bstBase + 4) haddr (by decide) (writeBlock_bstArg data _) rfl) hown rfl h5
    obtain ⟨hdone, hrsp, herr⟩ := hafter .ok hmem htwp
    refine ⟨hdone, hrsp, herr.trans (Bool.or_false _), ?_⟩
    exact (congrArg (fun r : Regs => mget r.live (bstBase + 4) (rwReset (bstBase + 4))) hregs).trans (rw_setLive_same _ _ _)
  case refine_2 =>
    have hown : ownRsp s.blk.twp.ptr = false := by
      rw [ownRsp, show s.blk.twp.ptr.toNat = twpBase from haddr]
      decide
    obtain ⟨hmem, hregs, htwp⟩ := wordAtPtr_answers (data := data)
      (pathWrite_word hw (a := twpBase) haddr (by decide) (writeBlock_twpCtrl data hbus) rfl) hown rfl h5
    obtain ⟨hdone, hrsp, herr⟩ := hafter .ok hmem htwp
    refine ⟨hdone, hrsp, herr.trans (Bool.or_false _), ?_, ?_⟩
    · exact (shadow_congr hregs).trans (shadow_bufferWrite twpBase _ _)
    · exact (congrArg (fun r : Regs => mget r.live twpBase (rwReset twpBase)) hregs).trans rfl
  case refine_3 =>
    have hown : ownRsp s.blk.twp.ptr = false := by
      cases h : ownRsp s.blk.twp.ptr with
      | false => rfl
      | true =>
        simp only [ownRsp, Bool.or_eq_true, beq_iff_eq] at h
        obtain h | h := h <;> exact absurd (h ▸ hmap) (by decide)
    obtain ⟨hquiet, hwrite⟩ := pathWrite_wordRefused (data := data) hw hlow (writeFault_unmapped h4 rfl hlive hmap)
    have hfault : (accessFault 4 .twp x.ptr (wordHeld data s).blk).twp = (wordHeld data s).blk.twp
        ∧ (accessFault 4 .twp x.ptr (wordHeld data s).blk).start = s.blk.start
        ∧ (accessFault 4 .twp x.ptr (wordHeld data s).blk).regs.live = s.blk.regs.live := by
      rw [hquiet.1, regErr_eq]
      exact ⟨rfl, rfl, rfl⟩
    obtain ⟨htwp', hstart, hlive'⟩ := hfault
    obtain ⟨hmem, hregs, htwp⟩ := wordAtPtr_answers hwrite hown htwp' (by rw [hstart]; exact h5)
    obtain ⟨hdone, hrsp, herr⟩ := hafter .accessError hmem htwp
    exact ⟨hdone, hrsp, herr.trans (Bool.or_true _), (congrArg Regs.live hregs).trans hlive'⟩

end Sys2Proof.Machine

open Sys2Proof Sys2Proof.Machine

/-- Settles O60: each row of the port is an equation of what it leaves (`twpStart_whole`, `twpPointer_fits`, `word_effects`,
`twpEnd_runs`, `raise_recorded`), with the straps that RESET_N's rise samples. -/
theorem twoWireTransactions : Obligations.TwoWireTransactions := by
  unfold Obligations.TwoWireTransactions
  intro s h5 x taking mode
  have htakes : taking → twpTakes s.blk = true := twpTakes_iff.mpr
  have hserves : twpServes s.blk = true := decide_eq_true h5
  refine ⟨?strapped, ?own, ?other, ?pointer, ?word, ?read, ?stop, ?commits, ?stretch, ?timeout, ?protocol⟩
  case strapped =>
    intro sa2 sa1 sa0 s0 u hpwrok hbrown hlow hrise hstraps hstretch hgood read
    obtain ⟨haddr, hread⟩ := strapAddress sa2 sa1 sa0 read
    rw [← straps_sampled hpwrok hbrown hlow hrise, ← hstraps] at haddr
    exact ⟨_, exec_twpStart_own h5 haddr hstretch hgood, rfl, hread⟩
  case own =>
    intro a haddr hstretch hgood
    refine ⟨_, exec_twpStart_own h5 haddr hstretch hgood, rfl, rfl, rfl, fun hbusy => ?_, fun hidle => ?_⟩
    · exact if_pos hbusy
    · exact (congrArg (fun r : Regs => (mget r.ctr (twpBase + 0x14) 0).toNat) (if_neg (ne_true_of_eq_false hidle))).trans
        (ctr_ctrAdd (twpBase + 0x14) 1 s.blk)
  case other =>
    intro a haddr hgood
    exact congrArg (fun b => Host.Outcome.next (s.upd b)) ((twpStart_whole a h5 hgood).trans (twpAddressed_other haddr))
  case pointer =>
    intro p pec htaking hset
    refine ⟨fun hfits => ?_, fun hmode hwrong => ?_⟩
    · exact congrArg (fun b => Host.Outcome.next (s.upd b)) (twpPointer_fits h5 (htakes htaking) hset (pecFits_iff.mpr hfits))
    · have hpec : pecFits (bytesOf 4 p) pec s.blk = false :=
        Bool.eq_false_iff.mpr fun h => (pecFits_iff.mp h).elim (fun h => absurd hmode (ne_true_of_eq_false h)) hwrong
      obtain ⟨htwp, hflag, hcount, -⟩ := pecError_counts s.blk
      exact ⟨_, congrArg (fun b => Host.Outcome.next (s.upd b)) (twpPointer_wrong h5 (htakes htaking) hset hpec), rfl, htwp,
        hflag, hcount⟩
  case word =>
    intro data pec htaking hset hlate held after
    refine ⟨fun hfits => ?_, fun hmode hwrong => ?_⟩
    · have hrow : exec (.twpWordWrite data pec) s = .next (wordAtPtr data s) :=
        congrArg Host.Outcome.next (twpWrite_fits h5 (htakes htaking) hset hlate (pecFits_iff.mpr hfits))
      refine ⟨⟨_, rfl, fun h => ?_⟩, fun hw haddr => ?_, fun hw haddr hbus => ?_, fun hw h4 hlive hmap hlow => ?_⟩
      · exact hrow.trans (congrArg Host.Outcome.next (wordAtPtr_serves rfl h))
      · obtain ⟨hargs, -⟩ := word_effects (data := data) h5 hw
        exact ⟨_, hrow, hargs haddr⟩
      · obtain ⟨-, hctrl, -⟩ := word_effects (data := data) h5 hw
        exact ⟨_, hrow, hctrl haddr hbus⟩
      · obtain ⟨-, -, hnone⟩ := word_effects (data := data) h5 hw
        exact ⟨_, hrow, hnone h4 hlive hmap hlow⟩
    · have hpec : pecFits (bytesOf 4 data) pec s.blk = false :=
        Bool.eq_false_iff.mpr fun h => (pecFits_iff.mp h).elim (fun h => absurd hmode (ne_true_of_eq_false h)) hwrong
      obtain ⟨htwp, hflag, -, hlive⟩ := pecError_counts s.blk
      exact ⟨_, congrArg Host.Outcome.next (twpWrite_wrong h5 (htakes htaking) hset hlate hpec), rfl, htwp, hflag, hlive⟩
  case read =>
    intro haddr hread hnack hP0 r
    exact ⟨_, congrArg Host.Outcome.next (twpRead_serves h5 haddr hread hnack hP0), rfl, rfl, rfl, rfl, fun _ hmode =>
      wordSent_pecOut hmode⟩
  case stop =>
    intro hbusy hpend
    have hstop : twpStop false s.blk = { s.blk with
        defers := (twpEnd s.blk).defers, twp := { twpEnded s.blk.twp with bus := false } } := by
      rw [twpStop_whole h5, twpEnd_runs hbusy]
      exact commitPlain_empty _ hpend
    exact ⟨_, congrArg (fun b => Host.Outcome.next (s.upd b)) hstop, rfl, rfl, rfl, rfl, rfl, rfl, twpEnded_seen x,
      wfield_twpEnded x, rfl⟩
  case commits =>
    intro w hidle hpend haddr hgood
    have hstop : twpStop false s.blk = setLive w.addr w.value { s.blk with
        defers := (twpEnd s.blk).defers, regs := { s.blk.regs with pend := [] }
        twp := { x with lateTx := false, due := false, addressed := false, acked := false, assembly := [], bus := false } } := by
      have hbase : baseOf w.addr = twpBase := by rw [haddr]; decide
      rw [twpStop_whole h5, twpEnd_idle hidle]
      refine commitPlain_one ?_ hbase hgood
      exact hpend
    refine ⟨_, congrArg (fun b => Host.Outcome.next (s.upd b)) hstop, rfl, ?_, rfl, rfl⟩
    rw [← haddr]
    exact rw_setLive_same _ _ _
  case stretch =>
    intro haddr hnack hready
    exact ⟨_, congrArg (fun b => Host.Outcome.next (s.upd b)) (stretchLimit_waits h5 haddr hnack hready), rfl,
      rcGet_rcSet_bit (i := 5) (twpBase + 4) s.blk (by decide), rfl⟩
  case timeout =>
    intro sda hpend hfresh hlow
    have hsame := busReset_eq sda s.blk
    have hsage : (busReset sda s.blk).sage = s.blk.sage := by rw [hsame]
    have htime : (busReset sda s.blk).now = s.blk.now := by rw [hsame]; rfl
    have hregs : (busReset sda s.blk).regs = (twpError (twpFlag (if sda then 2 else 1) s.blk)).regs := by rw [hsame]
    have hfresh' : freshSource (fs .twpTimeout) (busReset sda s.blk) := by
      unfold freshSource
      rw [hsage, htime]
      exact hfresh
    have hlow' : reactionOf (busReset sda s.blk) (fs .twpTimeout) ≤ 2 := by rwa [reactionOf_congr (congrArg Sage.react hsage)]
    obtain ⟨hpending, hinfo, hcount, -⟩ := raise_recorded (s := s.upd (busReset sda s.blk)) (unit := 0x5B)
      (detail := if sda then 2 else 1) [] hfresh' hlow'
    have hquiet : quietly (busReset sda s.blk) (raise (fs .twpTimeout) 0x5B (if sda then 2 else 1) [] (busReset sda s.blk)) :=
      raise_quiet _ _ _ hlow'
    have htwp := congrArg Block.twp hquiet.1
    obtain ⟨hbusy, hbus, haddr⟩ := busReset_idle sda s.blk
    refine ⟨_, congrArg (fun b => Host.Outcome.next (s.upd b)) (busTimeout_resets sda h5 hpend), ⟨?_, hinfo, ?_, rfl, rfl⟩,
      (congrArg Twp.busy htwp).trans hbusy, (congrArg Twp.bus htwp).trans hbus, (congrArg Twp.addressed htwp).trans haddr, ?_⟩
    · exact hpending.trans (congrArg (fun g : Sage => bset g.pend (fs .twpTimeout)) hsage)
    · have hother : ctr (sageBase + 0x1C) (busReset sda s.blk) = ctr (sageBase + 0x1C) s.blk := by
        rw [ctr, hregs]
        exact ctr_ctrAdd_other (a := twpBase + 0x18) (by decide)
      rw [← hother]
      exact hcount
    · rw [State.upd_blk, quietly_rcGet hquiet, rcGet, hregs]
      exact rcGet_rcSet_bit (twpBase + 4) s.blk (by split <;> decide)
  case protocol =>
    intro a hbusy hown haddr
    have hended : twpEnd (twpError (twpFlag 3 s.blk)) = { twpError (twpFlag 3 s.blk) with
        defers := (twpEnd (twpError (twpFlag 3 s.blk))).defers, twp := twpEnded x } := twpEnd_runs hbusy
    have hrow : protocolError a false s.blk = { twpError (twpFlag 3 s.blk) with
        defers := (twpEnd (twpError (twpFlag 3 s.blk))).defers, twp := twpBegun a (twpEnded x)
        regs := (ctrAdd (twpBase + 0x14) 1 (twpError (twpFlag 3 s.blk))).regs } := by
      rw [protocolError_serves a h5 hown, hended]
      refine (twpAddressed_own ?_ ?_).trans rfl
      · exact haddr
      · rfl
    refine ⟨_, congrArg (fun b => Host.Outcome.next (s.upd b)) hrow, rfl,
      rcGet_rcSet_bit (i := 3) (twpBase + 4) s.blk (by decide), ?_, rfl, rfl, rfl, rfl, rfl⟩
    have hother : ctr (twpBase + 0x18) (ctrAdd (twpBase + 0x14) 1 (twpError (twpFlag 3 s.blk)))
        = ctr (twpBase + 0x18) (twpError (twpFlag 3 s.blk)) := ctr_ctrAdd_other (by decide)
    exact (congrArg BitVec.toNat hother).trans (ctr_ctrAdd (twpBase + 0x18) 1 (twpFlag 3 s.blk))

end

section
/-! SUPPORT. What no fault reaction touches (R456 to R469): taking a unit out of service and entering the safe state leave the thermal
unit, calibration, OTP, the two-wire port, the power state, the waiting responses and the tables of the image as they are. One lemma
per operation, in the order of the model. -/

namespace Sys2Proof.Machine

open Sys2Proof

/-- A block without what the reaction to a fault may change. -/
def spared (b : Block) : Block :=
  { b with
    start := { b.start with supHeld := false, stage := 0 }, regs := {}, img := { b.img with state := .idle }
    ports := ({} : Block).ports, hnd := {}, srl := {}, chans := ({} : Block).chans, ops := {}, engs := ({} : Block).engs
    clk := { b.clk with queue := [] }, sage := { react := b.sage.react }, bst := { b.bst with run := none }, fresh := 0 }

variable (b : Block)

/-! ### Operations of one unit -/

@[simp] theorem modPort_spared (p : PortId) (f : Port → Port) : spared (modPort p f b) = spared b := rfl
@[simp] theorem modChan_spared (c : ChanId) (f : Chan → Chan) : spared (modChan c f b) = spared b := rfl
@[simp] theorem modEng_spared (e : EngId) (f : Eng → Eng) : spared (modEng e f b) = spared b := rfl
@[simp] theorem ctrAdd_spared (a n : Nat) : spared (ctrAdd a n b) = spared b := rfl
@[simp] theorem rcSet_spared (a i : Nat) : spared (rcSet a i b) = spared b := rfl
@[simp] theorem modDesc_spared (id : Nat) (f : Desc → Desc) : spared (modDesc id f b) = spared b := rfl
@[simp] theorem modPiece_spared (id i : Nat) (f : Piece → Piece) : spared (modPiece id i f b) = spared b := rfl

@[simp] theorem emit_spared (mask : BitVec 16) (e : Ev) : spared (emit mask e b) = spared b := by
  unfold emit
  split
  · rfl
  · refine forAll_keep b spared _ fun p b => ?_
    split <;> rfl

@[simp] theorem emitAll_spared (own : List OwnEv) : spared (own.foldl (fun b o => emit o.mask o.ev b) b) = spared b :=
  foldl_keep spared _ (fun _ _ => emit_spared _ _ _) _ _

/-! ### Records of ports -/

@[simp] theorem tagLost_spared (p : PortId) (tag : Nat) : spared (tagLost p tag b) = spared b := rfl

@[simp] theorem sendCmpl_spared (p : PortId) (tag : Nat) (st : Status) (kind handle : Nat) :
    spared (sendCmpl p tag st kind handle b) = spared b := by
  unfold sendCmpl
  split <;> rfl

@[simp] theorem releaseCred_spared (k : Option Cred) : spared (releaseCred k b) = spared b := by cases k <;> rfl

theorem checkFences_spared (p : PortId) : spared (checkFences p b) = spared b :=
  foldl_keep spared _ (fun _ _ => sendCmpl_spared _ _ _ _ _ _) _ _

@[simp] theorem sendFlit_spared (p : PortId) : spared (sendFlit p b) = spared b := by
  unfold sendFlit
  split
  · rw [checkFences_spared, modPort_spared]
  · rfl

@[simp] theorem payFlits_spared (p : PortId) (n : Nat) : spared (payFlits p n b) = spared b := by
  induction n generalizing b with
  | zero => rfl
  | succ n ih =>
    unfold payFlits
    split
    · rw [ih, sendFlit_spared]
    · rfl

@[simp] theorem lastFlits_spared (p : PortId) : spared (lastFlits p b) = spared b := by
  unfold lastFlits
  split
  · rw [sendFlit_spared, payFlits_spared]
  · rfl

/-! ### Ports -/

@[simp] theorem disablePort_spared (p : PortId) : spared (disablePort p b) = spared b := rfl

@[simp] theorem detectPort_spared (p : PortId) : spared (detectPort p b) = spared b := by
  unfold detectPort
  dsimp only
  split <;> rfl

@[simp] theorem safePorts_spared : spared (safePorts b) = spared b := by
  refine forAll_keep b spared _ fun p b => ?_
  split
  · exact detectPort_spared b p
  · split
    · rfl
    · exact disablePort_spared b p

@[simp] theorem sendLastEvent_spared (nme : Bool) (e : Ev) (p : PortId) : spared (sendLastEvent nme e p b) = spared b := by
  unfold sendLastEvent
  split <;> rfl

/-! ### Pieces of operations -/

@[simp] theorem postCtx_spared (e k ev : Nat) (line : List Byte) : spared (postCtx e k ev line b) = spared b :=
  postCtx_keep b spared (fun b i g => modEng_spared b i g) e k ev line

@[simp] theorem postAborts_spared (e : Nat) : spared (postAborts e b) = spared b :=
  foldl_keep spared _ (fun _ _ => postCtx_spared _ _ _ _ _) _ _

@[simp] theorem postPiece_spared (id i ev : Nat) (line : List Byte) : spared (postPiece id i ev line b) = spared b := by
  unfold postPiece
  split
  · rfl
  · split <;> rfl

@[simp] theorem answerPiece_spared (id i try_ : Nat) (a : Ans) : spared (answerPiece id i try_ a b) = spared b := by
  unfold answerPiece
  split
  · split
    · rw [postPiece_spared]; rfl
    · rfl
  · rfl

/-! ### Accesses of a channel -/

@[simp] theorem failAcc_spared (e : Acc) : spared (failAcc e b) = spared b := by
  unfold failAcc
  split
  case h_1 =>
    split
    · split
      · rfl
      · rw [sendCmpl_spared, modPort_spared]
    · rfl
  case h_4 =>
    split
    · exact answerPiece_spared _ _ _ _ _
    · rfl
  all_goals simp

@[simp] theorem failXAcc_spared (g : XAcc) : spared (failXAcc g b) = spared b := by
  have hlines : spared (g.lines.foldl (fun b e => failAcc e b) (releaseCred g.cred b)) = spared b := by
    rw [foldl_keep spared _ (fun b e => failAcc_spared b e), releaseCred_spared]
  unfold failXAcc
  dsimp only
  split
  · rw [sendCmpl_spared, hlines]
  · exact hlines

/-! ### Migrations -/

@[simp] theorem modEntry_spared (h l : Nat) (f : MapEntry → MapEntry) : spared (modEntry h l f b) = spared b := by
  unfold modEntry
  split <;> rfl

@[simp] theorem retireSeg_spared (s : Nat) : spared (retireSeg s b) = spared b := emit_spared _ _ _

@[simp] theorem freeSeg_spared (s : Nat) : spared (freeSeg s b) = spared b := rfl

@[simp] theorem dropMig_spared (m : Mig) : spared (dropMig m b) = spared b := by
  unfold dropMig
  dsimp only
  split
  · rw [retireSeg_spared, modChan_spared, modEntry_spared]
    rfl
  · rw [freeSeg_spared, modChan_spared, modEntry_spared]
    rfl

@[simp] theorem queueOrder_spared (o : Order) : spared (queueOrder o b) = spared b := rfl

@[simp] theorem promoteN_spared (n : Nat) : spared (promoteN n b) = spared b := by
  induction n generalizing b with
  | zero => rfl
  | succ n ih =>
    unfold promoteN
    split
    · rfl
    · split
      · rfl
      · dsimp only
        rw [ih]
        split <;> rfl

@[simp] theorem dropOrders_spared (o : Order → Bool) (w : Nat → Bool) : spared (dropOrders o w b) = spared b := promoteN_spared _ _

@[simp] theorem enqueueOrder_spared (o : Order) : spared (enqueueOrder o b) = spared b := by
  unfold enqueueOrder
  split
  · split
    · rfl
    · split <;> rfl
  · split <;> rfl

@[simp] theorem evacSegment_spared (h l : Nat) : spared (evacSegment h l b) = spared b := by
  unfold evacSegment
  extract_lets c _ d
  have hd : spared d = spared b := by
    have hc : spared c = spared b := modEntry_spared b h l _
    rw [← hc]
    dsimp only [d]
    split <;> rfl
  rw [apply_ite spared, enqueueOrder_spared, ite_self, hd]

@[simp] theorem renewEvac_spared (m : Mig) : spared (renewEvac m b) = spared b := by
  unfold renewEvac
  split
  · rw [evacSegment_spared]
    rfl
  · rfl

@[simp] theorem abortMig_spared (m : Mig) : spared (abortMig m b) = spared b := by rw [abortMig, ctrAdd_spared, dropMig_spared]

@[simp] theorem abortCopy_spared (m : Mig) : spared (abortCopy m b) = spared b := by
  unfold abortCopy
  rw [abortMig_spared]
  split
  · exact postCtx_spared _ _ _ _ _
  · rfl

@[simp] theorem offlineMigs_spared (c : Nat) : spared (offlineMigs c b) = spared b := by
  refine foldl_keep spared _ (fun b m => ?_) _ _
  by_cases hsrc : segChan m.src = c
  · have hback (t : Block) (h : spared t = spared b) (x : Sorrel) : spared { t with srl := x } = spared b := h
    simp only [hsrc, if_true]
    split
    · rw [emit_spared, modEntry_spared, hback _ (abortMig_spared b m)]
    · rw [modEntry_spared, hback _ (abortMig_spared b m)]
  · simp only [hsrc, if_false]
    split
    · simp
    · split <;> simp

/-- A channel goes OFFLINE (R342). -/
@[simp] theorem offlineChan_spared (c : Nat) : spared (offlineChan c b) = spared b := by
  unfold offlineChan
  dsimp only
  rw [foldl_keep spared _ (fun _ _ => sendCmpl_spared _ _ _ _ _ _), foldl_keep spared _ (fun b g => failXAcc_spared b g),
    foldl_keep spared _ (fun b e => failAcc_spared b e), postAborts_spared, modChan_spared, offlineMigs_spared, dropOrders_spared]

/-! ### The safe state -/

@[simp] theorem cutBist_spared (f : Nat → Bool) : spared (cutBist f b) = spared b := by
  unfold cutBist
  split
  · split <;> rfl
  · rfl

@[simp] theorem allToSelfRefresh_spared : spared (allToSelfRefresh b) = spared b := rfl

@[simp] theorem safeStage_spared : spared (safeStage b) = spared b := by
  unfold safeStage
  split <;> rfl

@[simp] theorem stopBoot_spared : spared (stopBoot b) = spared b := by
  unfold stopBoot
  split <;> rfl

/-! ### Recording (R456) -/

@[simp] theorem amendEvents_spared (f : BitVec 128 → Bool) (g : BitVec 128 → BitVec 128) : spared (amendEvents f g b) = spared b := rfl

@[simp] theorem latchStep_spared (src unit : Nat) (detail : Word) : spared (latchStep src unit detail b) = spared b := by
  unfold latchStep
  split
  · rfl
  · dsimp only
    split <;> rfl

@[simp] theorem record_spared (src unit : Nat) (detail : Word) : spared (record src unit detail b).1 = spared b := by
  unfold record
  dsimp only
  split
  · split
    · split <;> rfl
    · rfl
  · have hlatched := latchStep_spared (ctrAdd (sageBase + 0x1C) 1 b) src unit detail
    split <;> exact hlatched

@[simp] theorem amendRaise_spared (src : Nat) (old detail : Word) (own : List OwnEv) :
    spared (amendRaise src old detail own b) = spared b :=
  foldl_keep spared _ (fun _ _ => amendEvents_spared _ _ _) _ _

@[simp] theorem report_spared (src : Nat) (detail : Word) (own : List OwnEv) : spared (report src detail own b) = spared b := by
  unfold report
  split
  · exact emit_spared _ _ _
  · exact emitAll_spared b own

@[simp] theorem reportReact_spared (src : Nat) (detail : Word) (own : List OwnEv) (inj : Bool) :
    spared (reportReact src detail own inj b) = spared b := by
  unfold reportReact
  split
  · exact report_spared _ _ _ _
  · rfl

@[simp] theorem startTimer_spared (src : Nat) (second : Bool) : spared (startTimer src second b) = spared b := rfl

@[simp] theorem isolated_spared (src unit : Nat) : spared (isolated src unit b) = spared b := emit_spared _ _ _

@[simp] theorem noteRef_spared (src : Nat) : spared (noteRef src b) = spared b := by
  unfold noteRef
  split <;> rfl

/-! ### The safe state (R469) -/

theorem portsDown_spared {before : Vector Port 16} {f : Nat → PortId → Block → Block}
    (hf : ∀ code p b, spared (f code p b) = spared b) : spared (portsDown before f b) = spared b := by
  refine forAll_keep b spared _ fun p b => ?_
  split
  · split
    · exact hf _ _ _
    · rfl
  · split
    · rfl
    · exact hf _ _ _

@[simp] theorem enterSafe_spared (src : Nat) (detail : Word) (byEsc self : Bool) :
    spared (enterSafe src detail byEsc self b) = spared b := by
  unfold enterSafe
  extract_lets e _ _ _ entered sent before down
  split
  · rfl
  · have hentered : spared entered = spared b := rfl
    have hsent : spared sent = spared entered := forAll_keep entered spared _ fun p b => sendLastEvent_spared b true e p
    have hdown : spared down = spared (safePorts (cutBist (fun _ => true) sent)) :=
      portsDown_spared _ fun code p b => record_spared b _ _ _
    clear_value entered sent down
    have hheld : spared { down with engs := down.engs.map holdEngine } = spared down := rfl
    rw [stopBoot_spared, safeStage_spared, allToSelfRefresh_spared, hheld, hdown, safePorts_spared, cutBist_spared, hsent, hentered]

/-! ### Reactions (R460 to R465) -/

/-- A timer that a reaction starts, or not. -/
theorem startTimers_spared (src : Nat) (second : Bool) (p : Prop) [Decidable p] :
    spared (if p then startTimer src second b else b) = spared b := by
  split <;> rfl

@[simp] theorem raiseLeaf_spared (src unit : Nat) (detail : Word) (own : List OwnEv) :
    spared (raiseLeaf src unit detail own b) = spared b := by
  have hrec := record_spared b src unit detail
  unfold raiseLeaf
  generalize record src unit detail b = x at hrec
  obtain ⟨c, new⟩ := x
  cases new
  · exact (emitAll_spared c own).trans hrec
  · change spared (if c.sage.safe = true then c else _) = spared b
    extract_lets r reported told first second
    have htold : spared told = spared c := by
      have hreported : spared reported = spared c := report_spared c src detail own
      dsimp only [told]
      split
      · rw [isolated_spared, hreported]
      · exact hreported
    have hsecond : spared second = spared c :=
      (startTimers_spared _ _ _ _).trans ((startTimers_spared _ _ _ _).trans htold)
    split
    · exact hrec
    · split
      · rw [enterSafe_spared, hsecond, hrec]
      · rw [hsecond, hrec]

@[simp] theorem isolateEngine_spared (e : EngId) : spared (isolateEngine e b) = spared b := rfl

@[simp] theorem isolate_spared (src unit : Nat) : spared (isolate src unit b) = spared b := by
  have htold := isolated_spared b src unit
  unfold isolate
  dsimp only
  generalize isolated src unit b = c at htold
  rw [← htold]
  split
  · split
    · rfl
    · split
      · split
        · rfl
        · rw [portChangeLeaf, raiseLeaf_spared, disablePort_spared, lastFlits_spared]
      · split
        · split
          · rfl
          · rw [raiseLeaf_spared, offlineChan_spared]
        · split
          · rw [emit_spared, isolateEngine_spared]
          · rfl
  · rfl

@[simp] theorem react_spared (src unit : Nat) (detail : Word) (own : List OwnEv) (inj : Bool) :
    spared (react src unit detail own inj b) = spared b := by
  have hreported : spared (reportReact src detail own inj (noteRef src b)) = spared b := by
    rw [reportReact_spared, noteRef_spared]
  unfold react
  extract_lets r reported isolated
  have hisolated : spared isolated = spared b := (isolate_spared _ _ _).trans hreported
  split
  · rfl
  · split
    · exact (startTimers_spared _ _ _ _).trans hreported
    · split
      · exact (startTimers_spared _ _ _ _).trans hisolated
      · split
        · rw [enterSafe_spared, hisolated]
        · exact hreported

/-- A raise, whatever its reaction is. -/
@[simp] theorem raise_spared (src unit : Nat) (detail : Word) (own : List OwnEv) :
    spared (raise src unit detail own b) = spared b := by
  have hrec := record_spared b src unit detail
  unfold raise
  dsimp only
  generalize record src unit detail b = x at hrec
  obtain ⟨c, new⟩ := x
  cases new
  · dsimp only
    split
    · rw [amendRaise_spared, hrec]
    · exact hrec
  · exact (react_spared c _ _ _ _ _).trans hrec

@[simp] theorem portChange_spared (code : Nat) (p : PortId) (dir : Nat) (lanes : BitVec 21) :
    spared (portChange code p dir lanes b) = spared b := raise_spared _ _ _ _ _

@[simp] theorem chanOffline_spared (c : Nat) : spared (chanOffline c b) = spared b := by
  unfold chanOffline
  split
  · rfl
  · exact (raise_spared _ _ _ _ _).trans (offlineChan_spared b c)

end Sys2Proof.Machine
end

section
/-! SUPPORT. Calibration in service: attempts, band gaps, sensor offsets, TSV groups and aging (R445 to R450). -/

namespace Sys2Proof.Machine

open Sys2Proof

variable {b t : Block} {s : State}

/-! ### Attempts (R445) -/

/-- A step that is measured once: its retries have no result. -/
theorem attemptsOf_one {α : Type} (v : α) : attemptsOf b [some v] = some v :: List.replicate (calRetries b) none := by
  unfold attemptsOf
  rw [List.range_succ_eq_map, List.map_cons, List.map_map]
  congr 1
  refine List.eq_replicate_iff.mpr ⟨by simp, fun x hx => ?_⟩
  obtain ⟨i, -, rfl⟩ := List.mem_map.mp hx
  rfl

theorem findSome_noResult {α : Type} (ok : α → Bool) (n : Nat) : firstGood ok (List.replicate n none) = none := by
  refine List.findSome?_eq_none_iff.mpr fun x hx => ?_
  rw [List.eq_of_mem_replicate hx]

theorem firstGood_one {α : Type} {ok : α → Bool} (v : α) :
    firstGood ok (attemptsOf b [some v]) = if ok v then some v else none := by
  rw [attemptsOf_one]
  cases hok : ok v with
  | true => simp [firstGood, hok]
  | false =>
    change (match (if ok v then some v else none) with | some x => some x | none => firstGood ok (List.replicate _ none)) = _
    rw [hok, findSome_noResult]
    rfl

theorem lastSeen_one {α : Type} {ok : α → Bool} (v : α) : lastSeen ok (attemptsOf b [some v]) = some v := by
  have hkeep : (List.replicate (calRetries b) (none : Attempt α)).foldl (fun a x => match x with | some v => some v | none => a) (some v)
      = some v := by
    induction calRetries b with
    | zero => rfl
    | succ n ih => exact ih
  unfold lastSeen
  rw [firstGood_one]
  cases ok v with
  | true => rfl
  | false =>
    rw [attemptsOf_one]
    exact hkeep

theorem attemptsOf_congr {α : Type} {tries : List (Attempt α)} (h : calRetries t = calRetries b) :
    attemptsOf t tries = attemptsOf b tries := by
  unfold attemptsOf
  rw [h]

/-! ### Band gaps -/

theorem bandgapCheck_passes {devs : List (Attempt (BitVec 16))} {v : BitVec 16} (h : firstGood bandgapOk (attemptsOf b devs) = some v) :
    bandgapCheck devs b = { b with cal := { b.cal with bg := v } } := by
  have hlast : lastSeen bandgapOk (attemptsOf b devs) = some v := by rw [lastSeen, h]
  simp only [bandgapCheck, hlast, h]
  rfl

/-- Calibration after the references have disagreed in every attempt. -/
def bandgapSeen (devs : List (Attempt (BitVec 16))) (b : Block) : Block :=
  { b with cal := { b.cal with bg := (lastSeen bandgapOk (attemptsOf b devs)).getD b.cal.bg } }

theorem bandgapCheck_fails {devs : List (Attempt (BitVec 16))} (h : firstGood bandgapOk (attemptsOf b devs) = none) :
    bandgapCheck devs b = raise (fs .calBandgap) 0x58 (((lastSeen bandgapOk (attemptsOf b devs)).getD b.cal.bg).zeroExtend 32) []
      (bandgapSeen devs b) := by
  simp only [bandgapCheck, h]
  rfl

/-! ### Sensor offsets -/

theorem sensorPresent_lt {n : Nat} (h : sensorPresent n = true) : n < 192 := by
  simp only [sensorPresent, Bool.or_eq_true, Bool.and_eq_true, decide_eq_true_eq] at h
  omega

theorem offsetOk_iff {v : BitVec 16} : offsetOk v = true ↔ -256 ≤ v.toInt ∧ v.toInt ≤ 256 := decide_eq_true_iff

/-- The long-term offset of a sensor. -/
def drifted (n : Nat) (v : BitVec 16) (b : Block) : Block := { b with cal := { b.cal with drift := mset b.cal.drift n 0 v } }

theorem offsetCheck_one (n : Nat) (v : BitVec 16) : offsetCheck [(n, v)] [] b = offsetSensor n [some v] b := by
  have hone : [n].eraseDups = [n] := by simp [List.eraseDups_cons]
  simp [offsetCheck, hone]

theorem offsetSensor_passes {n : Nat} {v : BitVec 16} (hpresent : sensorPresent n = true) (h : offsetOk v = true) :
    offsetSensor n [some v] b = drifted n v b := by
  simp only [offsetSensor, hpresent, lastSeen_one, firstGood_one, h]
  rfl

/-- A sensor that is suspect for its offset. -/
def offsetSuspect (n : Nat) (b : Block) : Block := tellSuspect n (modSensor n (fun x => { x with suspect := true, strikes := 4 }) b)

theorem offsetSensor_fails {n : Nat} {v : BitVec 16} (hpresent : sensorPresent n = true) (h : offsetOk v = false) :
    offsetSensor n [some v] b = degradeSensor n (offsetSuspect n (drifted n v b)) := by
  simp only [offsetSensor, hpresent, lastSeen_one, firstGood_one, h]
  rfl

theorem sensorAt_modSensor (n : Nat) (f : Sensor → Sensor) (b : Block) : sensorAt (modSensor n f b) n = f (sensorAt b n) := by
  simp [sensorAt, modSensor]

/-- What telling a suspect sensor leaves. -/
structure SuspectTold (n : Nat) (b t : Block) : Prop where
  cal : t.cal = b.cal
  chans : t.chans = b.chans
  sage : t.sage.safe = b.sage.safe ∧ t.sage.pend = b.sage.pend ∧ t.sage.tick = b.sage.tick ∧ t.sage.inTick = b.sage.inTick
    ∧ t.sage.react = b.sage.react
  now : t.now = b.now
  suspect : (sensorAt t n).suspect = (sensorAt b n).suspect

theorem SuspectTold.trans {n : Nat} {c : Block} (h : SuspectTold n b c) (k : SuspectTold n c t) : SuspectTold n b t := by
  obtain ⟨hsafe, hpend, htick, hin, hreact⟩ := h.sage
  obtain ⟨ksafe, kpend, ktick, kin, kreact⟩ := k.sage
  exact ⟨k.cal.trans h.cal, k.chans.trans h.chans,
    ⟨ksafe.trans hsafe, kpend.trans hpend, ktick.trans htick, kin.trans hin, kreact.trans hreact⟩, k.now.trans h.now,
    k.suspect.trans h.suspect⟩

theorem SuspectTold.refl (n : Nat) (b : Block) : SuspectTold n b b := ⟨rfl, rfl, ⟨rfl, rfl, rfl, rfl, rfl⟩, rfl, rfl⟩

theorem suspectEvent_told (n z : Nat) (guard blind : Bool) (b : Block) : SuspectTold n b (suspectEvent n z guard blind b).2 := by
  unfold suspectEvent suspectHi
  split
  · exact .refl n b
  · exact ⟨rfl, rfl, ⟨rfl, rfl, rfl, rfl, rfl⟩, rfl, rfl⟩

theorem tellSensor_told (n : Nat) (b : Block) : SuspectTold n b (tellSensor n b) :=
  ⟨rfl, rfl, ⟨rfl, rfl, rfl, rfl, rfl⟩, rfl,
    (congrArg Sensor.suspect (sensorAt_modSensor n (fun x => { x with told := true }) b)).trans rfl⟩

theorem emit_told (n : Nat) (mask : BitVec 16) (e : Ev) (b : Block) : SuspectTold n b (emit mask e b) := by
  have hsame := (quietly_emit mask e b).1
  exact ⟨by rw [hsame], by rw [hsame], by rw [emit_sage]; exact ⟨rfl, rfl, rfl, rfl, rfl⟩, by rw [hsame]; rfl, by rw [hsame]; rfl⟩

theorem tellSuspect_told (n : Nat) (b : Block) : SuspectTold n b (tellSuspect n b) := by
  unfold tellSuspect
  extract_lets x z e
  split
  · exact .refl n b
  · have hnoted : SuspectTold n (tellSensor n e.2) (rcSet (thmBase + 0xC) 3 (tellSensor n e.2)) :=
      ⟨rfl, rfl, ⟨rfl, rfl, rfl, rfl, rfl⟩, rfl, rfl⟩
    exact (((suspectEvent_told n _ _ _ b).trans (tellSensor_told n e.2)).trans hnoted).trans (emit_told n _ _ _)

theorem SuspectTold.reports {n : Nat} (h : SuspectTold n b t) (src : Nat) : reports src t = reports src b := by
  obtain ⟨hsafe, hpend, htick, hin, hreact⟩ := h.sage
  unfold Machine.reports
  rw [hsafe, hpend, htick, hin, h.now, reactionOf_congr hreact]

/-- CAL_EVT before the raise of a degradation: `degraded` where Sage will report it. -/
def degradeTold (b : Block) : Block := if reports (fs .calDegrade) b then rcSet (calBase + 0xC) 0 b else b

theorem degradeTold_keeps (b : Block) : (degradeTold b).chans = b.chans ∧ (degradeTold b).thm = b.thm ∧ (degradeTold b).cal = b.cal
    ∧ (degradeTold b).sage = b.sage := by
  unfold degradeTold
  split <;> exact ⟨rfl, rfl, rfl, rfl⟩

theorem degradeEvent_quiet (kind n : Nat) (hlow : reactionOf b (fs .calDegrade) ≤ 2) :
    quietly (degradeTold b) (degradeEvent kind n b) := by
  obtain ⟨-, -, -, hsage⟩ := degradeTold_keeps b
  exact raise_quiet _ _ _ (by rw [reactionOf_congr (congrArg Sage.react hsage)]; exact hlow)

/-- A degradation is told, and leaves what it is about (R446). -/
theorem degradeEvent_keeps (kind n : Nat) (hlow : reactionOf b (fs .calDegrade) ≤ 2) :
    (degradeEvent kind n b).chans = b.chans ∧ (degradeEvent kind n b).thm = b.thm ∧ (degradeEvent kind n b).cal = b.cal
      ∧ (reports (fs .calDegrade) b = true → (rcGet (calBase + 0xC) (degradeEvent kind n b)).getLsbD 0 = true) := by
  obtain ⟨hchans, hthm, hcal, -⟩ := degradeTold_keeps b
  have hquiet := degradeEvent_quiet (b := b) kind n hlow
  refine ⟨(congrArg Block.chans hquiet.1).trans hchans, (congrArg Block.thm hquiet.1).trans hthm,
    (congrArg Block.cal hquiet.1).trans hcal, fun hreports => ?_⟩
  rw [quietly_rcGet hquiet, degradeTold, if_pos hreports]
  exact rcGet_rcSet_bit (i := 0) (calBase + 0xC) b (by decide)

/-- A sensor whose offset passes 1.0 °C is degraded once in a start (R446). -/
theorem degradeSensor_degrades {n : Nat} (hn : n < 192) (hlow : reactionOf b (fs .calDegrade) ≤ 2) :
    (degradeSensor n b).chans = b.chans ∧ (degradeSensor n b).thm = b.thm ∧ (degradeSensor n b).cal.drift = b.cal.drift
      ∧ (degradeSensor n b).cal.degSensors.getLsbD n = true
      ∧ (b.cal.degSensors.getLsbD n = false → reports (fs .calDegrade) b = true →
        (rcGet (calBase + 0xC) (degradeSensor n b)).getLsbD 0 = true) := by
  unfold degradeSensor
  split
  case isTrue hbit => exact ⟨rfl, rfl, rfl, hbit, fun hno => absurd hbit (ne_true_of_eq_false hno)⟩
  case isFalse =>
    obtain ⟨hchans, hthm, hcal, hevt⟩ := degradeEvent_keeps
      (b := { b with cal := { b.cal with degSensors := bset b.cal.degSensors n } }) 2 n hlow
    refine ⟨hchans, hthm, (congrArg Cal.drift hcal).trans rfl, ?_, fun _ => hevt⟩
    exact (congrArg (fun x : Cal => x.degSensors.getLsbD n) hcal).trans (bset_getLsbD_same _ hn)

/-! ### TSV groups (R445, R447, R449) -/

theorem setMargin_margin (c g : Nat) (m : Byte) (b : Block) : mget (setMargin c g m b).cal.margin (64 * c + g) 0 = m
    ∧ ∀ k, k ≠ 64 * c + g → mget (setMargin c g m b).cal.margin k 0 = mget b.cal.margin k 0 :=
  ⟨mget_mput_same _ _ _ _, fun _ hk => mget_mput_other _ _ _ hk⟩

theorem centre_good {c g : Nat} {tries : List (Attempt Byte)} {m : Byte} (h : firstGood (fun _ => true) (attemptsOf b tries) = some m) :
    centre c g tries b = (some m, setMargin c g m b) := by
  simp only [centre, h]

theorem centre_none {c g : Nat} {tries : List (Attempt Byte)} (h : firstGood (fun _ => true) (attemptsOf b tries) = none) :
    centre c g tries b = (none, spareTsv c g b) := by
  simp only [centre, h]

/-- Channel `c` after the step on one of its groups. -/
def groupDone (g : Nat) (x : Chan) : Chan := { x with recal := x.recal.filter (· != g), centre := x.centre.filter (· != g) }

/-- A channel whose group is being centred, as its engine has begun the step. -/
def groupBegun (c g : Nat) (b : Block) : Block :=
  postCtx c 0 7 [] (modChan (cid c) (groupDone g) b)

theorem groupBegun_eq (c : ChanId) (g : Nat) (b : Block) : ∃ engs, groupBegun c.val g b = { modChan c (groupDone g) b with engs } := by
  unfold groupBegun
  rw [cid_val]
  exact postCtx_eq _ _ _ _ _

theorem centreStep_runs {c : ChanId} {g : Nat} {tries : List (Attempt Byte)} (hcal : calRuns b = true) (hst : b.chans[c].st ≠ .offline)
    (hrun : b.engs[c].st = .run) : centreStep c.val g tries b =
      match centre c.val g tries (groupBegun c.val g b) with
      | (some m, b) => if m.toNat < tsvMin b then lowMargin c.val g m (afterGood tries) b else b
      | (none, b) => b := by
  have hgoes : ¬ (!calRuns b || b.chans[cid c.val].st == .offline || b.engs[eid c.val].st != .run) = true := by
    simp [hcal, cid_val, eid_val, hst, hrun, -Fin.getElem_fin]
  exact if_neg hgoes

theorem groupBegun_chan (c : ChanId) (g : Nat) (b : Block) : (groupBegun c.val g b).chans[c] = groupDone g b.chans[c] := by
  obtain ⟨engs, h⟩ := groupBegun_eq c g b
  rw [h]
  exact modChan_same b c (groupDone g)

theorem groupBegun_tries {α : Type} (c : ChanId) (g : Nat) (b : Block) (tries : List (Attempt α)) :
    attemptsOf (groupBegun c.val g b) tries = attemptsOf b tries := by
  obtain ⟨engs, h⟩ := groupBegun_eq c g b
  rw [h]
  exact attemptsOf_congr rfl

theorem groupBegun_keeps (c : ChanId) (g : Nat) (b : Block) : (groupBegun c.val g b).cal = b.cal
    ∧ (groupBegun c.val g b).ports = b.ports ∧ (groupBegun c.val g b).regs = b.regs ∧ (groupBegun c.val g b).bst = b.bst := by
  obtain ⟨engs, h⟩ := groupBegun_eq c g b
  rw [h]
  exact ⟨rfl, rfl, rfl, rfl⟩

/-- The margin that a step has stored for its group, with those of the other groups as they were. -/
structure MarginKept (c : ChanId) (g : Nat) (m : Byte) (b t : Block) : Prop where
  own : mget t.cal.margin (64 * c.val + g) 0 = m
  chan : t.chans[c] = groupDone g b.chans[c]
  others : ∀ k, k ≠ 64 * c.val + g → mget t.cal.margin k 0 = mget b.cal.margin k 0

theorem setMargin_kept (c : ChanId) (g : Nat) (m : Byte) (b : Block) : MarginKept c g m b (setMargin c.val g m (groupBegun c.val g b)) := by
  obtain ⟨hown, hothers⟩ := setMargin_margin c.val g m (groupBegun c.val g b)
  obtain ⟨hcal, -⟩ := groupBegun_keeps c g b
  rw [hcal] at hothers
  exact ⟨hown, groupBegun_chan c g b, hothers⟩

/-- A margin that is high enough stands. -/
theorem centreStep_high {c : ChanId} {g : Nat} {tries : List (Attempt Byte)} {m : Byte} (hcal : calRuns b = true)
    (hst : b.chans[c].st ≠ .offline) (hrun : b.engs[c].st = .run) (h : firstGood (fun _ => true) (attemptsOf b tries) = some m)
    (hhigh : tsvMin b ≤ m.toNat) : centreStep c.val g tries b = setMargin c.val g m (groupBegun c.val g b) := by
  obtain ⟨-, -, hregs, -⟩ := groupBegun_keeps c g b
  have hmin : tsvMin (setMargin c.val g m (groupBegun c.val g b)) = tsvMin b := by
    change wfield (mget (groupBegun c.val g b).regs.live (calBase + 4) (rwReset (calBase + 4))) 15 8 = tsvMin b
    rw [hregs]
    rfl
  rw [centreStep_runs hcal hst hrun, centre_good (by rw [groupBegun_tries]; exact h)]
  exact if_neg (by rw [hmin]; omega)

/-- The low-margin recalibrations of a channel count up to 15. -/
def recalCounted (c : ChanId) (b : Block) : Block :=
  { b with cal := { b.cal with recal := b.cal.recal.set c (min 15 (b.cal.recal[c] + 1)) } }

theorem lowMargin_good {c : ChanId} {g : Nat} {before n : Byte} {tries : List (Attempt Byte)}
    (h : firstGood (fun _ => true) (attemptsOf b tries) = some n) : lowMargin c.val g before tries b
      = emit allMask { code := 0x0F03, lo := word [(c.val, 0), (g, 8), (before.toNat, 16)], hi := n.zeroExtend 32 }
        (rcSet (calBase + 0xC) 2 (setMargin c.val g n (recalCounted c b))) := by
  have hcounted : ({ b with cal := { b.cal with recal := b.cal.recal.set (cid c.val) (min 15 (b.cal.recal[cid c.val] + 1)) } } : Block)
      = recalCounted c b := by
    simp only [cid_val, recalCounted]
  unfold lowMargin
  dsimp only
  rw [hcounted, centre_good (b := recalCounted c b) h]

/-- A group whose margin is below CAL_CFG.tsv_min is centred again (R449): the second margin stands, counted and told. -/
theorem centreStep_low {c : ChanId} {g : Nat} {tries : List (Attempt Byte)} {m n : Byte} (hcal : calRuns b = true)
    (hst : b.chans[c].st ≠ .offline) (hrun : b.engs[c].st = .run) (h : firstGood (fun _ => true) (attemptsOf b tries) = some m)
    (hlow : m.toNat < tsvMin b) (hnext : firstGood (fun _ => true) (attemptsOf b (afterGood tries)) = some n) :
    MarginKept c g n b (centreStep c.val g tries b)
      ∧ (centreStep c.val g tries b).cal.recal = b.cal.recal.set c (min 15 (b.cal.recal[c] + 1))
      ∧ (rcGet (calBase + 0xC) (centreStep c.val g tries b)).getLsbD 2 = true
      ∧ ∀ p : PortId, samePort b.ports[p] (centreStep c.val g tries b).ports[p] := by
  have hkept := setMargin_kept c g m b
  obtain ⟨hcal', hports, hregs, -⟩ := groupBegun_keeps c g b
  generalize hfirst : setMargin c.val g m (groupBegun c.val g b) = first at hkept
  have hregs' : first.regs = b.regs := by rw [← hfirst]; exact hregs
  have hbegun := congrArg Cal.recal hcal'
  have hrecal : first.cal.recal = b.cal.recal := by rw [← hfirst]; exact hbegun
  have hports' : first.ports = b.ports := by rw [← hfirst]; exact hports
  have hmin : tsvMin first = tsvMin b := by rw [tsvMin, tsvMin, rwf, rwf, rw, rw, hregs']
  have htries : calRetries first = calRetries b := by rw [calRetries, calRetries, rwf, rwf, rw, rw, hregs']
  have hstep : centreStep c.val g tries b = lowMargin c.val g m (afterGood tries) first := by
    rw [centreStep_runs hcal hst hrun, centre_good (by rw [groupBegun_tries]; exact h), hfirst]
    exact if_pos (by rw [hmin]; exact hlow)
  rw [hstep, lowMargin_good (n := n) (by rw [attemptsOf_congr (b := b) htries]; exact hnext)]
  obtain ⟨hown, hothers⟩ := setMargin_margin c.val g n (recalCounted c first)
  obtain ⟨-, hchan, hbefore⟩ := hkept
  have hquiet := quietly_emit allMask { code := 0x0F03, lo := word [(c.val, 0), (g, 8), (m.toNat, 16)], hi := n.zeroExtend 32 }
    (rcSet (calBase + 0xC) 2 (setMargin c.val g n (recalCounted c first)))
  have hcalEnd := congrArg Block.cal hquiet.1
  have hcounted : (recalCounted c first).cal.recal = b.cal.recal.set c (min 15 (b.cal.recal[c] + 1)) := by
    change first.cal.recal.set c (min 15 (first.cal.recal[c] + 1)) = _
    rw [hrecal]
  refine ⟨⟨?_, (congrArg (fun x : Block => x.chans[c]) hquiet.1).trans hchan, fun k hk => ?_⟩, ?_, ?_, fun p => ?_⟩
  · exact (congrArg (fun x : Cal => mget x.margin (64 * c.val + g) 0) hcalEnd).trans hown
  · exact (congrArg (fun x : Cal => mget x.margin k 0) hcalEnd).trans ((hothers k hk).trans (hbefore k hk))
  · exact (congrArg Cal.recal hcalEnd).trans hcounted
  · rw [quietly_rcGet hquiet]
    exact rcGet_rcSet_bit (i := 2) (calBase + 0xC) (setMargin c.val g n (recalCounted c first)) (by decide)
  · have hsame := hquiet.2 p
    rw [show (rcSet (calBase + 0xC) 2 (setMargin c.val g n (recalCounted c first))).ports = b.ports from hports'] at hsame
    exact hsame

/-- A group that no attempt centres takes a spare TSV. -/
theorem centreStep_spare {c : ChanId} {g : Nat} {tries : List (Attempt Byte)} (hcal : calRuns b = true)
    (hst : b.chans[c].st ≠ .offline) (hrun : b.engs[c].st = .run) (h : firstGood (fun _ => true) (attemptsOf b tries) = none)
    (htested : sparesTested b c.val = false) (hspares : b.chans[c].tsvSpares < 8) : centreStep c.val g tries b
      = modChan c (fun x => { x with tsvSpares := x.tsvSpares + 1 }) (groupBegun c.val g b) := by
  obtain ⟨-, -, -, hbst⟩ := groupBegun_keeps c g b
  have htested' : sparesTested (groupBegun c.val g b) c.val = false := by
    rw [sparesTested, hbst]
    exact htested
  have hspares' : (groupBegun c.val g b).chans[c].tsvSpares < 8 := by
    rw [groupBegun_chan]
    exact hspares
  rw [centreStep_runs hcal hst hrun, centre_none (by rw [groupBegun_tries]; exact h)]
  dsimp only
  unfold spareTsv
  simp only [cid_val]
  rw [if_neg (ne_true_of_eq_false htested'), if_pos hspares']

/-! ### Aging (R450) -/

theorem samePort_trans {x y z : Port} (h : samePort x y) (k : samePort y z) : samePort x z := by
  unfold samePort at *
  rw [k, h]

/-- One quadrant's slowdown is recorded, and its warning told once (R450). -/
structure Aged (q : QuadId) (slow : Nat) (b t : Block) : Prop where
  age : t.cal.age = b.cal.age.set q (BitVec.ofNat 16 slow)
  warn : ∀ i : QuadId, t.cal.ageWarn.getLsbD i.val = true ↔
    b.cal.ageWarn.getLsbD i.val = true ∨ (i = q ∧ ageWarnAt b ≤ slow)
  level : ageWarnAt t = ageWarnAt b
  chans : t.chans = b.chans
  ports : ∀ p : PortId, samePort b.ports[p] t.ports[p]

theorem ageQuad_aged (q : QuadId) {slow : Nat} (h : slow < 65536) : Aged q slow b (ageQuad q slow b) := by
  have hslow : (BitVec.ofNat 16 slow).toNat = slow := Nat.mod_eq_of_lt h
  unfold ageQuad
  extract_lets v _ c
  have hlevel : ageWarnAt c = ageWarnAt b := rfl
  split
  case isTrue hquiet =>
    refine ⟨rfl, fun i => ⟨Or.inl, ?_⟩, rfl, rfl, fun p => rfl⟩
    rintro (hold | ⟨rfl, hwarn⟩)
    · exact hold
    · have hnotLow : ¬ v.toNat < ageWarnAt c := by
        rw [hlevel, hslow]
        omega
      exact (Bool.or_eq_true_iff.mp hquiet).resolve_left (by simpa using hnotLow)
  case isFalse hwarns =>
    have hhigh : ageWarnAt b ≤ slow := by
      have hnotLow : ¬ v.toNat < ageWarnAt c := fun hlow => hwarns (by simp [hlow])
      rw [hlevel, hslow] at hnotLow
      omega
    have hquiet := quietly_emit allMask { code := 0x0F02, lo := word [(q.val, 0), (v.toNat, 16)] }
      (rcSet (calBase + 0xC) 1 { c with cal := { c.cal with ageWarn := bset c.cal.ageWarn q.val } })
    have hcal := congrArg Block.cal hquiet.1
    refine ⟨(congrArg Cal.age hcal).trans rfl, fun i => ?_, ?_, (congrArg Block.chans hquiet.1).trans rfl, hquiet.2⟩
    · rw [(congrArg (fun x : Cal => x.ageWarn.getLsbD i.val) hcal).trans rfl]
      change (bset b.cal.ageWarn q.val).getLsbD i.val = true ↔ _
      rw [bset_getLsbD_iff b.cal.ageWarn q i]
      simp only [hhigh, and_true, eq_comm]
    · exact (congrArg (fun r : Regs => wfield (mget r.live (calBase + 4) (rwReset (calBase + 4))) 31 16)
        (congrArg Block.regs hquiet.1)).trans rfl

end Sys2Proof.Machine
end

section
open Sys2Proof Sys2Proof.Machine

/-- Settles O53: a check passes or fails by its attempts (`bandgapCheck_fails`, `offsetSensor_fails`), a group keeps the margin of the
step that succeeds (`centreStep_high`, `centreStep_low`), and each quadrant's slowdown is recorded in turn (`ageQuad_aged`). -/
theorem calibrationInService : Obligations.CalibrationInService := by
  unfold Obligations.CalibrationInService
  intro s hcal
  have hdone : s.blk.start.done = true := by
    simp only [calRuns, Bool.and_eq_true] at hcal
    obtain ⟨⟨⟨⟨hdone, -⟩, -⟩, -⟩, -⟩ := hcal
    exact hdone
  refine ⟨fun devs hen => ?bandgap, fun n v hpresent => ?sensor, fun c g tries hst hrun => ?group, fun v hv => ?aging⟩
  case bandgap =>
    have hrow : exec (.bandgapCheck devs) s = .next (s.upd (bandgapCheck devs s.blk)) :=
      congrArg (fun b => Host.Outcome.next (s.upd b)) (if_pos (by rw [hcal, hen]; rfl))
    refine ⟨fun v h => ?_, fun h hfresh hlow => ⟨_, hrow, ?_⟩⟩
    · rw [hrow, bandgapCheck_passes h]
    · rw [bandgapCheck_fails h]
      have hquiet : quietly (bandgapSeen devs s.blk) _ := raise_quiet 0x58
        (((lastSeen bandgapOk (attemptsOf s.blk devs)).getD s.blk.cal.bg).zeroExtend 32) [] hlow
      exact ⟨raise_recorded (s := s.upd (bandgapSeen devs s.blk)) [] hfresh hlow, (congrArg Block.chans hquiet.1).trans rfl⟩
  case sensor =>
    have hrow : exec (.sensorOffsetCheck [(n, v)]) s = .next (s.upd (offsetSensor n [some v] s.blk)) :=
      congrArg (fun b => Host.Outcome.next (s.upd b)) ((if_pos hcal).trans (offsetCheck_one n v))
    refine ⟨fun hlo hhi => ?_, fun hout hlow => ⟨_, hrow, rfl, ?_⟩⟩
    · rw [hrow, offsetSensor_passes hpresent (offsetOk_iff.mpr ⟨hlo, hhi⟩)]
      rfl
    · have hbad : offsetOk v = false := Bool.eq_false_iff.mpr fun h => by
        obtain ⟨hlo, hhi⟩ := offsetOk_iff.mp h
        omega
      rw [State.upd_blk, offsetSensor_fails hpresent hbad]
      have hmarked := tellSuspect_told n (modSensor n (fun x => { x with suspect := true, strikes := 4 }) (drifted n v s.blk))
      have hsuspect : (sensorAt (offsetSuspect n (drifted n v s.blk)) n).suspect = true :=
        hmarked.suspect.trans (congrArg Sensor.suspect (sensorAt_modSensor n _ (drifted n v s.blk)))
      obtain ⟨-, -, -, -, hreact⟩ := hmarked.sage
      obtain ⟨hchans, hthm, hdrift, hbit, hevt⟩ := degradeSensor_degrades (b := offsetSuspect n (drifted n v s.blk))
        (sensorPresent_lt hpresent) ((reactionOf_congr hreact _).trans_le hlow)
      refine ⟨?_, ?_, hbit, fun hno hreports => hevt ?_ ?_, hchans.trans hmarked.chans⟩
      · rw [hdrift, show (offsetSuspect n (drifted n v s.blk)).cal = (drifted n v s.blk).cal from hmarked.cal]
        exact mget_mset_same _ _ _ _
      · rw [sensorAt, hthm]
        exact hsuspect
      · rw [show (offsetSuspect n (drifted n v s.blk)).cal = (drifted n v s.blk).cal from hmarked.cal]
        exact hno
      · exact (hmarked.reports _).trans hreports
  case group =>
    intro x done keeps
    have hrow : exec (.tsvCentringStep c g tries) s = .next (s.upd (centreStep c.val g.val tries s.blk)) := rfl
    obtain ⟨hkcal, hkports, -, -⟩ := groupBegun_keeps c g.val s.blk
    refine ⟨fun m h hhigh => ⟨_, hrow, rfl, ?_⟩, fun m n h hlow hnext => ⟨_, hrow, rfl, ?_⟩,
      fun h htested hspares => ⟨_, hrow, rfl, ?_⟩⟩
    · rw [State.upd_blk, centreStep_high hcal hst hrun h hhigh]
      obtain ⟨hown, hchan, hothers⟩ := setMargin_kept c g.val m s.blk
      refine ⟨?_, ⟨hown, hchan, hothers⟩, hkports⟩
      rw [← hkcal]
      rfl
    · obtain ⟨⟨hown, hchan, hothers⟩, hrecal, hevt, hports⟩ := centreStep_low hcal hst hrun h hlow hnext
      exact ⟨⟨hown, hchan, hothers⟩, hrecal, hevt, hports⟩
    · rw [State.upd_blk, centreStep_spare hcal hst hrun h htested hspares]
      refine ⟨hkcal, hkports, ?_⟩
      rw [modChan_same, groupBegun_chan]
      rfl
  case aging =>
    have hrow : exec (.agingMeasure (v 0) (v 1) (v 2) (v 3)) s
        = .next (s.upd (ageQuad 3 (v 3) (ageQuad 2 (v 2) (ageQuad 1 (v 1) (ageQuad 0 (v 0) s.blk))))) :=
      congrArg (fun b => Host.Outcome.next (s.upd b)) (if_neg (by rw [hdone]; decide))
    have h0 := ageQuad_aged (b := s.blk) 0 (hv 0)
    have h1 := ageQuad_aged (b := ageQuad 0 (v 0) s.blk) 1 (hv 1)
    have h2 := ageQuad_aged (b := ageQuad 1 (v 1) (ageQuad 0 (v 0) s.blk)) 2 (hv 2)
    have h3 := ageQuad_aged (b := ageQuad 2 (v 2) (ageQuad 1 (v 1) (ageQuad 0 (v 0) s.blk))) 3 (hv 3)
    generalize ageQuad 0 (v 0) s.blk = b0 at *
    generalize ageQuad 1 (v 1) b0 = b1 at *
    generalize ageQuad 2 (v 2) b1 = b2 at *
    generalize ageQuad 3 (v 3) b2 = b3 at *
    refine ⟨_, hrow, rfl, fun q => ⟨?_, ?_⟩, ?_, fun p => ?_⟩
    · rw [State.upd_blk, h3.age, h2.age, h1.age, h0.age]
      have hlt : (BitVec.ofNat 16 (v q)).toNat = v q := Nat.mod_eq_of_lt (hv q)
      rw [← hlt]
      fin_cases q <;> simp
    · rw [State.upd_blk, h3.warn, h2.warn, h1.warn, h0.warn, h2.level, h1.level, h0.level]
      fin_cases q <;> simp
    · exact h3.chans.trans (h2.chans.trans (h1.chans.trans h0.chans))
    · exact samePort_trans (h0.ports p) (samePort_trans (h1.ports p) (samePort_trans (h2.ports p) (h3.ports p)))

end

section
/-! SUPPORT. The CAL commands: what a go decides, and how the command that runs ends (R451). -/

namespace Sys2Proof.Machine

open Sys2Proof

variable {path : Path} {b t : Block} {s : State} {op : Nat} {target : BitVec 5}

/-! ### A go of CAL_CMD -/

@[simp] theorem answered_cal (path : Path) (k : Nat) (st : Status) (t : State) : (answered path k st t).blk.cal = t.blk.cal :=
  respond_cal _ _ _ _ _

/-- The word of a go. -/
def calGoWord (op : Nat) (target : BitVec 5) : Word := word [(1, 0), (op, 1), (target.toNat, 8)]

theorem calGoWord_fields (hop : op < 4) (target : BitVec 5) :
    (calGoWord op target).getLsbD 0 = true ∧ wfield (calGoWord op target) 2 1 = op
      ∧ wfield (calGoWord op target) 12 8 = target.toNat := by
  interval_cases op <;> revert target <;> decide

theorem calWrite_go (hop : op < 4) (b : Block) :
    calWrite 0 (calGoWord op target) b = goWrite calBase (calGoWord op target) (calGo op target.toNat b) := by
  obtain ⟨hgo, hcode, htarget⟩ := calGoWord_fields hop target
  unfold calWrite
  rw [if_pos rfl, hgo, if_pos rfl, hcode, htarget]

theorem calStart_answers {st : Status} (hw : takesWrites path s) (hop : op < 4)
    (h : goWrite calBase (calGoWord op target) (calGo op target.toNat s.blk) = (st, t)) (hstart : t.start = s.blk.start) :
    calStart path op target.toNat s = answered path (calBase + 0) st (s.upd t) :=
  put_block (base := calBase) (o := 0) hw (by decide) ((calWrite_go hop s.blk).trans h) hstart

theorem calGo_refused (h : b.cal.busy = true ∨ (op = 1 ∧ b.chans[cid target.toNat].st = .offline)) :
    calGo op target.toNat b = (.badArg, b) := by
  obtain hbusy | ⟨rfl, hoff⟩ := h
  · simp [calGo, hbusy]
  · cases hbusy : b.cal.busy with
    | true => simp [calGo, hbusy]
    | false => simp [calGo, hbusy, hoff, -Fin.getElem_fin]

/-- A stack in which a CAL command has begun. -/
def calBegun (op : Nat) (target : BitVec 5) (b : Block) : Block :=
  setLive calBase (calGoWord op target &&& rwMask calBase)
    { b with cal := { b.cal with busy := true, op := BitVec.ofNat 2 op, target := target } }

theorem calGo_begins (hidle : b.cal.busy = false) (hop : op ≠ 0)
    (hchan : op = 1 → b.start.chive = false ∧ b.chans[cid target.toNat].st ≠ .offline) :
    goWrite calBase (calGoWord op target) (calGo op target.toNat b) = (.ok, calBegun op target b) := by
  have hgo : calGo op target.toNat b
      = (.ok, { b with cal := { b.cal with busy := true, op := BitVec.ofNat 2 op, target := target } }) := by
    have hopen : ¬ (op = 1 ∧ (b.start.chive ∨ b.chans[cid target.toNat].st = .offline)) := by
      rintro ⟨h1, hrefused⟩
      obtain ⟨hchive, hst⟩ := hchan h1
      exact hrefused.elim (ne_true_of_eq_false hchive) hst
    unfold calGo
    rw [if_neg (ne_true_of_eq_false hidle), if_neg hop, if_neg hopen, BitVec.ofNat_toNat, BitVec.setWidth_eq]
  rw [hgo]
  rfl

/-- The stack after the go of a CAL command that is accepted (R451). -/
def calAnswered (path : Path) (op : Nat) (target : BitVec 5) (s : State) : Block :=
  (answered path (calBase + 0) .ok (s.upd (calBegun op target s.blk))).blk

theorem calAnswered_eq (path : Path) (op : Nat) (target : BitVec 5) (s : State) :
    calAnswered path op target s = { calBegun op target s.blk with resp := .ok, twp := (calAnswered path op target s).twp } :=
  respond_eq _ _ _ _ _

/-- The row of a CAL command whose go is accepted. -/
theorem calRow_begins {f : Block → Block} (hw : takesWrites path s) (hop : op < 4) (h0 : op ≠ 0) (hidle : s.blk.cal.busy = false)
    (hchan : op = 1 → s.blk.start.chive = false ∧ s.blk.chans[cid target.toNat].st ≠ .offline) :
    calRow path op target.toNat f s = s.upd (f (calAnswered path op target s)) := by
  unfold calRow
  rw [hidle, Bool.false_and]
  exact congrArg (fun u : State => u.upd (f u.blk)) (calStart_answers hw hop (calGo_begins hidle h0 hchan) rfl)

/-- The row of a CAL command whose go is refused. -/
theorem calRow_refused {f : Block → Block} (hw : takesWrites path s) (hop : op < 4)
    (hother : (s.blk.cal.busy && s.blk.cal.op.toNat == op) = false)
    (h : s.blk.cal.busy = true ∨ (op = 1 ∧ s.blk.chans[cid target.toNat].st = .offline)) :
    calRow path op target.toNat f s
      = (answered path (calBase + 0) .badArg s).upd (f (answered path (calBase + 0) .badArg s).blk) := by
  have hgo : goWrite calBase (calGoWord op target) (calGo op target.toNat s.blk) = (.badArg, s.blk) := by
    rw [calGo_refused h]
    rfl
  unfold calRow
  rw [hother]
  exact congrArg (fun u : State => u.upd (f u.blk)) (calStart_answers hw hop hgo rfl)

/-! ### The command that runs -/

/-- A go leaves what in-service calibration needs. -/
theorem calRuns_answered : calRuns (calAnswered path op target s) = calRuns s.blk := by
  rw [calAnswered_eq]
  have hclk : ∀ o, o = 0x20 ∨ o = 0x24 ∨ o = 0x28 → rw (clkBase + o) (calBegun op target s.blk) = rw (clkBase + o) s.blk := by
    rintro o (rfl | rfl | rfl) <;> exact rw_setLive_other _ (by decide)
  have hunits (n : Nat) : unitsIn (calBegun op target s.blk) n = unitsIn s.blk n := by
    simp only [unitsIn, hclk 0x20 (by decide), hclk 0x24 (by decide), hclk 0x28 (by decide)]
  exact congrArg (fun w : BitVec 15 => s.blk.start.done && !s.blk.sage.safe && !s.blk.thm.safe && decide (s.blk.pwr.state.toNat < 2)
    && (w.getLsbD 13 || s.blk.clk.gateWait.getLsbD 13)) (hunits s.blk.pwr.state.toNat)

theorem calRetries_answered : calRetries (calAnswered path op target s) = calRetries s.blk := by
  rw [calAnswered_eq]
  exact congrArg (wfield · 3 0) (rw_setLive_other _ (by decide))

/-- The command that runs ends with what its work brings. -/
theorem calRun_ends {f : Block → Status × Block} (hbusy : b.cal.busy = true) (hop : b.cal.op.toNat = op) (h : calRuns b = true) :
    calRun op f b = calFinish (f b).1 (f b).2 := by
  have hserves : ¬ (b.thm.safe || b.sage.safe || !b.start.done) = true := by
    simp only [calRuns, Bool.and_eq_true, Bool.not_eq_true'] at h
    obtain ⟨⟨⟨⟨hdone, hsage⟩, hthm⟩, -⟩, -⟩ := h
    simp [hdone, hsage, hthm]
  have hrow : ¬ (!b.cal.busy || b.cal.op.toNat != op) = true := by simp [hbusy, hop]
  unfold calRun
  rw [if_neg hrow, if_neg hserves, if_neg (by rw [h]; decide)]

theorem calRun_other {f : Block → Status × Block} (h : b.cal.busy = false ∨ b.cal.op.toNat ≠ op) : calRun op f b = b := by
  refine if_pos ?_
  obtain h | h := h
  · rw [h]; rfl
  · rw [Bool.or_eq_true]; exact Or.inr (bne_iff_ne.mpr h)

/-! ### The recalibration of a channel -/

theorem spareTsv_resp (c g : Nat) (b : Block) : (spareTsv c g b).resp = b.resp := by
  unfold spareTsv
  split
  · rfl
  · split
    · rfl
    · have hkept := congrArg Block.resp (chanOffline_spared b c)
      exact hkept

theorem centre_resp (c g : Nat) (tries : List (Attempt Byte)) (b : Block) : (centre c g tries b).2.resp = b.resp := by
  unfold centre
  split
  · rfl
  · exact spareTsv_resp c g b

theorem lowMargin_resp (c g : Nat) (before : Byte) (tries : List (Attempt Byte)) (b : Block) :
    (lowMargin c g before tries b).resp = b.resp := by
  unfold lowMargin
  dsimp only
  generalize hcounted : ({ b with cal := { b.cal with recal := _ } } : Block) = counted
  have hkept : counted.resp = b.resp := by rw [← hcounted]
  have hcentre := centre_resp c g tries counted
  generalize centre c g tries counted = x at hcentre
  obtain ⟨m, t⟩ := x
  cases m with
  | none => exact hcentre.trans hkept
  | some m => exact (congrArg Block.resp (quietly_emit _ _ _).1).trans (hcentre.trans hkept)

/-- A step on a group leaves the answer of the command. -/
theorem centreGroup_resp (c g : Nat) (tries : List (Attempt Byte)) (b : Block) : (centreGroup c g tries b).resp = b.resp := by
  have hcentre := centre_resp c g tries (postCtx c 0 7 [] b)
  rw [postCtx_keep b Block.resp (fun _ _ _ => rfl)] at hcentre
  unfold centreGroup
  generalize centre c g tries (postCtx c 0 7 [] b) = x at hcentre
  obtain ⟨m, t⟩ := x
  cases m with
  | none => exact hcentre
  | some m =>
    dsimp only
    split
    · exact (lowMargin_resp _ _ _ _ _).trans hcentre
    · exact hcentre

theorem recalChan_resp (c : Nat) (tries : List (Fin 36 × List (Attempt Byte))) (b : Block) : (recalChan c tries b).2.resp = b.resp :=
  foldl_keep Block.resp _ (fun b g => by
    split
    · rfl
    · exact centreGroup_resp _ _ _ _) _ b

theorem recalChan_status (c : Nat) (tries : List (Fin 36 × List (Attempt Byte))) (b : Block) :
    (recalChan c tries b).1 = if (recalChan c tries b).2.chans[cid c].st = .offline then .channelOffline else .ok := by
  unfold recalChan
  dsimp only

end Sys2Proof.Machine

open Sys2Proof Sys2Proof.Machine

/-- Settles O54: a go is answered at once (`calRow_begins`, `calRow_refused`) and its command ends with what its work brings
(`calRun_ends`); no step of a recalibration touches the answer (`recalChan_resp`). -/
theorem calibrationCommands : Obligations.CalibrationCommands := by
  unfold Obligations.CalibrationCommands
  intro path s hw hchive
  refine ⟨fun hidle hcal => ⟨fun target tries hst hrun hlow => ?recal, fun devs v h => ?bandgap, fun n v hpresent hlo hhi => ?sensor⟩,
    fun target hidle => ?invalid, fun target hbusy hop => ?busy, fun target hidle hoff => ?offline⟩
  case recal =>
    have hu := calAnswered_eq path 1 target s
    have hcal' := (calRuns_answered (path := path) (op := 1) (target := target) (s := s)).trans hcal
    generalize hans : calAnswered path 1 target s = u at hu hcal'
    have hbusy : u.cal.busy = true := by rw [hu]; rfl
    have hop : u.cal.op = 1 := by rw [hu]; rfl
    have htarget : u.cal.target = target := by rw [hu]; rfl
    have hengs : u.engs = s.blk.engs := by rw [hu]; rfl
    have hwork : calTsv tries u = calFinish (recalChan target.toNat tries u).1 (recalChan target.toNat tries u).2 := by
      have hgoes : ¬ (u.cal.busy && u.cal.op == 1 && calRuns u && u.engs[eid u.cal.target.toNat].st != .run) = true := by
        simp only [htarget, hengs, hrun]
        simp
      unfold calTsv
      rw [if_neg hgoes, calRun_ends hbusy (by rw [hop]; rfl) hcal', htarget]
    have hrow : exec (.calTsvRecal path target tries) s = .next (s.upd (calTsv tries (calAnswered path 1 target s))) :=
      congrArg Host.Outcome.next (calRow_begins hw (by decide) (by decide) hidle fun _ => ⟨hchive, hst⟩)
    rw [hans, hwork] at hrow
    have hresp : (recalChan target.toNat tries u).2.resp = .ok := (recalChan_resp _ _ _).trans (by rw [hu])
    have hstatus := recalChan_status target.toNat tries u
    generalize recalChan target.toNat tries u = r at hrow hresp hstatus
    exact ⟨_, hrow, rfl, hresp, rfl, hstatus⟩
  case bandgap =>
    have hu := calAnswered_eq path 2 0 s
    have hcal' := (calRuns_answered (path := path) (op := 2) (target := 0) (s := s)).trans hcal
    have htries := calRetries_answered (path := path) (op := 2) (target := 0) (s := s)
    have hrow : exec (.calBandgapCheck path devs []) s = .next (s.upd (calBandgap devs [] (calAnswered path 2 0 s))) :=
      congrArg Host.Outcome.next (calRow_begins (target := 0) hw (by decide) (by decide) hidle fun h => absurd h (by decide))
    generalize calAnswered path 2 0 s = u at hu hcal' htries hrow
    have hwork : calBandgap devs [] u = calFinish .ok { u with cal := { u.cal with bg := v } } := by
      unfold calBandgap
      rw [calRun_ends (by rw [hu]; rfl) (by rw [hu]; rfl) hcal', bandgapCheck_passes (by rw [attemptsOf_congr htries]; exact h)]
      dsimp only [trimRegs, List.foldl_nil]
      rw [ite_self]
    rw [hwork] at hrow
    refine ⟨_, hrow, rfl, ?_, rfl, rfl, rfl, ?_, ?_⟩
    · rw [State.upd_blk, hu]; rfl
    · rw [State.upd_blk, hu]; rfl
    · rw [State.upd_blk, hu]; rfl
  case sensor =>
    have hu := calAnswered_eq path 3 0 s
    have hcal' := (calRuns_answered (path := path) (op := 3) (target := 0) (s := s)).trans hcal
    have hrow : exec (.calSensorCheck path [(n, v)]) s = .next (s.upd (calSensor [(n, v)] [] (calAnswered path 3 0 s))) :=
      congrArg Host.Outcome.next (calRow_begins (target := 0) hw (by decide) (by decide) hidle fun h => absurd h (by decide))
    generalize calAnswered path 3 0 s = u at hu hcal' hrow
    have hwork : calSensor [(n, v)] [] u = calFinish .ok (drifted n v u) := by
      unfold calSensor
      rw [calRun_ends (by rw [hu]; rfl) (by rw [hu]; rfl) hcal', offsetCheck_one,
        offsetSensor_passes hpresent (offsetOk_iff.mpr ⟨hlo, hhi⟩)]
    rw [hwork] at hrow
    refine ⟨_, hrow, rfl, ?_, rfl, rfl, mget_mset_same u.cal.drift n 0 v, ?_, ?_⟩
    · rw [State.upd_blk, hu]; rfl
    · rw [State.upd_blk, hu]; rfl
    · rw [State.upd_blk, hu]; rfl
  case invalid =>
    have hgo : calGo 0 target.toNat s.blk = (.ok, { s.blk with cal := { s.blk.cal with status := .badArg } }) := by
      simp [calGo, hidle]
    have hgone : goWrite calBase (calGoWord 0 target) (calGo 0 target.toNat s.blk) = (.ok,
        setLive calBase (calGoWord 0 target &&& rwMask calBase) { s.blk with cal := { s.blk.cal with status := .badArg } }) := by
      rw [hgo]
      rfl
    have hrow := calStart_answers (target := target) hw (op := 0) (by decide) hgone rfl
    exact ⟨_, congrArg Host.Outcome.next hrow, rfl, answered_resp, answered_cal _ _ _ _, answered_ports⟩
  case busy =>
    have hother : (s.blk.cal.busy && s.blk.cal.op.toNat == 1) = false := by simp [hop]
    have hrow : exec (.calTsvRecal path target []) s = _ :=
      congrArg Host.Outcome.next (calRow_refused hw (by decide) hother (Or.inl hbusy))
    have hkept : calTsv [] (answered path (calBase + 0) .badArg s).blk = (answered path (calBase + 0) .badArg s).blk := by
      have hwaits : ¬ ((answered path (calBase + 0) .badArg s).blk.cal.busy && (answered path (calBase + 0) .badArg s).blk.cal.op == 1
          && calRuns (answered path (calBase + 0) .badArg s).blk
          && (answered path (calBase + 0) .badArg s).blk.engs[eid (answered path (calBase + 0) .badArg s).blk.cal.target.toNat].st != .run)
          = true := by simp [hop]
      exact (if_neg hwaits).trans (calRun_other (Or.inr (by rw [answered_cal, hop]; decide)))
    rw [hkept] at hrow
    exact ⟨_, hrow, rfl, answered_resp, answered_cal _ _ _ _, answered_chans _ _ _ _⟩
  case offline =>
    have hother : (s.blk.cal.busy && s.blk.cal.op.toNat == 1) = false := by simp [hidle]
    have hrow : exec (.calTsvRecal path target []) s = _ :=
      congrArg Host.Outcome.next (calRow_refused hw (by decide) hother (Or.inr ⟨rfl, hoff⟩))
    have hkept : calTsv [] (answered path (calBase + 0) .badArg s).blk = (answered path (calBase + 0) .badArg s).blk := by
      have hwaits : ¬ ((answered path (calBase + 0) .badArg s).blk.cal.busy && (answered path (calBase + 0) .badArg s).blk.cal.op == 1
          && calRuns (answered path (calBase + 0) .badArg s).blk
          && (answered path (calBase + 0) .badArg s).blk.engs[eid (answered path (calBase + 0) .badArg s).blk.cal.target.toNat].st != .run)
          = true := by simp [hidle]
      exact (if_neg hwaits).trans (calRun_other (Or.inl (by rw [answered_cal]; exact hidle)))
    rw [hkept] at hrow
    exact ⟨_, hrow, rfl, answered_resp, answered_cal _ _ _ _, answered_chans _ _ _ _⟩

end

section
/-! SUPPORT. Ports that enter RECOVER together (R148, R155, R168): what the entry of each leaves of the stack and of the others. -/

namespace Sys2Proof.Machine

open Sys2Proof

variable {b c t : Block} {p : PortId}

/-! ### What a raise up to ALERT counts (R456) -/

theorem record_regs (src unit : Nat) (detail : Word) (b : Block) :
    (record src unit detail b).1.regs = b.regs ∨ (record src unit detail b).1.regs = (ctrAdd (sageBase + 0x1C) 1 b).regs := by
  obtain ⟨-, hlatched⟩ := latchedIn_latch src unit detail b
  unfold record
  dsimp only
  split
  · refine Or.inl ?_
    split
    · split <;> rfl
    · rfl
  · refine Or.inr ?_
    split <;> exact hlatched

theorem amendRaise_regs (src : Nat) (old detail : Word) (own : List OwnEv) (b : Block) :
    (amendRaise src old detail own b).regs = b.regs :=
  foldl_keep Block.regs (fun b (o : OwnEv) => amendEvents
    (fun r => field r.toNat 31 16 == o.ev.code && field r.toNat 95 64 == old.toNat) (withDetail o.ev.lo o.ev.hi) b) (fun _ _ => rfl) own _

/-- A raise up to ALERT counts in SAGE_FAULT_CNT alone. -/
theorem raise_ctr {src unit : Nat} {detail : Word} (own : List OwnEv) (hlow : reactionOf b src ≤ 2) {a : Nat}
    (ha : a ≠ sageBase + 0x1C) :
    ctr a (raise src unit detail own b) = ctr a b := by
  obtain ⟨-, hreact, -⟩ := record_quiet src unit detail b
  have hrec : ctr a (record src unit detail b).1 = ctr a b := by
    obtain h | h := record_regs src unit detail b
    · rw [ctr, h, ctr]
    · rw [ctr, h]
      exact ctr_ctrAdd_other ha
  unfold raise
  dsimp only
  generalize record src unit detail b = x at hreact hrec
  obtain ⟨r, new⟩ := x
  rw [← hrec]
  cases new with
  | false =>
    dsimp only
    split
    · rw [ctr, amendRaise_regs, ctr]
    · rfl
  | true =>
    cases hsafe : r.sage.safe with
    | true =>
      have hheld : Machine.react src unit detail own false r = r := if_pos hsafe
      exact congrArg (ctr a) hheld
    | false =>
      obtain ⟨-, hregs⟩ := react_low (unit := unit) (detail := detail) own false hsafe ((reactionOf_congr hreact src).trans_le hlow)
      exact congrArg (fun g : Regs => mget g.ctr a 0) hregs

/-! ### What ports that recover leave -/

/-- From `b` to `t`, only ports, Sage's record, read-to-clear bits and the counters of links and faults have changed; no bit that was
set has gone. -/
structure LinksMoved (b t : Block) : Prop where
  rest : t = { b with ports := t.ports, sage := t.sage, regs := { b.regs with ctr := t.regs.ctr, rc := t.regs.rc } }
  react : t.sage.react = b.sage.react
  safe : t.sage.safe = b.sage.safe
  ctrs : ∀ a, a ≠ sageBase + 0x1C → (∀ p : PortId, a ≠ lnkBase p.val + 0x24) → ctr a t = ctr a b
  bits : ∀ a i, (rcGet a b).getLsbD i = true → (rcGet a t).getLsbD i = true

theorem LinksMoved.refl (b : Block) : LinksMoved b b := ⟨rfl, rfl, rfl, fun _ _ _ => rfl, fun _ _ => id⟩

theorem LinksMoved.trans (h : LinksMoved b c) (k : LinksMoved c t) : LinksMoved b t := by
  refine ⟨?_, k.react.trans h.react, k.safe.trans h.safe, fun a ha hl => (k.ctrs a ha hl).trans (h.ctrs a ha hl),
    fun a i hi => k.bits a i (h.bits a i hi)⟩
  rw [k.rest, h.rest]

theorem LinksMoved.rate (h : LinksMoved b t) (p : PortId) : portRate p t = portRate p b := by
  refine portRate_congr ?_ ?_ ?_ h.safe
  · rw [h.rest]
  · rw [h.rest]
  · rw [h.rest]

theorem LinksMoved.clk (h : LinksMoved b t) : t.clk = b.clk := by rw [h.rest]
theorem LinksMoved.iosc (h : LinksMoved b t) : t.iosc = b.iosc := by rw [h.rest]
theorem LinksMoved.start (h : LinksMoved b t) : t.start = b.start := by rw [h.rest]
theorem LinksMoved.chans (h : LinksMoved b t) : t.chans = b.chans := by rw [h.rest]
theorem LinksMoved.cal (h : LinksMoved b t) : t.cal = b.cal := by rw [h.rest]

theorem LinksMoved.reaction (h : LinksMoved b t) (src : Nat) : reactionOf t src = reactionOf b src := reactionOf_congr h.react src

/-- What a step on port `p` leaves of the stack and of the other ports. -/
structure PortMoved (p : PortId) (b t : Block) : Prop where
  moved : LinksMoved b t
  others : ∀ q, q ≠ p → samePort b.ports[q] t.ports[q]

theorem PortMoved.trans (h : PortMoved p b c) (k : PortMoved p c t) : PortMoved p b t :=
  ⟨h.moved.trans k.moved, fun q hq => samePort_trans (h.others q hq) (k.others q hq)⟩

theorem PortMoved.refl (p : PortId) (b : Block) : PortMoved p b b := ⟨.refl b, fun _ _ => rfl⟩

theorem modPort_moved (p : PortId) (f : Port → Port) (b : Block) : PortMoved p b (modPort p f b) :=
  ⟨⟨rfl, rfl, rfl, fun _ _ _ => rfl, fun _ _ => id⟩, fun q hq => by rw [modPort_other b f hq]; rfl⟩

theorem rcGet_rcSet_keep {a k i j : Nat} (h : (rcGet k b).getLsbD j = true) : (rcGet k (rcSet a i b)).getLsbD j = true := by
  by_cases hk : k = a
  · rw [hk] at h ⊢
    exact rcGet_rcSet_mono _ _ h
  · have hother : rcGet k (rcSet a i b) = rcGet k b := mget_mset_other _ _ _ hk
    rw [hother]
    exact h

theorem rcSet_moved (p : PortId) (a i : Nat) (b : Block) : PortMoved p b (rcSet a i b) :=
  ⟨⟨rfl, rfl, rfl, fun _ _ _ => rfl, fun _ _ => rcGet_rcSet_keep⟩, fun _ _ => rfl⟩

theorem ctrAdd_moved (p : PortId) (n : Nat) (b : Block) : PortMoved p b (ctrAdd (lnkBase p.val + 0x24) n b) :=
  ⟨⟨rfl, rfl, rfl, fun _ _ hl => ctr_ctrAdd_other (hl p), fun _ _ => id⟩, fun _ _ => rfl⟩

/-- A raise up to ALERT moves links as no step does. -/
theorem raise_moved {src unit : Nat} {detail : Word} (own : List OwnEv) (h : reactionOf b src ≤ 2) :
    LinksMoved b (raise src unit detail own b) ∧ ∀ p : PortId, samePort b.ports[p] (raise src unit detail own b).ports[p] := by
  have hquiet : quietly b (raise src unit detail own b) := raise_quiet _ _ _ h
  refine ⟨⟨?_, raise_table _ _ _ h, raise_safe _ _ _ h, fun a ha _ => raise_ctr _ h ha, fun a i hi => ?_⟩, hquiet.2⟩
  · rw [hquiet.1]
  · rw [quietly_rcGet hquiet]
    exact hi

/-! ### The entry of one port (R148, R166, R168) -/

theorem portRate_lt (p : PortId) (b : Block) : portRate p b < 16 := by
  unfold portRate
  split
  · decide
  · refine lt_of_le_of_lt (Nat.min_le_left _ _) ?_
    split <;> decide

/-- A changed lane rate is told, and moves links as no step does. -/
theorem rateChanged_moved (old : BitVec 4) (p : PortId) (h : reactionOf b (fs .lnkDegrade) ≤ 2) :
    PortMoved p b (rateChanged old p b) ∧ samePort b.ports[p] (rateChanged old p b).ports[p] := by
  unfold rateChanged
  split
  · exact ⟨.refl p b, rfl⟩
  · obtain ⟨hmoved, hports⟩ := raise_moved (b := rcSet (lnkBase p.val + 0x0C) 3 b) (src := fs .lnkDegrade) (unit := p.val)
      (detail := (portEvent 0x0305 p 2 0).lo)
      [{ mask := otherActive p (rcSet (lnkBase p.val + 0x0C) 3 b), ev := portEvent 0x0305 p 2 0 }] h
    exact ⟨(rcSet_moved p _ 3 b).trans ⟨hmoved, fun q _ => hports q⟩, hports p⟩

theorem enterRecover_moved (p : PortId) (b : Block) : PortMoved p b (enterRecover false p b)
    ∧ (enterRecover false p b).ports[p] = portRecover (portRate p b) false b.ports[p] := by
  refine ⟨((modPort_moved p _ b).trans (rcSet_moved p _ 2 _)).trans (ctrAdd_moved p 1 _), ?_⟩
  exact modPort_same b p (portRecover (portRate p b) false)

/-- A port is in RECOVER, at the rate of R147. -/
def recovers (rate : Nat) (x : Port) : Prop := x.st = .recover ∧ x.rate.toNat = rate

theorem recovers_of_same {rate : Nat} {x y : Port} (h : samePort x y) (k : recovers rate x) : recovers rate y := by
  rw [h]
  exact k

theorem recoverPort_moved (p : PortId) (h : reactionOf b (fs .lnkDegrade) ≤ 2) :
    PortMoved p b (recoverPort p b) ∧ recovers (portRate p b) (recoverPort p b).ports[p] := by
  obtain ⟨hmoved, hport⟩ := enterRecover_moved p b
  obtain ⟨htold, hsame⟩ := rateChanged_moved (b := enterRecover false p b) b.ports[p].rate p ((hmoved.moved.reaction _).trans_le h)
  refine ⟨hmoved.trans htold, recovers_of_same hsame ?_⟩
  rw [hport]
  exact ⟨rfl, Nat.mod_eq_of_lt (portRate_lt p b)⟩

/-- A port that neither trains nor recovers does not take a changed rate; every port leaves the others. -/
theorem retrainPort_moved (p : PortId) (h : reactionOf b (fs .lnkDegrade) ≤ 2) : PortMoved p b (retrainPort p b)
    ∧ (b.ports[p].st = .disabled ∨ b.ports[p].st = .detect → retrainPort p b = b) := by
  unfold retrainPort
  extract_lets x rate
  split
  case isTrue => exact ⟨.refl p b, fun _ => rfl⟩
  split
  case isTrue hrecover =>
    obtain ⟨htold, -⟩ := rateChanged_moved (b := modPort p (portRecover rate false) b) x.rate p h
    refine ⟨(modPort_moved p _ b).trans htold, fun hout => ?_⟩
    have hst : b.ports[p].st = .recover := beq_iff_eq.mp hrecover
    rw [hst] at hout
    exact absurd hout (by decide)
  split
  case isTrue htrain =>
    obtain ⟨htold, -⟩ := rateChanged_moved (b := modPort p (portTrain rate) b) x.rate p h
    refine ⟨(modPort_moved p _ b).trans htold, fun hout => ?_⟩
    have hst : ¬ (b.ports[p].st = .disabled ∨ b.ports[p].st = .detect) := by
      simp only [Bool.or_eq_true, beq_iff_eq] at htrain
      rintro (hd | hd)
      · rw [show x.st = .disabled from hd] at htrain; exact absurd htrain (by decide)
      · rw [show x.st = .detect from hd] at htrain; exact absurd htrain (by decide)
    exact absurd hout hst
  case isFalse => exact ⟨.refl p b, fun _ => rfl⟩

/-! ### Every port that a change reaches -/

/-- What ports that recover together come to: each that `f` names is in RECOVER, those that it does not name and those that are down
are as they were. -/
def portOutcome (f : PortId → Bool) (b : Block) (p : PortId) (t : Block) : Prop :=
  (f p = true → b.ports[p].mayRecover = true → recovers (portRate p b) t.ports[p])
    ∧ (f p = false ∨ b.ports[p].st = .disabled ∨ b.ports[p].st = .detect → samePort b.ports[p] t.ports[p])

theorem down_no_recover {x : Port} (h : x.st = .disabled ∨ x.st = .detect) : x.mayRecover = false := by
  obtain h | h := h <;> simp [Port.mayRecover, h]

theorem recoverPorts_moved (f : PortId → Bool) (h : reactionOf b (fs .lnkDegrade) ≤ 2) :
    LinksMoved b (recoverPorts f b) ∧ ∀ p, portOutcome f b p (recoverPorts f b) := by
  have hlow {c : Block} (hc : LinksMoved b c) : reactionOf c (fs .lnkDegrade) ≤ 2 := (hc.reaction _).trans_le h
  refine forAll_each (I := LinksMoved b) (Pre := fun p c => samePort b.ports[p] c.ports[p]) (Post := portOutcome f b) (.refl b)
    (fun _ => rfl) (fun p c hc hsame => ?_) (fun p q c hne hc => ?_)
  case refine_1 =>
    have hmay : c.ports[p].mayRecover = b.ports[p].mayRecover := by rw [hsame]; rfl
    have hst : c.ports[p].st = b.ports[p].st := by rw [hsame]
    split
    case isTrue hout =>
      have hno : f p = false := by simpa using hout
      exact ⟨hc, fun hin => absurd hin (ne_true_of_eq_false hno), fun _ => hsame⟩
    case isFalse hin =>
      have hyes : f p = true := by simpa using hin
      split
      case isTrue hgoes =>
        obtain ⟨hmoved, hrec⟩ := recoverPort_moved p (hlow hc)
        refine ⟨hc.trans hmoved.moved, fun _ _ => hc.rate p ▸ hrec, ?_⟩
        rintro (hno | hdown)
        · exact absurd hyes (ne_true_of_eq_false hno)
        · exact absurd (hmay ▸ hgoes) (ne_true_of_eq_false (down_no_recover hdown))
      case isFalse hstays =>
        obtain ⟨hmoved, hdown⟩ := retrainPort_moved p (hlow hc)
        refine ⟨hc.trans hmoved.moved, fun _ hgoes => absurd (hmay.trans hgoes) hstays, ?_⟩
        rintro (hno | hout)
        · exact absurd hyes (ne_true_of_eq_false hno)
        · rw [hdown (by rw [hst]; exact hout)]
          exact hsame
  case refine_2 =>
    have hothers : samePort c.ports[q] (if (!f p) = true then c
        else if c.ports[p].mayRecover = true then recoverPort p c else retrainPort p c).ports[q] := by
      split
      · rfl
      · split
        · exact (recoverPort_moved p (hlow hc)).1.others q hne
        · exact (retrainPort_moved p (hlow hc)).1.others q hne
    exact ⟨fun hpre => samePort_trans hpre hothers, fun ⟨hrec, hsame⟩ =>
      ⟨fun hin hgoes => recovers_of_same hothers (hrec hin hgoes), fun hout => samePort_trans (hsame hout) hothers⟩⟩

end Sys2Proof.Machine
end

section
/-! SUPPORT. The REFCLK monitor and the PLL locks (R89, R418 to R423). -/

namespace Sys2Proof.Machine

open Sys2Proof

variable {b t : Block} {s : State}

/-! ### Windows -/

theorem inRange_iff {n : Nat} : inRange n = true ↔ 980 ≤ n ∧ n ≤ 1020 := by
  simp [inRange]

theorem monitorWindow_in {count : BitVec 16} (hstep : 3 ≤ b.start.step) (h : inRange count.toNat = true) :
    monitorWindow count b = { b with clk := { b.clk with count := count, windows := min 10 (b.clk.windows + 1) } } := by
  simp [monitorWindow, proving, hstep, h]

theorem monitorWindow_out {count : BitVec 16} (hstep : 3 ≤ b.start.step) (h : inRange count.toNat = false) :
    monitorWindow count b = if b.clk.proven then refLost count b else { b with clk := { b.clk with count := count, windows := 0 } } := by
  simp [monitorWindow, proving, hstep, h]

theorem refWindow_runs {count dev : BitVec 16} (hstep : (monitorWindow count b).start.step ≠ 0) : refWindow count dev b
    = { monitorWindow count b with
        cal := { (monitorWindow count b).cal with iosc := if (monitorWindow count b).clk.proven then dev else 0 } } :=
  if_neg fun h => hstep (by
    have hstart : (monitorWindow count b).start.step = 0 := h
    exact hstart)

/-! ### REFCLK lost and proven -/

/-- The sources that the selects name (R419). -/
def selected (b : Block) : BitVec 3 := BitVec.ofNat 3 (rwf (clkBase + 8) 2 0 b)

theorem applySources_proven (h : b.clk.proven = true) :
    applySources b = { b with clk := { b.clk with srcEff := selected b }, iosc := !(selected b).getLsbD 0 } := by
  simp [applySources, h, selected]

/-- The clocks after REFCLK is lost. -/
def refFallen (count : BitVec 16) (c : Clk) : Clk := { c with proven := false, windows := 0, count := count, lostOnce := true, srcEff := 0 }

/-- Step 15 waits for REFCLK again (R89). -/
def trainingWaits (b : Block) : Block :=
  if b.starting && b.start.step == 15 then { b with start := { b.start with waitRef := true } } else b

/-- The stack as REFCLK is lost, before the fault is raised. -/
def refFell (count : BitVec 16) (b : Block) : Block :=
  rcSet (clkBase + 0x14) 2 (ctrAdd (clkBase + 0x30) 1 (trainingWaits { b with clk := refFallen count b.clk, iosc := true }))

theorem refLost_eq (count : BitVec 16) (b : Block) : refLost count b = recoverPorts (fun _ => true)
    (raise (fs .clkRef) 0x5C (count.zeroExtend 32)
      [{ mask := allMask, ev := { code := 0x0202, lo := count.zeroExtend 32, nme := true } }] (refFell count b)) := by
  have happly : applySources { b with clk := { b.clk with proven := false, windows := 0, count := count, lostOnce := true } }
      = { b with clk := refFallen count b.clk, iosc := true } := by
    simp [applySources, refFallen]
  unfold refLost
  rw [happly]
  rfl

theorem trainingWaits_keeps (b : Block) : (trainingWaits b).clk = b.clk ∧ (trainingWaits b).iosc = b.iosc
    ∧ (trainingWaits b).ports = b.ports ∧ (trainingWaits b).sage = b.sage ∧ (trainingWaits b).regs = b.regs := by
  unfold trainingWaits
  split <;> exact ⟨rfl, rfl, rfl, rfl, rfl⟩

theorem refFell_keeps (count : BitVec 16) (b : Block) : (refFell count b).clk = refFallen count b.clk ∧ (refFell count b).iosc = true
    ∧ (refFell count b).ports = b.ports ∧ (refFell count b).sage = b.sage
    ∧ (rcGet (clkBase + 0x14) (refFell count b)).getLsbD 2 = true
    ∧ (ctr (clkBase + 0x30) (refFell count b)).toNat = min ctrMax ((ctr (clkBase + 0x30) b).toNat + 1) := by
  obtain ⟨hclk, hiosc, hports, hsage, hregs⟩ := trainingWaits_keeps { b with clk := refFallen count b.clk, iosc := true }
  unfold refFell
  generalize trainingWaits { b with clk := refFallen count b.clk, iosc := true } = w at *
  refine ⟨hclk, hiosc, hports, hsage, rcGet_rcSet_bit (i := 2) _ (ctrAdd (clkBase + 0x30) 1 w) (by decide), ?_⟩
  have hcount : ctr (clkBase + 0x30) w = ctr (clkBase + 0x30) b := by rw [ctr, hregs, ctr]
  rw [← hcount]
  exact ctr_ctrAdd (clkBase + 0x30) 1 w

theorem mayRecover_same {x y : Port} (h : samePort x y) : y.mayRecover = x.mayRecover := by
  rw [h]
  rfl

/-- What recovers after steps that leave the ports recovers all the same. -/
theorem portOutcome_after {f : PortId → Bool} {p : PortId} {c : Block} (hsame : samePort b.ports[p] c.ports[p])
    (h : portOutcome f c p t) :
    (f p = true → b.ports[p].mayRecover = true → t.ports[p].st = .recover)
      ∧ (f p = false ∨ b.ports[p].st = .disabled ∨ b.ports[p].st = .detect → samePort b.ports[p] t.ports[p]) := by
  obtain ⟨hrec, hkept⟩ := h
  have hst : c.ports[p].st = b.ports[p].st := by rw [hsame]
  refine ⟨fun hin hgoes => (hrec hin ((mayRecover_same hsame).trans hgoes)).1, fun hout => ?_⟩
  exact samePort_trans hsame (hkept (by rw [hst]; exact hout))

theorem refProven_waits (h : ¬ (3 ≤ b.start.step ∧ b.clk.proven = false ∧ 10 ≤ b.clk.windows)) : refProven b = b := by
  refine if_pos ?_
  by_contra hno
  simp only [proving, Bool.or_eq_true, Bool.not_eq_true', decide_eq_true_eq, decide_eq_false_iff_not, not_or, Bool.not_eq_true] at hno
  obtain ⟨⟨hstep, hproven⟩, hwindows⟩ := hno
  exact h ⟨by omega, hproven, by omega⟩

theorem tryReady_other (h : b.start.step ≠ 15) : tryReady b = b := by
  refine if_neg ?_
  simp [h]

/-- The stack with REFCLK proven. -/
def refTaken (b : Block) : Block :=
  { b with clk := { b.clk with proven := true, srcEff := selected b }, iosc := !(selected b).getLsbD 0 }

theorem refProven_goes (hstep : 3 ≤ b.start.step) (hproven : b.clk.proven = false)
    (hwindows : 10 ≤ b.clk.windows) (hready : b.start.waitRef = false) : refProven b =
      tryReady (if b.clk.lostOnce then recoverPorts (fun _ => true) (emit allMask { code := 0x0203 } (refTaken b)) else refTaken b) := by
  have hgoes : ¬ (!proving b || b.clk.proven || decide (b.clk.windows < 10)) = true := by
    simp only [proving, Bool.or_eq_true, Bool.not_eq_true', decide_eq_true_eq, decide_eq_false_iff_not, not_or, Bool.not_eq_true]
    exact ⟨⟨by omega, hproven⟩, by omega⟩
  have htaken : resumeTraining (applySources { b with clk := { b.clk with proven := true } }) = refTaken b := by
    rw [applySources_proven rfl]
    exact if_pos (by rw [Bool.not_eq_true']; exact hready)
  unfold refProven
  rw [if_neg hgoes]
  dsimp only
  rw [htaken]

/-! ### PLL locks (R423) -/

/-- The fault of a lost lock (R423). -/
def pllRaised (l : Pll) (b : Block) : Block :=
  raise (fs .clkPll) 0x5C (pllWord l) [{ mask := allMask, ev := { code := 0x0204, lo := pllWord l } }]
    (rcSet (clkBase + 0x14) 3 (setLock l false b))

theorem pllLost_link {q : QuadId} (h : b.clk.linkLock.getLsbD q.val = true) :
    pllLost (.link q) b = recoverPorts (fun p => p.val / 4 == q.val) (pllRaised (.link q) b) :=
  if_neg (by rw [locked, h]; decide)

theorem pllLost_tsv {q : QuadId} (h : b.clk.tsvLock.getLsbD q.val = true) :
    pllLost (.tsv q) b = stallQuad q true (pllRaised (.tsv q) b) :=
  if_neg (by rw [locked, h]; decide)

theorem pllLost_mgmt (h : b.clk.mgmtLock = true) : pllLost .mgmt b = pllRaised .mgmt b :=
  if_neg (by rw [locked, h]; decide)

theorem pllRaised_moved (l : Pll) (h : reactionOf b (fs .clkPll) ≤ 2) : LinksMoved (setLock l false b) (pllRaised l b)
    ∧ (∀ p : PortId, samePort b.ports[p] (pllRaised l b).ports[p]) ∧ (rcGet (clkBase + 0x14) (pllRaised l b)).getLsbD 3 = true := by
  obtain ⟨hraised, hports⟩ := raise_moved (b := rcSet (clkBase + 0x14) 3 (setLock l false b)) (src := fs .clkPll) (unit := 0x5C)
    (detail := pllWord l) [{ mask := allMask, ev := { code := 0x0204, lo := pllWord l } }] h
  obtain ⟨hmoved, -⟩ := rcSet_moved 0 (clkBase + 0x14) 3 (setLock l false b)
  exact ⟨hmoved.trans hraised, hports,
    hraised.bits _ _ (rcGet_rcSet_bit (i := 3) (clkBase + 0x14) (setLock l false b) (by decide))⟩

/-- A lock is acquired where nothing bars it. -/
theorem lock_open {l : Pll} (h : locked b l = false) (hmay : mayLock b l = true) : ¬ (locked b l || !mayLock b l) = true := by
  rw [h, hmay]
  decide

theorem pllLocked_link {q : QuadId} (h : locked s.blk (.link q) = false) (hmay : mayLock s.blk (.link q) = true) :
    pllLocked (.link q) s = s.upd (retrainQuad q (setLock (.link q) true s.blk)) := if_neg (lock_open h hmay)

theorem pllLocked_tsv {q : QuadId} (h : locked s.blk (.tsv q) = false) (hmay : mayLock s.blk (.tsv q) = true) :
    pllLocked (.tsv q) s = wakeChans (fun c => quadOf c == q) (s.upd (stallQuad q false (setLock (.tsv q) true s.blk))) :=
  if_neg (lock_open h hmay)

theorem pllLocked_mgmt (h : locked s.blk .mgmt = false) (hmay : mayLock s.blk .mgmt = true) :
    pllLocked .mgmt s = s.upd (setLock .mgmt true s.blk) := if_neg (lock_open h hmay)

theorem quadOf_iff (c : ChanId) (q : QuadId) : quadOf c.val = q ↔ c.val / 8 = q.val := by
  rw [quadOf, Fin.ext_iff]
  change (c.val / 8) % 4 = q.val ↔ _
  omega

/-- The channels of a quadrant stall, or go on, and no other unit changes. -/
theorem stallQuad_eq (q : QuadId) (v : Bool) (b : Block) : stallQuad q v b = { b with chans := (stallQuad q v b).chans } ∧
    ∀ k : ChanId, (stallQuad q v b).chans[k] = if k.val / 8 = q.val then { b.chans[k] with stall := v } else b.chans[k] := by
  refine forAll_each (I := fun c => c = { b with chans := c.chans }) (Pre := fun k c => c.chans[k] = b.chans[k])
    (Post := fun k c => c.chans[k] = if k.val / 8 = q.val then { b.chans[k] with stall := v } else b.chans[k]) rfl (fun _ => rfl)
    (fun k c hc hsame => ?_) (fun k j c hne hc => ?_)
  case refine_1 =>
    split
    case isTrue hin =>
      refine ⟨by rw [hc]; rfl, ?_⟩
      rw [modChan_same, hsame, if_pos ((quadOf_iff k q).mp hin)]
    case isFalse hout => exact ⟨hc, by rw [hsame, if_neg fun h => hout ((quadOf_iff k q).mpr h)]⟩
  case refine_2 =>
    have hother : (if quadOf k.val = q then modChan k (fun x => { x with stall := v }) c else c).chans[j] = c.chans[j] := by
      split
      · exact modChan_other _ _ hne
      · rfl
    exact ⟨fun h => hother.trans h, fun h => hother.trans h⟩

theorem wakeChans_none {f : Nat → Bool} (h : ∀ k : ChanId, s.blk.chans[k].st ≠ .selfRefresh) : wakeChans f s = s := by
  unfold wakeChans
  split
  · rfl
  · refine foldl_fix _ _ _ fun c _ => if_neg ?_
    simp [h (cid c), -Fin.getElem_fin]

end Sys2Proof.Machine
end

section
open Sys2Proof Sys2Proof.Machine

/-- Settles O50: a window is an equation of what it leaves; a loss of REFCLK or of a lock raises its fault and the ports that it
reaches recover together (`recoverPorts_moved`), or the channels of its quadrant stall (`stallQuad_eq`). -/
theorem refclkAndPlls : Obligations.RefclkAndPlls := by
  unfold Obligations.RefclkAndPlls
  intro s c
  refine ⟨fun count dev hstep hlo hhi => ?inside, fun count dev hstep hproven hout => ?unproven,
    fun count hstep hproven hout href hlnk => ?lost, fun hstep hother hproven hwindows hready => ?proven, fun hno => ?waits,
    fun hpll hlnk => ⟨fun q hlock => ?link, fun q hlock => ?tsv, fun hlock => ?mgmt⟩,
    fun hstep hstate => ⟨fun q hlock hruns hawake => ?tsvLocks, fun q hlock hruns hidle => ?linkLocks, fun hlock => ?mgmtLocks⟩⟩
  case inside =>
    have hwin := monitorWindow_in (b := s.blk) hstep (inRange_iff.mpr ⟨hlo, hhi⟩)
    have hrow := refWindow_runs (b := s.blk) (count := count) (dev := dev)
      (by rw [hwin]; exact Nat.ne_of_gt (Nat.lt_of_lt_of_le (by decide) hstep))
    rw [hwin] at hrow
    exact congrArg (fun b => Host.Outcome.next (s.upd b)) hrow
  case unproven =>
    have hbad : inRange count.toNat = false := Bool.eq_false_iff.mpr fun h => by
      have := inRange_iff.mp h
      omega
    have hwin := (monitorWindow_out (b := s.blk) hstep hbad).trans (if_neg (ne_true_of_eq_false hproven))
    have hrow := refWindow_runs (b := s.blk) (count := count) (dev := dev)
      (by rw [hwin]; exact Nat.ne_of_gt (Nat.lt_of_lt_of_le (by decide) hstep))
    rw [hwin] at hrow
    refine congrArg (fun b => Host.Outcome.next (s.upd b)) (hrow.trans ?_)
    dsimp only
    rw [hproven]
    rfl
  case lost =>
    have hbad : inRange count.toNat = false := Bool.eq_false_iff.mpr fun h => by
      have := inRange_iff.mp h
      omega
    have hrow : exec (.refclkLoss count) s = .next (s.upd (refLost count s.blk)) := by
      refine congrArg Host.Outcome.next ((if_neg (ne_true_of_eq_false hbad)).trans ?_)
      rw [monitorWindow_out hstep hbad, if_pos hproven]
    obtain ⟨hclk, hiosc, hports, hsage, hbit, hcount⟩ := refFell_keeps count s.blk
    rw [refLost_eq] at hrow
    obtain ⟨hraised, hsame⟩ := raise_moved (b := refFell count s.blk) (src := fs .clkRef) (unit := 0x5C)
      (detail := count.zeroExtend 32) [{ mask := allMask, ev := { code := 0x0202, lo := count.zeroExtend 32, nme := true } }]
      (by rw [reactionOf_congr (congrArg Sage.react hsage)]; exact href)
    generalize raise (fs .clkRef) 0x5C (count.zeroExtend 32)
      [{ mask := allMask, ev := { code := 0x0202, lo := count.zeroExtend 32, nme := true } }] (refFell count s.blk) = r at *
    obtain ⟨hmoved, hall⟩ := recoverPorts_moved (b := r) (fun _ => true)
      (by rw [hraised.reaction, reactionOf_congr (congrArg Sage.react hsage)]; exact hlnk)
    have hlinks := hraised.trans hmoved
    generalize recoverPorts (fun _ => true) r = t at *
    refine ⟨_, hrow, rfl, rfl, ?_, ?_, hlinks.bits _ _ hbit, ?_, fun p => ?_⟩
    · exact hlinks.clk.trans hclk
    · exact hlinks.iosc.trans hiosc
    · rw [State.upd_blk, hlinks.ctrs _ (by decide) (by decide)]
      exact hcount
    · rw [hports] at hsame
      obtain ⟨hrec, hkept⟩ := portOutcome_after (hsame p) (hall p)
      exact ⟨fun hgoes => hrec rfl hgoes, fun hdown => hkept (Or.inr hdown)⟩
  case proven =>
    intro sel
    have hgoes := refProven_goes (b := s.blk) hstep hproven hwindows hready
    refine ⟨fun hfirst => ?_, fun hagain hlow => ?_⟩
    · rw [if_neg (ne_true_of_eq_false hfirst), tryReady_other (b := refTaken s.blk) hother] at hgoes
      exact congrArg (fun b => Host.Outcome.next (s.upd b)) hgoes
    · have hquiet := quietly_emit allMask { code := 0x0203 } (refTaken s.blk)
      have hsage : (emit allMask { code := 0x0203 } (refTaken s.blk)).sage = s.blk.sage := emit_sage _ _ _
      obtain ⟨hmoved, hall⟩ := recoverPorts_moved (b := emit allMask { code := 0x0203 } (refTaken s.blk)) (fun _ => true)
        (by rw [reactionOf_congr (congrArg Sage.react hsage)]; exact hlow)
      have hstart : (recoverPorts (fun _ => true) (emit allMask { code := 0x0203 } (refTaken s.blk))).start = s.blk.start := by
        rw [hmoved.start, hquiet.1]
        rfl
      rw [if_pos hagain, tryReady_other (by rw [hstart]; exact hother)] at hgoes
      generalize recoverPorts (fun _ => true) (emit allMask { code := 0x0203 } (refTaken s.blk)) = t at *
      refine ⟨_, congrArg (fun b => Host.Outcome.next (s.upd b)) hgoes, rfl, ?_, ?_, fun p hmay => ?_⟩
      · rw [State.upd_blk, hmoved.clk, hquiet.1]
        rfl
      · rw [State.upd_blk, hmoved.iosc, hquiet.1]
        rfl
      · obtain ⟨hrec, -⟩ := portOutcome_after (b := s.blk) (hquiet.2 p) (hall p)
        exact hrec rfl hmay
  case waits =>
    exact congrArg (fun b => Host.Outcome.next (s.upd b)) (refProven_waits fun ⟨hstep, _, hwindows⟩ =>
      hno.elim (fun h => absurd hstep (Nat.not_le.mpr h)) fun h => absurd hwindows (Nat.not_le.mpr h))
  case link =>
    have hrow : exec (.pllLockLoss (.link q)) s = .next (s.upd _) := congrArg (fun b => Host.Outcome.next (s.upd b)) (pllLost_link hlock)
    obtain ⟨hraised, hsame, hbit⟩ := pllRaised_moved (.link q) hpll
    generalize pllRaised (.link q) s.blk = r at *
    obtain ⟨hmoved, hall⟩ := recoverPorts_moved (b := r) (fun p => p.val / 4 == q.val) (by rw [hraised.reaction]; exact hlnk)
    generalize recoverPorts (fun p => p.val / 4 == q.val) r = t at *
    refine ⟨_, hrow, rfl, hmoved.clk.trans (hraised.clk.trans rfl), hmoved.bits _ _ hbit, fun p => ?_⟩
    obtain ⟨hrec, hkept⟩ := portOutcome_after (b := s.blk) (hsame p) (hall p)
    exact ⟨fun hin => hrec (beq_iff_eq.mpr hin), fun hout => hkept (hout.imp_left beq_eq_false_iff_ne.mpr)⟩
  case tsv =>
    have hrow : exec (.pllLockLoss (.tsv q)) s = .next (s.upd _) := congrArg (fun b => Host.Outcome.next (s.upd b)) (pllLost_tsv hlock)
    obtain ⟨hraised, -, hbit⟩ := pllRaised_moved (.tsv q) hpll
    generalize pllRaised (.tsv q) s.blk = r at *
    obtain ⟨hrest, hchans⟩ := stallQuad_eq q true r
    generalize stallQuad q true r = t at *
    have hclk : t.clk = r.clk := by rw [hrest]
    have hregs : t.regs = r.regs := by rw [hrest]
    refine ⟨_, hrow, rfl, hclk.trans (hraised.clk.trans rfl), ?_, fun k => ?_⟩
    · rw [State.upd_blk, rcGet, hregs]
      exact hbit
    · rw [State.upd_blk, hchans, hraised.chans]
      rfl
  case mgmt =>
    obtain ⟨hraised, -, hbit⟩ := pllRaised_moved .mgmt hpll
    exact ⟨_, congrArg (fun b => Host.Outcome.next (s.upd b)) (pllLost_mgmt hlock), rfl, hraised.clk.trans rfl, hbit,
      hraised.chans.trans rfl⟩
  case tsvLocks =>
    have hmay : mayLock s.blk (.tsv q) = true := by
      simp only [mayLock, Bool.and_eq_true, decide_eq_true_eq, bne_iff_ne]
      exact ⟨⟨hstep, hstate⟩, hruns⟩
    obtain ⟨hrest, hchans⟩ := stallQuad_eq q false (setLock (.tsv q) true s.blk)
    have hawake' : ∀ k : ChanId, (s.upd (stallQuad q false (setLock (.tsv q) true s.blk))).blk.chans[k].st ≠ .selfRefresh := by
      intro k
      rw [State.upd_blk, hchans]
      split <;> exact hawake k
    have hrow : exec (.pllLockAcquired (.tsv q)) s = .next (s.upd (stallQuad q false (setLock (.tsv q) true s.blk))) :=
      congrArg Host.Outcome.next ((pllLocked_tsv (s := s) (q := q) hlock hmay).trans (wakeChans_none hawake'))
    refine ⟨_, hrow, rfl, ?_, ?_, hchans⟩
    · rw [State.upd_blk, hrest]
      rfl
    · rw [State.upd_blk, hrest]
      rfl
  case linkLocks =>
    have hmay : mayLock s.blk (.link q) = true := by
      simp only [mayLock, Bool.and_eq_true, decide_eq_true_eq, bne_iff_ne]
      exact ⟨⟨hstep, hstate⟩, hruns⟩
    have hstay : retrainQuad q (setLock (.link q) true s.blk) = setLock (.link q) true s.blk :=
      foldl_fix _ _ _ fun p _ => if_neg fun h => absurd (h.2.2 : s.blk.ports[p].idleTx = true) (ne_true_of_eq_false (hidle p))
    exact congrArg Host.Outcome.next ((pllLocked_link (s := s) (q := q) hlock hmay).trans (congrArg s.upd hstay))
  case mgmtLocks =>
    have hmay : mayLock s.blk .mgmt = true := by
      simp [mayLock, hstep]
    exact congrArg Host.Outcome.next (pllLocked_mgmt (s := s) hlock hmay)

end

section
/-! SUPPORT. Engines that follow their clock enables (R396, R431, R432): what holding and releasing them leaves of the stack. -/

namespace Sys2Proof.Machine

open Sys2Proof

variable {b c t : Block} {e : EngId}

/-! ### What an engine that starts pieces leaves -/

/-- From `b` to `t`, only the pieces of descriptors and engine `e` have changed, and what waited in its registers has committed. -/
structure EngineMoved (e : EngId) (b t : Block) : Prop where
  rest : t = { b with
    ops := t.ops, engs := t.engs, regs := { b.regs with live := t.regs.live, pend := t.regs.pend, badPar := t.regs.badPar } }
  par : b.regs.badPar = [] → t.regs.badPar = []
  pend : ∀ w ∈ t.regs.pend, w ∈ b.regs.pend
  quiet : b.regs.pend = [] → t.regs = b.regs ∧ ∀ i : EngId, t.engs[i].st = b.engs[i].st
  others : ∀ i, i ≠ e → t.engs[i] = b.engs[i]

theorem EngineMoved.refl (e : EngId) (b : Block) : EngineMoved e b b :=
  ⟨rfl, id, fun _ => id, fun _ => ⟨rfl, fun _ => rfl⟩, fun _ _ => rfl⟩

theorem EngineMoved.trans (h : EngineMoved e b c) (k : EngineMoved e c t) : EngineMoved e b t := by
  refine ⟨?_, fun hpar => k.par (h.par hpar), fun w hw => h.pend w (k.pend w hw), fun hpend => ?_,
    fun i hi => (k.others i hi).trans (h.others i hi)⟩
  · rw [k.rest, h.rest]
  · obtain ⟨hregs, hst⟩ := h.quiet hpend
    obtain ⟨kregs, kst⟩ := k.quiet (hregs ▸ hpend)
    exact ⟨kregs.trans hregs, fun i => (kst i).trans (hst i)⟩

theorem EngineMoved.good (h : EngineMoved e b t) (hgood : ∀ w ∈ b.regs.pend, w.good = true) : ∀ w ∈ t.regs.pend, w.good = true :=
  fun w hw => hgood w (h.pend w hw)

theorem modPiece_moved (e : EngId) (id i : Nat) (f : Piece → Piece) (b : Block) : EngineMoved e b (modPiece id i f b) :=
  ⟨rfl, fun hpar => hpar, fun _ hw => hw, fun _ => ⟨rfl, fun _ => rfl⟩, fun _ _ => rfl⟩

theorem modEng_moved (f : Eng → Eng) (hst : (f b.engs[e]).st = b.engs[e].st) : EngineMoved e b (modEng e f b) := by
  refine ⟨rfl, id, fun _ => id, fun _ => ⟨rfl, fun i => ?_⟩, fun i hi => modEng_other _ f hi⟩
  by_cases hi : i = e
  · rw [hi, modEng_same, hst]
  · rw [modEng_other _ f hi]

theorem refillQueue_moved (e : EngId) (n : Nat) (b : Block) : EngineMoved e b (refillQueue e.val n b) := by
  induction n generalizing b with
  | zero => exact .refl e b
  | succ n ih =>
    rw [refillQueue]
    split
    · exact .refl e b
    · split
      · exact .refl e b
      · simp only [eid_val]
        exact ((modPiece_moved e _ _ _ b).trans (modEng_moved _ rfl)).trans (ih _)

/-- What a commit leaves: registers' live values, and what waits. -/
structure Committed (b t : Block) : Prop where
  rest : t = { b with regs := { b.regs with live := t.regs.live, pend := t.regs.pend, badPar := t.regs.badPar } }
  par : b.regs.badPar = [] → t.regs.badPar = []
  pend : ∀ w ∈ t.regs.pend, w ∈ b.regs.pend

theorem Committed.trans (h : Committed b c) (k : Committed c t) : Committed b t := by
  refine ⟨?_, fun hpar => k.par (h.par hpar), fun w hw => h.pend w (k.pend w hw)⟩
  rw [k.rest, h.rest]

theorem setLive_committed (a : Nat) (v : Word) (b : Block) : Committed b (setLive a v b) :=
  ⟨rfl, fun hpar => by rw [setLive, hpar]; rfl, fun _ => id⟩

theorem applyWrites_committed (l : List PendWr) (b : Block) : Committed b (applyWrites l b) := by
  induction l generalizing b with
  | nil => exact ⟨rfl, id, fun _ => id⟩
  | cons w l ih => exact (setLive_committed w.addr w.value b).trans (ih _)

theorem commitPlain_committed (base : Nat) (hgood : ∀ w ∈ b.regs.pend, w.good = true) : Committed b (commitPlain base b) := by
  unfold commitPlain
  rw [takePend_good hgood]
  exact Committed.trans (c := { b with regs := { b.regs with pend := b.regs.pend.filter fun w => baseOf w.addr != base } })
    ⟨rfl, id, fun _ => List.mem_of_mem_filter⟩ (applyWrites_committed _ _)

theorem instanceStarts_moved (e : EngId) (hgood : ∀ w ∈ b.regs.pend, w.good = true) : EngineMoved e b (instanceStarts e.val b) := by
  unfold instanceStarts
  split
  case isTrue => exact .refl e b
  case isFalse hany =>
    obtain ⟨hrest, hpar, hpend⟩ := commitPlain_committed (engBase e.val) hgood
    dsimp only
    generalize commitPlain (engBase e.val) b = t at *
    have hengs : t.engs = b.engs := by rw [hrest]
    have hsome : b.regs.pend ≠ [] := fun hnone => hany (by simp [hnone])
    split
    · simp only [eid_val]
      exact ⟨by rw [hrest]; rfl, hpar, hpend, fun hnone => absurd hnone hsome,
        fun i hi => (modEng_other _ _ hi).trans (by rw [hengs])⟩
    · exact ⟨by rw [hrest], hpar, hpend, fun hnone => absurd hnone hsome, fun i _ => by rw [hengs]⟩

/-- A piece that starts in a context: its descriptor notes it, and the engine's block commits (R53). -/
theorem pieceStarts_moved (e : EngId) (id i : Nat) {f : Eng → Eng} (g : Piece → Piece) (hst : (f b.engs[e]).st = b.engs[e].st)
    (hgood : ∀ w ∈ b.regs.pend, w.good = true) :
    EngineMoved e b (instanceStarts e.val (refillQueue e.val 64 (modPiece id i g (modEng e f b)))) := by
  have hfilled := ((modEng_moved f hst).trans (modPiece_moved e id i g _)).trans (refillQueue_moved e 64 _)
  exact hfilled.trans (instanceStarts_moved e (hfilled.good hgood))

theorem startPieces_moved (e : EngId) (n : Nat) (hgood : ∀ w ∈ b.regs.pend, w.good = true) :
    EngineMoved e b (startPieces e.val n b) := by
  induction n generalizing b with
  | zero => exact .refl e b
  | succ n ih =>
    rw [startPieces]
    split
    · exact .refl e b
    · split
      · simp only [eid_val]
        refine EngineMoved.trans ?starts (ih (EngineMoved.good ?starts hgood))
        exact pieceStarts_moved e _ _ _ rfl hgood
      · exact .refl e b

theorem kickEngine_moved (e : EngId) (hgood : ∀ w ∈ b.regs.pend, w.good = true) : EngineMoved e b (kickEngine e.val b) := by
  have hfilled := refillQueue_moved e 64 b
  exact hfilled.trans (startPieces_moved e 4 (hfilled.good hgood))

theorem kickEngine_modEng (e : EngId) (f : Eng → Eng) (hgood : ∀ w ∈ b.regs.pend, w.good = true) :
    EngineMoved e (modEng e f b) (kickEngine e.val (modEng e f b)) := kickEngine_moved e (b := modEng e f b) hgood

/-! ### Every engine that a clock enable reaches -/

/-- Engine `e` is held, or goes on, as its clock enable and its halt bit say (R396, R431, R432). -/
def gateEngine (e : EngId) (b : Block) : Block :=
  if heldNow b e.val then modEng e holdEngine b
  else if b.engs[e].st = .held then kickEngine e.val (modEng e (fun x => { x with st := .run }) b)
  else b

theorem gateEngines_eq (b : Block) : gateEngines b = forAll 32 gateEngine b := by
  have hrange : List.range 32 = (List.finRange 32).map Fin.val := by simp
  rw [gateEngines, hrange, List.foldl_map]
  simp only [eid_val]
  rfl

/-- From `b` to `t`, only engines and their pieces have changed, and what waited in the engines' registers has committed. -/
structure EnginesMoved (b t : Block) : Prop where
  rest : t = { b with
    ops := t.ops, engs := t.engs, regs := { b.regs with live := t.regs.live, pend := t.regs.pend, badPar := t.regs.badPar } }
  par : b.regs.badPar = [] → t.regs.badPar = []
  pend : ∀ w ∈ t.regs.pend, w ∈ b.regs.pend
  quiet : b.regs.pend = [] → t.regs = b.regs

theorem EngineMoved.all (h : EngineMoved e b t) : EnginesMoved b t := ⟨h.rest, h.par, h.pend, fun hpend => (h.quiet hpend).1⟩

theorem EnginesMoved.trans (h : EnginesMoved b c) (k : EnginesMoved c t) : EnginesMoved b t := by
  refine ⟨?_, fun hpar => k.par (h.par hpar), fun w hw => h.pend w (k.pend w hw), fun hpend => ?_⟩
  · rw [k.rest, h.rest]
  · have hregs := h.quiet hpend
    exact (k.quiet (hregs ▸ hpend)).trans hregs

/-- The state of an engine that its clock enable and its halt bit reach. -/
def gatedSt (held : Bool) (x : Eng) : EState :=
  if held then (holdEngine x).st else if x.st = .held then .run else x.st

theorem gatedSt_held (x : Eng) : gatedSt true x ≠ .run := by
  unfold gatedSt holdEngine
  cases hst : x.st <;> simp [hst]

theorem gatedSt_free (x : Eng) : gatedSt false x ≠ .held := by
  unfold gatedSt
  cases x.st <;> simp

theorem gateEngine_moved (e : EngId) (hgood : ∀ w ∈ b.regs.pend, w.good = true) : EnginesMoved b (gateEngine e b) := by
  have hmod (f : Eng → Eng) : EnginesMoved b (modEng e f b) := ⟨rfl, id, fun _ hw => hw, fun _ => rfl⟩
  unfold gateEngine
  split
  · exact hmod _
  · split
    · exact (hmod _).trans (kickEngine_modEng e _ hgood).all
    · exact ⟨rfl, id, fun _ hw => hw, fun _ => rfl⟩

/-- The engines follow their enables where no bad write waits. -/
theorem gateEngines_moved (hgood : ∀ w ∈ b.regs.pend, w.good = true) : EnginesMoved b (gateEngines b) := by
  rw [gateEngines_eq]
  refine (forAll_each (I := EnginesMoved b) (Pre := fun _ _ => True) (Post := fun _ _ => True) ⟨rfl, id, fun _ hw => hw, fun _ => rfl⟩
    (fun _ => trivial) (fun e c hc _ => ⟨hc.trans (gateEngine_moved e fun w hw => hgood w (hc.pend w hw)), trivial⟩)
    fun _ _ _ _ _ => ⟨id, id⟩).1

theorem heldNow_moved (h : EnginesMoved b t) (hregs : t.regs = b.regs) (n : Nat) : heldNow t n = heldNow b n := by
  rw [h.rest, hregs]
  rfl

/-- The engines follow their enables where no write waits: each is held, or goes on, as its enable says. -/
theorem gateEngines_quiet (hpend : b.regs.pend = []) : gateEngines b = { b with ops := (gateEngines b).ops, engs := (gateEngines b).engs }
    ∧ ∀ e : EngId, (gateEngines b).engs[e].st = gatedSt (heldNow b e.val) b.engs[e] := by
  have hnone {c : Block} (hc : EnginesMoved b c) : c.regs.pend = [] := by rw [hc.quiet hpend, hpend]
  have hgood {c : Block} (hc : EnginesMoved b c) : ∀ w ∈ c.regs.pend, w.good = true := by simp [hnone hc]
  rw [gateEngines_eq]
  refine (forAll_each (I := EnginesMoved b) (Pre := fun e c => c.engs[e] = b.engs[e])
    (Post := fun e c => c.engs[e].st = gatedSt (heldNow b e.val) b.engs[e]) ⟨rfl, id, fun _ hw => hw, fun _ => rfl⟩
    (fun _ => rfl) (fun e c hc hsame => ?_) (fun e i c hne hc => ?_)).imp_left fun h => ?_
  case refine_1 =>
    refine ⟨hc.trans (gateEngine_moved e (hgood hc)), ?_⟩
    unfold gateEngine
    rw [heldNow_moved hc (hc.quiet hpend), gatedSt]
    split
    · rw [modEng_same, hsame]
    · rw [hsame]
      split
      · have hwaits := hnone hc
        rw [((kickEngine_modEng e _ (hgood hc)).quiet hwaits).2, modEng_same]
      · rw [hsame]
  case refine_2 =>
    have hother : (gateEngine e c).engs[i] = c.engs[i] := by
      unfold gateEngine
      split
      · exact modEng_other _ _ hne
      · split
        · exact ((kickEngine_modEng e _ (hgood hc)).others i hne).trans (modEng_other _ _ hne)
        · rfl
    rw [hother]
    exact ⟨id, id⟩
  case refine_3 =>
    have hregs := h.quiet hpend
    have hrest := h.rest
    rw [hregs] at hrest
    exact hrest

/-- The engines follow their enables where no piece waits for one. -/
theorem gateEngines_empty (hdescs : b.ops.descs = []) (hqueues : ∀ e : EngId, b.engs[e].queue = []) :
    gateEngines b = { b with engs := (gateEngines b).engs }
      ∧ ∀ e : EngId, (gateEngines b).engs[e] = if heldNow b e.val then holdEngine b.engs[e]
        else if b.engs[e].st = .held then { b.engs[e] with st := .run } else b.engs[e] := by
  rw [gateEngines_eq]
  have hkick {c : Block} (hc : c = { b with engs := c.engs }) (hempty : ∀ e : EngId, c.engs[e].queue = []) (e : EngId) :
      kickEngine e.val c = c := by
    refine kickEngine_none (waitingPiece_none (by rw [hc]; simp [hdescs]) e.val) ?_
    rw [nextPiece, hempty (eid e.val)]
    rfl
  have hmod {c : Block} (e : EngId) (f : Eng → Eng) (hf : ∀ x, (f x).queue = x.queue) (hc : c = { b with engs := c.engs })
      (hempty : ∀ i : EngId, c.engs[i].queue = []) :
      modEng e f c = { b with engs := (modEng e f c).engs } ∧ ∀ i : EngId, (modEng e f c).engs[i].queue = [] := by
    refine ⟨by rw [hc]; rfl, fun i => ?_⟩
    by_cases hi : i = e
    · rw [hi, modEng_same, hf, hempty]
    · rw [modEng_other _ f hi, hempty]
  have hgate {c : Block} (e : EngId) (hc : c = { b with engs := c.engs }) (hempty : ∀ i : EngId, c.engs[i].queue = []) :
      gateEngine e c = if heldNow b e.val then modEng e holdEngine c
        else if c.engs[e].st = .held then modEng e (fun x => { x with st := .run }) c else c := by
    obtain ⟨hrest, hqueue⟩ := hmod e (fun x => { x with st := .run }) (fun _ => rfl) hc hempty
    rw [gateEngine, hkick hrest hqueue, show heldNow c e.val = heldNow b e.val by rw [hc]; rfl]
  refine (forAll_each (I := fun c => c = { b with engs := c.engs } ∧ ∀ i : EngId, c.engs[i].queue = [])
    (Pre := fun e c => c.engs[e] = b.engs[e]) (Post := fun e c => c.engs[e] = if heldNow b e.val then holdEngine b.engs[e]
        else if b.engs[e].st = .held then { b.engs[e] with st := .run } else b.engs[e]) ⟨rfl, hqueues⟩
    (fun _ => rfl) (fun e c ⟨hc, hempty⟩ hsame => ?_) (fun e i c hne ⟨hc, hempty⟩ => ?_)).imp_left And.left
  case refine_1 =>
    rw [hgate e hc hempty, hsame]
    split
    · exact ⟨hmod e _ (fun x => by unfold holdEngine; split <;> rfl) hc hempty, by rw [modEng_same, hsame]⟩
    · split
      · exact ⟨hmod e _ (fun _ => rfl) hc hempty, by rw [modEng_same, hsame]⟩
      · exact ⟨⟨hc, hempty⟩, hsame⟩
  case refine_2 =>
    have hother : (gateEngine e c).engs[i] = c.engs[i] := by
      rw [hgate e hc hempty]
      split
      · exact modEng_other _ _ hne
      · split
        · exact modEng_other _ _ hne
        · rfl
    rw [hother]
    exact ⟨id, id⟩

end Sys2Proof.Machine
end

section
/-! SUPPORT. The clock sequencer's steps (R23, R424 to R430, R445): trims, PLL changes, and what each leaves. -/

namespace Sys2Proof.Machine

open Sys2Proof

variable {b c t : Block} {s : State} {x : SeqStep}

/-! ### Regulators that take their factory trim (R445, R446) -/

/-- From `b` to `t`, regulators took their factory trim, and were told of. -/
structure Trimmed (b t : Block) : Prop where
  rest : t = { b with
    ports := t.ports, sage := t.sage, regs := { b.regs with ctr := t.regs.ctr, rc := t.regs.rc }
    cal := { b.cal with degReg := t.cal.degReg } }
  react : t.sage.react = b.sage.react
  safe : t.sage.safe = b.sage.safe
  ports : ∀ p : PortId, samePort b.ports[p] t.ports[p]

theorem Trimmed.refl (b : Block) : Trimmed b b := ⟨rfl, rfl, rfl, fun _ => rfl⟩

theorem Trimmed.trans (h : Trimmed b c) (k : Trimmed c t) : Trimmed b t := by
  refine ⟨?_, k.react.trans h.react, k.safe.trans h.safe, fun p => samePort_trans (h.ports p) (k.ports p)⟩
  rw [k.rest, h.rest]

theorem LinksMoved.trimmed (h : LinksMoved b t) (hports : ∀ p : PortId, samePort b.ports[p] t.ports[p]) : Trimmed b t := by
  refine ⟨?_, h.react, h.safe, hports⟩
  rw [h.rest]

theorem degradeEvent_trimmed (kind n : Nat) (hlow : reactionOf b (fs .calDegrade) ≤ 2) :
    Trimmed b (degradeEvent kind n b) ∧ (degradeEvent kind n b).cal = b.cal := by
  obtain ⟨-, -, hcal, -⟩ := degradeEvent_keeps (b := b) kind n hlow
  have htold : Trimmed b (degradeTold b) := by
    unfold degradeTold
    split
    · exact (rcSet_moved 0 _ _ b).moved.trimmed fun _ => rfl
    · exact .refl b
  obtain ⟨hmoved, hports⟩ := raise_moved (b := degradeTold b) (src := fs .calDegrade) (unit := 0x58)
    (detail := word [(kind, 0), (n, 8)]) [{ mask := allMask, ev := { code := 0x0F01, lo := word [(kind, 0), (n, 8)] } }]
    ((reactionOf_congr htold.react _).trans_le hlow)
  exact ⟨htold.trans (hmoved.trimmed hports), hcal⟩

theorem degradeReg_trimmed (n : Nat) (hlow : reactionOf b (fs .calDegrade) ≤ 2) : Trimmed b (degradeReg n b)
    ∧ ∀ i : Nat, i < 8 → (degradeReg n b).cal.degReg.getLsbD i = (b.cal.degReg.getLsbD i || decide (i = n)) := by
  unfold degradeReg
  split
  case isTrue hskip =>
    refine ⟨.refl b, fun i hi => ?_⟩
    by_cases hin : i = n
    · have hbit : b.cal.degReg.getLsbD i = true := by
        have : ¬ 8 ≤ i := by omega
        simpa [← hin, this, -BitVec.getLsbD_eq_getElem] using hskip
      rw [hbit, Bool.true_or]
    · rw [decide_eq_false hin, Bool.or_false]
  case isFalse hskip =>
    obtain ⟨hmoved, hcal⟩ := degradeEvent_trimmed (b := { b with cal := { b.cal with degReg := bset b.cal.degReg n } }) 0 n hlow
    have hset : Trimmed b { b with cal := { b.cal with degReg := bset b.cal.degReg n } } := ⟨rfl, rfl, rfl, fun _ => rfl⟩
    refine ⟨hset.trans hmoved, fun i hi => ?_⟩
    have hn : n < 8 := by
      simp only [Bool.or_eq_true, decide_eq_true_eq, not_or] at hskip
      omega
    rw [hcal, Bool.eq_iff_iff, bset_getLsbD_iff b.cal.degReg ⟨n, hn⟩ ⟨i, hi⟩, Bool.or_eq_true, decide_eq_true_eq, Fin.mk.injEq,
      eq_comm (a := n)]

theorem trimRegs_trimmed (l : List Nat) (hlow : reactionOf b (fs .calDegrade) ≤ 2) : Trimmed b (trimRegs l b)
    ∧ (b.sage.safe = false → b.thm.safe = false → ∀ i : Nat, i < 8 →
      (trimRegs l b).cal.degReg.getLsbD i = (b.cal.degReg.getLsbD i || decide (i ∈ l))) := by
  have hall (l : List Nat) : ∀ b : Block, reactionOf b (fs .calDegrade) ≤ 2 → Trimmed b (l.foldl (fun b n => degradeReg n b) b)
      ∧ ∀ i : Nat, i < 8 →
        (l.foldl (fun b n => degradeReg n b) b).cal.degReg.getLsbD i = (b.cal.degReg.getLsbD i || decide (i ∈ l)) := by
    induction l with
    | nil => exact fun b _ => ⟨.refl b, fun i _ => by simp⟩
    | cons n l ih =>
      intro b hlow
      obtain ⟨hfirst, hbit⟩ := degradeReg_trimmed n hlow
      obtain ⟨hrest, hbits⟩ := ih (degradeReg n b) ((reactionOf_congr hfirst.react _).trans_le hlow)
      refine ⟨hfirst.trans hrest, fun i hi => ?_⟩
      rw [List.foldl_cons, hbits i hi, hbit i hi, Bool.or_assoc, ← Bool.decide_or]
      simp only [List.mem_cons]
  unfold trimRegs
  split
  case isTrue hsafe =>
    refine ⟨.refl b, fun hs ht => absurd hsafe (by simp [hs, ht])⟩
  case isFalse => exact (hall l b hlow).imp_right fun h _ _ => h

/-! ### A TSV PLL hops where every row is closed (R305, R426, R448) -/

/-- Every row of the channels is closed. -/
def rowsShut (b : Block) : Prop := ∀ k : ChanId, ∀ m ∈ banksOf, (b.chans[k].bank m).row = none

theorem mget_map_row (f : Bank → Bank) (hf : ∀ y, (f y).row = y.row) (l : SMap Bank) (k : Nat) :
    (mget (l.map fun y => (y.1, f y.2)) k {}).row = (mget l k {}).row := by
  induction l with
  | nil => rfl
  | cons y l ih =>
    rw [List.map_cons, mget, mget]
    split
    · exact hf y.2
    · exact ih

theorem retime_row (old new : Nat) (x : Chan) (m : Nat) : ((retime old new x).bank m).row = (x.bank m).row :=
  mget_map_row (fun y => { y with
    tAct := y.tAct.map fun t => x.cycle - (x.cycle - t) * old / new
    tPre := y.tPre.map fun t =>
      if t ≤ x.cycle then x.cycle - (x.cycle - t) * old / new else x.cycle + ceilDiv ((t - x.cycle) * old) new
    tRd := y.tRd.map fun t => x.cycle - (x.cycle - t) * old / new
    tWr := y.tWr.map fun t => x.cycle - (x.cycle - t) * old / new
    tBusy := x.cycle + ceilDiv ((y.tBusy - x.cycle) * old) new }) (fun _ => rfl) x.banks m

theorem closeAll_shut (c : Nat) (h : rowsShut s.blk) : closeAll c s = s :=
  foldl_fix _ _ _ fun m hm => if_neg (by simp [h (cid c) m hm, -Fin.getElem_fin])

/-- The channels of quadrant `q` that take the new clock. -/
def hopped (q : QuadId) (b : Block) : List Nat :=
  (List.range 32).filter fun c => quadOf c == q && (b.chans[cid c].st == .run || b.chans[cid c].st == .powerdown)

/-- The channels of quadrant `q` with their waits on the new clock. -/
def retimed (q : QuadId) (op : BitVec 2) (b : Block) : Block :=
  (hopped q b).foldl (fun c k => modChan (cid k) (retime (commandMhz op.toNat) (commandMhz b.clk.tsvOps[q].toNat)) c) b

/-- The groups of quadrant `q` that are to be centred anew. -/
def uncentred (q : QuadId) (b : Block) : Block :=
  forAll 32 (fun c b => if quadOf c.val = q then modChan c (fun x => { x with centre := List.range 36 }) b else b) b

theorem retimed_shut (q : QuadId) (op : BitVec 2) (h : rowsShut b) : retimed q op b = { b with chans := (retimed q op b).chans }
    ∧ rowsShut (retimed q op b) ∧ ∀ k : ChanId, k.val / 8 ≠ q.val → (retimed q op b).chans[k] = b.chans[k] := by
  refine List.foldlRecOn (motive := fun c => c = { b with chans := c.chans } ∧ rowsShut c
    ∧ ∀ k : ChanId, k.val / 8 ≠ q.val → c.chans[k] = b.chans[k]) _ _ ⟨rfl, h, fun _ _ => rfl⟩
    fun c ⟨hrest, hrows, hsame⟩ i hi => ?_
  obtain ⟨hlt, hon⟩ := List.mem_filter.mp hi
  have hquad : (cid i).val / 8 = q.val := by
    have hid : (cid i).val = i := Nat.mod_eq_of_lt (List.mem_range.mp hlt)
    rw [← quadOf_iff, hid]
    exact beq_iff_eq.mp (Bool.and_eq_true_iff.mp hon).1
  refine ⟨by rw [hrest]; rfl, fun k m hm => ?_, fun k hk => ?_⟩
  · by_cases hki : k = cid i
    · rw [hki, modChan_same, retime_row]
      exact hrows (cid i) m hm
    · rw [modChan_other _ _ hki]
      exact hrows k m hm
  · rw [modChan_other _ _ fun hki => hk (by rw [hki]; exact hquad)]
    exact hsame k hk

theorem uncentred_chans (q : QuadId) (b : Block) : uncentred q b = { b with chans := (uncentred q b).chans }
    ∧ ∀ k : ChanId, (uncentred q b).chans[k]
      = if k.val / 8 = q.val then { b.chans[k] with centre := List.range 36 } else b.chans[k] := by
  refine forAll_each (I := fun c => c = { b with chans := c.chans }) (Pre := fun k c => c.chans[k] = b.chans[k])
    (Post := fun k c => c.chans[k] = if k.val / 8 = q.val then { b.chans[k] with centre := List.range 36 } else b.chans[k])
    rfl (fun _ => rfl) (fun k c hc hsame => ?_) (fun k j c hne hc => ?_)
  case refine_1 =>
    split
    case isTrue hin =>
      refine ⟨by rw [hc]; rfl, ?_⟩
      rw [modChan_same, hsame, if_pos ((quadOf_iff k q).mp hin)]
    case isFalse hout => exact ⟨hc, by rw [hsame, if_neg fun h => hout ((quadOf_iff k q).mpr h)]⟩
  case refine_2 =>
    have hother : (if quadOf k.val = q then modChan k (fun x => { x with centre := List.range 36 }) c else c).chans[j] = c.chans[j] := by
      split
      · exact modChan_other _ _ hne
      · rfl
    rw [hother]
    exact ⟨id, id⟩

theorem hopTsv_shut (q : QuadId) (op : BitVec 2) (h : rowsShut s.blk) :
    ∃ v : Vector Chan 32, hopTsv q op s = s.upd { s.blk with chans := v, clk := { s.blk.clk with tsvOps := s.blk.clk.tsvOps.set q op } }
      ∧ ∀ k : ChanId, (k.val / 8 = q.val → v[k].centre = List.range 36 ∧ ∀ m ∈ banksOf, (v[k].bank m).row = none)
        ∧ (k.val / 8 ≠ q.val → v[k] = s.blk.chans[k]) := by
  have hclosed : (hopped q s.blk).foldl (fun s c => closeAll c s) s = s := foldl_fix _ _ _ fun c _ => closeAll_shut c h
  have hrow : hopTsv q op s = s.upd { uncentred q (retimed q op s.blk) with
      clk := { (uncentred q (retimed q op s.blk)).clk with tsvOps := (uncentred q (retimed q op s.blk)).clk.tsvOps.set q op } } := by
    unfold hopTsv
    dsimp only
    rw [show ((List.range 32).filter fun c => quadOf c == q && (s.blk.chans[cid c].st == .run || s.blk.chans[cid c].st == .powerdown))
      = hopped q s.blk from rfl, hclosed]
    rfl
  obtain ⟨hnew, hrows, hout⟩ := retimed_shut q op h
  obtain ⟨hcentred, hchans⟩ := uncentred_chans q (retimed q op s.blk)
  generalize uncentred q (retimed q op s.blk) = u at *
  generalize retimed q op s.blk = r at *
  have hrest : u = { s.blk with chans := u.chans } := by
    rw [hcentred, hnew]
  refine ⟨u.chans, ?_, fun k => ⟨fun hk => ?_, fun hk => ?_⟩⟩
  · rw [hrow, hrest]
  · rw [hchans, if_pos hk]
    exact ⟨rfl, fun m hm => hrows k m hm⟩
  · rw [hchans, if_neg hk, hout k hk]

/-! ### PLL changes whose time has come -/

/-- The changes of `l` that are still to come at `t`. -/
def laterHops (t : Nat) (l : List Hop) : List Hop := l.filter fun h => decide (t < h.at_)

/-- The changes of `l` whose time has come at `t`. -/
def dueHops (t : Nat) (l : List Hop) : List Hop := l.filter fun h => decide (h.at_ ≤ t)

theorem dueHops_append (t : Nat) (l m : List Hop) : dueHops t (l ++ m) = dueHops t l ++ dueHops t m := List.filter_append ..

/-- Of a change in each quadrant from now on, that of quadrant 0 is due. -/
theorem dueHops_quad (link : Bool) (op : BitVec 2) (t : Nat) :
    dueHops t (quadHops link op t) = [{ at_ := t, link := link, quad := 0, op := op }] := by
  have hfin : List.finRange 4 = [0, 1, 2, 3] := rfl
  simp [dueHops, quadHops, hfin]

theorem dueHops_quad_later (link : Bool) (op : BitVec 2) {t u : Nat} (h : t < u) : dueHops t (quadHops link op u) = [] := by
  rw [dueHops, List.filter_eq_nil_iff]
  intro x hx
  obtain ⟨q, -, rfl⟩ := List.mem_map.mp hx
  simp only [decide_eq_true_eq]
  omega

/-- The block with the changes of `l` that are still to come. -/
def hopsLeft (b : Block) : Block := { b with clk := { b.clk with hops := laterHops b.now b.clk.hops } }

theorem hopsNow_eq (h : s.blk.clk.hops ≠ []) :
    hopsNow s = (dueHops s.blk.now s.blk.clk.hops).foldl takeHop (s.upd (hopsLeft s.blk)) := by
  have hlater : (s.blk.clk.hops.filter fun h => !decide (h.at_ ≤ s.blk.now)) = laterHops s.blk.now s.blk.clk.hops := by
    simp only [laterHops, ← decide_not, Nat.not_le]
  unfold hopsNow hopWhere
  dsimp only
  rw [if_neg h, hlater]
  rfl

theorem hopWhere_none {f : Hop → Bool} (h : s.blk.clk.hops = []) : hopWhere f s = s := if_pos h

theorem followRates_moved (hlow : reactionOf b (fs .lnkDegrade) ≤ 2) : LinksMoved b (followRates b)
    ∧ ∀ p, portOutcome (fun p => decide (b.ports[p].rate.toNat ≠ portRate p b)) b p (followRates b) :=
  recoverPorts_moved _ hlow

theorem hopLink_moved (q : QuadId) (op : BitVec 2) (hlow : reactionOf b (fs .lnkDegrade) ≤ 2) :
    LinksMoved { b with clk := { b.clk with rateOps := b.clk.rateOps.set q op } } (hopLink q op b) :=
  (followRates_moved (b := { b with clk := { b.clk with rateOps := b.clk.rateOps.set q op } }) hlow).1

/-! ### A step from its start on (R23, R426) -/

/-- The block after the start of a step, before the PLL changes that are due. -/
def stepBegun (x : SeqStep) (b : Block) : Block :=
  { b with clk := { b.clk with
      running := some x, queue := b.clk.queue.drop 1, startedAt := b.now, vddl := max b.clk.vddl (stepVddl b x)
      hops := stepHops b x } }

theorem startStep_eq (x : SeqStep) (hstate : s.blk.pwr.state = 0) (hpar : s.blk.regs.badPar = []) (hhops : s.blk.clk.hops = [])
    (hrun : s.blk.bst.run = none) : startStep x s = hopsNow (s.upd (stepBegun x s.blk)) := by
  have hready : hopWhere (fun _ => true) (exitPower (checked clkBase s)) = s := by
    rw [checked_good hpar, exitPower_P0 hstate, hopWhere_none hhops]
  have hcut : cutBist (fun t => t == 3 || t == 0x11) s.blk = s.blk := by
    rw [cutBist, hrun]
  unfold startStep
  dsimp only
  rw [hready, hcut, addHops, hhops, List.nil_append]
  rfl

theorem stepHops_due (b : Block) (x : SeqStep) : dueHops b.now (stepHops b x)
    = if rateFalls b x then [{ at_ := b.now, link := true, quad := 0, op := stepOp b x }]
      else if stepDown b x then [{ at_ := b.now, link := false, quad := 0, op := stepOp b x }] else [] := by
  unfold stepHops
  dsimp only
  rw [dueHops_append]
  split
  case isTrue => rw [dueHops_quad, dueHops_quad_later _ _ (by omega), List.append_nil]
  case isFalse =>
    split
    · rw [Nat.add_zero, dueHops_quad]
      rfl
    · rw [dueHops_quad_later _ _ (by omega)]
      rfl

theorem stepHops_some (b : Block) (x : SeqStep) : stepHops b x ≠ [] := by
  have hquad : ∀ t, quadHops false (stepOp b x) t ≠ [] := fun t => by simp [quadHops]
  exact fun h => hquad _ (List.append_eq_nil_iff.mp h).2

/-- What the start of a step comes to: its clocks and its PLL changes, and the channels and ports that they leave. -/
def stepRuns (x : SeqStep) (s t : State) : Prop :=
  let c := s.blk.clk
  let op := stepOp s.blk x
  let hops := rateFalls s.blk x = false ∧ stepDown s.blk x = true
  t.mem = s.mem ∧ t.pending = s.pending
    ∧ t.blk.clk = { c with
        running := some x, queue := c.queue.drop 1, startedAt := s.blk.now, vddl := max c.vddl (stepVddl s.blk x)
        hops := laterHops s.blk.now (stepHops s.blk x)
        rateOps := if rateFalls s.blk x then c.rateOps.set 0 op else c.rateOps
        tsvOps := if hops then c.tsvOps.set 0 op else c.tsvOps }
    ∧ (∀ k : ChanId,
        (k.val < 8 ∧ hops → t.blk.chans[k].centre = List.range 36 ∧ ∀ m ∈ banksOf, (t.blk.chans[k].bank m).row = none)
        ∧ (8 ≤ k.val ∨ ¬hops → t.blk.chans[k] = s.blk.chans[k]))
    ∧ (rateFalls s.blk x = false → t.blk.ports = s.blk.ports)

theorem startStep_runs (x : SeqStep) (hstate : s.blk.pwr.state = 0) (hpar : s.blk.regs.badPar = []) (hhops : s.blk.clk.hops = [])
    (hrun : s.blk.bst.run = none) (hshut : rowsShut s.blk) (hlow : reactionOf s.blk (fs .lnkDegrade) ≤ 2) :
    stepRuns x s (startStep x s) := by
  have hdue : dueHops (stepBegun x s.blk).now (stepBegun x s.blk).clk.hops = _ := stepHops_due s.blk x
  rw [startStep_eq x hstate hpar hhops hrun, hopsNow_eq (s := s.upd (stepBegun x s.blk)) (stepHops_some s.blk x)]
  rw [State.upd_blk, hdue]
  cases hfall : rateFalls s.blk x with
  | true =>
    rw [if_pos rfl, List.foldl_cons, List.foldl_nil]
    have hmoved := hopLink_moved (b := hopsLeft (stepBegun x s.blk)) 0 (stepOp s.blk x) hlow
    have hrow : takeHop ((s.upd (stepBegun x s.blk)).upd (hopsLeft (stepBegun x s.blk)))
        { at_ := s.blk.now, link := true, quad := 0, op := stepOp s.blk x }
      = s.upd (hopLink 0 (stepOp s.blk x) (hopsLeft (stepBegun x s.blk))) := rfl
    rw [hrow]
    generalize hopLink 0 (stepOp s.blk x) (hopsLeft (stepBegun x s.blk)) = t at *
    refine ⟨rfl, rfl, ?_, fun k => ⟨fun ⟨_, hno⟩ => absurd hfall (ne_true_of_eq_false hno.1), fun _ => ?_⟩,
      fun hno => absurd hfall (ne_true_of_eq_false hno)⟩
    · rw [if_pos hfall, if_neg fun h => absurd hfall (ne_true_of_eq_false h.1)]
      exact hmoved.clk.trans rfl
    · exact (congrArg (fun v : Vector Chan 32 => v[k]) hmoved.chans).trans rfl
  | false =>
    rw [if_neg (by decide)]
    cases hdown : stepDown s.blk x with
    | true =>
      rw [if_pos rfl, List.foldl_cons, List.foldl_nil]
      obtain ⟨v, hrow, hchans⟩ := hopTsv_shut (s := (s.upd (stepBegun x s.blk)).upd (hopsLeft (stepBegun x s.blk))) 0
        (stepOp s.blk x) hshut
      have hhop : takeHop ((s.upd (stepBegun x s.blk)).upd (hopsLeft (stepBegun x s.blk)))
        { at_ := s.blk.now, link := false, quad := 0, op := stepOp s.blk x } = _ := hrow
      rw [hhop]
      have hquad (k : ChanId) : k.val < 8 ↔ k.val / 8 = (0 : QuadId).val := by
        change _ ↔ k.val / 8 = 0
        omega
      refine ⟨rfl, rfl, ?_, fun k => ⟨fun ⟨hk, _⟩ => (hchans k).1 ((hquad k).mp hk), ?_⟩, fun _ => rfl⟩
      · rw [if_neg (ne_true_of_eq_false hfall), if_pos ⟨hfall, hdown⟩]
        rfl
      · rintro (hk | hno)
        · exact (hchans k).2 fun h => absurd ((hquad k).mpr h) (Nat.not_lt.mpr hk)
        · exact absurd ⟨hfall, hdown⟩ hno
    | false =>
      rw [if_neg (by decide), List.foldl_nil]
      have hno : ¬ (rateFalls s.blk x = false ∧ stepDown s.blk x = true) := fun h => absurd h.2 (ne_true_of_eq_false hdown)
      refine ⟨rfl, rfl, ?_, fun k => ⟨fun ⟨_, hhops⟩ => absurd hhops hno, fun _ => rfl⟩, fun _ => rfl⟩
      rw [if_neg (ne_true_of_eq_false hfall), if_neg hno]
      rfl

/-! ### The end of a step (R425, R426, R445) -/

/-- The block with the point of a step in force. -/
def stepFinished (x : SeqStep) (b : Block) : Block :=
  let c := { b.clk with op := stepOp b x, vddl := stepVddl b x }
  { b with clk := match x with
      | .op _ => c
      | .ratio m tsv div => { c with ratio := m, tsvDiv := tsv, mgmtDiv := div }
      | .clken _ => c }

theorem stepFinished_clk (x : SeqStep) (b : Block) : (stepFinished x b).clk.op = stepOp b x
    ∧ (stepFinished x b).clk.vddl = stepVddl b x ∧ (stepFinished x b).clk.queue = b.clk.queue
    ∧ (stepFinished x b).clk.hops = b.clk.hops
    ∧ (stepFinished x b).clk.rateOps = b.clk.rateOps ∧ (stepFinished x b).clk.tsvOps = b.clk.tsvOps := by
  cases x <;> exact ⟨rfl, rfl, rfl, rfl, rfl, rfl⟩

/-- The regulators' trim at the end of a step. -/
def stepTrimmed (l : List Nat) (x : SeqStep) (b : Block) : Block := if stepTrims x then trimRegs l b else b

theorem stepTrimmed_trimmed (l : List Nat) (x : SeqStep) (hlow : reactionOf b (fs .calDegrade) ≤ 2) : Trimmed b (stepTrimmed l x b) := by
  unfold stepTrimmed
  split
  · exact (trimRegs_trimmed l hlow).1
  · exact .refl b

theorem emit_trimmed (mask : BitVec 16) (e : Ev) (b : Block) : Trimmed b (emit mask e b) ∧ (emit mask e b).cal = b.cal := by
  obtain ⟨hrest, hports⟩ := quietly_emit mask e b
  have hsage := emit_sage (b := b) mask e
  refine ⟨⟨?_, congrArg Sage.react hsage, congrArg Sage.safe hsage, hports⟩, (congrArg Block.cal hrest).trans rfl⟩
  rw [hrest]

/-- The step is over, and the lane rates may rise. -/
def stepOver (b : Block) : Block := addHops (quadHops true b.clk.op b.now) { b with clk := { b.clk with running := none } }

theorem stepEnd_eq (l : List Nat) (hrun : s.blk.clk.running = some x) (hhops : s.blk.clk.hops = []) : ∃ e : Ev,
    let u := hopsNow (s.upd (stepOver (emit allMask e (stepTrimmed l x (stepFinished x s.blk)))))
    stepEnd l s = u.upd (commitClk u.blk) := by
  have hfinish : finishStep x s = s.upd (stepFinished x s.blk) := by
    unfold finishStep
    rw [hopWhere_none hhops]
    rfl
  unfold stepEnd
  rw [hrun]
  dsimp only
  rw [hfinish]
  exact ⟨_, rfl⟩

theorem applyClk_nil (b : Block) : applyClk [] b = b := rfl

theorem commitClk_none (h : ∀ w ∈ b.regs.pend, baseOf w.addr ≠ clkBase ∧ baseOf w.addr ≠ pwrBase) : commitClk b = b := by
  have hclk : pendingAt clkBase b = false := by simpa [pendingAt] using fun w hw => (h w hw).1
  have hpwr : pendingAt pwrBase b = false := by simpa [pendingAt] using fun w hw => (h w hw).2
  rw [commitClk, takePend_none hclk, takePend_none hpwr]
  exact applyClk_nil b

/-- The end of a step where no clock or power register waits: its point is in force, and quadrant 0 takes its lane rate. -/
theorem stepEnd_done (l : List Nat) (hrun : s.blk.clk.running = some x) (hhops : s.blk.clk.hops = [])
    (hpend : ∀ w ∈ s.blk.regs.pend, baseOf w.addr ≠ clkBase ∧ baseOf w.addr ≠ pwrBase)
    (hlnk : reactionOf s.blk (fs .lnkDegrade) ≤ 2) (hcal : reactionOf s.blk (fs .calDegrade) ≤ 2) :
    ∃ t, stepEnd l s = s.upd t ∧ t.chans = s.blk.chans ∧ t.cal = (stepTrimmed l x (stepFinished x s.blk)).cal
      ∧ t.clk = { (stepFinished x s.blk).clk with
          running := none, rateOps := s.blk.clk.rateOps.set 0 (stepOp s.blk x)
          hops := laterHops s.blk.now (quadHops true (stepOp s.blk x) s.blk.now) } := by
  obtain ⟨e, hrow⟩ := stepEnd_eq l hrun hhops
  have htrim := stepTrimmed_trimmed (b := stepFinished x s.blk) l x hcal
  obtain ⟨hemit, hcalSame⟩ := emit_trimmed allMask e (stepTrimmed l x (stepFinished x s.blk))
  have hmoved := htrim.trans hemit
  generalize emit allMask e (stepTrimmed l x (stepFinished x s.blk)) = u at *
  obtain ⟨hop, -, -, hnone, hrates, -⟩ := stepFinished_clk x s.blk
  have hclk : u.clk = (stepFinished x s.blk).clk := by rw [hmoved.rest]
  have hnow : (stepOver u).now = s.blk.now := (congrArg Block.now hmoved.rest).trans rfl
  have hhops' : (stepOver u).clk.hops = quadHops true (stepOp s.blk x) s.blk.now := by
    have hnow' : u.now = s.blk.now := hnow
    rw [stepOver, addHops, hnow', hclk, hop, hnone, hhops]
    rfl
  have hdue : dueHops (stepOver u).now (stepOver u).clk.hops
      = [{ at_ := s.blk.now, link := true, quad := 0, op := stepOp s.blk x }] := by
    rw [hhops', hnow, dueHops_quad]
  have hlow : reactionOf (hopsLeft (stepOver u)) (fs .lnkDegrade) ≤ 2 := (reactionOf_congr hmoved.react _).trans_le hlnk
  have hlink := hopLink_moved (b := hopsLeft (stepOver u)) 0 (stepOp s.blk x) hlow
  have hleft : (hopsLeft (stepOver u)).clk = { u.clk with
      running := none, hops := laterHops s.blk.now (quadHops true (stepOp s.blk x) s.blk.now) } := by
    rw [hopsLeft, hnow, hhops']
    rfl
  have hhop : hopsNow (s.upd (stepOver u)) = s.upd (hopLink 0 (stepOp s.blk x) (hopsLeft (stepOver u))) := by
    have hsome : (s.upd (stepOver u)).blk.clk.hops ≠ [] := by
      rw [State.upd_blk, hhops']
      simp [quadHops]
    rw [hopsNow_eq hsome, State.upd_blk, hdue]
    rfl
  rw [hhop] at hrow
  dsimp only at hrow
  rw [State.upd_blk] at hrow
  generalize hopLink 0 (stepOp s.blk x) (hopsLeft (stepOver u)) = t at *
  have hwaits : t.regs.pend = s.blk.regs.pend := by
    rw [hlink.rest]
    exact (congrArg (fun b => b.regs.pend) hmoved.rest).trans rfl
  rw [commitClk_none (by rw [hwaits]; exact hpend)] at hrow
  refine ⟨t, hrow, ?_, ?_, ?_⟩
  · rw [hlink.chans]
    exact (congrArg Block.chans hmoved.rest).trans rfl
  · rw [hlink.cal]
    exact hcalSame
  · rw [hlink.clk]
    dsimp only
    rw [hleft, hclk]
    dsimp only
    rw [hrates]
    rfl

/-! ### Source selects and clock enables (R420, R431, R433) -/

/-- The block with nothing waiting. -/
def noneWaits (b : Block) : Block := { b with regs := { b.regs with pend := [] } }

theorem takePend_single {base : Nat} {w : PendWr} (hpend : b.regs.pend = [w]) (hbase : baseOf w.addr = base) (hgood : w.good = true) :
    takePend base b = ([w], noneWaits b) := by
  simp [takePend, hpend, hbase, hgood, noneWaits]

theorem commitClk_single {w : PendWr} (hpend : b.regs.pend = [w]) (hbase : baseOf w.addr = clkBase) (hgood : w.good = true) :
    commitClk b = applyClk [w] (noneWaits b) := by
  rw [commitClk, takePend_single hpend hbase hgood]
  dsimp only
  rw [takePend_none (by simp [pendingAt, noneWaits])]
  rfl

theorem applyClk_single {w : PendWr} (h : w.addr ≠ clkBase ∧ w.addr ≠ clkBase + 4 ∧ w.addr ≠ clkBase + 0x18) :
    applyClk [w] b = commitClkReg w b := by
  simp [applyClk, h]

theorem commitSrc_dropped {w : Word} (hproven : b.clk.proven = false) (hask : w &&& ~~~(rw (clkBase + 8) b) ≠ 0) :
    commitSrc w b = rcSet (clkBase + 0x14) 0 b := by
  simp only [commitSrc, hproven, bne_iff_ne.mpr hask, Bool.not_false, Bool.and_self, if_true]

theorem commitSrc_proven (w : Word) (hproven : b.clk.proven = true) :
    commitSrc w b = followRates (applySources (setLive (clkBase + 8) w b)) := by
  simp [commitSrc, hproven]

/-- The block with the source select `w` in force, before the ports follow. -/
def sourceSelected (w : Word) (b : Block) : Block :=
  { setLive (clkBase + 8) w b with
    clk := { b.clk with srcEff := BitVec.ofNat 3 (wfield w 2 0) }
    iosc := !(BitVec.ofNat 3 (wfield w 2 0)).getLsbD 0 }

theorem sourceSelected_eq (w : Word) (hproven : b.clk.proven = true) :
    applySources (setLive (clkBase + 8) w b) = sourceSelected w b := by
  have hsel : selected (setLive (clkBase + 8) w b) = BitVec.ofNat 3 (wfield w 2 0) := by
    rw [selected, rwf, rw_setLive_same]
  rw [applySources_proven (b := setLive (clkBase + 8) w b) hproven, hsel]
  rfl

theorem seqIdle_iff : seqIdle b = true ↔ b.clk.running = none ∧ b.clk.queue = [] := by
  simp [seqIdle]

theorem srcCommit_single {w : PendWr} (hidle : seqIdle b = true) (hpend : b.regs.pend = [w]) (haddr : w.addr = clkBase + 8)
    (hgood : w.good = true) : srcCommit b = commitSrc w.value (noneWaits b) := by
  have hwaits : clkWaits (clkBase + 8) b = true := by simp [clkWaits, hpend, haddr]
  rw [srcCommit, hidle, hwaits, Bool.and_self, if_pos rfl, commitClk_single hpend (by rw [haddr]; decide) hgood,
    applyClk_single (by rw [haddr]; decide), commitClkReg, if_pos haddr]

/-- What the end of the gates' wait leaves running (R433, R512). -/
def gatesKept (busy : BitVec 15) (b : Block) : BitVec 15 :=
  b.clk.gateWait &&& (busy ||| fabricBusy b ||| if b.bst.run.isSome then 0x1000 else 0)

/-- The block after a clock enable has changed, before the engines follow. -/
def enablesSet (w : Word) (b : Block) : Block :=
  let old := rw (clkBase + 0x20) b
  let b := setLive (clkBase + 0x20) w b
  { b with clk := { b.clk with gateWait := (b.clk.gateWait ||| BitVec.ofNat 15 old.toNat) &&& ~~~(BitVec.ofNat 15 w.toNat) } }

theorem runClken_eq (w : Word) (b : Block) : runClken w b = gateEngines (enablesSet w b) := rfl

/-- What CLKEN_RUN_COMMIT does once a change has run. -/
def gatesEnd (busy : BitVec 15) (b : Block) : Block := if b.clk.gateWait = 0 then b else endGates busy b

/-- The unit of an engine is off, so the engine is held. -/
theorem heldNow_gated (hstate : b.pwr.state = 0) (hwait : b.clk.gateWait = 0) (e : EngId)
    (hoff : (rw (clkBase + 0x20) b).getLsbD (8 + e.val / 8) = false) : heldNow b e.val = true := by
  have hgated : engGated b e.val = true := by
    have hbit : (BitVec.ofNat 15 (rw (clkBase + 0x20) b).toNat).getLsbD (8 + e.val / 8) = false := by
      rw [BitVec.getLsbD_ofNat, BitVec.testBit_toNat, hoff, Bool.and_false]
    have hunits : unitsIn b b.pwr.state.toNat = BitVec.ofNat 15 (rw (clkBase + 0x20) b).toNat := by
      rw [hstate]
      rfl
    rw [engGated, unitRuns, hunits, hbit, hwait]
    simp
  rw [heldNow, hgated]
  simp

theorem gatedSt_run {x : Eng} (h : x.st = .run) : gatedSt true x = .held := by
  simp [gatedSt, holdEngine, h]

theorem gatedSt_on {held : Bool} {x : Eng} (h : x.st = .run) : gatedSt held x = .run ∨ gatedSt held x = .held := by
  cases held <;> simp [gatedSt, holdEngine, h]

theorem gatedSt_stays {x : Eng} (h : x.st = .run ∨ x.st = .held) : gatedSt true x = .held := by
  rcases h with h | h <;> simp [gatedSt, holdEngine, h]

/-- A refused gate is told, and its fault recorded. -/
theorem refuseGate_moved (units : BitVec 15) (hlow : reactionOf b (fs .gateBusy) ≤ 2) : LinksMoved b (refuseGate units b)
    ∧ (rcGet (clkBase + 0x14) (refuseGate units b)).getLsbD 1 = true := by
  have hmoved := (raise_moved (b := rcSet (clkBase + 0x14) 1 b) (src := fs .gateBusy) (unit := 0x5C)
    (detail := BitVec.ofNat 32 (((List.range 15).find? fun i => units.getLsbD i).getD 0)) [] hlow).1
  exact ⟨(rcSet_moved 0 _ _ b).moved.trans hmoved, hmoved.bits _ _ (rcGet_rcSet_bit (i := 1) _ _ (by decide))⟩

/-- The block after a clock enable has changed, with the engines that follow. -/
def gatedBy (w : Word) (b : Block) : Block := gateEngines (enablesSet w b)

/-- The gates that a clock enable leaves waiting. -/
def gatesOff (w : Word) (b : Block) : BitVec 15 :=
  (b.clk.gateWait ||| BitVec.ofNat 15 (rw (clkBase + 0x20) b).toNat) &&& ~~~(BitVec.ofNat 15 w.toNat)

/-- The gates that stay open for a unit that is busy, or at an open transfer, and for the BIST controller in a run. -/
def gatesOpen (busy : BitVec 15) (w : Word) (b : Block) : BitVec 15 :=
  gatesOff w b &&& (busy ||| fabricBusy b ||| if b.bst.run.isSome then 0x1000 else 0)

theorem gatedBy_moved (w : Word) (hpend : b.regs.pend = []) : EnginesMoved (enablesSet w b) (gatedBy w b)
    ∧ (gatedBy w b).regs = (enablesSet w b).regs ∧ (gatedBy w b).clk = (enablesSet w b).clk
    ∧ ∀ e : EngId, (gatedBy w b).engs[e].st = gatedSt (heldNow (enablesSet w b) e.val) b.engs[e] := by
  have hnone : (enablesSet w b).regs.pend = [] := hpend
  have hmoved := gateEngines_moved (b := enablesSet w b) (by simp [hnone])
  obtain ⟨-, heach⟩ := gateEngines_quiet hnone
  refine ⟨hmoved, hmoved.quiet hnone, ?_, heach⟩
  exact (congrArg Block.clk hmoved.rest).trans rfl

theorem rw_enablesSet (w : Word) (b : Block) : rw (clkBase + 0x20) (enablesSet w b) = w := rw_setLive_same _ _ _

/-- What CLKEN_RUN_COMMIT leaves of a change that ran in P0 with nothing waiting. -/
structure Gated (busy : BitVec 15) (w : Word) (b t : Block) : Prop where
  pend : t.regs.pend = []
  live : rw (clkBase + 0x20) t = w ||| (gatesOpen busy w b).zeroExtend 32
  queue : t.clk.queue = b.clk.queue
  waits : t.clk.gateWait = 0
  told : gatesOpen busy w b ≠ 0 → (rcGet (clkBase + 0x14) t).getLsbD 1 = true
  engs : ∀ e : EngId, b.engs[e].st = .run → (rw (clkBase + 0x20) t).getLsbD (8 + e.val / 8) = false → t.engs[e].st = .held

theorem gatesEnd_idle (busy : BitVec 15) (w : Word) (hstate : b.pwr.state = 0) (hpend : b.regs.pend = []) (hoff : gatesOff w b = 0) :
    Gated busy w b (gatesEnd busy (gatedBy w b)) := by
  obtain ⟨hmoved, hregs, hclk, hengs⟩ := gatedBy_moved w hpend
  have hwait : (gatedBy w b).clk.gateWait = 0 := by
    rw [hclk]
    exact hoff
  have hopen : gatesOpen busy w b = 0 := by
    rw [gatesOpen, hoff]
    exact BitVec.zero_and
  have hrw : rw (clkBase + 0x20) (gatedBy w b) = w := by
    rw [rw, hregs]
    exact rw_enablesSet w b
  rw [gatesEnd, if_pos hwait]
  refine ⟨by rw [hregs]; exact hpend, ?_, by rw [hclk]; rfl, hwait, fun h => absurd hopen h, fun e hrun hbit => ?_⟩
  · rw [hopen, hrw]
    simp
  · rw [hengs, heldNow_gated (b := enablesSet w b) hstate hoff e, gatedSt_run hrun]
    rw [rw_enablesSet, ← hrw]
    exact hbit

/-- The block at the end of the gates' wait, before the engines follow: `keep` runs on. -/
def gatesClosed (keep : BitVec 15) (w : Word) (b : Block) : Block :=
  let b := if keep = 0 then b else refuseGate keep (setLive (clkBase + 0x20) w b)
  { b with clk := { b.clk with gateWait := 0, linkLock := b.clk.linkLock &&& BitVec.ofNat 4 w.toNat } }

theorem gatesClosed_keeps {keep : BitVec 15} {w : Word} (hlive : keep = 0 → rw (clkBase + 0x20) b = w)
    (hlow : reactionOf b (fs .gateBusy) ≤ 2) :
    (gatesClosed keep w b).engs = b.engs ∧ (gatesClosed keep w b).pwr = b.pwr ∧ (gatesClosed keep w b).regs.pend = b.regs.pend
      ∧ rw (clkBase + 0x20) (gatesClosed keep w b) = w ∧ (gatesClosed keep w b).clk.queue = b.clk.queue
      ∧ (gatesClosed keep w b).clk.gateWait = 0
      ∧ (keep ≠ 0 → (rcGet (clkBase + 0x14) (gatesClosed keep w b)).getLsbD 1 = true) := by
  unfold gatesClosed
  split
  case isTrue hzero => exact ⟨rfl, rfl, rfl, hlive hzero, rfl, rfl, fun h => absurd hzero h⟩
  case isFalse hsome =>
    obtain ⟨hmoved, hbit⟩ := refuseGate_moved (b := setLive (clkBase + 0x20) w b) keep hlow
    dsimp only
    generalize refuseGate keep (setLive (clkBase + 0x20) w b) = t at *
    have hlives : t.regs.live = (setLive (clkBase + 0x20) w b).regs.live := by rw [hmoved.rest]
    refine ⟨by rw [hmoved.rest]; rfl, by rw [hmoved.rest]; rfl, by rw [hmoved.rest]; rfl, ?_, by rw [hmoved.clk]; rfl, rfl,
      fun _ => hbit⟩
    exact (congrArg (fun l : SMap Word => mget l (clkBase + 0x20) (rwReset (clkBase + 0x20))) hlives).trans (rw_setLive_same _ _ b)

theorem gatesEnd_waits (busy : BitVec 15) (w : Word) (hstate : b.pwr.state = 0) (hpend : b.regs.pend = []) (hoff : gatesOff w b ≠ 0)
    (hlow : reactionOf b (fs .gateBusy) ≤ 2) : Gated busy w b (gatesEnd busy (gatedBy w b)) := by
  obtain ⟨hmoved, hregs, hclk, hengs⟩ := gatedBy_moved w hpend
  have hsage : (gatedBy w b).sage = b.sage := (congrArg Block.sage hmoved.rest).trans rfl
  have hpwr : (gatedBy w b).pwr = b.pwr := (congrArg Block.pwr hmoved.rest).trans rfl
  have hfabric : (gatedBy w b).fabric = b.fabric := (congrArg Block.fabric hmoved.rest).trans rfl
  have hbst : (gatedBy w b).bst = b.bst := (congrArg Block.bst hmoved.rest).trans rfl
  generalize gatedBy w b = g at *
  have hwait : g.clk.gateWait = gatesOff w b := by
    rw [hclk]
    rfl
  have hrw : rw (clkBase + 0x20) g = w := by
    rw [rw, hregs]
    exact rw_enablesSet w b
  have hkeep : (g.clk.gateWait &&& (busy ||| fabricBusy g ||| if g.bst.run.isSome then 0x1000 else 0)) = gatesOpen busy w b := by
    rw [hwait, fabricBusy, hfabric, hbst]
    rfl
  have hrow : gatesEnd busy g = gateEngines (gatesClosed (gatesOpen busy w b) (w ||| (gatesOpen busy w b).zeroExtend 32) g) := by
    rw [gatesEnd, if_neg (by rw [hwait]; exact hoff)]
    unfold endGates
    dsimp only
    rw [hkeep, hrw]
    rfl
  obtain ⟨cengs, cpwr, cpend, clive, cqueue, cwait, ctold⟩ := gatesClosed_keeps (b := g) (keep := gatesOpen busy w b)
    (w := w ||| (gatesOpen busy w b).zeroExtend 32) (fun hzero => by rw [hrw, hzero]; simp)
    ((reactionOf_congr (congrArg Sage.react hsage) _).trans_le hlow)
  rw [hrow]
  generalize gatesClosed (gatesOpen busy w b) (w ||| (gatesOpen busy w b).zeroExtend 32) g = c at *
  have hnone : c.regs.pend = [] := by
    rw [cpend, hregs]
    exact hpend
  obtain ⟨hrest, heach⟩ := gateEngines_quiet hnone
  generalize gateEngines c = t at *
  have tregs : t.regs = c.regs := by rw [hrest]
  have tclk : t.clk = c.clk := by rw [hrest]
  refine ⟨by rw [tregs, hnone], ?_, ?_, by rw [tclk, cwait], fun h => ?_, fun e hrun hbit => ?_⟩
  · rw [rw, tregs]
    exact clive
  · rw [tclk, cqueue, hclk]
    rfl
  · rw [rcGet, tregs]
    exact ctold h
  · rw [rw, tregs] at hbit
    rw [heach, heldNow_gated (by rw [cpwr, hpwr, hstate]) cwait e hbit, cengs]
    exact gatedSt_stays (by rw [hengs]; exact gatedSt_on hrun)

theorem gatesEnd_gated (busy : BitVec 15) (w : Word) (hstate : b.pwr.state = 0) (hpend : b.regs.pend = [])
    (hlow : reactionOf b (fs .gateBusy) ≤ 2) : Gated busy w b (gatesEnd busy (gatedBy w b)) := by
  by_cases hoff : gatesOff w b = 0
  · exact gatesEnd_idle busy w hstate hpend hoff
  · exact gatesEnd_waits busy w hstate hpend hoff hlow

/-- A clock enable that waits commits and runs with the sequencer idle. -/
theorem clkenCommit_pending {w : PendWr} (busy : BitVec 15) (hstate : s.blk.pwr.state = 0) (hidle : seqIdle s.blk = true)
    (hpend : s.blk.regs.pend = [w]) (haddr : w.addr = clkBase + 0x20) (hgood : w.good = true) :
    clkenCommit busy s = s.upd (gatesEnd busy (gatedBy w.value (noneWaits s.blk))) := by
  have hwaits : clkWaits (clkBase + 0x20) s.blk = true := by simp [clkWaits, hpend, haddr]
  have hrun : s.blk.clk.running.isSome = false := by rw [(seqIdle_iff.mp hidle).1]; rfl
  have hwake : wakeClken s = s := by rw [wakeClken, hwaits, if_pos rfl, exitPower_P0 hstate]
  have hbusy : ((noneWaits s.blk).pwr.state = 0 && seqIdle (noneWaits s.blk)) = true :=
    Bool.and_eq_true_iff.mpr ⟨decide_eq_true hstate, hidle⟩
  have hcommit : commitClk s.blk = gatedBy w.value (noneWaits s.blk) := by
    rw [commitClk_single hpend (by rw [haddr]; decide) hgood, applyClk_single (by rw [haddr]; decide), commitClkReg,
      if_neg (by rw [haddr]; decide), if_pos haddr, commitClken, hbusy, if_pos rfl]
    rfl
  unfold clkenCommit
  rw [hrun, hidle, if_neg (by decide), if_pos rfl, hwake]
  dsimp only
  rw [hidle, hwaits, hcommit, Bool.and_self, if_pos rfl, gatesEnd]

/-- The block with no step queued. -/
def noneQueued (b : Block) : Block := { b with clk := { b.clk with queue := [] } }

/-- A clock enable at the head of the queue runs with nothing waiting. -/
theorem clkenCommit_queued {w : Word} (busy : BitVec 15) (hstate : s.blk.pwr.state = 0) (hrun : s.blk.clk.running = none)
    (hqueue : s.blk.clk.queue = [.clken w]) (hpend : s.blk.regs.pend = []) (hsafe : s.blk.sage.safe = false)
    (hcool : s.blk.thm.safe = false) :
    clkenCommit busy s = s.upd (gatesEnd busy (gatedBy w (noneQueued s.blk))) := by
  have hidle : seqIdle s.blk = false := by simp [seqIdle, hqueue]
  have hstep : clkenStep s = s.upd (gatedBy w (noneQueued s.blk)) := by
    unfold clkenStep
    rw [hqueue]
    dsimp only
    rw [hsafe, hcool, if_neg (by decide), exitPower_P0 hstate]
    rfl
  obtain ⟨-, hregs, -, -⟩ := gatedBy_moved (b := (noneQueued s.blk)) w hpend
  have hwaits : clkWaits (clkBase + 0x20) (gatedBy w (noneQueued s.blk)) = false := by
    rw [clkWaits, hregs]
    exact (congrArg (fun l : List PendWr => l.any fun w => w.addr == clkBase + 0x20) hpend).trans rfl
  unfold clkenCommit
  rw [hrun, hidle, Option.isSome_none, if_neg (by decide), if_neg (by decide), hstep]
  dsimp only
  rw [State.upd_blk, hwaits, Bool.and_false, if_neg Bool.false_ne_true, State.upd_upd, gatesEnd]

end Sys2Proof.Machine
end

section
open Sys2Proof Sys2Proof.Machine

/-- Settles O51: the start of a step makes the PLL changes that are due, of which only quadrant 0's is (`startStep_runs`); its end
is an equation of the clocks (`stepEnd_done`); a source select and a clock enable commit alone (`srcCommit_single`,
`gatesEnd_gated`). -/
theorem sequencerSteps : Obligations.SequencerSteps := by
  unfold Obligations.SequencerSteps
  intro s hstate hpar hhops c free shut later
  refine ⟨fun x rest hqueue hfree hshut hlow => ?start, fun l hrun => ?none,
    fun x l hrun hpend hsafe hcool hlnk hcal => ?done, fun w hrun hqueue hpend haddr hgood hlow => ?source,
    fun busy w hrun hlow => ?gates⟩
  case start =>
    intro op hops runs
    obtain ⟨hrun, hsafe, hcool, hdone, hbist⟩ := hfree
    have hnext : nextStep s.blk = some x := by
      rw [nextStep, hrun, hsafe, hcool, hdone, hqueue]
      rfl
    have hruns : runs (startStep x s) := by
      obtain ⟨hmem, hpending, hclk, hchans, hports⟩ := startStep_runs x hstate hpar hhops hbist hshut hlow
      rw [hqueue] at hclk
      exact ⟨hmem, hpending, hclk, hchans, hports⟩
    have hother {y : SeqStep} (hy : nextStep s.blk = some y) : y = x := Option.some.inj (hy.symm.trans hnext)
    refine ⟨fun v hx => ?op, fun m tsv div hx => ?ratio, fun w hx => ?clken⟩
    all_goals
      subst hx
    case op =>
      have hop : execOpStep s = .next (startStep (.op v) s) := by
        rw [execOpStep, hnext]
      have hratio : execRatioModeChange s = .next s := by
        rw [execRatioModeChange, hnext]
      exact ⟨⟨_, hop, hruns⟩, hratio⟩
    case ratio =>
      have hop : execOpStep s = .next s := by
        rw [execOpStep, hnext]
      have hratio : execRatioModeChange s = if m && !ratioOk tsv.toNat div.toNat then .fault .ratioUndefined
          else .next (startStep (.ratio m tsv div) s) := by
        rw [execRatioModeChange, hnext]
      refine ⟨hop, fun hok => ⟨_, hratio.trans (if_neg ?_), hruns⟩, fun hm hbad => hratio.trans (if_pos ?_)⟩
      · rcases hok with h | h <;> simp [h]
      · simp [hm, hbad]
    case clken =>
      have hop : execOpStep s = .next s := by
        rw [execOpStep, hnext]
      have hratio : execRatioModeChange s = .next s := by
        rw [execRatioModeChange, hnext]
      exact ⟨hop, hratio⟩
  case none =>
    have hrow : stepEnd l s = s := by
      rw [stepEnd, hrun]
    exact congrArg Host.Outcome.next hrow
  case done =>
    intro op
    obtain ⟨t, hrow, hchans, hcals, hclk⟩ := stepEnd_done l hrun hhops hpend hlnk hcal
    obtain ⟨hop, hvddl, hqueue, -, -, htsv⟩ := stepFinished_clk x s.blk
    refine ⟨s.upd t, congrArg Host.Outcome.next hrow, rfl, ?_⟩
    rw [State.upd_blk, hclk, hcals]
    refine ⟨rfl, hqueue, hop, hvddl, htsv, rfl, rfl, hchans, fun m tsv div hx => ?_, fun v hx => ?_⟩
    · subst hx
      exact ⟨rfl, rfl, rfl, rfl⟩
    · subst hx
      have hbits := (trimRegs_trimmed (b := stepFinished (.op v) s.blk) l hcal).2 hsafe hcool
      exact ⟨rfl, hbits⟩
  case source =>
    intro old
    have hcommit : exec .clkSrcCommit s = .next (s.upd (commitSrc w.value (noneWaits s.blk))) :=
      congrArg (fun b => Host.Outcome.next (s.upd b)) (srcCommit_single (seqIdle_iff.mpr ⟨hrun, hqueue⟩) hpend haddr hgood)
    refine ⟨fun hproven => ?_, fun hproven hask => ?_⟩
    · rw [commitSrc_proven w.value (b := noneWaits s.blk) hproven] at hcommit
      have hsel := sourceSelected_eq w.value (b := noneWaits s.blk) hproven
      rw [hsel] at hcommit
      obtain ⟨hmoved, hall⟩ := followRates_moved (b := sourceSelected w.value (noneWaits s.blk)) hlow
      generalize followRates (sourceSelected w.value (noneWaits s.blk)) = t at *
      have hlive : t.regs.live = (sourceSelected w.value (noneWaits s.blk)).regs.live := by rw [hmoved.rest]
      refine ⟨_, hcommit, rfl, ?_, ?_, hmoved.clk, fun p => ⟨fun hdown => (hall p).2 (Or.inr hdown), fun hmay => ?_⟩⟩
      · rw [State.upd_blk, hmoved.rest]
        rfl
      · rw [State.upd_blk, rw, hlive]
        exact rw_setLive_same _ _ _
      · rw [State.upd_blk, hmoved.rate]
        by_cases hrate : s.blk.ports[p].rate.toNat = portRate p (sourceSelected w.value (noneWaits s.blk))
        · rw [(hall p).2 (Or.inl (decide_eq_false (not_not.mpr hrate)))]
          exact hrate
        · exact ((hall p).1 (decide_eq_true hrate) hmay).2
    · rw [commitSrc_dropped (b := noneWaits s.blk) hproven hask] at hcommit
      exact ⟨_, hcommit, rfl, rfl, rfl, rfl, rcGet_rcSet_bit (i := 0) _ _ (by decide)⟩
  case gates =>
    intro off bist keep gated
    have hdone {b : Block} (hb : Gated busy w b (gatesEnd busy (gatedBy w b)))
        (hrow : exec (.clkenRunCommit busy) s = .next (s.upd (gatesEnd busy (gatedBy w b)))) (hqueue : b.clk.queue = [])
        (hopen : gatesOpen busy w b = off &&& (busy ||| fabricBusy s.blk ||| bist)) (hengs : b.engs = s.blk.engs) : gated := by
      have hkeep : (gatesOpen busy w b).zeroExtend 32 = keep := by rw [hopen]
      generalize gatesEnd busy (gatedBy w b) = t at *
      refine ⟨_, hrow, rfl, hb.pend, hb.live.trans (by rw [hkeep]), hb.queue.trans hqueue, hb.waits, fun hsome => hb.told fun hzero => ?_,
        fun e hrun hbit => hb.engs e (by rw [hengs]; exact hrun) (by rw [hb.live, hkeep]; exact hbit)⟩
      exact hsome (by rw [← hkeep, hzero]; simp)
    refine ⟨fun v hqueue hpend haddr hvalue hgood => ?_, fun hqueue hpend hsafe hcool => ?_⟩
    · subst hvalue
      refine hdone (b := noneWaits s.blk) (gatesEnd_gated busy v.value hstate rfl hlow) ?_ hqueue rfl rfl
      exact congrArg Host.Outcome.next (clkenCommit_pending busy hstate (seqIdle_iff.mpr ⟨hrun, hqueue⟩) hpend haddr hgood)
    · refine hdone (b := noneQueued s.blk) (gatesEnd_gated busy w hstate hpend hlow) ?_ rfl rfl rfl
      exact congrArg Host.Outcome.next (clkenCommit_queued busy hstate hrun hqueue hpend hsafe hcool)

end

section
/-! SUPPORT. Bank machines, channels and engines change no clock, no power state, no sensor and no trim: what they leave of the stack,
whatever a fault on the way does (`spared`). -/

namespace Sys2Proof.Machine

open Sys2Proof

variable (b : Block) (s : State)

/-! ### Lines that a channel serves and stores -/

@[simp] theorem heatInc_spared (k : Nat) : spared (heatInc k b) = spared b := rfl

@[simp] theorem serveLine_spared (c k pseg : Nat) (host : Option Nat) : spared (serveLine c k pseg host b) = spared b := by
  unfold serveLine
  dsimp only
  split
  · rfl
  · split
    · rw [modEntry_spared]
      rfl
    · rfl

@[simp] theorem countEngLine_spared (id i : Nat) : spared (countEngLine id i b) = spared b := by
  unfold countEngLine
  split <;> rfl

@[simp] theorem countServed_spared (c : Nat) (e : Acc) : spared (countServed c e b) = spared b := by
  unfold countServed
  split
  case h_7 =>
    split
    · rfl
    · exact serveLine_spared _ _ _ _ _
  case h_8 => rfl
  all_goals simp only [countEngLine_spared, serveLine_spared]

@[simp] theorem countColumn_spared (c : Nat) (e : Acc) : spared (countColumn c e b) = spared b := by
  unfold countColumn
  dsimp only
  split
  case h_3 => rfl
  all_goals rw [countServed_spared, modChan_spared]

theorem noteForward_spared (c : Nat) (e : Acc) : spared (noteForward c e b) = spared b := by
  unfold noteForward
  split <;> rfl

theorem mirrorSoft_spared (c a : Nat) (v : Stored) : spared (mirrorSoft c a v s).blk = spared s.blk := by
  unfold mirrorSoft
  dsimp only
  split
  · rfl
  · split
    · rfl
    · split <;> rfl

theorem putLine_spared (c a : Nat) (v : Stored) : spared (putLine c a v s).blk = spared s.blk := by
  unfold putLine
  dsimp only
  rw [mirrorSoft_spared]
  split <;> rfl

theorem storeLine_spared (c : Nat) (e : Acc) : spared (storeLine c e s).blk = spared s.blk :=
  (noteForward_spared _ c e).trans (putLine_spared s c e.pla e.data)

theorem writeColumn_spared (c : Nat) (e : Acc) : spared (writeColumn c e s).blk = spared s.blk := by
  have hline : spared (storeLine c e (s.upd (countColumn c e (modChan (cid c) (dropEntry e) s.blk)))).blk = spared s.blk := by
    rw [storeLine_spared, State.upd_blk, countColumn_spared, modChan_spared]
  unfold writeColumn
  dsimp only
  generalize storeLine c e (s.upd (countColumn c e (modChan (cid c) (dropEntry e) s.blk))) = t at *
  split <;> exact hline

/-! ### Bank machines (R303) -/

@[simp] theorem tableFault_spared (c k : Nat) : spared (tableFault c k b) = spared b := raise_spared _ _ _ _ _

theorem bankAct_spared (c k act : Nat) (t : Sel) : spared (bankAct c k act t s).blk = spared s.blk := by
  unfold bankAct
  dsimp only
  split
  case h_2 =>
    rw [State.upd_blk, readColumn, countColumn_spared]
    rfl
  case h_3 => exact writeColumn_spared _ c _
  case h_6 =>
    split <;> rfl
  all_goals rfl

theorem bankEvent_spared (c k ev : Nat) (t : Sel) : spared (bankEvent c k ev t s).1.blk = spared s.blk := by
  unfold bankEvent
  dsimp only
  split
  · rfl
  split
  · exact tableFault_spared _ _ _
  split
  · split <;> rfl
  · have hact := bankAct_spared s c k (entAction (bankEntry s.blk c k ev)) t
    split
    · rw [State.upd_blk, tableFault_spared]
      exact hact
    · exact hact

theorem heldScan_spared (c k : Nat) (l : List (Nat × Option Nat × Option Nat)) : spared (heldScan c k l s).1.blk = spared s.blk := by
  induction l generalizing s with
  | nil => rfl
  | cons x l ih =>
    unfold heldScan
    dsimp only
    split
    · rfl
    split
    · exact bankEvent_spared _ _ _ _ _
    · exact (ih _).trans (bankEvent_spared _ _ _ _ _)

theorem bankHeld_spared (c k n : Nat) : spared (bankHeld c k n s).blk = spared s.blk := by
  induction n generalizing s with
  | zero => rfl
  | succ n ih =>
    have hscan := heldScan_spared (s.upd (modChan (cid c) (fun x => x.modBank k fun y => { y with heldEv := [] }) s.blk)) c k
      (s.blk.chans[cid c].bank k).heldEv
    unfold bankHeld
    dsimp only
    split
    · exact (ih _).trans hscan
    · exact hscan

@[simp] theorem fire_spared (c k ev : Nat) (t : Sel) : spared (fire c k ev t s).1.blk = spared s.blk := by
  unfold fire
  dsimp only
  split
  · exact (bankHeld_spared _ _ _ _).trans (bankEvent_spared _ _ _ _ _)
  · exact bankEvent_spared _ _ _ _ _

/-- What every turn of a loop over the state leaves, the loop leaves. -/
theorem foldl_spared {β : Type} {f : State → β → State} (h : ∀ t x, spared (f t x).blk = spared t.blk) (l : List β) :
    spared (l.foldl f s).blk = spared s.blk := foldl_keep (fun t : State => spared t.blk) f h l s

@[simp] theorem fireAll_spared (c ev : Nat) : spared (fireAll c ev s).blk = spared s.blk :=
  foldl_spared s (fun t _ => fire_spared t _ _ _ _) _

theorem closeAll_spared (c : Nat) : spared (closeAll c s).blk = spared s.blk := by
  refine foldl_spared s (fun t k => ?_) _
  split
  · exact fire_spared t _ _ _ _
  · rfl

theorem refreshNow_spared (c k : Nat) : spared (refreshNow c k s).blk = spared s.blk := by
  unfold refreshNow
  dsimp only
  rw [fire_spared]
  split
  · exact fire_spared s _ _ _ _
  · rfl

theorem settleBank_spared (c k : Nat) : spared (settleBank c k s).blk = spared s.blk := by
  unfold settleBank
  dsimp only
  rw [foldl_spared _ (fun t _ => refreshNow_spared t c k), State.upd_blk, modOwed, modChan_spared]
  split
  · rfl
  · rw [foldl_spared _ fun t _ => fire_spared t _ _ _ _]
    split
    · exact fire_spared s _ _ _ _
    · rfl

theorem settleBanks_spared (c : Nat) : spared (banksOf.foldl (fun s k => settleBank c k s) s).blk = spared s.blk :=
  foldl_spared s (fun t k => settleBank_spared t c k) _

theorem enterSelfRefresh_spared (c : Nat) : spared (enterSelfRefresh c s).blk = spared s.blk := by
  rw [enterSelfRefresh, fireAll_spared, closeAll_spared, settleBanks_spared]

theorem leaveSelfRefresh_spared (c : Nat) : spared (leaveSelfRefresh c s).blk = spared s.blk := by
  unfold leaveSelfRefresh
  split
  · rfl
  · exact fireAll_spared _ _ _

theorem wakeChans_spared (f : Nat → Bool) : spared (wakeChans f s).blk = spared s.blk := by
  unfold wakeChans
  split
  · rfl
  · refine foldl_spared s (fun t c => ?_) _
    split
    · exact leaveSelfRefresh_spared t c
    · rfl

theorem drawChan_spared (c : Nat) (raw : Bool) : spared (drawChan c raw b).2 = spared b := by
  unfold drawChan
  extract_lets x run bad v b1 b2
  have hfault : spared b2 = spared b1 := by
    unfold b2
    split
    · rw [raise_spared, rcSet_spared]
    · rfl
  exact hfault

theorem drawRow_spared (c k r : Nat) (raw : Bool) : spared (drawRow c k r raw b) = spared b := by
  unfold drawRow
  dsimp only
  split
  · rfl
  · split
    · exact drawChan_spared b c raw
    · exact drawChan_spared b c raw

theorem drawBanks_spared (c : Nat) (l : List Nat) (raws : List Bool) : spared (drawBanks c l raws b) = spared b := by
  induction l generalizing raws b with
  | nil => rfl
  | cons k l ih =>
    rw [drawBanks]
    split
    · exact ih _ _
    · rw [ih, modChan_spared, drawRow_spared]

theorem sinkPowerDown_spared (c : Nat) (raws : List Bool) : spared (sinkPowerDown c raws s).blk = spared s.blk := by
  rw [sinkPowerDown, fireAll_spared, closeAll_spared, settleBanks_spared, State.upd_blk, drawBanks_spared]

theorem sleepChan_spared (c : Nat) : spared (sleepChan c s).blk = spared s.blk := by
  unfold sleepChan
  split
  · rfl
  · exact sinkPowerDown_spared _ c _

theorem dozeChan_spared (c : Nat) : spared (dozeChan c s).blk = spared s.blk := by
  unfold dozeChan
  split
  · exact enterSelfRefresh_spared s c
  · rfl

/-! ### Engines that take pieces (R381, R396) -/

@[simp] theorem refillQueue_spared (e n : Nat) : spared (refillQueue e n b) = spared b := by
  induction n generalizing b with
  | zero => rfl
  | succ n ih =>
    rw [refillQueue]
    split
    · rfl
    · split
      · rfl
      · rw [ih, modEng_spared, modPiece_spared]

theorem selfFault_spared : spared (selfFault b) = spared b := by
  unfold selfFault
  split
  · rfl
  · rw [raise_spared]
    rfl

theorem parityFault_spared (a : Nat) : spared (parityFault a b) = spared b := by
  unfold parityFault
  split
  · exact selfFault_spared b
  · exact raise_spared _ _ _ _ _

theorem commitPlain_spared (base : Nat) : spared (commitPlain base b) = spared b := by
  have htake (l : List PendWr) (c : Block) : spared (l.foldl (fun b w => if w.good then b else parityFault w.addr b) c) = spared c := by
    refine foldl_keep spared _ (fun b w => ?_) l c
    split
    · rfl
    · exact parityFault_spared _ _
  exact (foldl_keep spared (fun b (w : PendWr) => setLive w.addr w.value b) (fun _ _ => rfl) _ _).trans (htake _ _)

theorem instanceStarts_spared (e : Nat) : spared (instanceStarts e b) = spared b := by
  unfold instanceStarts
  split
  · rfl
  · dsimp only
    split
    · rw [modEng_spared, commitPlain_spared]
    · exact commitPlain_spared b _

theorem startPieces_spared (e n : Nat) : spared (startPieces e n b) = spared b := by
  induction n generalizing b with
  | zero => rfl
  | succ n ih =>
    rw [startPieces]
    split
    · rfl
    · split
      · rw [ih, instanceStarts_spared, refillQueue_spared, modPiece_spared, modEng_spared]
      · rfl

@[simp] theorem kickEngine_spared (e : Nat) : spared (kickEngine e b) = spared b := by
  rw [kickEngine, startPieces_spared, refillQueue_spared]

@[simp] theorem gateEngines_spared : spared (gateEngines b) = spared b := by
  refine foldl_keep spared _ (fun c e => ?_) _ b
  split
  · rfl
  · split
    · rw [kickEngine_spared, modEng_spared]
    · rfl

/-! ### Ports that idle and wake (R170, R172) -/

theorem idleTransmit_spared (p : PortId) : spared (idleTransmit p b) = spared b := by
  unfold idleTransmit
  split
  · rfl
  · dsimp only
    split
    · exact lastFlits_spared _ _
    · rw [modPort_spared, lastFlits_spared]

theorem idlePorts_spared (n : Nat) : spared (idlePorts n b) = spared b := by
  refine forAll_keep b spared _ (fun p c => ?_)
  split
  · exact idleTransmit_spared c p
  · rfl

end Sys2Proof.Machine
end

section
/-! SUPPORT. Power states (R434 to R440): what an entry and an exit leave. -/

namespace Sys2Proof.Machine

open Sys2Proof

variable {b c t : Block} {s : State}

/-! ### Transmitters that idle (R170) -/

/-- From `b` to `t`, only ports have changed, and the counters of what they lost. -/
structure PortsIdled (b t : Block) : Prop where
  rest : t = { b with ports := t.ports, regs := { b.regs with ctr := t.regs.ctr } }
  ctrs : ∀ a, (∀ p : PortId, a ≠ lnkBase p.val + 0x28) → ctr a t = ctr a b

theorem PortsIdled.refl (b : Block) : PortsIdled b b := ⟨rfl, fun _ _ => rfl⟩

theorem PortsIdled.trans (h : PortsIdled b c) (k : PortsIdled c t) : PortsIdled b t :=
  ⟨by rw [k.rest, h.rest], fun a ha => (k.ctrs a ha).trans (h.ctrs a ha)⟩

theorem modPort_idled (p : PortId) (f : Port → Port) (b : Block) : PortsIdled b (modPort p f b) := ⟨rfl, fun _ _ => rfl⟩

theorem sendCmpl_idled (p : PortId) (tag : Nat) (st : Status) (kind handle : Nat) (b : Block) :
    PortsIdled b (sendCmpl p tag st kind handle b) := by
  unfold sendCmpl
  split
  · exact modPort_idled p _ b
  · exact (modPort_idled p (dropTag tag) b).trans ⟨rfl, fun a ha => ctr_ctrAdd_other (ha p)⟩

theorem checkFences_idled (p : PortId) (b : Block) : PortsIdled b (checkFences p b) := by
  unfold checkFences
  dsimp only
  exact List.foldlRecOn (motive := PortsIdled b) _ _ (modPort_idled p _ b) fun c hc f _ => hc.trans (sendCmpl_idled _ _ _ _ _ c)

theorem sendFlit_idled (p : PortId) (b : Block) : PortsIdled b (sendFlit p b) := by
  unfold sendFlit
  split
  · exact (modPort_idled p _ b).trans (checkFences_idled p _)
  · exact .refl b

theorem payFlits_idled (p : PortId) (n : Nat) (b : Block) : PortsIdled b (payFlits p n b) := by
  induction n generalizing b with
  | zero => exact .refl b
  | succ n ih =>
    unfold payFlits
    split
    · exact (sendFlit_idled p b).trans (ih _)
    · exact .refl b

theorem idleTransmit_idled (p : PortId) (b : Block) : PortsIdled b (idleTransmit p b) := by
  have hlast : PortsIdled b (lastFlits p b) := by
    unfold lastFlits
    split
    · exact (payFlits_idled p 70 b).trans (sendFlit_idled p _)
    · exact .refl b
  unfold idleTransmit
  split
  · exact .refl b
  · dsimp only
    split
    · exact hlast
    · exact hlast.trans (modPort_idled p _ _)

theorem idlePorts_idled (n : Nat) (b : Block) : PortsIdled b (idlePorts n b) := by
  refine List.foldlRecOn (motive := PortsIdled b) _ _ (.refl b) fun c hc p _ => ?_
  dsimp only
  split
  · exact hc.trans (idleTransmit_idled p c)
  · exact hc

/-! ### PLLs that go off (R432, R435) -/

/-- From `b` to `t`, only clocks and the stalls of channels have changed. -/
structure Stalled (b t : Block) : Prop where
  rest : t = { b with chans := t.chans, clk := t.clk }
  chans : ∀ k : ChanId, { t.chans[k] with stall := b.chans[k].stall } = b.chans[k]

theorem Stalled.refl (b : Block) : Stalled b b := ⟨rfl, fun _ => rfl⟩

theorem Stalled.trans (h : Stalled b c) (k : Stalled c t) : Stalled b t := by
  refine ⟨by rw [k.rest, h.rest], fun i => ?_⟩
  have hi := h.chans i
  have ki := k.chans i
  rw [← ki] at hi
  exact hi

theorem stallQuad_stalled (q : QuadId) (v : Bool) (b : Block) : Stalled b (stallQuad q v b) := by
  obtain ⟨hrest, hchans⟩ := stallQuad_eq q v b
  refine ⟨by rw [hrest], fun k => ?_⟩
  rw [hchans]
  split <;> rfl

theorem pllsGate_stalled (units : BitVec 15) (b : Block) : Stalled b (pllsGate units b) := by
  have hall : Stalled b (forAll 4 (fun q b => if units.toNat.testBit (4 + q.val) then b else stallQuad q true b) b) := by
    refine List.foldlRecOn (motive := Stalled b) _ _ (.refl b) fun c hc q _ => ?_
    dsimp only
    split
    · exact hc
    · exact hc.trans (stallQuad_stalled q true c)
  exact ⟨by rw [pllsGate, hall.rest], hall.chans⟩

theorem pllsOff_stalled (n : Nat) (b : Block) : Stalled b (pllsOff n b) := by
  have hgated : Stalled b (if n ≤ 1 then b else pllsGate (unitsIn b n) b) := by
    split
    · exact .refl b
    · exact pllsGate_stalled _ b
  unfold pllsOff
  dsimp only
  split
  · exact ⟨by rw [hgated.rest], hgated.chans⟩
  · exact hgated

/-- No quadrant's unit runs in P4 (R435). -/
theorem unitsIn_deep (b : Block) {i : Nat} (hi : i < 12) : (unitsIn b 4).toNat.testBit i = false := by
  have hmask : ∀ i : Fin 12, (0x7000 : Nat).testBit i.val = false := by decide
  change (_ &&& (0x7000 : BitVec 15)).toNat.testBit i = false
  rw [BitVec.toNat_and, Nat.testBit_land]
  exact Bool.and_eq_false_imp.mpr fun _ => hmask ⟨i, hi⟩

/-- P4 takes the quadrant PLLs off and lowers the voltages. -/
theorem pllsOff_deep (b : Block) : (pllsOff 4 b).clk.linkLock = 0 ∧ (pllsOff 4 b).clk.tsvLock = 0
    ∧ (pllsOff 4 b).clk.vddl = 600 ∧ (pllsOff 4 b).clk.vdds = 700 := by
  have hlink : BitVec.ofNat 4 (unitsIn b 4).toNat = 0#4 := by
    refine BitVec.eq_of_getLsbD_eq fun i hi => ?_
    rw [BitVec.getLsbD_ofNat, unitsIn_deep b (by omega), Bool.and_false, BitVec.getLsbD_zero]
  have htsv : BitVec.ofNat 4 ((unitsIn b 4).toNat / 16) = 0#4 := by
    refine BitVec.eq_of_getLsbD_eq fun i hi => ?_
    rw [BitVec.getLsbD_ofNat, Nat.testBit_div_two_pow (i := i) (n := 4), unitsIn_deep b (by omega), Bool.and_false, BitVec.getLsbD_zero]
  refine ⟨?_, ?_, rfl, rfl⟩
  · change _ &&& BitVec.ofNat 4 (unitsIn b 4).toNat = 0
    rw [hlink]
    exact BitVec.and_zero
  · change _ &&& BitVec.ofNat 4 ((unitsIn b 4).toNat / 16) = 0
    rw [htsv]
    exact BitVec.and_zero

/-! ### The entry of a state (R434 to R436, R438) -/

theorem useRegs_clean {base : Nat} (h : b.regs.badPar = []) : useRegs base b = b := by
  rw [useRegs, h]
  rfl

theorem enterPower_waits (busy : BitVec 15) (hpar : s.blk.regs.badPar = []) (hopen : refusing s.blk = false)
    (hbusy : isIdle s.blk = false ∨ s.blk.clk.running.isSome = true ∨ s.blk.clk.queue ≠ []) :
    enterPower busy s = s.upd (setLimit 4 s.blk) := by
  have hwait : (!isIdle s.blk || s.blk.clk.running.isSome || s.blk.clk.queue != []) = true := by
    rcases hbusy with h | h | h <;> simp [h]
  unfold enterPower
  dsimp only
  rw [useRegs_clean hpar, if_neg (ne_true_of_eq_false hopen), if_pos hwait]
  rfl

/-- The gates that the entry of P`n` closes on a unit that is busy or at an open transfer (R433). -/
def entryGates (busy : BitVec 15) (n : Nat) (b : Block) : BitVec 15 :=
  unitsIn b b.pwr.state.toNat &&& ~~~(unitsIn b n) &&& (busy ||| fabricBusy b)

theorem enterPower_idle (busy : BitVec 15) (hpar : s.blk.regs.badPar = []) (hopen : refusing s.blk = false)
    (hidle : isIdle s.blk = true) (hrun : s.blk.clk.running = none) (hqueue : s.blk.clk.queue = []) :
    enterPower busy s = if chooseState s.blk ≤ s.blk.pwr.state.toNat then s.upd (setLimit (limitOf s.blk s.blk.pwr.state.toNat) s.blk)
      else if entryGates busy (chooseState s.blk) s.blk ≠ 0 then
        s.upd (setLimit 5 (refuseGate (entryGates busy (chooseState s.blk) s.blk) s.blk))
      else enterState (chooseState s.blk) s := by
  unfold enterPower
  dsimp only
  rw [useRegs_clean hpar, if_neg (ne_true_of_eq_false hopen)]
  simp only [hidle, hrun, hqueue, Bool.not_true, Option.isSome_none, bne_self_eq_false, Bool.or_self, Bool.false_eq_true, if_false]
  rfl

theorem chooseState_le (b : Block) : chooseState b ≤ 4 := by
  unfold chooseState
  cases hfind : ([4, 3, 2, 1].filter fun n => n ≤ maxAllowed b).find? fun n => fitsQuiet b n && fitsEvent b n with
  | none => exact Nat.zero_le 4
  | some n =>
    have hmem : n ∈ [4, 3, 2, 1] := List.mem_of_mem_filter (List.mem_of_find?_eq_some hfind)
    have hall : ∀ n ∈ [4, 3, 2, 1], n ≤ 4 := by decide
    exact hall n hmem

/-- The block as the entry of P`n` finds its channels. -/
def stateTaken (n : Nat) (b : Block) : Block :=
  let c := ctrAdd (pwrBase + 0x1C + 4 * n) 1 (idlePorts n b)
  { c with pwr := { c.pwr with state := BitVec.ofNat 3 n, limit := limitOf c n } }

theorem stateTaken_keeps (n : Nat) (b : Block) : (stateTaken n b).chans = (idlePorts n b).chans
    ∧ (stateTaken n b).regs = (ctrAdd (pwrBase + 0x1C + 4 * n) 1 (idlePorts n b)).regs
    ∧ (stateTaken n b).regs.pend = (idlePorts n b).regs.pend := ⟨rfl, rfl, rfl⟩

/-- The channels of the entry of P`n`: those that enter self-refresh, and in P1 and P2 those that enter power-down. -/
def chansSleep (n : Nat) (s : State) : State :=
  let doze := if n = 1 then [] else if n = 2 then dozing (ctrAdd (pwrBase + 0x1C + 4 * n) 1 (idlePorts n s.blk)) else List.range 32
  let s := doze.foldl (fun s c => dozeChan c s) (s.upd (stateTaken n s.blk))
  if n ≤ 2 then (List.range 32).foldl (fun s c => sleepChan c s) s else s

theorem enterState_eq (n : Nat) (s : State) :
    enterState n s = (chansSleep n s).upd (setWake n (gateEngines (pllsOff n (chansSleep n s).blk))) := rfl

theorem chansSleep_spared (n : Nat) (s : State) : spared (chansSleep n s).blk = spared (stateTaken n s.blk) := by
  unfold chansSleep
  dsimp only
  split
  · rw [foldl_spared _ (fun t c => sleepChan_spared t c), foldl_spared _ (fun t c => dozeChan_spared t c)]
    rfl
  · rw [foldl_spared _ (fun t c => dozeChan_spared t c)]
    rfl

theorem nextKnown_setWake (n : Nat) (b : Block) : nextKnown (setWake n b) = nextKnown b := rfl

/-- The entry of P`n`, whatever its channels and engines meet on the way. -/
theorem enterState_taken {n : Nat} (hn : n ≤ 4) (s : State) : ∃ t, enterState n s = t ∧ t.blk.pwr.state.toNat = n
    ∧ (n = 4 → t.blk.clk.linkLock = 0 ∧ t.blk.clk.tsvLock = 0 ∧ t.blk.clk.vddl = 600 ∧ t.blk.clk.vdds = 700)
    ∧ t.blk.pwr.wakeAt = if n ≥ 3 then (nextKnown t.blk).map fun e => t.blk.now + e.2 else none := by
  have hslept := chansSleep_spared n s
  have hoff := pllsOff_stalled n (chansSleep n s).blk
  have hdeep := pllsOff_deep (chansSleep n s).blk
  have hgated := gateEngines_spared (pllsOff n (chansSleep n s).blk)
  refine ⟨_, enterState_eq n s, ?_⟩
  rw [State.upd_blk, nextKnown_setWake]
  generalize (chansSleep n s).blk = u at *
  have hpwr : (pllsOff n u).pwr = u.pwr := by rw [hoff.rest]
  have hsame : u.pwr = (stateTaken n s.blk).pwr := (congrArg Block.pwr hslept).trans rfl
  generalize hg : gateEngines (pllsOff n u) = g at *
  refine ⟨?_, fun hn => ?_, rfl⟩
  · have hstate : g.pwr = (stateTaken n s.blk).pwr := ((congrArg Block.pwr hgated).trans hpwr).trans hsame
    rw [setWake, hstate]
    exact (BitVec.toNat_ofNat n 3).trans (Nat.mod_eq_of_lt (by omega))
  · subst hn
    obtain ⟨hlink, htsv, hvddl, hvdds⟩ := hdeep
    exact ⟨(congrArg (fun b : Block => b.clk.linkLock) hgated).trans hlink, (congrArg (fun b : Block => b.clk.tsvLock) hgated).trans htsv,
      (congrArg (fun b : Block => b.clk.vddl) hgated).trans hvddl, (congrArg (fun b : Block => b.clk.vdds) hgated).trans hvdds⟩

/-- Channels that neither run nor are in power-down stay as they are. -/
theorem chansSleep_none {n : Nat} (h : ∀ k : ChanId, s.blk.chans[k].st ≠ .run ∧ s.blk.chans[k].st ≠ .powerdown) :
    chansSleep n s = s.upd (stateTaken n s.blk) := by
  have hchans : (stateTaken n s.blk).chans = s.blk.chans := (congrArg Block.chans (idlePorts_idled n s.blk).rest).trans rfl
  have hst (k : ChanId) : (s.upd (stateTaken n s.blk)).blk.chans[k].st ≠ .run
      ∧ (s.upd (stateTaken n s.blk)).blk.chans[k].st ≠ .powerdown := by
    rw [State.upd_blk, hchans]
    exact h k
  have hdoze (l : List Nat) : l.foldl (fun s c => dozeChan c s) (s.upd (stateTaken n s.blk)) = s.upd (stateTaken n s.blk) :=
    foldl_fix _ _ _ fun c _ => if_neg fun hc => hc.elim (hst (cid c)).1 (hst (cid c)).2
  have hsleep : (List.range 32).foldl (fun s c => sleepChan c s) (s.upd (stateTaken n s.blk)) = s.upd (stateTaken n s.blk) :=
    foldl_fix _ _ _ fun c _ => if_pos (hst (cid c)).1
  unfold chansSleep
  dsimp only
  rw [hdoze, hsleep, ite_self]

theorem enterState_quiet {n : Nat} (hn : n ≤ 4) (h : ∀ k : ChanId, s.blk.chans[k].st ≠ .run ∧ s.blk.chans[k].st ≠ .powerdown)
    (hpend : s.blk.regs.pend = []) : ∃ t, enterState n s = t ∧ t.mem = s.mem
      ∧ (∀ k : ChanId, { t.blk.chans[k] with stall := s.blk.chans[k].stall } = s.blk.chans[k])
      ∧ (∀ e : EngId, heldNow t.blk e.val = true → t.blk.engs[e].st ≠ .run)
      ∧ (ctr (pwrBase + 0x1C + 4 * n) t.blk).toNat = min ctrMax ((ctr (pwrBase + 0x1C + 4 * n) s.blk).toNat + 1) := by
  have hidled := idlePorts_idled n s.blk
  have hoff := pllsOff_stalled n (stateTaken n s.blk)
  obtain ⟨tchans, tregs, tpend⟩ := stateTaken_keeps n s.blk
  have hchans : (stateTaken n s.blk).chans = s.blk.chans := by rw [tchans, hidled.rest]
  have hregs : (pllsOff n (stateTaken n s.blk)).regs = (stateTaken n s.blk).regs := by rw [hoff.rest]
  have hnone : (pllsOff n (stateTaken n s.blk)).regs.pend = [] := by
    rw [hregs, tpend, hidled.rest]
    exact hpend
  have hcount : (ctr (pwrBase + 0x1C + 4 * n) (stateTaken n s.blk)).toNat
      = min ctrMax ((ctr (pwrBase + 0x1C + 4 * n) s.blk).toNat + 1) := by
    have hlinks : ∀ p : PortId, pwrBase + 0x1C + 4 * n ≠ lnkBase p.val + 0x28 := by
      unfold pwrBase lnkBase
      omega
    rw [← hidled.ctrs _ hlinks, ← ctr_ctrAdd, ctr, tregs, ctr]
  obtain ⟨hrest, hengs⟩ := gateEngines_quiet hnone
  refine ⟨_, enterState_eq n s, ?_⟩
  rw [chansSleep_none h, State.upd_blk]
  generalize hu : pllsOff n (stateTaken n s.blk) = u at *
  generalize hg : gateEngines u = g at *
  have gchans : g.chans = u.chans := by rw [hrest]
  have gregs : g.regs = u.regs := by rw [hrest]
  refine ⟨rfl, fun k => ?_, fun e hheld => ?_, ?_⟩
  · have hk := hoff.chans k
    rw [hchans] at hk
    change { g.chans[k] with stall := s.blk.chans[k].stall } = s.blk.chans[k]
    rw [gchans]
    exact hk
  · have hsame : heldNow g e.val = heldNow u e.val := by
      rw [hrest]
      rfl
    have hnow : heldNow u e.val = true := hsame.symm.trans hheld
    change g.engs[e].st ≠ .run
    rw [hengs, hnow]
    exact gatedSt_held _
  · change (ctr (pwrBase + 0x1C + 4 * n) g).toNat = _
    rw [ctr, gregs, hregs]
    exact hcount

/-! ### The return to P0 (R439, R440) -/

/-- The block in P0. -/
def inP0 (b : Block) : Block := { b with pwr := { b.pwr with state := 0, limit := 0, wakeAt := none } }

/-- The regulators at the voltages of the clocks in force. -/
def voltsUp (b : Block) : Block := { b with clk := { b.clk with vddl := clkVddl b, vdds := 750 } }

theorem exitWith_deep (l : List Nat) (h : s.blk.pwr.state = 4) :
    exitWith l s = s.upd (voltsUp (gateEngines (inP0 (trimRegs l s.blk)))) := by
  have hsome : ¬ s.blk.pwr.state = 0 := by
    rw [h]
    decide
  have hdeep : (s.blk.pwr.state == 4) = true := beq_iff_eq.mpr h
  unfold exitWith
  dsimp only
  rw [if_neg hsome, hdeep]
  simp only [if_true, voltsUp, inP0]

theorem exitWith_light (l : List Nat) (hsome : s.blk.pwr.state ≠ 0) (h : s.blk.pwr.state ≠ 4) :
    exitWith l s = wakeChans (fun _ => true) (s.upd (forAll 16 exitTransmit (gateEngines (inP0 s.blk)))) := by
  have hlight : (s.blk.pwr.state == 4) = false := beq_eq_false_iff_ne.mpr h
  unfold exitWith
  dsimp only
  rw [if_neg hsome, hlight]
  simp only [Bool.false_eq_true, if_false]
  rfl

theorem exitTransmit_moved (p : PortId) (h : reactionOf b (fs .lnkDegrade) ≤ 2) : LinksMoved b (exitTransmit p b) := by
  unfold exitTransmit
  split
  · exact .refl b
  · split
    · exact (modPort_moved p _ b).moved
    · exact (recoverPort_moved p h).1.moved

theorem exitPorts_moved (h : reactionOf b (fs .lnkDegrade) ≤ 2) : LinksMoved b (forAll 16 exitTransmit b) :=
  List.foldlRecOn (motive := LinksMoved b) _ _ (.refl b) fun _ hc p _ => hc.trans (exitTransmit_moved p ((hc.reaction _).trans_le h))

/-- Ports that recover hold no engine and release none. -/
theorem LinksMoved.held (h : LinksMoved b t) (n : Nat) : heldNow t n = heldNow b n := by
  have hhalt : rwf (engBase n) 0 0 t = rwf (engBase n) 0 0 b := by
    rw [h.rest]
    rfl
  have hgated : engGated t n = engGated b n := by
    rw [h.rest]
    rfl
  have htested : engTested t n = engTested b n := by
    rw [h.rest]
    rfl
  have hcool : t.thm = b.thm := by rw [h.rest]
  rw [heldNow, hhalt, hgated, htested, h.safe, hcool, ← heldNow]

/-- A wake counts in the PWR block at most. -/
theorem wakeCount_eq (w : WakeCause) (b : Block) : ∃ v, wakeCount w b = { b with regs := { b.regs with ctr := v } } := by
  unfold wakeCount
  split
  · unfold noteEarly
    split <;> exact ⟨_, rfl⟩
  · exact ⟨_, rfl⟩

/-- The end of P4 from `b` to `t`: the regulators that fail their trim degrade, and the engines follow. -/
theorem exitDeep_quiet (l : List Nat) (hpend : b.regs.pend = []) (hlow : reactionOf b (fs .calDegrade) ≤ 2) : ∃ t,
    voltsUp (gateEngines (inP0 (trimRegs l b))) = t ∧ t.pwr = { b.pwr with state := 0, limit := 0, wakeAt := none } ∧ t.chans = b.chans
      ∧ t.clk = { b.clk with vddl := clkVddl b, vdds := 750 } ∧ t.cal = (trimRegs l b).cal
      ∧ ∀ e : EngId, t.engs[e].st = gatedSt (heldNow t e.val) b.engs[e] := by
  obtain ⟨hmoved, -⟩ := trimRegs_trimmed l hlow
  generalize trimRegs l b = c at *
  have hnone : (inP0 c).regs.pend = [] := by
    rw [inP0, hmoved.rest]
    exact hpend
  obtain ⟨hrest, hengs⟩ := gateEngines_quiet hnone
  generalize gateEngines (inP0 c) = g at *
  have hvddl : clkVddl g = clkVddl b := by
    rw [hrest, inP0, hmoved.rest]
    rfl
  have hheld (e : EngId) : heldNow (voltsUp g) e.val = heldNow (inP0 c) e.val := by
    rw [hrest]
    rfl
  have hsame : (inP0 c).engs = b.engs := by
    rw [inP0, hmoved.rest]
  refine ⟨_, rfl, ?_, ?_, ?_, ?_, fun e => ?_⟩
  · rw [voltsUp, hrest, inP0, hmoved.rest]
  · rw [voltsUp, hrest, inP0, hmoved.rest]
  · rw [voltsUp, hvddl, hrest, inP0, hmoved.rest]
  · rw [voltsUp, hrest, inP0]
  · rw [hheld]
    exact (hengs e).trans (by rw [hsame])

/-- The end of P1 to P3 from `b` to `t`. -/
theorem exitLight_quiet (hpend : b.regs.pend = []) (hlow : reactionOf b (fs .lnkDegrade) ≤ 2) : ∃ t,
    forAll 16 exitTransmit (gateEngines (inP0 b)) = t ∧ t.pwr = { b.pwr with state := 0, limit := 0, wakeAt := none }
      ∧ t.chans = b.chans ∧ t.clk = b.clk ∧ t.cal = b.cal
      ∧ ∀ e : EngId, t.engs[e].st = gatedSt (heldNow t e.val) b.engs[e] := by
  have hnone : (inP0 b).regs.pend = [] := hpend
  obtain ⟨hrest, hengs⟩ := gateEngines_quiet hnone
  have hsage : (gateEngines (inP0 b)).sage = b.sage := (congrArg Block.sage hrest).trans rfl
  have hmoved := exitPorts_moved (b := gateEngines (inP0 b)) ((reactionOf_congr (congrArg Sage.react hsage) _).trans_le hlow)
  generalize forAll 16 exitTransmit (gateEngines (inP0 b)) = t at *
  generalize gateEngines (inP0 b) = g at *
  have hheld (e : EngId) : heldNow t e.val = heldNow (inP0 b) e.val := by
    rw [hmoved.held, hrest]
    rfl
  refine ⟨_, rfl, ?_, ?_, ?_, ?_, fun e => ?_⟩
  · rw [hmoved.rest, hrest, inP0]
  · rw [hmoved.chans, hrest, inP0]
  · rw [hmoved.clk, hrest, inP0]
  · rw [hmoved.cal, hrest, inP0]
  · rw [hheld, hmoved.rest]
    exact hengs e

/-- What the return from P4 leaves, where no bad write waits. -/
structure Woken (b t : Block) : Prop where
  pwr : t.pwr = { b.pwr with state := 0, limit := 0, wakeAt := none }
  chans : t.chans = b.chans
  ports : ∀ p : PortId, samePort b.ports[p] t.ports[p]
  pend : ∀ w ∈ t.regs.pend, w ∈ b.regs.pend
  par : b.regs.badPar = [] → t.regs.badPar = []
  owner : t.regs.owner = b.regs.owner
  safe : t.sage.safe = b.sage.safe
  start : t.start = b.start
  otp : t.otp = b.otp

theorem exitDeep_woken (l : List Nat) (hgood : ∀ w ∈ b.regs.pend, w.good = true) (hlow : reactionOf b (fs .calDegrade) ≤ 2) :
    Woken b (voltsUp (gateEngines (inP0 (trimRegs l b)))) := by
  obtain ⟨hmoved, -⟩ := trimRegs_trimmed l hlow
  generalize trimRegs l b = c at *
  have hpend : (inP0 c).regs.pend = b.regs.pend := by
    rw [inP0, hmoved.rest]
  have hgated := gateEngines_moved (b := inP0 c) (by rw [hpend]; exact hgood)
  generalize gateEngines (inP0 c) = g at *
  have hsage : g.sage = c.sage := by
    rw [hgated.rest]
    rfl
  have hports : g.ports = c.ports := by
    rw [hgated.rest]
    rfl
  have hpar : (inP0 c).regs.badPar = b.regs.badPar := by
    rw [inP0, hmoved.rest]
  constructor
  case pwr => rw [voltsUp, hgated.rest, inP0, hmoved.rest]
  case chans => rw [voltsUp, hgated.rest, inP0, hmoved.rest]
  case ports =>
    intro p
    have hp : (voltsUp g).ports = c.ports := hports
    rw [hp]
    exact hmoved.ports p
  case pend => exact fun w hw => hpend ▸ hgated.pend w hw
  case par => exact fun h => hgated.par (hpar.trans h)
  case owner => rw [voltsUp, hgated.rest, inP0, hmoved.rest]
  case safe =>
    have hs : (voltsUp g).sage = c.sage := hsage
    rw [hs, hmoved.safe]
  case start => rw [voltsUp, hgated.rest, inP0, hmoved.rest]
  case otp => rw [voltsUp, hgated.rest, inP0, hmoved.rest]

theorem exitPower_woken (h : s.blk.pwr.state = 4) (hgood : ∀ w ∈ s.blk.regs.pend, w.good = true)
    (hlow : reactionOf s.blk (fs .calDegrade) ≤ 2) : ∃ t, exitPower s = s.upd t ∧ Woken s.blk t := by
  have hrow : exitPower s = _ := (if_pos h).trans
    (exitWith_deep ((List.range 8).filter (draw s.blk).1.getLsbD) (s := s.upd (draw s.blk).2) h)
  have hwoken := exitDeep_woken (b := (draw s.blk).2) ((List.range 8).filter (draw s.blk).1.getLsbD) hgood hlow
  rw [State.upd_blk, State.upd_upd] at hrow
  generalize voltsUp (gateEngines (inP0 (trimRegs ((List.range 8).filter (draw s.blk).1.getLsbD) (draw s.blk).2))) = t at *
  exact ⟨t, hrow, hwoken.pwr, hwoken.chans, hwoken.ports, hwoken.pend, hwoken.par, hwoken.owner, hwoken.safe, hwoken.start, hwoken.otp⟩

theorem leavePower_runs {w : WakeCause} (l : List Nat) (hstate : s.blk.pwr.state ≠ 0) (hholds : wakeHolds s.blk w = true) :
    leavePower w l s = exitWith l (s.upd (wakeCount w s.blk)) := by
  refine if_neg ?_
  rw [hholds, decide_eq_false hstate]
  decide

/-! ### The write of PWR_CTRL.wake (R439, R444) -/

/-- A power register that is plain comes into force at once, or waits behind the sequencer's steps (R53). -/
theorem buffer_pwrCtrl (v : Word) (hgood : ∀ w ∈ b.regs.pend, baseOf w.addr ≠ clkBase ∧ baseOf w.addr ≠ pwrBase) :
    buffer pwrBase v b = if seqIdle b then setLive pwrBase v b else bufferWrite pwrBase v b := by
  have hbase : baseOf pwrBase = pwrBase := by decide
  have hpwr : pendingAt (baseOf pwrBase) b = false := by
    rw [hbase]
    simpa [pendingAt] using fun w hw => (hgood w hw).2
  have htake := takePend_bufferWrite v hpwr
  rw [hbase] at htake
  have hclk : pendingAt clkBase (bufferWrite pwrBase v b) = false := by
    have hold : ∀ w ∈ b.regs.pend, ¬ baseOf w.addr = clkBase := fun w hw => (hgood w hw).1
    have hnew : ¬ baseOf pwrBase = clkBase := by decide
    simp only [pendingAt, bufferWrite, List.any_append, List.any_eq_false, List.any_cons, List.any_nil, Bool.or_false, Bool.or_eq_false_iff,
      beq_iff_eq, beq_eq_false_iff_ne]
    exact ⟨fun w hw => hold w (List.mem_of_mem_filter hw), hnew⟩
  have hidle : seqIdle (bufferWrite pwrBase v b) = seqIdle b := rfl
  have hnow : atOnceNow pwrBase (bufferWrite pwrBase v b) = seqIdle b := rfl
  have hcommit : commitClk (bufferWrite pwrBase v b) = setLive pwrBase v b := by
    rw [commitClk, takePend_none hclk]
    dsimp only
    rw [htake]
    rfl
  unfold buffer commitNow commitClkNow
  rw [hbase, hnow, hcommit]
  cases hseq : seqIdle b with
  | true => simp [hidle, hseq]
  | false => simp

/-- A write of PWR_CTRL.wake returns to P0, and its other bits come into force like any. -/
theorem writeLive_wake (path : Path) {data : Word} (hwake : data.getLsbD 8 = true) (hrange : wfield data 2 0 ≤ 4) (s : State) :
    writeLive path none (pwrBase + 0) data s
      = (some .ok, (exitPower s).upd (buffer pwrBase (data &&& 7) (exitPower s).blk)) := by
  have hchive : (s.blk.inChive && (baseOf (pwrBase + 0) == srlBase || isEng (baseOf (pwrBase + 0)))) = false := by
    rw [show (baseOf (pwrBase + 0) == srlBase || isEng (baseOf (pwrBase + 0))) = false from by decide, Bool.and_false]
  have hargs : usesArgs (baseOf (pwrBase + 0)) = false := by decide
  have hreg : regAt (pwrBase + 0) ≠ some .counter := by decide
  have hclk : baseOf (pwrBase + 0) ≠ clkBase := by decide
  have hpwr : baseOf (pwrBase + 0) = pwrBase := by decide
  have hthm : pwrBase + 0 ≠ thmBase + 8 := by decide
  have hotp : pwrBase + 0 ≠ otpBase := by decide
  have hbst : pwrBase + 0 ≠ bstBase := by decide
  have hrw : pwrWrite (pwrBase + 0 - pwrBase) data s
      = (.ok, (exitPower s).upd (buffer pwrBase (data &&& 7) (exitPower s).blk)) := by
    have hin : pwrRange 0 data = true := by simp [pwrRange, within, hrange]
    have hmask : rwMask (pwrBase + 0) = 7 := by decide
    have hbuffer (b : Block) : bufferOk true (pwrBase + 0) data b = (.ok, buffer pwrBase (data &&& 7) b) := by
      rw [bufferOk, hmask]
      rfl
    unfold pwrWrite
    rw [show pwrBase + 0 - pwrBase = 0 from rfl, hin]
    dsimp only
    rw [if_neg (by decide), if_pos ⟨rfl, hwake⟩, hbuffer]
  unfold writeLive
  dsimp only
  rw [hargs, Bool.false_and, Bool.false_and, if_neg Bool.false_ne_true, if_neg (ne_true_of_eq_false hchive), if_neg hreg, if_neg hthm,
    if_neg hotp, if_neg hbst, if_neg hclk, if_pos hpwr, hpwr, hrw]

theorem buffer_pwrCtrl_keeps (v : Word) (hgood : ∀ w ∈ b.regs.pend, baseOf w.addr ≠ clkBase ∧ baseOf w.addr ≠ pwrBase) :
    (buffer pwrBase v b).start = b.start ∧ (buffer pwrBase v b).pwr = b.pwr ∧ (buffer pwrBase v b).ports = b.ports
      ∧ (buffer pwrBase v b).chans = b.chans := by
  rw [buffer_pwrCtrl v hgood]
  split <;> exact ⟨rfl, rfl, rfl, rfl⟩

theorem lockedReg_pwr (b : Block) : lockedReg (pwrBase + 0) b = false := lockedReg_out b (by decide)

/-- The answer to a write of PWR_CTRL.wake in P4, over either path. -/
theorem put_wake (path : Path) {data : Word} {t : Block} (hopen : pathOpen s.blk path = true) (hsafe : s.blk.sage.safe = false)
    (howner : ownerRefuses path s.blk = false) (hpar : s.blk.regs.badPar = []) (hwake : data.getLsbD 8 = true)
    (hrange : wfield data 2 0 ≤ 4) (hrow : exitPower s = s.upd t) (hwoken : Woken s.blk t)
    (hwaits : ∀ w ∈ t.regs.pend, baseOf w.addr ≠ clkBase ∧ baseOf w.addr ≠ pwrBase) :
    put path pwrBase 0 data s = answered path (pwrBase + 0) .ok (s.upd (buffer pwrBase (data &&& 7) t)) := by
  have hstep : 5 ≤ s.blk.start.step := by
    cases path <;> simp_all [pathOpen]
  have hfinal : exitPower (wakeBy path (BitVec.ofNat 32 (pwrBase + 0)) s) = s.upd t := by
    unfold wakeBy
    split
    · exact hrow
    · rw [hrow]
      exact exitPower_P0 (by rw [State.upd_blk, hwoken.pwr])
  have hready : (wakeBy path (BitVec.ofNat 32 (pwrBase + 0)) s).blk.sage.safe = false
      ∧ ownerRefuses path (wakeBy path (BitVec.ofNat 32 (pwrBase + 0)) s).blk = false
      ∧ (wakeBy path (BitVec.ofNat 32 (pwrBase + 0)) s).blk.regs.badPar = [] := by
    unfold wakeBy
    split
    · exact ⟨hsafe, howner, hpar⟩
    · rw [hrow, State.upd_blk, ownerRefuses, hwoken.owner, ← ownerRefuses]
      exact ⟨hwoken.safe.trans hsafe, howner, hwoken.par hpar⟩
  obtain ⟨hsafe', howner', hpar'⟩ := hready
  have hwrite := writeReg_live (last := none) (data := data) hsafe' howner' hpar' (by decide) (by decide) (by decide) (by decide)
    (lockedReg_pwr _)
  rw [writeLive_wake path hwake hrange, hfinal] at hwrite
  have hstep' : ¬ (buffer pwrBase (data &&& 7) t).start.step < 5 := by
    rw [(buffer_pwrCtrl_keeps _ hwaits).1, hwoken.start]
    exact Nat.not_lt.mpr hstep
  unfold put pathWrite pathWriteAt
  rw [hopen, hwrite]
  simp only [Bool.not_true, Bool.false_eq_true, if_false, State.upd_blk, State.upd_upd, hstep']
  rfl

end Sys2Proof.Machine
end

section
open Sys2Proof Sys2Proof.Machine

/-- Settles O52: an entry is an equation of the state it finds (`enterPower_idle`, `enterState_taken`); an exit trims, and lets the
engines follow their enables (`exitDeep_quiet`, `exitLight_quiet`, `gateEngines_empty`); PWR_CTRL.wake exits before its write
(`put_wake`). -/
theorem powerStates : Obligations.PowerStates := by
  unfold Obligations.PowerStates
  refine ⟨fun busy s hopen hpar => ⟨fun hbusy => ?waits, fun hidle hrun hqueue => ?enters⟩,
    fun s hstate hqueue hdescs hqueues => ?sequencer,
    fun w l s hstate hholds hawake hpend hlnk hcal => ?leaves, fun w l s hholds => ?stays,
    fun path s hopen hsafe howner hpar hstate hwaits hrange hlow => ?wake⟩
  case waits => exact congrArg Host.Outcome.next (enterPower_waits busy hpar hopen hbusy)
  case enters =>
    intro n gate
    have hrow : exec (.powerStateEntry busy) s = _ := congrArg Host.Outcome.next (enterPower_idle busy hpar hopen hidle hrun hqueue)
    have hn : chooseState s.blk ≤ 4 := chooseState_le s.blk
    refine ⟨fun hle => ?_, fun hlt hgate hlow => ?_, fun hlt hgate => ?_, fun hlt hgate hchans hpend => ?_⟩
    · rw [hrow, if_pos hle]
      rfl
    · have hbusy : entryGates busy (chooseState s.blk) s.blk ≠ 0 := hgate
      rw [if_neg (Nat.not_le.mpr hlt), if_pos hbusy] at hrow
      obtain ⟨hmoved, hbit⟩ := refuseGate_moved (b := s.blk) (entryGates busy (chooseState s.blk) s.blk) hlow
      generalize refuseGate (entryGates busy (chooseState s.blk) s.blk) s.blk = t at *
      refine ⟨_, hrow, rfl, ?_, hbit, hmoved.chans⟩
      rw [State.upd_blk, setLimit, hmoved.rest]
    · have hfree : entryGates busy (chooseState s.blk) s.blk = 0 := hgate
      rw [if_neg (Nat.not_le.mpr hlt), if_neg (not_not.mpr hfree)] at hrow
      obtain ⟨t, ht, htaken⟩ := enterState_taken hn s
      exact ⟨t, hrow.trans (congrArg _ ht), htaken⟩
    · have hfree : entryGates busy (chooseState s.blk) s.blk = 0 := hgate
      rw [if_neg (Nat.not_le.mpr hlt), if_neg (not_not.mpr hfree)] at hrow
      obtain ⟨t, ht, htaken⟩ := enterState_quiet hn hchans hpend
      exact ⟨t, hrow.trans (congrArg _ ht), htaken⟩
  case sequencer =>
    have hholds : wakeHolds s.blk .sequencer = true := by simp [wakeHolds, hqueue]
    have htrim : trimRegs [] s.blk = s.blk := ite_self _
    have hrow : exec (.powerStateExit .sequencer []) s = .next (s.upd (voltsUp (gateEngines (inP0 s.blk)))) := by
      refine congrArg Host.Outcome.next ((leavePower_runs [] (by rw [hstate]; decide) hholds).trans ?_)
      rw [exitWith_deep [] (s := s.upd (wakeCount .sequencer s.blk)) hstate]
      exact congrArg (fun b => s.upd (voltsUp (gateEngines (inP0 b)))) htrim
    obtain ⟨hrest, hengs⟩ := gateEngines_empty (b := inP0 s.blk) hdescs hqueues
    generalize gateEngines (inP0 s.blk) = g at *
    have hvddl : clkVddl g = clkVddl s.blk := by
      rw [hrest]
      rfl
    have hheld (e : EngId) : heldNow (voltsUp g) e.val = heldNow (inP0 s.blk) e.val := by
      rw [hrest]
      rfl
    refine ⟨_, hrow, rfl, ?_, fun e => ?_⟩
    · rw [State.upd_blk, voltsUp, hvddl, hrest]
      rfl
    · rw [State.upd_blk, hheld]
      exact hengs e
  case leaves =>
    obtain ⟨v, hcount⟩ := wakeCount_eq w s.blk
    have hleave := leavePower_runs l hstate hholds
    rw [hcount] at hleave
    have hfollow {t : Block} {held : EngId → Bool} (hheld : ∀ e : EngId, held e = heldNow t e.val)
        (hengs : ∀ e : EngId, t.engs[e].st = gatedSt (held e) s.blk.engs[e]) (e : EngId) :
        (heldNow t e.val = true → t.engs[e].st ≠ .run) ∧ (heldNow t e.val = false → t.engs[e].st ≠ .held) := by
      rw [hengs, ← hheld]
      exact ⟨fun h => h ▸ gatedSt_held _, fun h => h ▸ gatedSt_free _⟩
    by_cases hdeep : s.blk.pwr.state = 4
    · have hexit := exitWith_deep l (s := s.upd { s.blk with regs := { s.blk.regs with ctr := v } }) hdeep
      obtain ⟨-, hbits⟩ := trimRegs_trimmed (b := { s.blk with regs := { s.blk.regs with ctr := v } }) l hcal
      obtain ⟨t, ht, hpwr, hchans, hclk, hcals, hengs⟩ := exitDeep_quiet (b := { s.blk with regs := { s.blk.regs with ctr := v } }) l
        hpend hcal
      rw [State.upd_blk, ht] at hexit
      refine ⟨_, congrArg Host.Outcome.next (hleave.trans hexit), rfl, ?_⟩
      rw [State.upd_upd, State.upd_blk, hpwr, hchans, hclk, hcals]
      exact ⟨rfl, rfl, rfl, rfl, hfollow (fun _ => rfl) hengs, fun _ => ⟨rfl, rfl, hbits⟩, fun h => absurd hdeep h⟩
    · have hexit := exitWith_light l (s := s.upd { s.blk with regs := { s.blk.regs with ctr := v } }) hstate hdeep
      obtain ⟨t, ht, hpwr, hchans, hclk, hcals, hengs⟩ := exitLight_quiet (b := { s.blk with regs := { s.blk.regs with ctr := v } })
        hpend hlnk
      rw [State.upd_blk, ht, wakeChans_none (by rw [State.upd_blk, hchans]; exact hawake)] at hexit
      refine ⟨_, congrArg Host.Outcome.next (hleave.trans hexit), rfl, ?_⟩
      rw [State.upd_upd, State.upd_blk, hpwr, hchans, hclk, hcals]
      exact ⟨rfl, rfl, rfl, rfl, hfollow (fun _ => rfl) hengs, fun h => absurd h hdeep, fun _ => ⟨rfl, rfl⟩⟩
  case stays =>
    have hrow : leavePower w l s = s := by simp [leavePower, hholds]
    exact congrArg Host.Outcome.next hrow
  case wake =>
    have hgood : ∀ w ∈ s.blk.regs.pend, w.good = true := fun w hw => (hwaits w hw).1
    obtain ⟨t, hrow, hwoken⟩ := exitPower_woken hstate hgood hlow
    have hwaits' : ∀ w ∈ t.regs.pend, baseOf w.addr ≠ clkBase ∧ baseOf w.addr ≠ pwrBase :=
      fun w hw => (hwaits w (hwoken.pend w hw)).2
    have hshadow : shadow pwrBase s.blk = rw pwrBase s.blk := by
      have hnone : s.blk.regs.pend.find? (fun w => w.addr == pwrBase) = none := by
        rw [List.find?_eq_none]
        intro w hw heq
        exact (hwaits w hw).2.2 (by rw [beq_iff_eq.mp heq]; decide)
      rw [shadow, hnone]
      rfl
    have hwake : ((0x100 : Word) ||| shadow pwrBase s.blk).getLsbD 8 = true := by
      rw [BitVec.getLsbD_or]
      rfl
    have hin : wfield ((0x100 : Word) ||| shadow pwrBase s.blk) 2 0 ≤ 4 := by
      have hsame : wfield ((0x100 : Word) ||| rw pwrBase s.blk) 2 0 = wfield (rw pwrBase s.blk) 2 0 := by
        rw [wfield, wfield, BitVec.toNat_or, field, field, Nat.shiftRight_zero, Nat.shiftRight_zero, Nat.or_mod_two_pow]
        exact Nat.zero_or _
      rw [hshadow, hsame]
      exact hrange
    have hput := put_wake path (data := 0x100 ||| shadow pwrBase s.blk) hopen hsafe howner hpar hwake hin hrow hwoken hwaits'
    obtain ⟨-, bpwr, bports, bchans⟩ := buffer_pwrCtrl_keeps ((0x100 ||| shadow pwrBase s.blk) &&& 7) hwaits'
    generalize buffer pwrBase ((0x100 ||| shadow pwrBase s.blk) &&& 7) t = u at *
    refine ⟨_, congrArg Host.Outcome.next hput, rfl, ?_⟩
    rw [answered, State.upd_blk, State.upd_blk, respond_resp, respond_pwr, respond_ports, respond_chans, bpwr, bports, bchans]
    exact ⟨rfl, hwoken.pwr, hwoken.ports, hwoken.chans⟩

end

section
/-! SUPPORT. The thermal sample (R37, R399 to R414): what each of its steps leaves of the sensors and of Tarragon's state. -/

namespace Sys2Proof.Machine

open Sys2Proof

variable {b c t : Block} {s : State}

/-! ### What `spared` says of Tarragon and of the start -/

theorem spared_thm (h : spared t = spared b) : t.thm = b.thm := by
  have hthm := congrArg Block.thm h
  exact hthm

theorem spared_done (h : spared t = spared b) : t.start.done = b.start.done := by
  have hdone := congrArg (fun b : Block => b.start.done) h
  exact hdone

theorem spared_react (h : spared t = spared b) : t.sage.react = b.sage.react := by
  have hreact := congrArg (fun b : Block => b.sage.react) h
  exact hreact

/-! ### Ports that wake, and Sorrel's orders -/

theorem rateChanged_spared (old : BitVec 4) (p : PortId) (b : Block) : spared (rateChanged old p b) = spared b := by
  unfold rateChanged
  split
  · rfl
  · rw [portChange_spared, rcSet_spared]

theorem recoverPort_spared (p : PortId) (b : Block) : spared (recoverPort p b) = spared b :=
  (rateChanged_spared _ p _).trans rfl

theorem exitTransmit_spared (p : PortId) (b : Block) : spared (exitTransmit p b) = spared b := by
  unfold exitTransmit
  split
  · rfl
  · split
    · rfl
    · exact recoverPort_spared p b

theorem orderMove_spared (r : Reason) (k : Nat) (b : Block) : spared (orderMove r k b) = spared b := by
  unfold orderMove
  split
  · exact enqueueOrder_spared b _
  · rfl

theorem sampleSorrel_spared (b : Block) : spared (sampleSorrel b) = spared b := by
  unfold sampleSorrel
  dsimp only
  split
  · exact foldl_keep spared _ (fun c k => orderMove_spared .thermal k c) _ _
  · rfl

/-- The return to P0 leaves Tarragon as it is. -/
theorem exitWith_thm (s : State) : (exitWith [] s).blk.thm = s.blk.thm := by
  by_cases hp0 : s.blk.pwr.state = 0
  · rw [exitWith, if_pos hp0]
  · by_cases hdeep : s.blk.pwr.state = 4
    · have htrim : trimRegs [] s.blk = s.blk := ite_self _
      have hthm := spared_thm (gateEngines_spared (inP0 s.blk))
      rw [exitWith_deep [] hdeep, htrim, State.upd_blk]
      generalize gateEngines (inP0 s.blk) = g at *
      exact hthm
    · have hports : spared (forAll 16 exitTransmit (gateEngines (inP0 s.blk))) = spared (inP0 s.blk) := by
        rw [forAll_keep _ spared _ exitTransmit_spared, gateEngines_spared]
      rw [exitWith_light [] hp0 hdeep]
      generalize forAll 16 exitTransmit (gateEngines (inP0 s.blk)) = g at *
      have hthm : g.thm = s.blk.thm := spared_thm (b := inP0 s.blk) hports
      exact (spared_thm (wakeChans_spared (s.upd g) _)).trans hthm

/-! ### What a sample sees -/

/-- The value and the mark of a sensor. -/
def reading (n : Nat) (b : Block) : BitVec 16 × Bool := ((sensorAt b n).value, (sensorAt b n).suspect)

/-- What a step of the sample leaves unless it says otherwise: the safe state, the quadrants' summaries, and how far the start is. -/
def tripView (b : Block) : Bool × Vector Nat 4 × Vector (BitVec 16) 4 × Bool :=
  (b.thm.safe, b.thm.qLevel, b.thm.qMax, b.start.done)

/-- A sensor's reading, and what is left beside it. -/
def seen (n : Nat) (b : Block) : (BitVec 16 × Bool) × Bool × Vector Nat 4 × Vector (BitVec 16) 4 × Bool := (reading n b, tripView b)

theorem seen_of_thm {n : Nat} (hthm : t.thm = b.thm) (hdone : t.start.done = b.start.done) : seen n t = seen n b := by
  simp only [seen, reading, sensorAt, tripView, hthm, hdone]

theorem seen_of_spared {n : Nat} (h : spared t = spared b) : seen n t = seen n b := seen_of_thm (spared_thm h) (spared_done h)

theorem emit_seen (n : Nat) (mask : BitVec 16) (e : Ev) (b : Block) : seen n (emit mask e b) = seen n b :=
  seen_of_spared (emit_spared b mask e)

theorem suspectEvent_seen (n k z : Nat) (guard blind : Bool) (b : Block) : seen n (suspectEvent k z guard blind b).2 = seen n b := by
  unfold suspectEvent suspectHi
  split <;> rfl

theorem sensorAt_modSensor_other {n k : Nat} (h : Fin.ofNat 192 n ≠ Fin.ofNat 192 k) (f : Sensor → Sensor) (b : Block) :
    sensorAt (modSensor k f b) n = sensorAt b n :=
  Vector.getElem_set_ne (Fin.isLt _) (Fin.isLt _) fun hval => h (Fin.ext hval.symm)

/-- A change of a sensor's count or of what is told of it leaves its reading. -/
theorem modSensor_seen (n k : Nat) {f : Sensor → Sensor} (hvalue : ∀ x, (f x).value = x.value)
    (hsuspect : ∀ x, (f x).suspect = x.suspect)
    (b : Block) : seen n (modSensor k f b) = seen n b := by
  have hread : reading n (modSensor k f b) = reading n b := by
    by_cases hk : Fin.ofNat 192 n = Fin.ofNat 192 k
    · have hat (c : Block) : sensorAt c n = sensorAt c k := congrArg (fun i : Fin 192 => c.thm.sensors[i]) hk
      have hsame : sensorAt (modSensor k f b) n = f (sensorAt b n) := by
        rw [hat, sensorAt_modSensor, hat]
      rw [reading, hsame, hvalue, hsuspect, ← reading]
    · rw [reading, sensorAt_modSensor_other hk, ← reading]
  exact Prod.ext hread rfl

theorem tellSensor_seen (n k : Nat) (b : Block) : seen n (tellSensor k b) = seen n b :=
  modSensor_seen n k (f := fun x => { x with told := true }) (fun _ => rfl) (fun _ => rfl) b

theorem guardRaise_seen (n z : Nat) (blind : Bool) (b : Block) : seen n (guardRaise z blind b) = seen n b := by
  unfold guardRaise
  split
  · rfl
  · dsimp only
    rw [seen_of_spared (raise_spared _ _ _ _ _)]
    split
    · rw [tellSensor_seen, suspectEvent_seen]
    · exact suspectEvent_seen _ _ _ _ _ _

theorem formZone_seen (n z : Nat) (f : Int × Bool × Bool) (b : Block) : seen n (formZone z f b) = seen n b := by
  have hstore : ∀ t : Int, seen n (storeTemp t b).2 = seen n b := by
    intro t
    unfold storeTemp
    split <;> rfl
  unfold formZone
  extract_lets old r b1 b2
  have h2 : seen n b2 = seen n b := by
    unfold b2 b1
    split <;> exact hstore f.1
  split
  · rw [guardRaise_seen, h2]
  · exact h2

theorem tellSuspect_seen (n k : Nat) (b : Block) : seen n (tellSuspect k b) = seen n b := by
  unfold tellSuspect
  dsimp only
  split
  · rfl
  · rw [emit_seen]
    exact (tellSensor_seen n k _).trans (suspectEvent_seen _ _ _ _ _ _)

theorem noteSuspects_seen (n : Nat) (old b : Block) : seen n (noteSuspects old b) = seen n b := by
  unfold noteSuspects
  split <;> rfl

/-- What the comparison of the zones with their thresholds leaves. -/
structure Compared (b t : Block) : Prop where
  sensors : t.thm.sensors = b.thm.sensors
  safe : t.thm.safe = b.thm.safe
  qLevel : t.thm.qLevel = b.thm.qLevel
  qMax : t.thm.qMax = b.thm.qMax
  start : t.start = b.start
  sage : t.sage = b.sage
  pwr : t.pwr = b.pwr

theorem Compared.refl (b : Block) : Compared b b := ⟨rfl, rfl, rfl, rfl, rfl, rfl, rfl⟩

theorem Compared.trans (h : Compared b c) (k : Compared c t) : Compared b t :=
  ⟨k.sensors.trans h.sensors, k.safe.trans h.safe, k.qLevel.trans h.qLevel, k.qMax.trans h.qMax, k.start.trans h.start,
    k.sage.trans h.sage, k.pwr.trans h.pwr⟩

theorem emit_compared (mask : BitVec 16) (e : Ev) (b : Block) : Compared b (emit mask e b) := by
  have hquiet := (quietly_emit mask e b).1
  have hsage := emit_sage (b := b) mask e
  generalize emit mask e b = t at *
  constructor
  case sage => exact hsage
  all_goals rw [hquiet]

theorem compareZone_compared (z : Nat) (x : Int) (b : Block) : Compared b (compareZone z x b) := by
  unfold compareZone
  extract_lets old w warn c1
  have hmarked : Compared b c1 := ⟨rfl, rfl, rfl, rfl, rfl, rfl, rfl⟩
  clear_value c1
  split
  · exact hmarked
  · exact (hmarked.trans (c := c1) (t := rcSet (thmBase + 0xC) 0 c1) ⟨rfl, rfl, rfl, rfl, rfl, rfl, rfl⟩).trans (emit_compared _ _ _)

theorem compareZones_compared (temps : List (Nat × Int)) (b : Block) : Compared b (compareZones temps b) := by
  have hall : Compared b (temps.foldl (fun b t => compareZone t.1 t.2 b) b) :=
    List.foldlRecOn (motive := Compared b) _ _ (.refl b) fun c hc t _ => hc.trans (compareZone_compared t.1 t.2 c)
  unfold compareZones
  dsimp only
  split
  · exact hall.trans ⟨rfl, rfl, rfl, rfl, rfl, rfl, rfl⟩
  · exact hall

/-! ### What a sample takes of a sensor (R399, R402) -/

/-- What the results of a sample make of sensor `n`. -/
def sampledAs (results : List (Nat × BitVec 16)) (n : Nat) (b : Block) : Prop :=
  (∀ v, results.find? (fun r => r.1 == n) = some (n, v) → (sensorAt b n).value = v)
    ∧ (results.find? (fun r => r.1 == n) = none → (sensorAt b n).suspect = true)

theorem sampledAs_seen {results : List (Nat × BitVec 16)} {n : Nat} (h : seen n t = seen n b) (k : sampledAs results n b) :
    sampledAs results n t := by
  obtain ⟨hvalue, hsuspect⟩ := k
  have hread := congrArg Prod.fst h
  have hv : (sensorAt t n).value = (sensorAt b n).value := congrArg Prod.fst hread
  have hs : (sensorAt t n).suspect = (sensorAt b n).suspect := congrArg Prod.snd hread
  exact ⟨fun v hfind => hv.trans (hvalue v hfind), fun hnone => hs.trans (hsuspect hnone)⟩

theorem sensor_ne {n k : Nat} (hn : n < 192) (hk : k < 192) (hne : n ≠ k) : Fin.ofNat 192 n ≠ Fin.ofNat 192 k := fun h => hne (by
  have hmod : n % 192 = k % 192 := congrArg Fin.val h
  omega)

theorem sensorList_lt {k : Nat} (h : k ∈ sensorList) : k < 192 := List.mem_range.mp (List.mem_of_mem_filter h)

/-- The result of one sensor (R399). -/
def takeResult (results : List (Nat × BitVec 16)) (b : Block) (k : Nat) : Block :=
  match results.find? fun r => r.1 == k with
  | some r => modSensor k (fun x => { x with value := r.2 }) b
  | none => modSensor k (fun x => { x with suspect := true, strikes := 4 }) b

theorem takeResult_same (results : List (Nat × BitVec 16)) (k : Nat) (b : Block) : sampledAs results k (takeResult results b k) := by
  unfold takeResult
  split
  case h_1 r hfind =>
    refine ⟨fun v hv => ?_, fun hnone => absurd (hfind.symm.trans hnone) (Option.some_ne_none r)⟩
    have hr : r = (k, v) := Option.some.inj (hfind.symm.trans hv)
    rw [sensorAt_modSensor, hr]
  case h_2 hfind =>
    refine ⟨fun v hv => absurd (hv.symm.trans hfind) (Option.some_ne_none _), fun _ => ?_⟩
    rw [sensorAt_modSensor]

theorem takeResult_other (results : List (Nat × BitVec 16)) {n k : Nat} (h : Fin.ofNat 192 n ≠ Fin.ofNat 192 k) (b : Block) :
    sensorAt (takeResult results b k) n = sensorAt b n := by
  unfold takeResult
  split <;> exact sensorAt_modSensor_other h _ b

theorem takeResults_sampled (results : List (Nat × BitVec 16)) {n : Nat} (hn : n ∈ sensorList) (b : Block) :
    sampledAs results n (takeResults results b) := by
  suffices h : ∀ (l : List Nat) (b : Block), (∀ k ∈ l, k < 192) → (n ∈ l ∨ sampledAs results n b) →
      sampledAs results n (l.foldl (takeResult results) b) from h sensorList b (fun k => sensorList_lt) (Or.inl hn)
  intro l
  induction l with
  | nil => exact fun b _ h => h.resolve_left List.not_mem_nil
  | cons k l ih =>
    intro b hl h
    refine ih (takeResult results b k) (fun i hi => hl i (List.mem_cons_of_mem k hi)) ?_
    by_cases hk : n = k
    · exact Or.inr (hk ▸ takeResult_same results n b)
    · refine h.imp (fun hin => (List.mem_cons.mp hin).resolve_left hk) fun hdone => ?_
      have hother := takeResult_other results (sensor_ne (sensorList_lt hn) (hl k List.mem_cons_self) hk) b
      unfold sampledAs at hdone ⊢
      rwa [hother]

theorem judge_value (v m : Int) (x : Sensor) : (judge v m x).value = x.value := by
  unfold judge
  split <;> rfl

/-- A sensor is judged by its neighbours, a suspect one not. -/
theorem judgeSensors_sampled {results : List (Nat × BitVec 16)} {n : Nat} (h : sampledAs results n b) :
    sampledAs results n (judgeSensors b) := by
  have hkept : (sensorAt (judgeSensors b) n).value = (sensorAt b n).value
      ∧ ((sensorAt b n).suspect = true → (sensorAt (judgeSensors b) n).suspect = true) := by
    refine List.foldlRecOn (motive := fun c => (sensorAt c n).value = (sensorAt b n).value
      ∧ ((sensorAt b n).suspect = true → (sensorAt c n).suspect = true)) _ _ ⟨rfl, id⟩ fun c hc k _ => ?_
    split
    case isTrue => exact hc
    case isFalse htrusted =>
      split
      case h_2 => exact hc
      case h_1 m hm =>
        obtain ⟨hvalue, hsuspect⟩ := hc
        by_cases hk : Fin.ofNat 192 n = Fin.ofNat 192 k
        · have hat (c : Block) : sensorAt c n = sensorAt c k := congrArg (fun i : Fin 192 => c.thm.sensors[i]) hk
          refine ⟨?_, fun hs => absurd (hat b ▸ hs) htrusted⟩
          rw [hat, sensorAt_modSensor, judge_value, ← hat, hvalue]
        · rw [sensorAt_modSensor_other hk]
          exact ⟨hvalue, hsuspect⟩
  obtain ⟨hvalue, hsuspect⟩ := hkept
  exact ⟨fun v hv => hvalue.trans (h.1 v hv), fun hnone => hsuspect (h.2 hnone)⟩

/-! ### The steps of a sample -/

/-- The marks and the zones, once the sensors are judged. -/
theorem sampleZones_seen (results : List (Nat × BitVec 16)) (n : Nat) (b : Block) :
    seen n (sampleZones results b).2 = seen n (judgeSensors (takeResults results (takeClears b))) := by
  unfold sampleZones
  extract_lets c b1 b2 forms b3
  have h1 : seen n b1 = seen n (judgeSensors c) := noteSuspects_seen n c _
  have h2 : seen n b2 = seen n b1 := by
    unfold b2
    split <;> rfl
  have h3 : seen n b3 = seen n b2 := foldl_keep (seen n) (fun b (f : Nat × Int × Bool × Bool) => formZone f.1 f.2 b)
    (fun c f => formZone_seen n f.1 f.2 c) forms b2
  have h4 := foldl_keep (seen n) (fun b k => tellSuspect k b) (fun c k => tellSuspect_seen n k c) sensorList b3
  clear_value b3 forms b2 b1
  dsimp only
  exact h4.trans (h3.trans (h2.trans h1))

theorem sampleZones_sampled (results : List (Nat × BitVec 16)) {n : Nat} (hn : n ∈ sensorList) (b : Block) :
    sampledAs results n (sampleZones results b).2 :=
  sampledAs_seen (sampleZones_seen results n b) (judgeSensors_sampled (takeResults_sampled results hn _))

theorem levelZone_seen (n : Nat) (b0 : Block) (t : Nat × Int) (b : Block) : sensorAt (levelZone b0 t b) n = sensorAt b n := rfl

theorem levelQuad_sensor (n : Nat) (q : QuadId) (b : Block) : sensorAt (levelQuad q b) n = sensorAt b n := by
  unfold levelQuad
  extract_lets old z lvl m src c
  have hc : c.thm.sensors = b.thm.sensors := rfl
  clear_value c
  split
  · rw [sensorAt, hc, sensorAt]
  · rw [sensorAt, spared_thm (emit_spared _ _ _), sensorAt, ← hc]
    rfl

theorem sampleLevels_sensor (n : Nat) (temps : List (Nat × Int)) (b : Block) : sensorAt (sampleLevels temps b) n = sensorAt b n := by
  unfold sampleLevels
  rw [forAll_keep _ (fun c => sensorAt c n) _ (levelQuad_sensor n)]
  exact foldl_keep (fun c => sensorAt c n) (fun r (t : Nat × Int) => levelZone b t r) (fun c t => levelZone_seen n b t c) temps b

/-! ### The thermal safe state (R410, R414) -/

/-- The block as the thermal safe state begins: its trip is recorded, its event on its way. -/
def tripTold (z : Nat) (b : Block) : Block :=
  let b := rcSet (thmBase + 0xC) 4 (tripRecord z b)
  let e : Ev := { code := 0x0B03, lo := word [(z, 0), ((zoneAt b z).temp.toNat, 16)] }
  let b := (record (fs .thmTrip) 0x55 e.lo b).1
  forAll 16 (sendLastEvent (nmeOut b) e) b

/-- The block in the thermal safe state, before its ports go down. -/
def tripBegun (z : Nat) (b : Block) : Block :=
  let c := tripTold z b
  { c with
    thm := { c.thm with safe := true, safeAt := c.now, inStart := !b.start.done, resumeOk := false }
    clk := { c.clk with queue := [] } }

/-- The ports are down. -/
def tripDown (z : Nat) (b : Block) : Block :=
  portsDown (tripBegun z b).ports (fun code p b => portChange code p 2 0 b) (safePorts (cutBist (fun _ => true) (tripBegun z b)))

theorem thermalTrip_eq (z : Nat) (b : Block) : thermalTrip z b = tripStart (!b.start.done) (safeHeld (tripDown z b)) := by
  unfold thermalTrip tripDown tripBegun tripTold safeHeld
  dsimp only

theorem tripTold_spared (z : Nat) (b : Block) : spared (tripTold z b) = spared (tripRecord z b) := by
  unfold tripTold
  dsimp only
  rw [forAll_keep _ spared _ (fun p c => sendLastEvent_spared c _ _ p), record_spared, rcSet_spared]

theorem tripDown_spared (z : Nat) (b : Block) : spared (tripDown z b) = spared (tripBegun z b) := by
  unfold tripDown
  rw [portsDown_spared _ (fun code p c => portChange_spared c _ _ _ _), safePorts_spared, cutBist_spared]

theorem tripStart_thm (inStart : Bool) (b : Block) : (tripStart inStart b).thm = b.thm := by
  unfold tripStart
  split
  · exact spared_thm (stopBoot_spared _)
  · rfl

/-- What is left of Tarragon's state in a trip. -/
theorem thermalTrip_thm (z : Nat) (b : Block) : (thermalTrip z b).thm = (tripBegun z b).thm := by
  have hdown := spared_thm (tripDown_spared z b)
  rw [thermalTrip_eq, tripStart_thm]
  generalize tripDown z b = d at *
  exact hdown

theorem thermalTrip_keeps (z : Nat) (b : Block) : (thermalTrip z b).thm.safe = true ∧ (thermalTrip z b).thm.tripPin = true
    ∧ (thermalTrip z b).thm.qLevel = b.thm.qLevel ∧ (thermalTrip z b).thm.qMax = b.thm.qMax
    ∧ (thermalTrip z b).thm.sensors = b.thm.sensors := by
  have htold : (tripTold z b).thm = (tripRecord z b).thm := spared_thm (tripTold_spared z b)
  have hbegun : (tripBegun z b).thm = { (tripRecord z b).thm with
      safe := true, safeAt := (tripTold z b).now, inStart := !b.start.done, resumeOk := false } := by
    unfold tripBegun
    dsimp only
    rw [htold]
  rw [thermalTrip_thm, hbegun]
  exact ⟨rfl, rfl, rfl, rfl, rfl⟩

theorem tripStart_stage (b : Block) : (tripStart true b).start.stage = 12 := by
  rw [tripStart, if_pos rfl, stopBoot_start]

theorem tripStart_units (inStart : Bool) (b : Block) : (tripStart inStart b).chans = b.chans ∧ (tripStart inStart b).ports = b.ports := by
  unfold tripStart stopBoot
  split
  · split <;> exact ⟨rfl, rfl⟩
  · exact ⟨rfl, rfl⟩

theorem safeHeld_chans (b : Block) (c : ChanId) : (safeHeld b).chans[c].st ≠ .offline → (safeHeld b).chans[c].srWant = true := by
  have hchan : (safeHeld b).chans[c] = toSelfRefresh (fastestMult { b with engs := b.engs.map holdEngine }) b.chans[c] := by
    simp only [safeHeld, allToSelfRefresh, allChans, Fin.getElem_fin, Vector.getElem_map]
  rw [hchan]
  unfold toSelfRefresh
  split
  case isTrue hoff => exact fun h => absurd (beq_iff_eq.mp hoff) h
  case isFalse => exact fun _ => rfl

theorem portChange_moved (code : Nat) (q : PortId) (h : reactionOf b (fs .lnkDegrade) ≤ 2) : LinksMoved b (portChange code q 2 0 b)
    ∧ ∀ p : PortId, samePort b.ports[p] (portChange code q 2 0 b).ports[p] := raise_moved _ h

/-- Port changes whose reaction isolates nothing leave the ports' states. -/
theorem portsDown_st (before : Vector Port 16) (p : PortId) (hlow : reactionOf b (fs .lnkDegrade) ≤ 2) :
    (portsDown before (fun code p b => portChange code p 2 0 b) b).ports[p].st = b.ports[p].st := by
  have hchange {c : Block} (code : Nat) (q : PortId) (hc : LinksMoved b c ∧ samePort b.ports[p] c.ports[p]) :
      LinksMoved b (portChange code q 2 0 c) ∧ samePort b.ports[p] (portChange code q 2 0 c).ports[p] := by
    obtain ⟨hmoved, hports⟩ := portChange_moved code q ((hc.1.reaction _).trans_le hlow)
    exact ⟨hc.1.trans hmoved, samePort_trans hc.2 (hports p)⟩
  have hall : LinksMoved b (portsDown before (fun code p b => portChange code p 2 0 b) b)
      ∧ samePort b.ports[p] (portsDown before (fun code p b => portChange code p 2 0 b) b).ports[p] := by
    refine List.foldlRecOn (motive := fun c => LinksMoved b c ∧ samePort b.ports[p] c.ports[p]) _ _ ⟨.refl b, rfl⟩ fun c hc q _ => ?_
    dsimp only
    split
    · split
      · exact hchange _ q hc
      · exact hc
    · split
      · exact hc
      · exact hchange _ q hc
  generalize portsDown before (fun code p b => portChange code p 2 0 b) b = t at *
  rw [hall.2]

/-- The ports are down, as the reaction to their changes leaves them. -/
theorem tripDown_st (z : Nat) (p : PortId) (hlow : reactionOf b (fs .lnkDegrade) ≤ 2) : (tripDown z b).ports[p].st = safeSt p := by
  have htold : (tripTold z b).sage.react = (tripRecord z b).sage.react := spared_react (tripTold_spared z b)
  have hreact : (tripBegun z b).sage.react = b.sage.react := by
    unfold tripBegun
    dsimp only
    rw [htold]
    rfl
  unfold tripDown
  generalize tripBegun z b = c at *
  have hsafe : spared (safePorts (cutBist (fun _ => true) c)) = spared c := by rw [safePorts_spared, cutBist_spared]
  rw [portsDown_st _ p ((reactionOf_congr ((spared_react hsafe).trans hreact) _).trans_le hlow)]
  exact safePorts_st (cutBist (fun _ => true) c) p

/-! ### The sample as a whole -/

/-- What a commit of live sections leaves of Tarragon and of the start. -/
def sectionsKept (b t : Block) : Prop := t.thm = b.thm ∧ t.start = b.start

theorem emit_kept (mask : BitVec 16) (e : Ev) (b : Block) : sectionsKept b (emit mask e b) := by
  have hquiet := (quietly_emit mask e b).1
  generalize emit mask e b = t at *
  exact ⟨by rw [hquiet], by rw [hquiet]⟩

theorem commitSection_kept (k : Nat × List Byte) (b : Block) : sectionsKept b (commitSection k b) := by
  unfold commitSection
  dsimp only
  split
  · unfold loadClasses
    simp only [if_true]
    refine List.foldlRecOn (motive := sectionsKept b) _ _ ⟨rfl, rfl⟩ fun c hc i _ => hc
  · exact ⟨rfl, rfl⟩

theorem liveDone_kept (b : Block) : sectionsKept b (liveDone b) := by
  unfold liveDone
  split
  · exact ⟨rfl, rfl⟩
  · extract_lets src b1
    obtain ⟨hthm, hstart⟩ := emit_kept allMask { code := 0x0405, lo := b1.img.liveVer, hi := b1.img.liveBuild } b1
    exact ⟨hthm.trans rfl, hstart.trans rfl⟩

theorem commitLive_kept (f : Nat → Bool) (b : Block) : sectionsKept b (commitLive f b) := by
  have htrans {c t : Block} (h : sectionsKept b c) (k : sectionsKept c t) : sectionsKept b t := ⟨k.1.trans h.1, k.2.trans h.2⟩
  unfold commitLive
  extract_lets secs bits src b1 b2 b3
  split
  · exact ⟨rfl, rfl⟩
  · have h1 : sectionsKept b b1 := List.foldlRecOn (motive := sectionsKept b) _ _ ⟨rfl, rfl⟩
      fun c hc k _ => htrans hc (commitSection_kept k c)
    have h2 : sectionsKept b b2 := by
      unfold b2 noteClamps
      split <;> exact h1
    have h3 : sectionsKept b b3 := by
      unfold b3
      split
      · exact h2
      · exact htrans h2 (emit_kept _ _ _)
    exact htrans h3 (liveDone_kept b3)

theorem commitPlain_kept (base : Nat) (b : Block) : (commitPlain base b).thm = b.thm ∧ (commitPlain base b).start.done = b.start.done :=
  ⟨spared_thm (commitPlain_spared b base), spared_done (commitPlain_spared b base)⟩

theorem thermalSample_waits {results : List (Nat × BitVec 16)} (h : s.blk.start.step < 6 ∨ strobe 100000 s.blk = false) :
    thermalSample results s = s := by
  refine if_pos ?_
  rcases h with h | h <;> simp [h]

/-- The block as step 3 of a sample finds it. -/
def sampleBegun (b : Block) : Block := commitLive thmSection (commitPlain thmBase (useRegs thmBase b))

theorem sampleTrip_sensors (temps : List (Nat × Int)) (s : State) : (sampleTrip temps s).blk.thm.sensors = s.blk.thm.sensors := by
  unfold sampleTrip
  split
  · rfl
  · split
    · split <;> rfl
    · split
      · rfl
      · obtain ⟨-, -, -, -, hsensors⟩ := thermalTrip_keeps (Prod.fst _) (exitWith [] s).blk
        dsimp only
        rw [State.upd_blk, hsensors, exitWith_thm]

/-- A sample's steps 4 to 10 leave the sensors. -/
theorem thermalSample_sensors (results : List (Nat × BitVec 16)) (hstep : 6 ≤ s.blk.start.step) (hstrobe : strobe 100000 s.blk = true)
    (n : Nat) : sensorAt (thermalSample results s).blk n = sensorAt (sampleZones results (sampleBegun s.blk)).2 n := by
  have hgo : ¬ (s.blk.start.step < 6 || !strobe 100000 s.blk) = true := by
    simp [hstrobe, Nat.not_lt.mpr hstep]
  unfold thermalSample
  rw [if_neg hgo]
  extract_lets b z old s1 b1 b2
  have htrip : b1.thm.sensors = z.2.thm.sensors := (sampleTrip_sensors _ _).trans (compareZones_compared z.1 z.2).sensors
  have hat : sensorAt b1 n = sensorAt z.2 n := congrArg (fun v : Vector Sensor 192 => v[Fin.ofNat 192 n]) htrip
  have hlevels : sensorAt b2 n = sensorAt b1 n := by
    unfold b2
    split
    · rfl
    · rw [sensorAt, spared_thm (sampleSorrel_spared _)]
      exact sampleLevels_sensor n z.1 b1
  split
  · exact hat
  · exact hlevels.trans hat

/-- The clear of one sensor's mark (R404). -/
def clearSensor (b : Block) (n : Nat) : Block :=
  if b.thm.clr.getLsbD n then modSensor n (fun x => { x with suspect := false, strikes := 0, told := false }) b else b

theorem takeClears_eq (b : Block) : takeClears b = { (List.range 192).foldl clearSensor b with
    thm := { ((List.range 192).foldl clearSensor b).thm with clr := 0 } } := rfl

/-- Taking the results of a sample and judging them changes sensors only. -/
theorem judged_view (results : List (Nat × BitVec 16)) (b : Block) :
    tripView (judgeSensors (takeResults results (takeClears b))) = tripView b := by
  have hclears : tripView (takeClears b) = tripView b := by
    have hfold := foldl_keep tripView clearSensor (fun c k => by unfold clearSensor; split <;> rfl) (List.range 192) b
    rw [takeClears_eq]
    generalize (List.range 192).foldl clearSensor b = c at *
    exact hfold
  have hresults (c : Block) : tripView (takeResults results c) = tripView c := by
    refine foldl_keep tripView (takeResult results) (fun c k => ?_) _ c
    unfold takeResult
    split <;> rfl
  have hjudge (c : Block) : tripView (judgeSensors c) = tripView c := by
    refine foldl_keep tripView _ (fun r k => ?_) sensorList c
    split
    · rfl
    · split <;> rfl
  rw [hjudge, hresults, hclears]

/-- The safe state and the start as step 3 of a sample leaves them. -/
theorem sampleZones_view (results : List (Nat × BitVec 16)) (b : Block) :
    (sampleZones results b).2.thm.safe = b.thm.safe ∧ (sampleZones results b).2.start.done = b.start.done := by
  have hseen : tripView (sampleZones results b).2 = tripView b :=
    (congrArg Prod.snd (sampleZones_seen results 0 b)).trans (judged_view results b)
  exact ⟨congrArg (fun v => v.1) hseen, congrArg (fun v => v.2.2.2) hseen⟩

theorem sampleBegun_view (hpar : b.regs.badPar = []) :
    (sampleBegun b).thm.safe = b.thm.safe ∧ (sampleBegun b).start.done = b.start.done := by
  obtain ⟨hthm, hdone⟩ := commitPlain_kept thmBase b
  obtain ⟨lthm, lstart⟩ := commitLive_kept thmSection (commitPlain thmBase b)
  rw [sampleBegun, useRegs_clean hpar, lthm, lstart, hthm, hdone]
  exact ⟨rfl, rfl⟩

/-- A sample in P0 that finds a zone at its shutdown threshold enters the thermal safe state, and does no more. -/
theorem thermalSample_trips {results : List (Nat × BitVec 16)} {temps : List (Nat × Int)} {c : Block}
    (hstep : 6 ≤ s.blk.start.step) (hstrobe : strobe 100000 s.blk = true) (hbegun : (sampleBegun s.blk).thm.safe = false)
    (hzones : sampleZones results (sampleBegun s.blk) = (temps, c)) (hsafe : c.sage.safe = false) (hcool : c.thm.safe = false)
    (hstate : c.pwr.state = 0) {z : Nat × Int} (htrip : tripZone (compareZones temps c) temps = some z) :
    thermalSample results s = s.upd (thermalTrip z.1 (compareZones temps c)) := by
  have hgo : ¬ (s.blk.start.step < 6 || !strobe 100000 s.blk) = true := by
    simp [hstrobe, Nat.not_lt.mpr hstep]
  have hcompared := compareZones_compared temps c
  have hsample : sampleTrip temps (s.upd (compareZones temps c)) = s.upd (thermalTrip z.1 (compareZones temps c)) := by
    have hp0 : (s.upd (compareZones temps c)).blk.pwr.state = 0 := by
      rw [State.upd_blk, hcompared.pwr, hstate]
    unfold sampleTrip
    rw [State.upd_blk, htrip]
    dsimp only
    rw [hcompared.sage, hcompared.safe, hsafe, hcool, if_neg Bool.false_ne_true, if_neg Bool.false_ne_true, exitWith, if_pos hp0]
    rfl
  obtain ⟨htripped, -⟩ := thermalTrip_keeps z.1 (compareZones temps c)
  have hfold : commitLive thmSection (commitPlain thmBase (useRegs thmBase s.blk)) = sampleBegun s.blk := rfl
  unfold thermalSample
  rw [if_neg hgo, hfold]
  dsimp only
  rw [hzones]
  dsimp only
  rw [hsample, State.upd_blk, htripped, hbegun]
  rfl

end Sys2Proof.Machine
end

section
open Sys2Proof Sys2Proof.Machine

/-- Settles O36: each step of a sample leaves the readings that step 3 took and judged (`sampleZones_sampled`,
`thermalSample_sensors`); a trip in P0 is an equation (`thermalSample_trips`), whose ports are down (`tripDown_st`). -/
theorem thermalSamplesAndLevels : Obligations.ThermalSamplesAndLevels := by
  unfold Obligations.ThermalSamplesAndLevels
  refine ⟨fun results s => ⟨fun hwait => ?waits, fun hstep hstrobe => ?sensors, fun hstep hstrobe hpar hsafe hcool hstate => ?trips⟩,
    fun c t thr hyst lvl => ?level⟩
  case waits => exact congrArg Host.Outcome.next (thermalSample_waits hwait)
  case sensors =>
    refine ⟨thermalSample results s, rfl, (exec_evolves (.thermalSample results) s _ rfl).1, fun n hn hpresent => ?_⟩
    · have hmem : n ∈ sensorList := List.mem_filter.mpr ⟨List.mem_range.mpr hn, hpresent⟩
      have hsampled := sampleZones_sampled results hmem (sampleBegun s.blk)
      unfold sampledAs at hsampled
      rw [← thermalSample_sensors results hstep hstrobe n] at hsampled
      exact hsampled
  case trips =>
    intro z hzsafe hzstate hlow htrip
    have hclean : commitLive thmSection (commitPlain thmBase s.blk) = sampleBegun s.blk := by
      rw [sampleBegun, useRegs_clean hpar]
    have hz : z = sampleZones results (sampleBegun s.blk) := congrArg (sampleZones results) hclean
    clear_value z
    subst hz
    obtain ⟨hbegun, hdone⟩ := sampleBegun_view hpar
    obtain ⟨hview, hstart⟩ := sampleZones_view results (sampleBegun s.blk)
    generalize hzones : sampleZones results (sampleBegun s.blk) = z at *
    obtain ⟨temps, c⟩ := z
    obtain ⟨zone, hzone⟩ := Option.isSome_iff_exists.mp htrip
    have hcompared := compareZones_compared temps c
    obtain ⟨tsafe, tpin, tlevel, tmax, -⟩ := thermalTrip_keeps zone.1 (compareZones temps c)
    obtain ⟨tchans, tports⟩ := tripStart_units (!(compareZones temps c).start.done) (safeHeld (tripDown zone.1 (compareZones temps c)))
    rw [← thermalTrip_eq] at tchans tports
    have hports (p : PortId) : (thermalTrip zone.1 (compareZones temps c)).ports[p].st = safeSt p := by
      have hst := tripDown_st (b := compareZones temps c) zone.1 p
        ((reactionOf_congr (congrArg Sage.react hcompared.sage) _).trans_le hlow)
      generalize thermalTrip zone.1 (compareZones temps c) = t at *
      generalize tripDown zone.1 (compareZones temps c) = d at *
      rw [tports]
      exact hst
    have hstage (hstarting : s.blk.starting = true) : (thermalTrip zone.1 (compareZones temps c)).start.stage = 12 := by
      have hnot : s.blk.start.done = false := by
        simp only [Block.starting, Bool.and_eq_true, Bool.not_eq_true'] at hstarting
        exact hstarting.1.1.1.2
      have hgoing : (compareZones temps c).start.done = false := by
        rw [hcompared.start]
        exact hstart.trans (hdone.trans hnot)
      rw [thermalTrip_eq, hgoing, Bool.not_false, tripStart_stage]
    have hwant (k : ChanId) : (thermalTrip zone.1 (compareZones temps c)).chans[k].st ≠ .offline →
        (thermalTrip zone.1 (compareZones temps c)).chans[k].srWant = true := by
      generalize thermalTrip zone.1 (compareZones temps c) = t at *
      generalize tripDown zone.1 (compareZones temps c) = d at *
      rw [tchans]
      exact safeHeld_chans d k
    have hrow := thermalSample_trips hstep hstrobe (hbegun.trans hcool) hzones hzsafe (hview.trans (hbegun.trans hcool)) hzstate hzone
    generalize thermalTrip zone.1 (compareZones temps c) = t at *
    exact ⟨_, congrArg Host.Outcome.next hrow, rfl, tsafe, tpin, hports 0, fun p hp => (hports p).trans (if_neg fun h => hp (Fin.ext h)),
      tlevel.trans hcompared.qLevel, tmax.trans hcompared.qMax, hstage, hwant⟩
  case level =>
    intro up down
    have hlevel : zoneLevel c t thr hyst lvl = if up > lvl then up else min down lvl := rfl
    rw [hlevel]
    refine ⟨fun h => if_pos h, fun h k => ?_, fun h k => ?_⟩
    · rw [if_neg (Nat.not_lt.mpr h)]
      exact Nat.min_eq_right k
    · rw [if_neg (Nat.not_lt.mpr h)]
      exact Nat.min_eq_left k.le

end

section
/-! SUPPORT. Running pieces of operations and how they end (R362 to R364): the table of descriptors with one piece changed, the end of
a piece, and the write of a FILL. -/

namespace Sys2Proof.Machine

open Sys2Proof

variable {b t : Block} {s : State} {id i e : Nat} {d : Desc} {x y : Piece} {st : Status}

/-! ### One descriptor of the table -/

/-- What is found among all is found among those that a filter keeps, if the filter keeps it. -/
theorem find?_filter_kept {α : Type} {p q : α → Bool} {a : α} {l : List α} (h : l.find? p = some a) (hq : q a = true) :
    (l.filter q).find? p = some a := by
  induction l with
  | nil => cases h
  | cons c t ih =>
    by_cases hc : p c = true
    · obtain rfl : c = a := by simpa [hc] using h
      simp [hq, hc]
    · have ht : t.find? p = some a := by simpa [hc] using h
      by_cases hqc : q c = true
      · simp [hqc, hc, ih ht]
      · simp [hqc, ih ht]

/-- The number of a descriptor names no other. -/
structure Names (b : Block) (id : Nat) (d : Desc) : Prop where
  found : descOf b id = some d
  only : ∀ e ∈ b.ops.descs, e.id = id → e = d

theorem Names.modDesc {f : Desc → Desc} (h : Names b id d) (hid : ∀ e, (f e).id = e.id) : Names (modDesc id f b) id (f d) := by
  refine ⟨descOf_modDesc h.found hid, fun e he hne => ?_⟩
  obtain ⟨e', he', rfl⟩ := List.mem_map.mp he
  by_cases hi : e'.id = id
  · rw [if_pos hi, h.only e' he' hi]
  · rw [if_neg hi] at hne
    exact absurd hne hi

theorem Names.congr (h : Names b id d) (hops : t.ops.descs = b.ops.descs) : Names t id d :=
  ⟨by rw [descOf, hops]; exact h.found, by rw [hops]; exact h.only⟩

/-- A descriptor that is written back as it is. -/
theorem modDesc_self {f : Desc → Desc} (h : Names b id d) (hf : f d = d) : modDesc id f b = b := by
  have hmap : (b.ops.descs.map fun e => if e.id = id then f e else e) = b.ops.descs := by
    refine (List.map_congr_left fun e he => ?_).trans (List.map_id _)
    by_cases hi : e.id = id
    · rw [if_pos hi, h.only e he hi, hf]; rfl
    · exact if_neg hi
  rw [modDesc, hmap]

theorem pieceOf_some (h : descOf b id = some d) (hx : d.pieces[i]? = some x) : pieceOf b id i = some x := by
  have hfind : b.ops.descs.find? (fun d => d.id == id) = some d := h
  rw [pieceOf, hfind]
  exact hx

/-- A changed piece of a list stands in its place. -/
theorem modify_set {α : Type} {l : List α} {a : α} (f : α → α) (h : l[i]? = some a) : l.modify i f = l.set i (f a) := by
  rw [List.modify_eq_set_getElem?, h]
  rfl

theorem mem_modify {α : Type} {l : List α} {f : α → α} {a : α} (h : a ∈ l.modify i f) : a ∈ l ∨ ∃ c ∈ l, a = f c := by
  obtain ⟨n, hn⟩ := List.mem_iff_getElem?.mp h
  rw [List.getElem?_modify] at hn
  obtain ⟨c, hc, rfl⟩ := Option.map_eq_some_iff.mp hn
  have hmem := List.mem_of_getElem? hc
  by_cases hi : i = n
  · exact .inr ⟨c, hmem, by rw [if_pos hi]⟩
  · exact .inl (by rw [if_neg hi]; exact hmem)

/-! ### Pieces that wait for an engine -/

theorem bestBy_none {α : Type} {better : α → α → Bool} {l : List α} : bestBy better l = none ↔ l = [] := by
  cases l <;> simp [bestBy]

theorem waitingPiece_none_iff : waitingPiece b e = none ↔ ∀ d ∈ b.ops.descs, ∀ x ∈ d.pieces, x.st = .waiting → x.eng ≠ e := by
  rw [waitingPiece, Option.map_eq_none_iff, bestBy_none, waitingPieces, List.flatMap_eq_nil_iff]
  refine forall₂_congr fun d _ => ?_
  rw [List.map_eq_nil_iff, List.filter_eq_nil_iff]
  constructor
  · intro h x hx hst heng
    obtain ⟨n, hn⟩ := List.mem_iff_getElem?.mp hx
    exact h (x, n) (List.mk_mem_zipIdx_iff_getElem?.mpr hn) (by simp [hst, heng])
  · intro h x hx hboth
    obtain ⟨hst, heng⟩ : x.1.st = .waiting ∧ x.1.eng = e := by simpa using hboth
    exact h x.1 (List.fst_mem_of_mem_zipIdx hx) hst heng

/-- No piece comes to wait where a descriptor is changed to one with no more pieces that do. -/
theorem waitingPiece_modDesc {f : Desc → Desc}
    (hf : ∀ d ∈ b.ops.descs, d.id = id → ∀ x ∈ (f d).pieces, x ∈ d.pieces ∨ x.st ≠ .waiting) (h : waitingPiece b e = none) :
    waitingPiece (modDesc id f b) e = none := by
  rw [waitingPiece_none_iff] at h ⊢
  intro d hd x hx hst
  obtain ⟨d', hd', rfl⟩ := List.mem_map.mp hd
  by_cases hi : d'.id = id
  · rw [if_pos hi] at hx
    obtain hold | hnew := hf d' hd' hi x hx
    · exact h d' hd' x hold hst
    · exact absurd hst hnew
  · rw [if_neg hi] at hx
    exact h d' hd' x hx hst

/-- No piece comes to wait where descriptors leave the table. -/
theorem waitingPiece_subset (hsub : ∀ d ∈ t.ops.descs, d ∈ b.ops.descs) (h : waitingPiece b e = none) : waitingPiece t e = none := by
  rw [waitingPiece_none_iff] at h ⊢
  exact fun d hd => h d (hsub d hd)

/-! ### The end of a piece -/

/-- A piece that has ended as the `n`-th to arrive at the lead engine. -/
def endedAs (st : Status) (n : Nat) (x : Piece) : Piece := { x with st := .ended, status := st, arrival := n }

theorem endPiece_eq (id i : Nat) (st : Status) (b : Block) : ∃ engs,
    endPiece id i st b
        = modPiece id i (endedAs st b.ops.arrivals) { b with engs, ops := { b.ops with arrivals := b.ops.arrivals + 1 } }
      ∧ ∀ e : EngId, { engs[e] with evq := b.engs[e].evq } = b.engs[e] := by
  obtain ⟨engs, hpost, hevq⟩ := postPiece_eq id 0 4 [] b
  by_cases hi : i = 0
  · exact ⟨b.engs, by simp only [endPiece, hi, if_true]; rfl, fun _ => rfl⟩
  · refine ⟨engs, ?_, hevq⟩
    simp only [endPiece, hi, if_false, hpost]
    rfl

theorem leaveCtx_left (e id i : Nat) (b : Block) (k : Fin 6) : (leaveCtx e id i b).engs[eid e].ctx[k].work ≠ .piece id i := by
  rw [leaveCtx, modEng_same]
  simp only [Fin.getElem_fin, Vector.getElem_map]
  split
  · exact Work.noConfusion
  · assumption

/-- From `b` to `t` piece `i` of descriptor `id` has ended and left its context; what is not about operations and engines stays. -/
structure PieceEnded (id i e : Nat) (d : Desc) (y : Piece) (b t : Block) : Prop where
  rest : t = { b with ops := t.ops, engs := t.engs }
  found : descOf t id = some { d with pieces := d.pieces.set i y }
  left : ∀ k : Fin 6, t.engs[eid e].ctx[k].work ≠ .piece id i

/-- A piece ends where its engine has nothing else to start (R362). -/
theorem finishPiece_ended (h : Names b id d) (hx : d.pieces[i]? = some x) (hrun : d.st = .running)
    (hqueue : b.engs[eid e].queue = []) (hwait : waitingPiece b e = none) :
    PieceEnded id i e d (endedAs st b.ops.arrivals x) b (finishPiece id i st e b) := by
  obtain ⟨engs, hend, hevq⟩ := endPiece_eq id i st (leaveCtx e id i b)
  set c := endPiece id i st (leaveCtx e id i b) with hc
  set u : Block := { c with ops := { c.ops with descs := c.ops.descs.filter fun d => !d.over } } with hu
  have hcengs : c.engs = engs := by rw [hend]; rfl
  have hdescs : c.ops.descs = (modPiece id i (endedAs st b.ops.arrivals) b).ops.descs := by rw [hend]; rfl
  have hidle : kickEngine e u = u := by
    refine kickEngine_none ?_ ?_
    · refine waitingPiece_subset (b := modPiece id i (endedAs st b.ops.arrivals) b) (fun d hd => ?_)
        (waitingPiece_modDesc (fun d _ _ x hx => ?_) hwait)
      · rw [← hdescs]
        exact List.mem_of_mem_filter hd
      · exact (mem_modify hx).imp_right fun ⟨_, _, hy⟩ => hy ▸ PcState.noConfusion
    · have hempty : u.engs[eid e].queue = [] := by
        have hsame := congrArg Eng.queue (hevq (eid e))
        rw [show u.engs = engs from hcengs]
        exact hsame.trans (by rw [leaveCtx, modEng_same]; exact hqueue)
      rw [nextPiece, hempty]
      rfl
  have hfinish : finishPiece id i st e b = u := hidle
  have hfound : descOf c id = some { d with pieces := d.pieces.set i (endedAs st b.ops.arrivals x) } := by
    have hmod := descOf_modDesc (f := fun d => { d with pieces := d.pieces.modify i (endedAs st b.ops.arrivals) }) h.found
      fun _ => rfl
    rw [modify_set _ hx] at hmod
    rw [descOf, hdescs]
    exact hmod
  rw [hfinish]
  refine ⟨?_, find?_filter_kept hfound ?_, fun k => ?_⟩
  · rw [hu, hend]; rfl
  · simp [Desc.over, hrun]
  · have hctx : u.engs[eid e].ctx = (leaveCtx e id i b).engs[eid e].ctx := by
      rw [show u.engs = engs from hcengs]
      have hsame := congrArg Eng.ctx (hevq (eid e))
      exact hsame
    rw [hctx]
    exact leaveCtx_left e id i b k

/-! ### PIECE_END -/

/-- Piece `i` of descriptor `id` runs, of a descriptor and on an engine that run. -/
structure PieceRuns (id i : Nat) (d : Desc) (x : Piece) (s : State) : Prop where
  names : Names s.blk id d
  piece : d.pieces[i]? = some x
  desc : d.st = .running
  run : x.st = .running
  engine : s.blk.engs[eid x.eng].st = .run

/-- A piece that does not run, or whose engine does not, stays (R362). -/
theorem pieceDone_stays (h : descOf s.blk id = some d) (hx : d.pieces[i]? = some x)
    (hidle : x.st ≠ .running ∨ s.blk.engs[eid x.eng].st ≠ .run) (errs : List LineErr) : pieceDone id i errs s = s := by
  simp only [pieceDone, pieceOf_some h hx, hidle, if_true]

/-- A piece of a channel that is OFFLINE ends (R342, R362). -/
theorem pieceDone_offline (h : PieceRuns id i d x s) (hoff : s.blk.chans[cid (segChan x.pseg)].st = .offline) (errs : List LineErr) :
    pieceDone id i errs s = s.upd (finishPiece id i .channelOffline x.eng s.blk) := by
  obtain ⟨hnames, hx, -, hrun, heng⟩ := h
  simp only [pieceDone, pieceOf_some hnames.found hx, hrun, heng, hoff, ne_eq, not_true_eq_false, or_self, if_true, if_false]

/-- A piece that runs goes on, and ends when it is over (R362, R364). -/
theorem pieceDone_goes (h : PieceRuns id i d x s) (hon : s.blk.chans[cid (segChan x.pseg)].st ≠ .offline) {errs : List LineErr}
    {u : State} (hgoes : advancePiece id i errs s = u) (hy : pieceOf u.blk id i = some y) :
    pieceDone id i errs s = if pieceOver u.blk id i y then u.upd (finishPiece id i y.status y.eng u.blk) else u := by
  obtain ⟨hnames, hx, -, hrun, heng⟩ := h
  simp only [pieceDone, pieceOf_some hnames.found hx, hrun, heng, hon, ne_eq, not_true_eq_false, or_self, if_false, hgoes, hy]

/-- What a running piece of an engine that runs makes of the state. -/
theorem advancePiece_runs (h : PieceRuns id i d x s) (hon : s.blk.chans[cid (segChan x.pseg)].st ≠ .offline) {errs : List LineErr}
    {r : Work1} (hr : runPiece d { s := s, pc := x, i := i, scat := d.scat, errs := errs } = r) :
    advancePiece id i errs s
      = r.s.upd (modDesc id (fun e => { e with scat := r.scat, pieces := e.pieces.set i r.pc }) r.s.blk) := by
  obtain ⟨hnames, hx, -, hrun, heng⟩ := h
  simp only [advancePiece, hnames.found, hx, Option.bind_some, Option.map_some, hrun, heng, hon, ne_eq, not_true_eq_false, or_self,
    if_false, hr]

/-- A piece that is at its end has nothing more to do. -/
theorem advancePiece_fin (h : PieceRuns id i d x s) (hon : s.blk.chans[cid (segChan x.pseg)].st ≠ .offline) (hfin : x.fin = true)
    (errs : List LineErr) : advancePiece id i errs s = s := by
  have hsame : d.pieces.set i x = d.pieces := by
    obtain ⟨hlt, rfl⟩ := List.getElem?_eq_some_iff.mp h.piece
    exact List.set_getElem_self hlt
  rw [advancePiece_runs h hon (if_pos hfin)]
  exact congrArg s.upd (modDesc_self h.names (by rw [hsame]))

/-! ### Operations of one line -/

/-- A piece of one line in one segment works at offset 0 (R362). -/
theorem pieceOffs_one {w : BitVec 512} (hop : dOp w = 2 ∨ dOp w = 9) (hcount : dCount w = 1) (hseg : x.lseg = dLine w / 1024) :
    pieceOffs b w x = (0, 1) := by
  have hspan : pieceSpan b w = (dLine w, dLine w) := by
    obtain h | h := hop <;> simp [pieceSpan, listOp, usesRange, h, hcount]
  have howner : ownerFmt b (dOp w) = none := by
    obtain h | h := hop <;> exact ownerFmt_none (by rw [h]; decide) b
  simp only [pieceOffs, hspan, howner, hseg, Bool.false_eq_true, if_false, Prod.mk.injEq]
  omega

/-- An operation of one line, all of which is known, is at its end (R382). -/
theorem runSteps_one {f : Work1 → Nat → Work1} {r q : Work1} (hwait : r.wait = false) (hat : r.pc.at_ = none)
    (hq : f { r with ans := r.pc.log } 0 = q) (hgoes : q.wait = false) :
    runSteps d f 0 1 r = { q with pc := { q.pc with pos := 1, log := [], fin := true } } := by
  have hheld : writeHeld r.s.blk d.id r.i r.pc = false := by simp only [writeHeld, hat]
  have hstep : runStep d f r 0 = { q with pc := { q.pc with pos := 1, log := [] } } := by
    rw [runStep, if_neg (by simp [hwait]), if_neg (by simp [hheld])]
    subst hq
    exact if_neg (by simp [hgoes])
  have hfold : (List.range (1 - 0)).foldl (fun r i => runStep d f r (0 + i)) r = runStep d f r 0 := rfl
  rw [runSteps, hfold, hstep]
  exact if_neg (by simp [hgoes])

/-! ### A write of an engine -/

section EngineWrite
variable {c g l : Nat} {a : Acc} {v : Stored}

/-- From `b` to `t` the write queue of channel `c` has come to hold one write alone; what is not about channels, Sorrel's and Savory's
records and the engines' own counts and events stays. -/
structure WroteAlone (c pla : Nat) (v : Stored) (b t : Block) : Prop where
  rest : t = { b with chans := t.chans, srl := t.srl, sav := t.sav, engs := t.engs }
  wq : (t.chans[cid c].wq.map fun a => (a.pla, a.data)) = [(pla, v)]
  xbar : t.chans[cid c].xbar = b.chans[cid c].xbar
  fills : t.chans[cid c].fills = b.chans[cid c].fills
  others : ∀ f, f ≠ cid c → t.chans[f] = b.chans[f]
  queue : ∀ f : EngId, t.engs[f].queue = b.engs[f].queue

theorem queue_modEng {e : EngId} {f : Eng → Eng} (hf : ∀ x, (f x).queue = x.queue) (g : EngId) :
    (modEng e f b).engs[g].queue = b.engs[g].queue := by
  by_cases hg : g = e
  · subst hg
    rw [modEng_same, hf]
  · rw [modEng_other b f hg]

theorem countEngLine_eq (id i : Nat) (b : Block) : ∃ engs, countEngLine id i b = { b with engs }
    ∧ ∀ f : EngId, engs[f].queue = b.engs[f].queue := by
  unfold countEngLine
  split
  next x _ =>
    exact ⟨_, rfl, queue_modEng (e := eid x.eng) (f := fun e => { e with lines := e.lines + 1 }) fun _ => rfl⟩
  · exact ⟨b.engs, rfl, fun _ => rfl⟩

theorem enterOne_engWrite (h : a.src = .engWrite id i) {x : Chan} (hwq : x.wq = []) :
    (enterOne a x).wq = [{ a with ord := x.ord }] ∧ (enterOne a x).xbar = x.xbar ∧ (enterOne a x).fills = x.fills := by
  simp [enterOne, Acc.isRead, Acc.isMasked, Acc.overrides, h, supersede, queuedWrite, hwq]

/-- A write of an engine that enters an empty write queue in time is served there (R33, R269). -/
theorem enterLine_engWrite (h : a.src = .engWrite id i) (hwq : b.chans[cid c].wq = []) (hlate : b.now - a.arr ≤ target b a.cls) :
    WroteAlone c a.pla a.data b (enterLine c a b) := by
  have hread : a.isRead = false := by simp [Acc.isRead, h]
  have hdrop : dropsNow b.chans[cid c] a = false := by simp [dropsNow, Acc.conditional, h]
  have hover : a.overrides = true := by simp [Acc.overrides, h]
  have hserve : Tallied (cid c) (modChan (cid c) (enterOne a) b)
      (serveLine c a.cls a.pseg none (modChan (cid c) (enterOne a) b)) := tallied_serveLine _ _ _ _ _
  generalize hu : serveLine c a.cls a.pseg none (modChan (cid c) (enterOne a) b) = u at hserve
  obtain ⟨engs, hcount, hlines⟩ := countEngLine_eq id i u
  have hnote : Tallied (cid c) (countEngLine id i u) (noteLine a (countEngLine id i u)) := tallied_noteLine _ _ _
  generalize hw : noteLine a (countEngLine id i u) = w at hnote
  have htime : w.time = b.time := by rw [hnote.time, hcount]; exact hserve.time
  have hregs : w.regs = b.regs := by rw [hnote.regs, hcount]; exact hserve.regs
  have hend : endLatency c a.cls a.arr a.inGrant w = w := by
    rw [endLatency, show w.now = b.now from congrArg BitVec.toNat htime, target_congr hregs, if_neg (Nat.not_lt.mpr hlate)]
  obtain ⟨engs', hpost, hevq⟩ := postPiece_eq id i 2 [] w
  have hentered : enterLine c a b = { w with engs := engs' } := by
    simp only [enterLine, hread, hdrop, hover, countServed, engWritten, h, if_true, Bool.false_eq_true, if_false, hu, hw, hend, hpost]
  obtain ⟨hqueue, hxbar, hfills⟩ := enterOne_engWrite (x := b.chans[cid c]) h hwq
  obtain ⟨hb, hothers, hc⟩ := hserve
  obtain ⟨kb, kothers, kc⟩ := hnote
  rw [hcount] at kb kothers kc
  rw [hentered]
  have hchan : w.chans[cid c] = { enterOne a b.chans[cid c] with lines := w.chans[cid c].lines, nWq := w.chans[cid c].nWq } := by
    rw [kc, show ({ u with engs } : Block).chans[cid c] = u.chans[cid c] from rfl, hc, modChan_same]
  refine ⟨?_, ?_, ?_, ?_, fun f hf => ?_, fun f => ?_⟩
  · rw [kb, hb]; rfl
  · show w.chans[cid c].wq.map _ = _
    rw [hchan, hqueue]; rfl
  · show w.chans[cid c].xbar = _
    rw [hchan, hxbar]
  · show w.chans[cid c].fills = _
    rw [hchan, hfills]
  · exact (kothers f hf).trans ((hothers f hf).trans (modChan_other b _ hf))
  · have hq := congrArg Eng.queue (hevq f)
    have hwengs : w.engs = engs := by rw [kb]
    have huengs : u.engs = b.engs := by rw [hb]; rfl
    rw [hwengs] at hq
    exact hq.trans ((hlines f).trans (by rw [huengs]))

theorem fits_engWrite {x : Chan} (h : a.src = .engWrite id i) (hrq : x.rq = []) (hwq : x.wq = []) (hflight : x.inflight = []) :
    fits x [a] = true := by
  simp [fits, accRq, accWq, Acc.isRead, Acc.isMasked, h, rqUsed, wqUsed, hrq, hwq, hflight]

/-- A write of an engine goes through the crossbar of a channel where nothing waits (R291). -/
theorem submit_engWrite (h : a.src = .engWrite id i) (hrq : b.chans[cid c].rq = []) (hwq : b.chans[cid c].wq = [])
    (hflight : b.chans[cid c].inflight = []) (hxbar : b.chans[cid c].xbar = []) (hlate : b.now - a.arr ≤ target b a.cls) :
    WroteAlone c a.pla a.data b (submit c [a] none none b) := by
  obtain ⟨v, sav, hgrant⟩ := grantLines_eq c (crossed b.now b.chans[cid c]) [a] (modChan (cid c) (crossed b.now) b)
  have hadm := admitted_chan c none sav b
  have hsubmit : submit c [a] none none b = enterLine c (numbered b.chans[cid c].ord v a) (admitted c none sav b) := by
    have hdone : awaitFill c { lines := [a] } (modChan (cid c) (crossed b.now) b) = modChan (cid c) (crossed b.now) b :=
      awaitFill_none fun e he => by rw [List.mem_singleton.mp he, doneOf, h]
    rw [submit_alone none none hxbar (fits_engWrite h hrq hwq hflight)]
    unfold enterAll
    rw [releaseCred, hdone, modChan_same, hgrant]
    rfl
  have hwrote := enterLine_engWrite (c := c) (b := admitted c none sav b) (a := numbered b.chans[cid c].ord v a) h
    (by rw [hadm]; exact hwq) hlate
  rw [hsubmit]
  obtain ⟨hrest, hqueue, hx, hfills, hothers, hengs⟩ := hwrote
  refine ⟨?_, hqueue, ?_, ?_, fun f hf => (hothers f hf).trans (admitted_chan_other c none sav b hf), hengs⟩
  · rw [hrest]; rfl
  · rw [hx, hadm, hxbar]; rfl
  · rw [hfills, hadm]; rfl

/-! ### FILL of one line -/

/-- The data of a FILL: eight copies of operand A (R353). -/
def fillLine (w : BitVec 512) : Line := BitVec.ofNat 512 (((List.range 8).map fun k => (dOpa w).toNat <<< (64 * k)).sum)

/-- A piece once the one line that it writes has gone to a channel where no fill runs. -/
def wroteLine (c : Nat) (x : Piece) : Piece := { x with at_ := some c, fills := [], pos := 1, log := [], fin := true }

/-- A FILL of one line that stands at it (R353, R362). -/
structure AtFillLine (w : BitVec 512) (x : Piece) : Prop where
  fin : x.fin = false
  noWrite : x.at_ = none
  noFill : x.fills = []
  pos : x.pos = 0
  op : dOp w = 2
  count : dCount w = 1
  seg : x.lseg = dLine w / 1024

/-- A FILL of one line of a written segment sends it to its channel, and is at its end (R353). -/
theorem runPiece_fill {m : MapEntry} {errs : List LineErr} (h : AtFillLine d.words x)
    (hspot : spotOf s.blk d x false (dLine d.words) = .at_ m.pseg (dLine d.words % 1024)) (hw : isWritten s.blk m.pseg = true)
    {u : Block} (hu : submit (segChan m.pseg) [engAcc s.blk d false (.engWrite d.id i) m.pseg (dLine d.words % 1024)
      (encodeP false (fillLine d.words)) 0] none none (postPiece d.id i 3 [] s.blk) = u)
    (hfills : u.chans[cid (segChan m.pseg)].fills.contains m.pseg = false) :
    runPiece d { s := s, pc := x, i := i, scat := d.scat, errs := errs }
      = { s := s.upd u, pc := wroteLine (segChan m.pseg) x, i := i, scat := d.scat, errs := errs, ans := x.log } := by
  obtain ⟨hfin, hat, hnofill, hpos, hop, hcount, hseg⟩ := h
  have hoffs := pieceOffs_one (b := s.blk) (.inl hop) hcount hseg
  have hfirst : firstWrite m.pseg (dClass d.words) s = s := if_pos hw
  have hstep : fillStep d { s := s, pc := x, i := i, scat := d.scat, errs := errs, ans := x.log } 0
      = { s := s.upd u, pc := { x with at_ := some (segChan m.pseg), fills := [] }, i := i, scat := d.scat, errs := errs
          ans := x.log } := by
    simp only [fillStep, engWrite, Nat.add_zero, hspot, hfirst, Bool.false_eq_true, if_false]
    rw [show BitVec.ofNat 512 _ = fillLine d.words from rfl]
    simp only [hu, hfills, hnofill, Bool.false_eq_true, if_false]
  have hsteps := runSteps_one (d := d) (r := { s := s, pc := x, i := i, scat := d.scat, errs := errs }) rfl hat hstep rfl
  simp only [runPiece, hfin, Bool.false_eq_true, if_false, hoffs, hpos, hop, OfNat.ofNat_ne_one, if_true]
  exact hsteps

/-- A line of a segment that nothing moves and no rebuild holds lies where the map says (R253, R362). -/
theorem spotOf_mapped {m : MapEntry} {line : Nat} (hmigs : b.srl.migs = []) (hheld : lookupHeld b (descHandle d.words) line = false)
    (hmap : mapEntry b (descHandle d.words) (line / 1024) = some m) (hquar : m.quarantined = false)
    (hon : b.chans[cid (segChan m.pseg)].st ≠ .offline) : spotOf b d x false line = .at_ m.pseg (line % 1024) := by
  simp only [spotOf, Bool.false_eq_true, if_false, hmap, hquar, atSource, hmigs, List.any_nil, Bool.and_false, hheld, Bool.false_and, hon]

/-- The line that stands alone in a write queue is what a read of it finds (R33). -/
theorem lineNow_alone {pla : Nat} (h : (t.chans[cid c].wq.map fun a => (a.pla, a.data)) = [(pla, v)]) (mem : List Host.Cell) :
    lineNow t mem c pla = v := by
  obtain ⟨q, hq, hpair⟩ := List.map_eq_singleton_iff.mp h
  obtain ⟨hpla, hdata⟩ := Prod.mk.inj hpair
  have hfound : queuedWrite t.chans[cid c] pla = some q := by simp [queuedWrite, hq, hpla, -Fin.getElem_fin]
  simp only [lineNow, hfound, hdata]

/-- A piece whose lines are done and whose writes have left the crossbar, behind no fill, is over (R364). -/
theorem pieceOver_wrote (hxbar : b.chans[cid c].xbar = []) : pieceOver b id i (wroteLine c x) = true := by
  simp [pieceOver, writeHeld, wroteLine, hxbar, -Fin.getElem_fin]

/-- The write of a piece goes to a channel where nothing waits, and its context hears of it (R291, R383). -/
theorem engWrite_alone (hrq : b.chans[cid c].rq = []) (hwq : b.chans[cid c].wq = [])
    (hflight : b.chans[cid c].inflight = []) (hxbar : b.chans[cid c].xbar = []) :
    WroteAlone c (plaOf g l) v b
      (submit c [engAcc b d false (.engWrite d.id i) g l v 0] none none (postPiece d.id i 3 [] b)) := by
  obtain ⟨engs, hpost, hevq⟩ := postPiece_eq d.id i 3 [] b
  have hwrote := submit_engWrite (c := c) (b := { b with engs }) (a := engAcc b d false (.engWrite d.id i) g l v 0) rfl
    hrq hwq hflight hxbar ((Nat.sub_self b.now).trans_le (Nat.zero_le _))
  rw [hpost]
  obtain ⟨hrest, hqueue, hx, hfills, hothers, hengs⟩ := hwrote
  refine ⟨?_, hqueue, hx, hfills, hothers, fun f => (hengs f).trans ?_⟩
  · rw [hrest]
  · have hsame := congrArg Eng.queue (hevq f)
    exact hsame

/-- A piece whose last line has gone to its channel ends at once (R364). -/
theorem pieceDone_wrote {errs : List LineErr} {u : Block} {pla : Nat} (h : PieceRuns id i d x s)
    (hqueue : s.blk.engs[eid x.eng].queue = []) (hwait : waitingPiece s.blk x.eng = none)
    (hon : s.blk.chans[cid (segChan x.pseg)].st ≠ .offline) (hxbar : s.blk.chans[cid c].xbar = [])
    (hwrote : WroteAlone c pla v s.blk u)
    (hadv : advancePiece id i errs s
      = s.upd (modDesc id (fun e => { e with scat := d.scat, pieces := e.pieces.set i (wroteLine c x) }) u)) :
    ∃ (n : Nat) (t : Block), pieceDone id i errs s = s.upd t
      ∧ descOf t id = some { d with pieces := d.pieces.set i (endedAs x.status n (wroteLine c x)) }
      ∧ (∀ k : Fin 6, t.engs[eid x.eng].ctx[k].work ≠ .piece id i) ∧ t.ports = s.blk.ports
      ∧ lineNow t s.mem c pla = v ∧ ∀ f, f ≠ cid c → t.chans[f] = s.blk.chans[f] := by
  have hx := h.piece
  have hnames : Names u id d := h.names.congr (by rw [hwrote.rest])
  set w := modDesc id (fun e => { e with scat := d.scat, pieces := e.pieces.set i (wroteLine c x) }) u with hw
  have hwnames : Names w id { d with pieces := d.pieces.set i (wroteLine c x) } :=
    hnames.modDesc (f := fun e => { e with scat := d.scat, pieces := e.pieces.set i (wroteLine c x) }) fun _ => rfl
  have hlt : i < d.pieces.length := (List.getElem?_eq_some_iff.mp hx).1
  have hpiece : (d.pieces.set i (wroteLine c x))[i]? = some (wroteLine c x) := List.getElem?_set_self hlt
  have hwaitw : waitingPiece w x.eng = none := by
    refine waitingPiece_modDesc (fun e he hid y hy => ?_)
      (waitingPiece_subset (b := s.blk) (fun e he => by rwa [hwrote.rest] at he) hwait)
    obtain rfl := hnames.only e he hid
    refine (List.mem_or_eq_of_mem_set hy).imp_right fun heq => ?_
    rw [heq, show (wroteLine c x).st = .running from h.run]
    exact PcState.noConfusion
  have hended := finishPiece_ended (e := x.eng) (st := x.status) hwnames hpiece h.desc ((hwrote.queue _).trans hqueue) hwaitw
  have hover : pieceOver w id i (wroteLine c x) = true := pieceOver_wrote (hwrote.xbar.trans hxbar)
  have hdone := pieceDone_goes h hon hadv (pieceOf_some hwnames.found hpiece)
  rw [State.upd_blk, State.upd_upd, hover, if_pos rfl] at hdone
  have hports : w.ports = s.blk.ports := by rw [hw, hwrote.rest]; rfl
  have hchans : w.chans = u.chans := rfl
  clear_value w
  obtain ⟨hrest, hfound, hleft⟩ := hended
  rw [show (wroteLine c x).status = x.status from rfl, show (wroteLine c x).eng = x.eng from rfl] at hdone
  generalize finishPiece id i x.status x.eng w = t at *
  have htchans : t.chans = u.chans := by rw [hrest]; exact hchans
  have htports : t.ports = w.ports := by rw [hrest]
  refine ⟨w.ops.arrivals, t, hdone, ?_, hleft, htports.trans hports, ?_, fun f hf => ?_⟩
  · rw [hfound]
    simp only [List.set_set]
  · exact lineNow_alone (by rw [htchans]; exact hwrote.wq) s.mem
  · rw [htchans]
    exact hwrote.others f hf

end EngineWrite

end Sys2Proof.Machine
end

section
/-! SUPPORT. What entering the queues of a channel leaves alone: the descriptors, the handles, the forced commit and the table of
reactions. One lemma per operation, in the order of the model. -/

namespace Sys2Proof.Machine

open Sys2Proof

/-- The descriptors, the halts of their queues, the handles, the blocks that a forced commit still goes to, and the reactions of the
fault sources. -/
def steady (b : Block) : List Desc × SMap (Option Halt) × Hnd × List Nat × SMap (Option (Nat × Bool)) :=
  (b.ops.descs, b.ops.halts, b.hnd, b.regs.forced, b.sage.react)

theorem steady_iff {b t : Block} : steady t = steady b ↔ t.ops.descs = b.ops.descs ∧ t.ops.halts = b.ops.halts ∧ t.hnd = b.hnd
    ∧ t.regs.forced = b.regs.forced ∧ t.sage.react = b.sage.react := by
  simp only [steady, Prod.mk.injEq]

variable (b : Block)

/-! ### Records of ports and events -/

@[simp] theorem modPort_steady (p : PortId) (f : Port → Port) : steady (modPort p f b) = steady b := rfl
@[simp] theorem modChan_steady (c : ChanId) (f : Chan → Chan) : steady (modChan c f b) = steady b := rfl
@[simp] theorem modEng_steady (e : EngId) (f : Eng → Eng) : steady (modEng e f b) = steady b := rfl
@[simp] theorem ctrAdd_steady (a n : Nat) : steady (ctrAdd a n b) = steady b := rfl
@[simp] theorem rcSet_steady (a i : Nat) : steady (rcSet a i b) = steady b := rfl

@[simp] theorem emit_steady (mask : BitVec 16) (e : Ev) : steady (emit mask e b) = steady b := by
  unfold emit
  split
  · rfl
  · refine forAll_keep b steady _ fun p b => ?_
    split <;> rfl

@[simp] theorem sendCmpl_steady (p : PortId) (tag : Nat) (st : Status) (kind handle : Nat) :
    steady (sendCmpl p tag st kind handle b) = steady b := by
  unfold sendCmpl
  split <;> rfl

@[simp] theorem sendData_steady (p : PortId) (d : TxData) : steady (sendData p d b) = steady b := by
  unfold sendData
  split
  · rfl
  · split <;> rfl

@[simp] theorem releaseCred_steady (k : Option Cred) : steady (releaseCred k b) = steady b := by cases k <;> rfl

theorem checkFences_steady (p : PortId) : steady (checkFences p b) = steady b :=
  foldl_keep steady _ (fun _ _ => sendCmpl_steady _ _ _ _ _ _) _ _

@[simp] theorem recheckFences_steady : steady (recheckFences b) = steady b :=
  forAll_keep b steady _ fun p b => (checkFences_steady (haltFences p b) p).trans rfl

/-! ### Lines that a channel serves -/

@[simp] theorem modEntry_steady (h l : Nat) (f : MapEntry → MapEntry) : steady (modEntry h l f b) = steady b := by
  unfold modEntry
  split <;> rfl

@[simp] theorem poisonSum_steady (k : Nat) : steady (poisonSum k b) = steady b := by
  unfold poisonSum
  split
  · exact modEntry_steady _ _ _ _
  · rfl

@[simp] theorem noteLine_steady (a : Acc) : steady (noteLine a b) = steady b := by
  unfold noteLine
  split
  · exact poisonSum_steady _ _
  · rfl

@[simp] theorem serveLine_steady (c k pseg : Nat) (host : Option Nat) : steady (serveLine c k pseg host b) = steady b := by
  unfold serveLine
  dsimp only
  split
  · rfl
  · split
    · rw [modEntry_steady]
      rfl
    · rfl

@[simp] theorem countEngLine_steady (id i : Nat) : steady (countEngLine id i b) = steady b := by
  unfold countEngLine
  split <;> rfl

@[simp] theorem countServed_steady (c : Nat) (a : Acc) : steady (countServed c a b) = steady b := by
  unfold countServed
  split
  case h_7 =>
    split
    · rfl
    · exact serveLine_steady _ _ _ _ _
  case h_8 => rfl
  all_goals simp only [countEngLine_steady, serveLine_steady]

@[simp] theorem countMiss_steady (c k : Nat) (inGrant : Bool) : steady (countMiss c k inGrant b) = steady b := by
  unfold countMiss
  extract_lets a sat counted told i old
  have htold : steady told = steady b := by
    dsimp only [told]
    split
    · rfl
    · split
      · rw [emit_steady, rcSet_steady]; rfl
      · rfl
  clear_value told
  split
  · exact htold
  · exact htold

@[simp] theorem endLatency_steady (c k arr : Nat) (inGrant : Bool) : steady (endLatency c k arr inGrant b) = steady b := by
  unfold endLatency
  split
  · exact countMiss_steady _ _ _ _
  · rfl

@[simp] theorem deliverRead_steady (c : Nat) (p : PortId) (tag off : Nat) (a : Acc) (poison : Bool) (d : Line) :
    steady (deliverRead c p tag off a poison d b) = steady b := by
  unfold deliverRead
  dsimp only
  split
  · split
    · rw [endLatency_steady, modPort_steady, sendData_steady]
    · rw [modPort_steady, sendData_steady]
  · rw [endLatency_steady, modPort_steady, sendData_steady]

@[simp] theorem serveOwn_steady (c : Nat) (a : Acc) (v : Stored) : steady (serveOwn c a v b) = steady b := by
  unfold serveOwn
  rw [modChan_steady]
  split
  · exact endLatency_steady _ _ _ _ _
  · exact endLatency_steady _ _ _ _ _
  · rfl

@[simp] theorem serveQueued_steady (c : Nat) (a : Acc) (v : Stored) : steady (serveQueued c a v b) = steady b := by
  unfold serveQueued
  dsimp only
  split
  · rw [deliverRead_steady]
    split <;> simp only [ctrAdd_steady, modChan_steady, countServed_steady]
  · rw [serveOwn_steady, modChan_steady, countServed_steady]

/-! ### Events of contexts -/

@[simp] theorem postCtx_steady (e k ev : Nat) (line : List Byte) : steady (postCtx e k ev line b) = steady b :=
  postCtx_keep b steady (fun b i g => modEng_steady b i g) e k ev line

@[simp] theorem postPiece_steady (id i ev : Nat) (line : List Byte) : steady (postPiece id i ev line b) = steady b := by
  obtain ⟨engs, hpost, -⟩ := postPiece_eq id i ev line b
  rw [hpost]
  rfl

@[simp] theorem engWritten_steady (c : Nat) (a : Acc) : steady (engWritten c a b) = steady b := by
  unfold engWritten
  split
  case h_1 => rw [postPiece_steady, endLatency_steady]
  case h_6 => rfl
  all_goals exact postCtx_steady _ _ _ _ _

/-! ### Accesses that enter -/

@[simp] theorem enterLine_steady (c : Nat) (a : Acc) : steady (enterLine c a b) = steady b := by
  unfold enterLine
  split
  · split
    · split
      · rfl
      · split
        · rfl
        · split
          · rfl
          · exact serveQueued_steady _ _ _ _
    · rfl
  · split
    · rfl
    · split
      · rw [engWritten_steady, noteLine_steady, countServed_steady, modChan_steady]
      · rw [engWritten_steady, modChan_steady]

@[simp] theorem drainAwait_steady (c g : Nat) : steady (drainAwait c g b) = steady b := by
  unfold drainAwait
  split
  · rfl
  · refine (foldl_keep steady _ (fun b w => ?_) _ _).trans (modChan_steady _ _ _)
    split
    · exact sendCmpl_steady _ _ _ _ _ _
    · rfl

@[simp] theorem writeDone_steady (c : Nat) (w : WDone) (st : Status) : steady (writeDone c w st b) = steady b := by
  unfold writeDone
  split
  · rw [drainAwait_steady, modChan_steady]
  · exact sendCmpl_steady _ _ _ _ _ _

@[simp] theorem awaitFill_steady (c : Nat) (g : XAcc) : steady (awaitFill c g b) = steady b := by
  unfold awaitFill
  split
  · rfl
  · split
    · split <;> rfl
    · rfl

@[simp] theorem grantLines_steady (c : Nat) (ls : List Acc) : steady (grantLines c ls b).2 = steady b := by
  unfold grantLines
  split
  · rfl
  · split <;> rfl

@[simp] theorem enterAll_steady (c : Nat) (g : XAcc) : steady (enterAll c g b) = steady b := by
  unfold enterAll
  extract_lets r ls entered
  have hentered : steady entered = steady b := by
    refine (foldl_keep steady _ (fun b a => enterLine_steady b c a) _ _).trans ?_
    rw [grantLines_steady, awaitFill_steady, releaseCred_steady]
  clear_value entered
  split
  · rw [writeEntered, writeDone_steady, endLatency_steady, hentered]
  · exact hentered

@[simp] theorem letInN_steady (c n : Nat) : steady (letInN c n b) = steady b := by
  induction n generalizing b with
  | zero => rfl
  | succ n ih =>
    unfold letInN
    split
    · rfl
    · split
      · rw [ih, enterAll_steady, modChan_steady]
      · rfl

@[simp] theorem submit_steady (c : Nat) (g : List Acc) (done : Option WDone) (cred : Option Cred) :
    steady (submit c g done cred b) = steady b := by
  rw [submit, letIn, letInN_steady, modChan_steady]

@[simp] theorem poisonAt_steady (g l : Nat) (v : Stored) : steady (poisonAt g l v b) = steady b := by
  rw [poisonAt, poisonSum_steady, submit_steady]

@[simp] theorem noteError_steady (c a source : Nat) (d : Decoded) : steady (noteError c a source d b) = steady b := by
  cases d <;> rfl

/-! ### Faults that are recorded, and the ports and stages of the safe state -/

@[simp] theorem record_steady (src unit : Nat) (detail : Word) : steady (record src unit detail b).1 = steady b := by
  obtain ⟨⟨hrest, -⟩, hreact, -⟩ := record_quiet src unit detail b
  simp only [steady, hreact]
  rw [hrest]

@[simp] theorem detectPort_steady (p : PortId) : steady (detectPort p b) = steady b := by
  unfold detectPort
  dsimp only
  split <;> rfl

@[simp] theorem safePorts_steady : steady (safePorts b) = steady b := by
  refine forAll_keep b steady _ fun p b => ?_
  split
  · exact detectPort_steady b p
  · split <;> rfl

@[simp] theorem sendLastEvent_steady (nme : Bool) (e : Ev) (p : PortId) : steady (sendLastEvent nme e p b) = steady b := by
  unfold sendLastEvent
  split <;> rfl

@[simp] theorem cutBist_steady (f : Nat → Bool) : steady (cutBist f b) = steady b := by
  unfold cutBist
  split
  · split <;> rfl
  · rfl

@[simp] theorem safeStage_steady : steady (safeStage b) = steady b := by
  unfold safeStage
  split <;> rfl

@[simp] theorem stopBoot_steady : steady (stopBoot b) = steady b := by
  unfold stopBoot
  split <;> rfl

theorem portsDown_steady {before : Vector Port 16} {f : Nat → PortId → Block → Block}
    (hf : ∀ code p b, steady (f code p b) = steady b) : steady (portsDown before f b) = steady b := by
  refine forAll_keep b steady _ fun p b => ?_
  split
  · split
    · exact hf _ _ _
    · rfl
  · split
    · rfl
    · exact hf _ _ _

end Sys2Proof.Machine
end

section
/-! SUPPORT. A piece that has stopped stays where it is, whatever else goes on (R371): other pieces that start, and faults that take units
out of service. -/

namespace Sys2Proof.Machine

open Sys2Proof

variable {b t : Block} {id i h pos : Nat} {w : BitVec 512}

/-- A piece that has stopped at a place. -/
def StoppedAt (pos : Nat) (x : Piece) : Prop := x.st = .stopped ∧ x.pos = pos

/-- Descriptor `id`, with the words `w`, has stopped with its piece `i`; the queue of handle `h` has halted, and no forced commit waits. -/
structure Stopped (id i h pos : Nat) (w : BitVec 512) (b : Block) : Prop where
  found : ∃ d ∈ b.ops.descs, d.id = id
  all : ∀ d ∈ b.ops.descs, d.id = id → d.st = .stopped ∧ d.words = w ∧ ∃ x, d.pieces[i]? = some x ∧ StoppedAt pos x
  halted : (mfind b.ops.halts h).isSome = true
  calm : b.regs.forced = []

theorem Stopped.congr (k : Stopped id i h pos w b) (hdescs : t.ops.descs = b.ops.descs) (hhalts : t.ops.halts = b.ops.halts)
    (hforced : t.regs.forced = []) : Stopped id i h pos w t :=
  ⟨by rw [hdescs]; exact k.found, by rw [hdescs]; exact k.all, by rw [hhalts]; exact k.halted, hforced⟩

theorem Stopped.steady (k : Stopped id i h pos w b) (hsame : steady t = steady b) : Stopped id i h pos w t := by
  obtain ⟨hdescs, hhalts, -, hforced, -⟩ := steady_iff.mp hsame
  exact k.congr hdescs hhalts (hforced.trans k.calm)

theorem Stopped.quiet (k : Stopped id i h pos w b) (hquiet : quietly b t) : Stopped id i h pos w t := by
  obtain ⟨hrest, -⟩ := hquiet
  exact k.congr (by rw [hrest]) (by rw [hrest]) (by rw [hrest]; exact k.calm)

theorem Stopped.descOf (k : Stopped id i h pos w b) :
    ∃ d, descOf b id = some d ∧ d.st = .stopped ∧ d.words = w ∧ ∃ x, d.pieces[i]? = some x ∧ StoppedAt pos x := by
  obtain ⟨e, he, heid⟩ := k.found
  have hsome : (b.ops.descs.find? fun d => d.id == id).isSome := List.find?_isSome.mpr ⟨e, he, beq_iff_eq.mpr heid⟩
  obtain ⟨d, hd⟩ := Option.isSome_iff_exists.mp hsome
  exact ⟨d, hd, k.all d (descOf_mem hd) (descOf_id hd)⟩

/-- A change of descriptors that leaves their numbers, and what has stopped, as they are. -/
theorem Stopped.descs {f : Desc → Desc} (k : Stopped id i h pos w b) (hid : ∀ d, (f d).id = d.id)
    (hf : ∀ d, d.id = id → d.st = .stopped → d.words = w → (∃ x, d.pieces[i]? = some x ∧ StoppedAt pos x) →
      (f d).st = .stopped ∧ (f d).words = w ∧ ∃ x, (f d).pieces[i]? = some x ∧ StoppedAt pos x) :
    Stopped id i h pos w { b with ops := { b.ops with descs := b.ops.descs.map f } } := by
  obtain ⟨d, hd, hdid⟩ := k.found
  refine ⟨⟨f d, List.mem_map_of_mem hd, (hid d).trans hdid⟩, fun e he heid => ?_, k.halted, k.calm⟩
  obtain ⟨d', hd', rfl⟩ := List.mem_map.mp he
  have hid' : d'.id = id := (hid d').symm.trans heid
  obtain ⟨hst, hwords, hpiece⟩ := k.all d' hd' hid'
  exact hf d' hid' hst hwords hpiece

/-- Descriptors that are over leave; a stopped one is not. -/
theorem Stopped.filter (k : Stopped id i h pos w b) :
    Stopped id i h pos w { b with ops := { b.ops with descs := b.ops.descs.filter fun d => !d.over } } := by
  obtain ⟨d, hd, hdid⟩ := k.found
  obtain ⟨hst, -⟩ := k.all d hd hdid
  refine ⟨⟨d, List.mem_filter.mpr ⟨hd, ?_⟩, hdid⟩, fun e he => k.all e (List.mem_of_mem_filter he), k.halted, k.calm⟩
  simp [Desc.over, hst]

/-- Another piece changes. -/
theorem Stopped.modPiece (k : Stopped id i h pos w b) {n j : Nat} (f : Piece → Piece) (hne : n = id → j ≠ i) :
    Stopped id i h pos w (modPiece n j f b) := by
  refine k.descs (f := fun d => if d.id = n then { d with pieces := d.pieces.modify j f } else d) (fun d => ?_)
    fun d hid hst hwords hpiece => ?_
  · split <;> rfl
  · split
    next hn =>
      obtain ⟨x, hx, hat⟩ := hpiece
      refine ⟨hst, hwords, x, ?_, hat⟩
      have hj : j ≠ i := hne (hn.symm.trans hid)
      simp [hj, hx]
    · exact ⟨hst, hwords, hpiece⟩

/-! ### The safe state and isolation -/

theorem Stopped.readAgain (k : Stopped id i h pos w b) :
    Stopped id i h pos w { b with ops := { b.ops with descs := b.ops.descs.map readAgain } } := by
  refine k.descs (fun _ => rfl) fun d _ hst hwords hpiece => ⟨hst, hwords, ?_⟩
  obtain ⟨x, hx, hat⟩ := hpiece
  simp only [Machine.readAgain, List.getElem?_map, hx, Option.map_some, Option.some.injEq, exists_eq_left']
  split <;> exact hat

theorem Stopped.enterSafe (k : Stopped id i h pos w b) (src : Nat) (detail : Word) (byEsc self : Bool) :
    Stopped id i h pos w (enterSafe src detail byEsc self b) := by
  unfold Machine.enterSafe
  extract_lets e _ _ _ entered sent before down
  split
  · exact k
  · have hentered : Stopped id i h pos w entered := k.congr rfl rfl rfl
    have hsent : Machine.steady sent = Machine.steady entered :=
      forAll_keep entered Machine.steady _ fun p b => sendLastEvent_steady b true e p
    have hdown : Machine.steady down = Machine.steady (safePorts (cutBist (fun _ => true) sent)) :=
      portsDown_steady _ fun code p b => record_steady b _ _ _
    clear_value entered sent down
    have hheld : Stopped id i h pos w { down with engs := down.engs.map holdEngine } :=
      hentered.steady (by rw [show Machine.steady { down with engs := down.engs.map holdEngine } = Machine.steady down from rfl,
        hdown, safePorts_steady, cutBist_steady, hsent])
    refine Stopped.steady (b := allToSelfRefresh { down with engs := down.engs.map holdEngine }) ?_ ?_
    · exact hheld.readAgain.congr rfl rfl hheld.calm
    · rw [stopBoot_steady, safeStage_steady]

theorem Stopped.failPieces (k : Stopped id i h pos w b) (e : Nat) : Stopped id i h pos w (failPieces e b) := by
  refine Stopped.filter (b := { b with ops := { b.ops with descs := b.ops.descs.map fun d => { d with
    pieces := d.pieces.map fun x => if x.eng = e ∧ x.dispatched then { x with st := .ended, status := .badArg } else x } } }) ?_
  refine k.descs (fun _ => rfl) fun d _ hst hwords hpiece => ⟨hst, hwords, ?_⟩
  obtain ⟨x, hx, hstop, hpos⟩ := hpiece
  refine ⟨x, ?_, hstop, hpos⟩
  simp [hx, Piece.dispatched, hstop]

theorem Stopped.isolateEngine (k : Stopped id i h pos w b) (e : EngId) : Stopped id i h pos w (isolateEngine e b) :=
  (k.failPieces e.val).steady (modEng_steady _ _ _)

/-- A fault of a unit that is neither a port nor a channel, whatever its reaction is (R460, R465). -/
theorem Stopped.isolate (k : Stopped id i h pos w b) {unit : Nat} (hunit : 0x30 ≤ unit) (src : Nat) :
    Stopped id i h pos w (isolate src unit b) := by
  have htold : Stopped id i h pos w (isolated src unit b) := k.quiet (quietly_emit _ _ b)
  unfold Machine.isolate
  generalize isolated src unit b = c at htold
  dsimp only
  split
  · split
    · exact htold
    · rw [if_neg (by omega), if_neg (by omega)]
      split
      · exact (htold.isolateEngine _).quiet (quietly_emit _ _ _)
      · exact htold
  · exact htold

theorem Stopped.startTimers (k : Stopped id i h pos w b) (src : Nat) (second : Bool) (p : Prop) [Decidable p] :
    Stopped id i h pos w (if p then startTimer src second b else b) := by
  split
  · exact k.steady rfl
  · exact k

theorem Stopped.react (k : Stopped id i h pos w b) {unit : Nat} (hunit : 0x30 ≤ unit) (src : Nat) (detail : Word) (own : List OwnEv)
    (inj : Bool) : Stopped id i h pos w (react src unit detail own inj b) := by
  have hnote : quietly b (noteRef src b) := by
    unfold noteRef
    split
    · exact quietly_sage b _
    · exact quietly_refl b
  have hreported : Stopped id i h pos w (reportReact src detail own inj (noteRef src b)) :=
    (k.quiet hnote).quiet (quietly_reportReact _ _ _ _ _)
  unfold Machine.react
  extract_lets r reported isolated
  have hisolated : Stopped id i h pos w isolated := hreported.isolate hunit src
  split
  · exact k
  · split
    · exact hreported.startTimers _ _ _
    · split
      · exact hisolated.startTimers _ _ _
      · split
        · exact hisolated.enterSafe _ _ _ _
        · exact hreported

theorem Stopped.raise (k : Stopped id i h pos w b) {unit : Nat} (hunit : 0x30 ≤ unit) (src : Nat) (detail : Word) (own : List OwnEv) :
    Stopped id i h pos w (raise src unit detail own b) := by
  have hrec : Stopped id i h pos w (record src unit detail b).1 := k.steady (record_steady b src unit detail)
  unfold Machine.raise
  dsimp only
  generalize record src unit detail b = x at hrec
  obtain ⟨c, new⟩ := x
  cases new
  · dsimp only
    split
    · exact hrec.quiet (quietly_amendRaise _ _ _ _ _)
    · exact hrec
  · exact hrec.react hunit src detail own false

/-! ### An engine that starts other pieces -/

theorem le_ite {n x y : Nat} {p : Prop} [Decidable p] (hx : n ≤ x) (hy : n ≤ y) : n ≤ if p then x else y := by
  split
  · exact hx
  · exact hy

/-- The blocks above those of ports and channels are of units that are neither (R455). -/
theorem parityUnit_ge {a : Nat} (ha : 0x60000 ≤ baseOf a) : 0x30 ≤ parityUnit a := by
  have hport : ¬ (0x10000 ≤ baseOf a ∧ baseOf a < 0x20000) := by omega
  have hchan : ¬ (0x40000 ≤ baseOf a ∧ baseOf a < 0x60000) := by omega
  unfold parityUnit
  dsimp only
  rw [if_neg hport, if_neg hchan]
  refine le_ite (Nat.le_add_right _ _) ?_
  repeat refine le_ite (by decide) ?_
  decide

/-- A parity fault of a register above those of the ports and channels (R57). -/
theorem Stopped.parityFault (k : Stopped id i h pos w b) {a : Nat} (ha : 0x60000 ≤ baseOf a) :
    Stopped id i h pos w (parityFault a b) := by
  unfold Machine.parityFault
  split
  · unfold selfFault
    split
    · exact k
    · exact (k.steady (t := { b with sage := { b.sage with selfFault := true } }) rfl).raise (by decide) _ _ _
  · exact k.raise (parityUnit_ge ha) _ _ _

theorem Stopped.commitPlain (k : Stopped id i h pos w b) {base : Nat} (hbase : 0x60000 ≤ base) :
    Stopped id i h pos w (commitPlain base b) := by
  have htaken : Stopped id i h pos w (takePend base b).2 := by
    refine List.foldlRecOn (motive := Stopped id i h pos w) _ _ (k.congr rfl rfl k.calm) fun c hc v hv => ?_
    have hv' : baseOf v.addr = base := by
      obtain ⟨-, heq⟩ := List.mem_filter.mp hv
      simpa using heq
    split
    · exact hc
    · exact hc.parityFault (by rw [hv']; exact hbase)
  exact List.foldlRecOn (motive := Stopped id i h pos w) _ _ htaken fun c hc v _ => hc.congr rfl rfl hc.calm

theorem Stopped.instanceStarts (k : Stopped id i h pos w b) (e : Nat) : Stopped id i h pos w (instanceStarts e b) := by
  have hcommit : Stopped id i h pos w (Machine.commitPlain (engBase e) b) := k.commitPlain (Nat.le_add_right _ _)
  unfold Machine.instanceStarts
  dsimp only
  split
  · exact k
  · split
    · exact hcommit.steady (modEng_steady _ _ _)
    · exact hcommit

theorem bestBy_mem {α : Type} {better : α → α → Bool} {l : List α} {a : α} (ha : bestBy better l = some a) : a ∈ l := by
  cases l with
  | nil => cases ha
  | cons x l =>
    obtain rfl := Option.some.inj ha
    refine List.foldlRecOn (motive := fun a => a ∈ x :: l) _ _ List.mem_cons_self fun a ha y hy => ?_
    split
    · exact List.mem_cons_of_mem _ hy
    · exact ha

/-- The piece that waits is not one that has stopped. -/
theorem Stopped.waiting {e : Nat} {q : Nat × Nat} (k : Stopped id i h pos w b) (hq : waitingPiece b e = some q) :
    q.1 = id → q.2 ≠ i := by
  rintro hid rfl
  obtain ⟨v, hv, rfl⟩ := Option.map_eq_some_iff.mp hq
  have hmem := bestBy_mem hv
  obtain ⟨d, hd, hin⟩ := List.mem_flatMap.mp hmem
  obtain ⟨x, hx, rfl⟩ := List.mem_map.mp hin
  obtain ⟨hzip, hwaits⟩ := List.mem_filter.mp hx
  obtain ⟨-, -, y, hy, hstop, -⟩ := k.all d hd hid
  have hsame : d.pieces[x.2]? = some x.1 := List.mk_mem_zipIdx_iff_getElem?.mp hzip
  obtain rfl : x.1 = y := Option.some.inj (hsame.symm.trans hy)
  simp [hstop] at hwaits

theorem Stopped.refillQueue (k : Stopped id i h pos w b) (e n : Nat) : Stopped id i h pos w (refillQueue e n b) := by
  induction n generalizing b with
  | zero => exact k
  | succ n ih =>
    unfold Machine.refillQueue
    split
    · exact k
    · split
      · exact k
      next q hq => exact ih ((k.modPiece _ (k.waiting hq)).steady (modEng_steady _ _ _))

theorem Stopped.next {x : Eng} {q : Nat × Nat} (k : Stopped id i h pos w b) (hq : nextPiece b x = some q) : q.1 ≠ id := by
  rintro rfl
  have hgo := List.find?_some hq
  split at hgo
  next d hd =>
    obtain ⟨hst, -⟩ := k.all d (descOf_mem hd) (descOf_id hd)
    simp [hst] at hgo
  · cases hgo

theorem Stopped.startPieces (k : Stopped id i h pos w b) (e n : Nat) : Stopped id i h pos w (startPieces e n b) := by
  induction n generalizing b with
  | zero => exact k
  | succ n ih =>
    unfold Machine.startPieces
    dsimp only
    split
    · exact k
    · split
      next q _ hq =>
        refine ih (Stopped.instanceStarts (Stopped.refillQueue (Stopped.modPiece ?_ _ fun hid => absurd hid (k.next hq)) _ _) _)
        exact k.steady (modEng_steady _ _ _)
      · exact k

theorem Stopped.kickEngine (k : Stopped id i h pos w b) (e : Nat) : Stopped id i h pos w (kickEngine e b) :=
  (k.refillQueue e 64).startPieces e 4

end Sys2Proof.Machine
end

section
/-! SUPPORT. What the read of an engine leads to (R328, R345, R354): a clean line goes to its piece; an uncorrectable one stops it. -/

namespace Sys2Proof.Machine

open Sys2Proof

variable {b t : Block} {s : State} {c : ChanId} {id i : Nat} {d : Desc} {x : Piece} {a : Acc} {rest : List Acc} {err v : Stored}
  {second : Bool} {line try_ : Nat}

/-! ### The read returns -/

/-- The block as an engine takes the line `v` of the oldest read in flight. -/
def readTaken (c : ChanId) (a : Acc) (rest : List Acc) (v : Stored) (b : Block) : Block :=
  endLatency c.val a.cls a.arr a.inGrant (modChan c (readOver rest v) b)

theorem readTaken_chans (b : Block) : (readTaken c a rest v b).chans = (modChan c (readOver rest v) b).chans :=
  (dataKept_endLatency c.val a.cls a.arr a.inGrant _).1

@[simp] theorem readTaken_steady (b : Block) : steady (readTaken c a rest v b) = steady b := by
  rw [readTaken, endLatency_steady, modChan_steady]

/-- In time, the end of a latency counts nothing (R269). -/
theorem readTaken_inTime (htime : b.now - a.arr ≤ target b a.cls) : readTaken c a rest v b = modChan c (readOver rest v) b :=
  if_neg (Nat.not_lt.mpr htime)

/-- A line that DRAM returns for an engine is what the engine takes. -/
theorem returnRow_engRead (hv : storedAt s.blk s.mem c.val a.pla ^^^ a.err ^^^ err = v)
    (hflight : s.blk.chans[c].inflight = a :: rest) (hsrc : a.src = .engRead id i try_ second line)
    (hxbar : s.blk.chans[c].xbar = []) (hserved : s.blk.chans[c].served = []) :
    returnRow c.val err s = readTook c.val a id i try_ second line v (s.upd (readTaken c a rest v s.blk)) := by
  have hstored : storedAt (modChan c (fun x => { x with inflight := rest }) s.blk) s.mem c.val a.pla
      = storedAt s.blk s.mem c.val a.pla := by
    have h := storedAt_modChan (c := c.val) (b := s.blk) (f := fun x => { x with inflight := rest }) (fun _ => ⟨rfl, rfl, rfl⟩)
      s.mem a.pla
    simpa only [cid_val] using h
  have hover : modChan c (fun x => { x with rdFifo := through 16 v x.rdFifo }) (modChan c (fun x => { x with inflight := rest }) s.blk)
      = modChan c (readOver rest v) s.blk := modChan_modChan ..
  have hchan : (readTaken c a rest v s.blk).chans[c] = readOver rest v s.blk.chans[c] := by
    rw [readTaken_chans, modChan_same]
  have hserve : serveOwn c.val a v (modChan c (readOver rest v) s.blk) = modChan c (servedTo a v) (readTaken c a rest v s.blk) := by
    simp only [serveOwn, hsrc, cid_val]
    rfl
  have hread : readReturn c.val err s = s.upd (modChan c (servedTo a v) (readTaken c a rest v s.blk)) := by
    simp only [readReturn, cid_val, hflight, hsrc, hstored, hv, hover, hserve]
    rw [letIn_none (by simp only [cid_val, modChan_same, servedTo, hchan]; exact hxbar)]
  generalize readTaken c a rest v s.blk = u at *
  have hnone : u.chans[c].served = [] := by rw [hchan]; exact hserved
  have hwaits : (modChan c (servedTo a v) u).chans[c].served = [(a, v)] := by
    rw [modChan_same, servedTo, hnone]
    rfl
  have hclear : modChan c (fun x => { x with served := [] }) (modChan c (servedTo a v) u) = u := by
    rw [modChan_modChan]
    exact modChan_fixed (noneServed_servedTo hnone)
  rw [returnRow, hread]
  simp only [takeServed, State.upd_blk, cid_val, hwaits, hclear, List.foldl_cons, List.foldl_nil, takeOne, hsrc]
  rfl

/-- Piece `i` of descriptor `id` waits for the line that the oldest read in flight of channel `c` brings, and nothing else waits there. -/
structure Awaits (c : ChanId) (id i : Nat) (d : Desc) (x : Piece) (a : Acc) (rest : List Acc) (s : State) : Prop where
  names : Names s.blk id d
  piece : d.pieces[i]? = some x
  asked : x.asked = true
  flight : s.blk.chans[c].inflight = a :: rest
  src : ∃ second line, a.src = .engRead id i x.try_ second line
  xbar : s.blk.chans[c].xbar = []
  served : s.blk.chans[c].served = []
  forced : s.blk.regs.forced = []

/-! ### An uncorrectable line -/

theorem endDrained_none {h : Nat} (hlive : ∀ y, handleOf b h = some y → y.st ≠ .draining) : endDrained h b = b := by
  unfold endDrained
  split
  next y hy => exact if_neg (hlive y hy)
  · rfl

/-- From `b` to `t` the queue of handle `h` has halted; descriptors, handles and a forced commit stay. -/
structure QueueHalted (h : Nat) (b t : Block) : Prop where
  descs : t.ops.descs = b.ops.descs
  hnd : t.hnd = b.hnd
  forced : t.regs.forced = b.regs.forced
  halted : (mfind t.ops.halts h).isSome = true

theorem haltQueue_halted {h : Nat} (cause tag : Nat) (hlive : ∀ y, handleOf b h = some y → y.st ≠ .draining) :
    QueueHalted h b (haltQueue h cause tag b) := by
  unfold haltQueue
  extract_lets t' new _ put
  obtain ⟨hdescs, hhalts, hhnd, hforced, -⟩ := steady_iff.mp (recheckFences_steady put)
  generalize recheckFences put = t at *
  rw [endDrained_none (by rw [handleOf, hhnd]; exact hlive)]
  refine ⟨hdescs, hhnd, hforced, ?_⟩
  rw [hhalts, show put.ops.halts = mput b.ops.halts h (some new) from rfl, mfind_mput_same]
  rfl

/-- What an uncorrectable line that a piece meets leads to, where its fault takes nothing out of service and its handle does not
drain (R345, R361). -/
theorem engUe_halted {g l : Nat} (hreact : reactionOf b (fs .dataUeDemand) ≤ 2)
    (hlive : ∀ y, handleOf b (descHandle d.words) = some y → y.st ≠ .draining) :
    QueueHalted (descHandle d.words) b (engUe d second line g l v b) := by
  unfold engUe
  extract_lets c own h poisoned noted told stops e st ev evs counted raised sent
  have hnoted : steady counted = steady b := by
    have hn : steady noted = steady b := by rw [noteError_steady, ctrAdd_steady, ctrAdd_steady, poisonAt_steady]
    dsimp only [counted]
    split
    · rw [rcSet_steady, hn]
    · exact hn
  obtain ⟨kdescs, -, khnd, kforced, kreact⟩ := steady_iff.mp hnoted
  have hraised : quietly counted raised := by
    refine raise_quiet _ _ _ ?_
    rw [reactionOf_congr kreact]
    exact hreact
  have hsent : quietly counted sent := by
    dsimp only [sent]
    split
    · exact quietly_trans hraised (quietly_emit _ _ _)
    · exact hraised
  clear_value sent
  have hsame : sent.ops.descs = b.ops.descs ∧ sent.hnd = b.hnd ∧ sent.regs.forced = b.regs.forced := by
    rw [hsent.1]
    exact ⟨kdescs, khnd, kforced⟩
  obtain ⟨hdescs, hhnd, hforced⟩ := hsame
  obtain ⟨ldescs, lhnd, lforced, lhalted⟩ := haltQueue_halted (b := sent) 1 (if stops = true then d.tag % 1024 else 0x3FF)
    (h := own) (by rw [handleOf, hhnd]; exact hlive)
  exact ⟨ldescs.trans hdescs, lhnd.trans hhnd, lforced.trans hforced, lhalted⟩

/-- A piece that met such a line stops at it, with its descriptor (R371, R372). -/
theorem stopAt_stopped {h : Nat} (hd : Names b id d) (hx : d.pieces[i]? = some x) (hrun : d.st = .running)
    (hhalt : (mfind b.ops.halts h).isSome = true) (hcalm : b.regs.forced = [])
    (hlive : ∀ y, handleOf b (descHandle d.words) = some y → y.st ≠ .draining) :
    Stopped id i h x.pos d.words (stopAt d i x b) := by
  have hid := descOf_id hd.found
  unfold stopAt
  extract_lets y stopped
  have hstop : stopped = stopPiece d.id i y (leaveCtx x.eng d.id i b) := endDrained_none hlive
  have hnames : Names (leaveCtx x.eng d.id i b) id d := hd.congr rfl
  refine (Stopped.filter (b := stopped) ?_).kickEngine x.eng
  rw [hstop, stopPiece, hid]
  set f : Desc → Desc := fun e =>
    { e with st := if e.st == .running || e.st == .stopped then .stopped else e.st
             pieces := e.pieces.set i { y with st := if e.st == .running || e.st == .stopped then .stopped else .ended } } with hf
  have hstopped := hnames.modDesc (f := f) fun _ => rfl
  have hlt : i < d.pieces.length := (List.getElem?_eq_some_iff.mp hx).1
  refine ⟨⟨f d, descOf_mem hstopped.found, hid⟩, fun e he heid => ?_, hhalt, hcalm⟩
  obtain rfl := hstopped.only e he heid
  refine ⟨by simp [hf, hrun], rfl, { y with st := .stopped }, ?_, rfl, rfl⟩
  simp [hf, hrun, hlt]

/-- The return of a line that cannot be corrected stops the piece that waits for it (R361, R371). -/
theorem dramReadReturn_uncorrectable (h : Awaits c id i d x a rest s) (hrun : d.st = .running)
    (hue : (decodeLine a.double (storedAt s.blk s.mem c.val a.pla ^^^ a.err ^^^ err)).1 = .uncorrectable)
    (hreact : reactionOf s.blk (fs .dataUeDemand) ≤ 2)
    (hlive : ∀ y, handleOf s.blk (descHandle d.words) = some y → y.st ≠ .draining) :
    ∃ t, exec (.dramReadReturn c err) s = .next (s.upd t) ∧ Stopped id i (descHandle d.words) x.pos d.words t := by
  obtain ⟨hd, hx, hasked, hflight, ⟨second, line, hsrc⟩, hxbar, hserved, hforced⟩ := h
  have hreturn := returnRow_engRead (err := err) rfl hflight hsrc hxbar hserved
  generalize storedAt s.blk s.mem c.val a.pla ^^^ a.err ^^^ err = v at hue hreturn
  obtain ⟨hdescs, -, hhnd, hkept, hreacts⟩ := steady_iff.mp (readTaken_steady (c := c) (a := a) (rest := rest) (v := v) s.blk)
  generalize readTaken c a rest v s.blk = u at *
  have hu : Names u id d := hd.congr hdescs
  have hhalted := engUe_halted (b := u) (d := d) (second := second) (line := line) (g := a.pseg) (l := plaLine a.pla) (v := v)
    (by rw [reactionOf_congr hreacts]; exact hreact) (by rw [handleOf, hhnd]; exact hlive)
  have htook : readTook c.val a id i x.try_ second line v (s.upd u)
      = s.upd (stopAt d i x (engUe d second line a.pseg (plaLine a.pla) v u)) := by
    have hasks : askerOf (engUe d second line a.pseg (plaLine a.pla) v u) id i x.try_ = some (d, x) := by
      simp [askerOf, (hu.congr hhalted.descs).found, hx, hasked]
    simp only [readTook, hue, State.upd_blk, hu.found, hasks, State.upd_upd]
  generalize engUe d second line a.pseg (plaLine a.pla) v u = w at *
  have hstopped := stopAt_stopped (hu.congr hhalted.descs) hx hrun hhalted.halted (hhalted.forced.trans (hkept.trans hforced))
    (by rw [handleOf, hhalted.hnd, hhnd]; exact hlive)
  refine ⟨stopAt d i x w, ?_, hstopped⟩
  calc exec (.dramReadReturn c err) s
    _ = .next (goOn (returnRow c.val err s)) := rfl
    _ = .next (goOn (s.upd (stopAt d i x w))) := by rw [hreturn, htook]
    _ = .next (s.upd (stopAt d i x w)) := congrArg (fun b => Host.Outcome.next (s.upd b)) (forcedGo_none hstopped.calm)

/-! ### A clean line -/

/-- A piece that has been told a line, and waits for nothing more. -/
def told (v : Line) (x : Piece) : Piece := { x with log := x.log ++ [.line false v], asked := false }

/-- A piece hears of the line that it waits for (R383). -/
theorem answerPiece_told (hd : Names b id d) (hx : d.pieces[i]? = some x) (hasked : x.asked = true) (v : Line) :
    ∃ engs, answerPiece id i x.try_ (.line false v) b = { modPiece id i (told v) b with engs }
      ∧ ∀ e : EngId, { engs[e] with evq := b.engs[e].evq } = b.engs[e] := by
  obtain ⟨engs, hpost, hevq⟩ := postPiece_eq id i 1 (Ans.line false v).bytes (modPiece id i (told v) b)
  refine ⟨engs, ?_, hevq⟩
  simp only [answerPiece, pieceOf_some hd.found hx, hasked, and_self, if_true]
  exact hpost

/-- The CRC of a first line. -/
def crcOf (v : Line) : BitVec 64 := (crc32cJoin 0 (crc32c (bytesOf 64 v)) 64).zeroExtend 64

/-- A CRC32C of one line that stands at it (R353, R362). -/
structure AtCrcLine (w : BitVec 512) (x : Piece) : Prop where
  fin : x.fin = false
  noWrite : x.at_ = none
  log : x.log = []
  pos : x.pos = 0
  value : x.value = 0
  op : dOp w = 9
  count : dCount w = 1
  seg : x.lseg = dLine w / 1024

/-- A CRC32C of one line at its end. -/
def crcDone (v : Line) (x : Piece) : Piece := { told v x with value := crcOf v, pos := 1, log := [], fin := true }

/-- A CRC32C of one line takes the line that it is told, and is at its end (R353, R359). -/
theorem runPiece_crc (h : AtCrcLine d.words x) (w : Line) :
    runPiece d { s := s, pc := told w x, i := i, scat := d.scat } = { s := s, pc := crcDone w x, i := i, scat := d.scat } := by
  obtain ⟨hfin, hat, hlog, hpos, hvalue, hop, hcount, hseg⟩ := h
  have hoffs : pieceOffs s.blk d.words (told w x) = (0, 1) := pieceOffs_one (.inr hop) hcount hseg
  have hstep : crcStep d { s := s, pc := told w x, i := i, scat := d.scat, ans := (told w x).log } 0
      = { s := s, pc := { told w x with value := crcOf w }, i := i, scat := d.scat } := by
    simp only [crcStep, engRead, told, hlog, List.nil_append, useAns, Work1.on, hvalue, Bool.false_eq_true, if_false]
    rfl
  have hsteps := runSteps_one (d := d) (r := { s := s, pc := told w x, i := i, scat := d.scat }) rfl hat hstep rfl
  have hfin' : (told w x).fin = false := hfin
  have hpos' : (told w x).pos = 0 := hpos
  simp only [runPiece, hfin', Bool.false_eq_true, if_false, hoffs, hpos', hop]
  exact hsteps

/-- The return of a clean line takes a CRC32C of one line to its end (R328, R353). -/
theorem dramReadReturn_crc (h : Awaits c id i d x a rest s) (hdrun : d.st = .running) (hrun : x.st = .running) (hcrc : AtCrcLine d.words x)
    (hv : storedAt s.blk s.mem c.val a.pla ^^^ a.err ^^^ err = v) (hclean : (decodeLine a.double v).1 = .clean)
    (heng : s.blk.engs[eid x.eng].st = .run) (hon : s.blk.chans[cid (segChan x.pseg)].st ≠ .offline)
    (htime : s.blk.now - a.arr ≤ target s.blk a.cls) :
    ∃ t, exec (.dramReadReturn c err) s = .next (s.upd t) ∧ t.ports = s.blk.ports
      ∧ descOf t id = some { d with pieces := d.pieces.set i (crcDone (lineOf v) x) } := by
  obtain ⟨hd, hx, hasked, hflight, ⟨second, line, hsrc⟩, hxbar, hserved, hforced⟩ := h
  have hreturn := returnRow_engRead hv hflight hsrc hxbar hserved
  rw [readTaken_inTime htime] at hreturn
  have hst (k : ChanId) : (modChan c (readOver rest v) s.blk).chans[k].st = s.blk.chans[k].st := by
    by_cases hk : k = c
    · subst hk
      rw [modChan_same]; rfl
    · rw [modChan_other _ _ hk]
  have hu : Names (modChan c (readOver rest v) s.blk) id d := hd.congr rfl
  obtain ⟨engs, hanswer, hevq⟩ := answerPiece_told hu hx hasked (lineOf v)
  have hengs : engs[eid x.eng].st = .run := by
    have hsame := congrArg Eng.st (hevq (eid x.eng))
    exact hsame.trans heng
  set w : Block := { modPiece id i (told (lineOf v)) (modChan c (readOver rest v) s.blk) with engs } with hw
  set d' : Desc := { d with pieces := d.pieces.set i (told (lineOf v) x) } with hd'
  have hwd : Names w id d' := by
    have hmod := hu.modDesc (f := fun d => { d with pieces := d.pieces.modify i (told (lineOf v)) }) fun _ => rfl
    rw [modify_set _ hx] at hmod
    exact hmod.congr rfl
  have hlt : i < d.pieces.length := (List.getElem?_eq_some_iff.mp hx).1
  have hpiece : d'.pieces[i]? = some (told (lineOf v) x) := List.getElem?_set_self hlt
  have hcrc' : AtCrcLine d'.words x := hcrc
  have hdrun' : d'.st = .running := hdrun
  have hset : { d' with scat := d'.scat, pieces := d'.pieces.set i (crcDone (lineOf v) x) }
      = { d with pieces := d.pieces.set i (crcDone (lineOf v) x) } := by
    simp only [hd', List.set_set]
  have hwst : w.chans[cid (segChan x.pseg)].st ≠ .offline := fun hoff => hon ((hst _).symm.trans hoff)
  have hwengs : w.engs[eid x.eng].st = .run := hengs
  have hports : w.ports = s.blk.ports := rfl
  have hcalm : w.regs.forced = [] := hforced
  clear_value w d'
  have hgo := advancePiece_runs (s := s.upd w) (errs := []) ⟨hwd, hpiece, hdrun', hrun, hwengs⟩ hwst (runPiece_crc hcrc' (lineOf v))
  have htook : readTook c.val a id i x.try_ second line v (s.upd (modChan c (readOver rest v) s.blk))
      = advancePiece id i [] (s.upd w) := by
    simp only [readTook, hclean, State.upd_blk, hanswer, State.upd_upd]
  have hfound := (hwd.modDesc (f := fun e => { e with
    scat := d'.scat, pieces := e.pieces.set i (crcDone (lineOf v) x) }) fun _ => rfl).found
  rw [State.upd_blk, State.upd_upd] at hgo
  have hdone : returnRow c.val err s = s.upd (modDesc id (fun e => { e with
      scat := d'.scat, pieces := e.pieces.set i (crcDone (lineOf v) x) }) w) := by
    rw [hreturn, htook]
    exact hgo
  generalize hz : modDesc id _ w = z at hfound hdone
  refine ⟨z, ?_, by rw [← hz]; exact hports, hfound.trans (congrArg some hset)⟩
  calc exec (.dramReadReturn c err) s
    _ = .next (goOn (returnRow c.val err s)) := rfl
    _ = .next (goOn (s.upd z)) := by rw [hdone]
    _ = .next (s.upd z) := congrArg (fun b => Host.Outcome.next (s.upd b)) (forcedGo_none (by rw [← hz]; exact hcalm))

end Sys2Proof.Machine
end

section

open Sys2Proof Sys2Proof.Machine

/-- Settles O45: a piece ends where its engine has nothing else to start (`finishPiece_ended`); a FILL has its line in the write queue
(`pieceDone_wrote`); a line that cannot be corrected stops its piece, which stays stopped whatever its engine starts next
(`dramReadReturn_uncorrectable`), and a clean one takes a CRC32C to its end (`dramReadReturn_crc`). -/
theorem piecesEnd : Obligations.PiecesEnd := by
  intro id i d x s hdesc hx honly hdrun e ends
  have hnames : Names s.blk id d := ⟨hdesc, honly⟩
  have hended {t : Block} {y : Piece} {errs : List LineErr} (hst : y.st = .ended)
      (h : PieceEnded id i x.eng d y s.blk t) (hdone : pieceDone id i errs s = s.upd t) :
      ends errs y (s.upd t) ∧ t.chans = s.blk.chans ∧ t.srl = s.blk.srl := by
    obtain ⟨hrest, hfound, hleft⟩ := h
    have hkept : t.ports = s.blk.ports ∧ t.chans = s.blk.chans ∧ t.srl = s.blk.srl := by
      rw [hrest]
      exact ⟨rfl, rfl, rfl⟩
    exact ⟨⟨congrArg Host.Outcome.next hdone, ⟨d.scat, hfound⟩, hst, hleft, hkept.1⟩, hkept.2⟩
  refine ⟨fun hidle errs => congrArg Host.Outcome.next (pieceDone_stays hdesc hx hidle errs),
    fun hrun heng hqueue hwait => ?_, fun c a rest err second line hrun hasked hflight hsrc hxbar hserved hforced => ?_⟩
  · have hruns : PieceRuns id i d x s := ⟨hnames, hx, hdrun, hrun, heng⟩
    have hfinished (st : Status) := finishPiece_ended (st := st) hnames hx hdrun hqueue hwait
    have hstays {errs : List LineErr} (hon : s.blk.chans[cid (segChan x.pseg)].st ≠ .offline) (hfin : x.fin = true) :=
      pieceDone_goes hruns hon (advancePiece_fin hruns hon hfin errs) (pieceOf_some hdesc hx)
    refine ⟨fun hoff errs => ?offline, fun hon hfin => ⟨fun hend errs => ?ends, fun hmore errs => ?stays⟩, ?fill⟩
    case offline =>
      obtain ⟨hends, hchans, hsrl⟩ := hended rfl (hfinished .channelOffline) (pieceDone_offline hruns hoff errs)
      exact ⟨_, _, hends, rfl, rfl, hchans, hsrl⟩
    case ends =>
      obtain ⟨hends, hchans, hsrl⟩ := hended rfl (hfinished x.status) ((hstays (errs := errs) hon hfin).trans (if_pos hend))
      exact ⟨_, _, hends, rfl, rfl, rfl, rfl, hchans, hsrl⟩
    case stays => exact congrArg Host.Outcome.next ((hstays hon hfin).trans (if_neg (by rw [hmore]; exact Bool.false_ne_true)))
    case fill =>
      intro m hon hfin hat hfills hpos hok hmigs hheld hop hcount hseg hmap hquar hw c hcon hrq hwq hflight hxbar hnofill errs
      have hspot : spotOf s.blk d x false (dLine d.words) = .at_ m.pseg (dLine d.words % 1024) :=
        spotOf_mapped hmigs hheld (hseg ▸ hmap) hquar hcon
      have hwrote := engWrite_alone (b := s.blk) (d := d) (i := i) (g := m.pseg) (l := dLine d.words % 1024)
        (v := encodeP false (fillLine d.words)) hrq hwq hflight hxbar
      have hnone : (submit (segChan m.pseg) [engAcc s.blk d false (.engWrite d.id i) m.pseg (dLine d.words % 1024)
          (encodeP false (fillLine d.words)) 0] none none (postPiece d.id i 3 [] s.blk)).chans[cid (segChan m.pseg)].fills.contains
            m.pseg = false := by
        rw [hwrote.fills]
        simpa using hnofill
      have hadv := advancePiece_runs (errs := errs) hruns hon
        (runPiece_fill ⟨hfin, hat, hfills, hpos, hop, hcount, hseg⟩ hspot hw rfl hnone)
      obtain ⟨n, t, hdone, hfound, hleft, hports, hline, hothers⟩ := pieceDone_wrote hruns hqueue hwait hon hxbar hwrote hadv
      exact ⟨s.upd t, _, ⟨congrArg Host.Outcome.next hdone, ⟨d.scat, hfound⟩, rfl, hleft, hports⟩, hok, rfl, hline, hothers⟩
  · have hwaits : Awaits c id i d x a rest s := ⟨hnames, hx, hasked, hflight, ⟨second, line, hsrc⟩, hxbar, hserved, hforced⟩
    refine ⟨fun hue hreact hlive => ?uncorrectable,
      fun hclean heng hon hfin hat hlog hpos hvalue htime hop hcount hseg => ?crc⟩
    case uncorrectable =>
      obtain ⟨t, hexec, hstopped⟩ := dramReadReturn_uncorrectable hwaits hdrun hue hreact hlive
      obtain ⟨f, hfound, hst, hwords, y, hy, hstop, hpos⟩ := hstopped.descOf
      exact ⟨s.upd t, f, y, hexec, rfl, hfound, hst, hwords, hy, hstop, hpos, hstopped.halted⟩
    case crc =>
      obtain ⟨t, hexec, hports, hfound⟩ := dramReadReturn_crc hwaits hdrun hrun ⟨hfin, hat, hlog, hpos, hvalue, hop, hcount, hseg⟩
        rfl hclean heng hon htime
      have hlt : i < d.pieces.length := (List.getElem?_eq_some_iff.mp hx).1
      exact ⟨s.upd t, _, _, hexec, rfl, hfound, hdrun, rfl, List.getElem?_set_self hlt, rfl, rfl, rfl, hports⟩

end
